-- ==== Sys2Proof/Word.lean ====
section
/-! DEFINITION. The word and byte types of the node (R1, R2) and the sparse tables everything else is held in. -/
namespace Sys2Proof

/-- A register is 32 bits wide (R2). -/
abbrev Word := BitVec 32
/-- One byte of SRAM, of the nonvolatile array or of a frame. -/
abbrev Byte := BitVec 8

/-- Numbered items, held as the list of those that differ from the default `d`:
numbers strictly rising, no entry equal to the default. -/
abbrev Bank (α : Type) := List (Nat × α)

/-- The item numbered `i`. -/
def Bank.get {α : Type} (d : α) : List (Nat × α) → Nat → α
  | [], _ => d
  | (k, v) :: t, i => if k = i then v else Bank.get d t i

/-- Takes number `i` out of the list. -/
def Bank.drop {α : Type} : List (Nat × α) → Nat → List (Nat × α)
  | [], _ => []
  | (k, v) :: t, i => if k = i then Bank.drop t i else (k, v) :: Bank.drop t i

/-- Puts an item in its place in the rising order. -/
def Bank.put {α : Type} (i : Nat) (v : α) : List (Nat × α) → List (Nat × α)
  | [] => [(i, v)]
  | (k, w) :: t => if i < k then (i, v) :: (k, w) :: t else (k, w) :: Bank.put i v t

/-- Gives number `i` the value `v`; an item at its default is not listed. -/
def Bank.set {α : Type} [DecidableEq α] (d : α) (b : List (Nat × α)) (i : Nat) (v : α) : List (Nat × α) :=
  if v = d then Bank.drop b i else Bank.put i v (Bank.drop b i)

end Sys2Proof
end

