-- ==== Sys2Proof/Syntax.lean ====
section
/-! DEFINITION. The commands and events of the node: one constructor of `Instr` for each row of the table of
operations and events, and the operand types they carry. The table gives its rows no operands and no bits; the
operands are the model's (log entry 1): what a line's keys say, what a pin or a wire does, what a converter read. -/
namespace Sys2Proof.Machine

/-- The four command ports (Table 2-1), in the order in which they execute (R41). -/
inductive Port
  | host | service | bus | annex
deriving DecidableEq, Repr

/-- The objects of the line grammar, in the order of Table 2-2 (their positions are recorded by MR-CUT, Table 8-6). -/
inductive Obj
  | uc | lo | grid | trans | ap | ag | call | arc | bus | survey | gp | tw | disp | time | beat | dic | sys | node
deriving DecidableEq, Repr

/-- Who makes a register access: a command line (REG, PEEK, POKE) or the Annex core. Each has its own latches (R366). -/
inductive Rq
  | cmd | annex
deriving DecidableEq, Repr

/-- A value of a key as written (R33): an integer, a decimal `num / 10^scale` with 1 to 6 fraction digits, a hex
number with its count of digits, a list of words joined by + (one word is a list of one), or a quoted string
(the codes of its characters). A run of digits that may be read as a word too, such as a code of hex digits, is
given as the form its key takes. A value that matches no form of R33 is `words []`. -/
inductive Val
  | int (v : Int)
  | dec (num : Int) (scale : Nat)
  | hex (v : Nat) (digits : Nat)
  | words (l : List String)
  | quoted (chars : List Nat)
deriving DecidableEq, Repr

/-- The key=value items of a line, in the order written. -/
abbrev Keys := List (String × Val)

/-- A line that has passed steps 1 to 8 of R470 and has reached its execution: the port, the tag exactly as received
(empty for a typed line), the index items as written (`(a, b)` for a-b, `(a, a)` for a; none where the line has no
index) and its keys. -/
structure Line where
  port : Port
  tag : String
  idx : Option (List (Nat × Nat))
  keys : Keys
deriving DecidableEq, Repr

/-- A moment within the current beat, in quarter-nanoseconds after the beat's start: the moment at which an event
that is bound to no stage happens. -/
abbrev Moment := Nat

/-- An access to a register: its moment, and the bits that hardware has set in W1C fields, or counted in RC fields, in the same
core cycle by rows before it (R10). -/
structure Access where
  at_ : Moment
  keep : Word
deriving DecidableEq, Repr

/-- What a beat boundary finds: for each grid input the filtered transient samples of the beat that ends, 10^-6 V, and how many
operations a late Archive writer has begun; each of them completes (R60). -/
structure Boundary where
  hf : List (Nat × List Int)
  begun : Nat
deriving DecidableEq, Repr

/-- What a UART port finds in a character: its code, whether its first stop bit is high and its parity right, and, for
auto-baud, the time from the falling edge of its start bit to the next falling edge, in quarter-ns, with the code it
decodes to at half that interval per bit and a recessive stop bit (none where it does not decode so). -/
structure RxChar where
  code : Nat
  stopOk : Bool
  parityOk : Bool
  interval : Nat
  timed : Option Nat
deriving DecidableEq, Repr

/-- The label an IRIG-B frame carries, in UTC: year (none for codes B000 to B003), day of the year from 1, and time. -/
structure IrigLabel where
  year : Nat
  day : Nat
  hour : Nat
  minute : Nat
  second : Nat
deriving DecidableEq, Repr

/-- What stage S0 finds at the inputs. `conv`: the result each converter (Q0 to Q5, QX = 6) delivered for the beat
before, in 10^-6 of the stream's unit (V, mA, Ω, mV), or for a check conversion its deviation from the stored
calibration value in µV; a converter that delivered none is not listed. `excLow`: channels whose excitation fell below
90 % during an open-wire pulse. `high`: DI channels whose comparator is high. `cj`: the on-chip sensor, 10^-6 °C.
`vsys`, `hold`: VSYS and HOLD in mV as the node core reads them. `rails`: the panel rails in mV, in the order of Table 12-1.
`sda`, `scl`: the levels of the sensor bus lines. -/
structure S0In where
  conv : List (Nat × Int)
  excLow : List Nat
  high : List Nat
  cj : Int
  vsys : Nat
  hold : Nat
  rails : List Int
  sda : Bool
  scl : Bool
deriving DecidableEq, Repr

/-- What the loop-output check converter delivers for the beat's position (R133): at position n the readback of LOn in
µA, its pin in mV and its stage temperature in 10^-3 °C; at position 8 the self-check's deviation from the stored
calibration value, in 10^-6 of full scale. -/
structure LoIn where
  rb : Int
  pin : Int
  temp : Int
  dev : Int
deriving DecidableEq, Repr

/-- A frame on an Allieno segment: format, identifier, generation (0 A, 1 B, 2 C), the native TRAIN and SEQ fields of a
Gen C frame (0 in the others), and its data bytes. -/
structure Frame where
  ext : Bool
  id : Nat
  gen : Nat
  train : Nat
  seq : Nat
  data : List (BitVec 8)
deriving DecidableEq, Repr

/-- How a sensor-bus transfer ends (Table 11-6). -/
inductive TwEnd
  | ok | nackAddr | nackData (k : Nat) | contention
deriving DecidableEq, Repr

end Sys2Proof.Machine

namespace Sys2Proof
open Machine

/-- The commands and events of the node, one constructor per row of the table of operations and events. -/
inductive Instr
  /-- R4. A write to a register that has no row of its own, applied field by field according to each field's access
    code. `a`: the address; `v`: the word written. -/
  | registerWrite (rq : Rq) (a : Nat) (v : Word) (c : Access)
  /-- R11. A read of an RC field returns the field and then clears it, for whichever requester reads first. `a`: the
    address. -/
  | readClearRead (rq : Rq) (a : Nat) (c : Access)
  /-- R22. Replies with the value of SYS.DEVID and the completion line. -/
  | getSysDevid (l : Line)
  /-- R22. Replies with the 64-bit factory unique ID and the completion line. -/
  | getSysUid (l : Line)
  /-- R22. Replies with the value of SYS.ROMVER and the completion line. -/
  | getSysRomver (l : Line)
  /-- R23. Replies with four NODE data lines (part, UID, station, state, Annex state and time source), then the
    completion line. -/
  | showNode (l : Line)
  /-- R16. A beat begins at its node-time instant; helpers that have not finished the previous beat abandon their
    work. A helper whose late work is still unpublished has overrun (R60). -/
  | beatStart (b : Boundary)
  /-- R17. Stage S0: inputs are latched, conversions and check conversions start, DI comparators are sampled, and
    output DACs and ramps are updated. `inp`: what the converters, comparators and sensors deliver. -/
  | stageS0 (inp : S0In)
  /-- R157. Stage S1: the grid samples of the preceding beat are folded in. `codes`: for each of the four sampling
    instants of the preceding beat, the codes of the eight grid inputs. -/
  | stageS1 (codes : List (List Int))
  /-- R162. Stage S2: phasors, frequency and ROCOF are updated, and due grid reports are published. `late`: the slots
    (Table 3-2) whose work is not finished by the stage's end (R59). -/
  | stageS2 (late : List Nat)
  /-- R18. Stage S3: universal-channel values are published together with their flags and beat stamps. `late`: the
    slots whose work is not finished by the stage's end (R59). -/
  | stageS3 (late : List Nat)
  /-- R183. Stage S4: the alarm engine evaluates the 16 points of the sweep slot, then runs the group and call logic.
    `late`: the slots whose work is not finished by the stage's end (R59). -/
  | stageS4 (late : List Nat)
  /-- R20. Stage S5: call lines, gate bits and loop outputs are driven, and loop-output checks are evaluated. `late`:
    the slots whose work is not finished by the stage's end (R59). `lo`: what the check converter delivers. -/
  | stageS5 (late : List Nat) (lo : LoIn)
  /-- R225. Stage S6: the Archive writer takes up to 8 operations from the intake queue. `late`: the slots whose work
    is not finished by the stage's end (R59). `nvBad`: addresses of words that fail both read-backs (R242). -/
  | stageS6 (late : List Nat) (nvBad : List Nat)
  /-- R42. Stage S7: the effects of atomic commands and of micro-routine units are applied. `cut`: none, or how many
    units were complete when the beat ended before the node core had finished (R60, R89). `nvBad`: nonvolatile
    addresses whose words fail both read-backs (R242). -/
  | stageS7 (cut : Option Nat) (nvBad : List Nat)
  /-- R59. A late helper publishes its beat results as a whole when it finishes, and sets its BEAT.LATE bit. `slot` as
    Table 3-2 numbers the helpers. -/
  | helperLatePublication (slot : Nat) (m : Moment)
  /-- R63. A node-time second boundary: source changes take effect, DIC source 208 rings and the second pulse rises.
    -/
  | nodeTimeSecond
  /-- R78. Second-pulse pins fall when PULSEW has passed after the second boundary. -/
  | secondPulseEnd (m : Moment)
  /-- R28. A UART character is received and checked for framing and parity errors. HOST or SERVICE. -/
  | characterReceived (p : Port) (ch : RxChar) (m : Moment)
  /-- R30. HTURN after the last received stop bit, the node drives HOST_DE high to reply in RS-485 mode. -/
  | hostDeTurnaround (m : Moment)
  /-- R31. A terminator completes a line; it restarts the heartbeat and is queued for execution, or refused with
    ?E404. `cs`: the characters that reach the port before the terminator. -/
  | lineReceived (p : Port) (cs : List Nat) (m : Moment)
  /-- R37. A typed line ending with ? is answered with one =HELP line for each word that may stand in its place. The
    line at the head of the port's waiting lines. -/
  | typedHelpQuery (p : Port)
  /-- R36. Once the first reply has ended, the stored reply is sent again, or ?E310 when the reply was too long to
    store. -/
  | storedReplyResend (p : Port)
  /-- R467. The stored reply of a generated line is dropped 2 s after that reply ended. -/
  | storedReplyExpiry (p : Port)
  /-- R40. !LOST n is placed in the first output-queue place that frees after notices were discarded. -/
  | lostNotice (p : Port)
  /-- R41. A !STREAM line is sent on the publication chosen for the stream's rate. `o`, `i`: the item streamed. -/
  | streamEmit (p : Port) (o : Obj) (i : Option Nat)
  /-- R44. When the pausing work ends, the micro-routine sends +RESUME n and continues, or ends with ?E309. -/
  | microRoutineResume (p : Port)
  /-- R47. A confirmation code lapses 30 s after it was issued. -/
  | confirmationExpiry (p : Port)
  /-- R48. Gives the port a lease on the named items, or renews its own lease. -/
  | hold (l : Line) (o : Obj)
  /-- R48. Ends the port's leases that lie within the index named, or replies ?E402 if none ends. -/
  | free (l : Line) (o : Obj)
  /-- R49. A lease ends TIME seconds after HOLD, and !LEASE ENDED is sent to the holding port. The lease. -/
  | leaseTimeExpiry (p : Port) (o : Obj) (idx : Option (List (Nat × Nat)))
  /-- R49. A lease ends when its holding port has been silent for that port's silence time. The lease. -/
  | leaseSilenceExpiry (p : Port) (o : Obj) (idx : Option (List (Nat × Nat)))
  /-- R50. HBEAT passes without a line on HOST; the node enters autonomous watch, sends !HOST LOST and applies the
    host-loss actions. -/
  | hostHeartbeatExpiry (m : Moment)
  /-- R52. REG <UNIT.REGISTER> reads the whole register and replies with its value in eight hex digits. `reg`:
    UNIT.REGISTER. -/
  | regRead (l : Line) (reg : String)
  /-- R52. REG <UNIT.REGISTER.FIELD> reads the register, with every effect of that read, and replies with the field's
    value. `reg`: UNIT.REGISTER; `fld`: FIELD. -/
  | regFieldRead (l : Line) (reg fld : String)
  /-- R52. REG ... VALUE=v writes the whole register, after a range check of v. `reg`: UNIT.REGISTER. -/
  | regWrite (l : Line) (reg : String)
  /-- R52. Changes only the named field, through an internal read-modify-write performed within one stage S7. `reg`:
    UNIT.REGISTER; `fld`: FIELD. -/
  | regFieldWrite (l : Line) (reg fld : String)
  /-- R53. Reads 1 to 64 words at ascending addresses and replies with one =PEEK line per word. `a`: the address. -/
  | peek (l : Line) (a : Nat)
  /-- R53. Writes one word, after the alignment, map and nonvolatile-window checks. `a`: the address. -/
  | poke (l : Line) (a : Nat)
  /-- R54. Sets the command-line keys of SYS (Table 2-7). -/
  | setSys (l : Line)
  /-- R54. Replies with the value of the SYS keys named. `names`: the keys named. -/
  | getSys (l : Line) (names : List String)
  /-- R54. Changed port settings take effect at the first moment when the port is neither sending nor receiving a
    character. At a moment at which the port receives no character. -/
  | portSettingsTakeEffect (p : Port)
  /-- R49. Lists every lease, with its port and the time it has left. -/
  | showSysLease (l : Line)
  /-- R46. Lists each running micro-routine, with its progress. -/
  | showSysMr (l : Line)
  /-- R469. Replies with one settings line per port, followed by the completion line. -/
  | showSysPort (l : Line)
  /-- R37. Replies with =HELP lines for the verb or object named. `word`: the verb or object named. -/
  | help (l : Line) (word : Option String)
  /-- R56. Drains the port, discards its waiting lines, ends its leases and reloads its settings from the store. -/
  | doSysReinitPort (l : Line)
  /-- R56. Replies with the completion line and sends ?E309 on every port with a running micro-routine. -/
  | doNodeReset (l : Line)
  /-- R56. The node resets when every output queue is empty, or 50 ms after the completion line. RESET_N stays as it
    is. -/
  | nodeResetDrainEnd
  /-- R64. A PPS edge is stamped, corrected by PPSDELAY and used to qualify PPS and to measure an offset. `rise`: the
    edge is rising; `widthNs`: the length of the pulse. -/
  | ppsEdge (rise : Bool) (widthNs : Nat) (m : Moment)
  /-- R64. No PPS edge arrives within PPSWIN of the prediction; PPSOK clears and DIC source 211 rings. -/
  | ppsEdgeMissing (m : Moment)
  /-- R65. A decoded IRIG-B frame labels the PPS edge and is checked against node time. `dist`: the frame's on-time
    point less the nearest PPS edge, quarter-ns; `cellsOk`: every bit cell and position identifier was in its window.
    -/
  | irigFrame (label : IrigLabel) (dist : Int) (cellsOk : Bool) (m : Moment)
  /-- R69. FINUT stops being valid after 3 minor-mark intervals with no accepted mark. -/
  | finutInvalid (m : Moment)
  /-- R73. A pending step is applied at a second boundary; the affected beat is adjusted, the step is recorded and
    source 210 rings. -/
  | timeStep
  /-- R70. With no source selected within 2 s of entering COARSE, the servo goes to HOLDOVER. -/
  | coarseTimeout (m : Moment)
  /-- R91. When the 25 MHz reference stops, the node runs on its internal oscillator, sets HOLDOVER and EST to
    maximum, and records REF-CLOCK-FAIL. -/
  | referenceLoss (m : Moment)
  /-- R77. A capture channel stamps a pad edge, or sets OVF when it cannot. `sel`: the pad as TIME.CAPCFGn.SEL numbers
    it (0-47 pins, 48 PPS_IN, 49 IRIGB_IN). -/
  | edgeCapture (sel : Nat) (rise : Bool) (m : Moment)
  /-- R79. Sets the TIME keys (Table 3-5). -/
  | setTime (l : Line)
  /-- R80. Schedules a commanded step of node time at boundary a. -/
  | doTimeSet (l : Line)
  /-- R81. Replies with node time, beat index, servo state, source and EST. -/
  | getTime (l : Line)
  /-- R82. Sets the pin and the edge of capture channel n. -/
  | setTimeCapture (l : Line)
  /-- R82. Replies with the stamps a capture channel holds, removes them and clears OVF. -/
  | doTimeTake (l : Line)
  /-- R82. A write of TIME.CAPPOP removes the oldest stamp of each channel whose bit is 1. `v`: the word written. -/
  | capturePop (rq : Rq) (v : Word)
  /-- R83. Replies with the beat index, the last adjusted beat, the overrun counts and the late slots. -/
  | showBeat (l : Line)
  /-- R83. Sets every overrun counter to 0 and clears BEAT.LATE. -/
  | clearBeat (l : Line)
  /-- R83. A write of BEAT.OVRCLR sets the selected slots' overrun counters to 0. `v`: the word written. -/
  | overrunClear (rq : Rq) (v : Word)
  /-- R84. Sets up !WATCH TIME notices for state, step and discarded-set events, or for capture stamps. With an index,
    capture channels. -/
  | watchTime (l : Line)
  /-- R84. Sets up a !WATCH BEAT OVR line after each second that held an overrun. -/
  | watchBeat (l : Line)
  /-- R88. Reloads the TIME keys, empties the capture channels and returns the servo to ACQUIRING. -/
  | doTimeReinit (l : Line)
  /-- R85. A read of TIME.QNS latches the seconds into SECLO and SECHI, separately for each requester. -/
  | timeQnsRead (rq : Rq) (m : Moment)
  /-- R114. In beat f + 1, the failed quad's front ends are switched to QX, which loads that quad's calibration and
    placement. -/
  | crossbarSwitch
  /-- R114. In beat f + 2, QX converts its first raw conversion, source 44 rings, QUAD-MIGRATED is queued and !QUAD is
    sent. -/
  | quadMigrated
  /-- R118. The reverse migration completes; QUAD-RESTORED is recorded, source 43 rings and !QUAD RESTORED is sent. -/
  | quadRestored
  /-- R108. A channel that has published nothing for 4P beats sets STALE. `i`: the channel. -/
  | channelStale (i : Nat)
  /-- R106. A DI sampled level that has held for DEB ms changes the published value. `i`: the channel. -/
  | diDebounce (i : Nat)
  /-- R124. A channel set to MODE=OFF reaches OFF, and its excitation and loop power switch off. `i`: the channel. -/
  | ucDrainComplete (i : Nat)
  /-- R115. Sets the channel keys, checking the quad load limit. -/
  | setUc (l : Line)
  /-- R116. Replies with each channel's value, physical quantity, flags and beat stamp. -/
  | getUc (l : Line)
  /-- R116. Lists each channel's keys that are valid in its mode. -/
  | showUc (l : Line)
  /-- R117. Replies with the state, load and pass count of each quad and of QX. -/
  | showUcQuad (l : Line)
  /-- R118. Marks quad k FAILED with cause FORCED and migrates it. -/
  | doUcQuadFail (l : Line)
  /-- R118. Starts the reverse migration of a quad that has passed enough checks. -/
  | doUcQuadRestore (l : Line)
  /-- R119. Sets the number of points, or one point, of a custom resistance table. -/
  | setUcCtab (l : Line)
  /-- R120. Sets up a !WATCH UC notice at each change of a channel's flags. -/
  | watchUc (l : Line)
  /-- R120. Sets up !STREAM UC lines at the rate given. -/
  | streamUc (l : Line)
  /-- R125. Reloads channel keys from the store and restarts each channel, one unit per channel. -/
  | doUcReinit (l : Line)
  /-- R122. A read of UC.VALn latches that channel's flags and beat stamp into UC.VSTAT. `i`: the channel. -/
  | ucValRead (rq : Rq) (i : Nat)
  /-- R139. An output stage reaching 150 °C limits its current to the lower of its DAC level and 3.6 mA. `i`: the
    output. -/
  | thermalFoldback (i : Nat)
  /-- R139. A stage falling to 130 °C releases the limit, and the output returns to its DAC level. `i`: the output. -/
  | thermalRelease (i : Nat)
  /-- R140. The ramp of a host-loss action or a disable ends, setting ACTDONE and ringing source 48 + n. `i`: the
    output. -/
  | loActionEnd (i : Nat)
  /-- R151. A loop output set to MODE=OFF reaches its DISACT level and becomes OFF. `i`: the output. -/
  | loDrainComplete (i : Nat)
  /-- R145. Sets the loop-output keys (Table 5-6). -/
  | setLo (l : Line)
  /-- R146. Replies with each output's most recent check values and flags. -/
  | getLo (l : Line)
  /-- R146. Lists each output's keys. -/
  | showLo (l : Line)
  /-- R146. Replies with the check converter's state and pass count. -/
  | showLoCheck (l : Line)
  /-- R147. Sets up !WATCH LO notices at each change of an output's flags or state. -/
  | watchLo (l : Line)
  /-- R147. Sets up !STREAM LO lines on the checks nearest to the rate given. -/
  | streamLo (l : Line)
  /-- R147. Clears the channel's bits in LO.EVT0 and LO.EVT1. -/
  | clearLo (l : Line)
  /-- R152. Reloads loop-output keys from the store, one unit per channel. -/
  | doLoReinit (l : Line)
  /-- R149. A read of LO.RBn latches the pin, supply, temperature and status of the same check. `i`: the output. -/
  | loRbRead (rq : Rq) (i : Nat)
  /-- R166. A transient comparator fires and records the input's first arrival within the event. `i`: the input;
    `pos`: the filtered input is positive. -/
  | comparatorFiring (i : Nat) (m : Moment) (pos : Bool)
  /-- R167. The last post-trigger block is written and the engine enters HELD. `hf`: the filtered codes converted in
    this beat so far, by input. -/
  | postTriggerFillComplete (m : Moment) (hf : List (Nat × List Int))
  /-- R167. AUTOARM seconds in HELD re-arm the engine, discarding the capture. -/
  | autoarmExpiry (m : Moment)
  /-- R171. Sets the grid keys and the per-input keys. -/
  | setGrid (l : Line)
  /-- R172. Replies with the lines of one report, or with =GRID NOREPORT. -/
  | getGrid (l : Line)
  /-- R172. Lists every grid key with its value. -/
  | showGrid (l : Line)
  /-- R173. Sets up !STREAM GRID lines on every (FS/r)-th report. -/
  | streamGrid (l : Line)
  /-- R180. Reloads the grid keys and restarts every window. -/
  | doGridReinit (l : Line)
  /-- R174. Sets the transient keys. -/
  | setTrans (l : Line)
  /-- R175. Arms the transient engine, discarding any capture that is held or kept. -/
  | doTransArm (l : Line)
  /-- R175. Disarms the transient engine, or in TRIGGERED completes the fill and keeps the capture. -/
  | doTransDisarm (l : Line)
  /-- R175. A write of 1 to TRANS.CTRL.ARM acts as DO TRANS ARM. `v`: the word written, bit 0 set. -/
  | transCtrlArm (v : Word)
  /-- R175. A write of 1 to TRANS.CTRL.DISARM acts as DO TRANS DISARM. `v`: the word written, bit 1 set. -/
  | transCtrlDisarm (v : Word)
  /-- R175. Replies with the transient state line and one arrival line per input. -/
  | getTrans (l : Line)
  /-- R175. Replies with an input's threshold, RMS and keys. -/
  | showTrans (l : Line)
  /-- R175. Sets up a !WATCH TRANS notice at each change of transient state. -/
  | watchTrans (l : Line)
  /-- R176. Replies with capture blocks, starting from the k-th oldest. -/
  | doTransDump (l : Line)
  /-- R180. Reloads the transient keys, restarts the RMS values and enters DISARMED. -/
  | doTransReinit (l : Line)
  /-- R177. A read of GRID.REPSEC latches the whole report block for the requester. -/
  | gridRepsecRead (rq : Rq)
  /-- R188. An on-delay count reaches the delay at an evaluation; the point goes to ACTIVE-UNACK or takes the new
    level. `i`: the point. -/
  | onDelayExpiry (i : Nat)
  /-- R188. An off-delay count reaches the delay; the point returns or takes the lower level. `i`: the point. -/
  | offDelayExpiry (i : Nat)
  /-- R196. At the end of BLKREL the group releases, and its blocked points leave BLOCKED at their next evaluation.
    `g`: the group. -/
  | blockRelease (g : Nat)
  /-- R198. A shelving time ends, and the point returns to its underlying state. `i`: the point. -/
  | shelvingExpiry (i : Nat)
  /-- R200. A group's ACKPIN held high for 20 ms acknowledges the group. `g`: the group. -/
  | ackPin (g : Nat)
  /-- R200. A confirmed acknowledgement frame acknowledges a point or a group. -/
  | ackFrame (f : Frame)
  /-- R201. T1 or T2 passes; the group moves to ALL or BRIDGE, records the change and sends call frames. `g`: the
    group. -/
  | callEscalation (g : Nat)
  /-- R202. A PULSE-mode call line falls 500 ms into the node-time second. -/
  | callPulseEnd (m : Moment)
  /-- R203. The call frame is sent again every CALLREP seconds while the stage holds. `g`: the group. -/
  | callFrameRepeat (g : Nat)
  /-- R184. A peer value whose last frame is older than AGE becomes FAULT, and DIC source 80 rings. `i`: the point
    that watches the value. -/
  | peerValueAge (i : Nat)
  /-- R204. Sets alarm-point keys; changes to source or group return the point to NORMAL. -/
  | setAp (l : Line)
  /-- R210. Turns the alarm engine on, or drains it to OFF. -/
  | setApEngine (l : Line)
  /-- R205. Sets alarm-group keys. -/
  | setAg (l : Line)
  /-- R206. Sets the call masks, times, stations and repeat period. -/
  | setCall (l : Line)
  /-- R206. Sets MODE and POL of call line k. -/
  | setCallLine (l : Line)
  /-- R207. Replies with each point's state, level, value, flags and first-out mark. -/
  | getAp (l : Line)
  /-- R207. Replies with a group's stage, block state, first-out and unacknowledged count. -/
  | getAg (l : Line)
  /-- R207. Replies with the call lines asserted. -/
  | getCall (l : Line)
  /-- R207. Lists the point keys. -/
  | showAp (l : Line)
  /-- R207. Lists the group keys. -/
  | showAg (l : Line)
  /-- R207. Lists the call keys. -/
  | showCall (l : Line)
  /-- R200. Acknowledges a point, optionally checking the accession given. -/
  | doApAck (l : Line)
  /-- R200. Acknowledges every qualifying point of the group and replies with the count. -/
  | doAgAck (l : Line)
  /-- R200. A write to ALM.ACK acknowledges a point or a group, with the result in ALM.ACKRES. `v`: the word written.
    -/
  | almAckWrite (v : Word)
  /-- R198. Shelves a point for TIME seconds. -/
  | doApShelve (l : Line)
  /-- R198. Releases a shelved point into its underlying state. -/
  | doApUnshelve (l : Line)
  /-- R197. Clears the group's first-out. -/
  | doAgForeset (l : Line)
  /-- R207. Sets up a !WATCH AP notice at each transition of a point. -/
  | watchAp (l : Line)
  /-- R211. Reloads the point's keys and returns it to NORMAL. -/
  | doApReinit (l : Line)
  /-- R211. Reloads the group's keys, ends its blocks and clears its first-out. -/
  | doAgReinit (l : Line)
  /-- R211. Reloads the call keys, and each calling group restarts at DUTY. -/
  | doCallReinit (l : Line)
  /-- R222. A LIMIT-rule bucket gains one token every 3,000,000 / RATE beats. `c`: the code. -/
  | tokenGain (c : Nat)
  /-- R218. Every 1,000 ms, the operating milliseconds are stored in the next checkpoint slot. -/
  | checkpoint
  /-- R231. A write of an accession to ARC.FIND starts a search, and FINDADDR reads BUSY. -/
  | arcFind (rq : Rq) (acc : Word)
  /-- R231. The search ends, and FINDADDR holds the record's address or ABSENT. -/
  | arcFindDone (rq : Rq)
  /-- R239. A write to ARC.CODEc is judged as a whole entry and, when accepted, refills that code's bucket. `c`: the
    code; `v`: the word written. -/
  | arcCodeWrite (rq : Rq) (c : Nat) (v : Word)
  /-- R239. A read of ARC.OPMSLO latches ARC.OPMSHI for the requester. -/
  | arcOpmsloRead (rq : Rq)
  /-- R234. Sets ENABLE and RDY of the Archive; ENABLE=OFF drains it. -/
  | setArc (l : Line)
  /-- R234. Sets the keys of one code's entry in the code table. -/
  | setArcCode (l : Line)
  /-- R235. Returns records by accession, with gaps shown. -/
  | getArc (l : Line)
  /-- R236. Replies with the Archive state and its counters. -/
  | showArc (l : Line)
  /-- R236. Replies with one code's entry and its suppressed count. -/
  | showArcCode (l : Line)
  /-- R237. Raises a record of a user code with TEXT or DATA. -/
  | doArcLog (l : Line)
  /-- R238. Sets up !WATCH ARC notices for Archive events. -/
  | watchArc (l : Line)
  /-- R232. Directs the writer to a new page, queues GALLERY-CLEARED and clears the other Gallery pages as units. -/
  | clearArcGallery (l : Line)
  /-- R233. Once confirmed, runs phase 0 of the reseal, which makes every page empty. -/
  | doArcReseal (l : Line)
  /-- R233. Phases 1 and 2 run 64 and 128 beats after phase 0, ending with VAULT-RESEALED as accession 1. `nvBad`:
    addresses of words that fail both read-backs (R242). -/
  | resealPhase (nvBad : List Nat)
  /-- R246. Reloads ENABLE, RDY and the code table from the store, and refills every bucket. -/
  | doArcReinit (l : Line)
  /-- R252. A received frame is confirmed and is delivered to filters, the FIFO, caravans, the node, gates and the
    trimmer. `p`: port, 0 A, 1 B; `sofQ`: quarter-ns from its SOF edge to its confirmation; `edges`: the recessive-to-
    dominant edges of its data phase and the sum of their phase errors in quarter-tq. -/
  | frameConfirmed (p : Nat) (f : Frame) (sofQ : Nat) (edges : Nat × Int) (m : Moment)
  /-- R270. A frame matching an EARLY filter takes an early-view buffer as PROVISIONAL and may arm gates. `f`: the
    frame as far as its length field; `len`: that length; `bytes`: data bytes sampled since. A further one for the
    same frame brings its next bytes. -/
  | earlyMatch (p : Nat) (f : Frame) (len : Nat) (bytes : List (BitVec 8)) (sofQ : Nat) (m : Moment)
  /-- R267. A frame meets an error; provisional buffers retract, error counters move and the frame is retried.
    `afterBrs`: the error flag begins after BRS; `special`: ISO 11898-1 spares a sender's count, or adds 8 to a
    receiver's. -/
  | frameError (p : Nat) (afterBrs special : Bool) (m : Moment)
  /-- R267. A frame that loses arbitration is sent again later, and a receiving port's provisional buffer retracts. -/
  | arbitrationLost (p : Nat) (m : Moment)
  /-- R262. A transmission completes; the mailbox reads SENT, and RING rings offset 0. -/
  | frameSent (p : Nat) (m : Moment)
  /-- R267. After 128 occurrences of 11 recessive bits the port recovers, and BUS-RECOVERED is queued. -/
  | busOffRecovery (p : Nat) (m : Moment)
  /-- R273. A PULSE gate's output ends after WIDTH µs. `g`: the gate. -/
  | gatePulseEnd (p g : Nat) (m : Moment)
  /-- R265. More than 100 ms between two frames of a caravan discards the caravan. -/
  | caravanGapTimeout (p : Nat) (m : Moment)
  /-- R257. A confirmed doorbell frame rings its DIC source, or is counted when the source is below 224. -/
  | doorbellFrame (p : Nat) (f : Frame)
  /-- R185. A confirmed value frame from a peer updates that peer value and its marks. -/
  | valueFrame (f : Frame)
  /-- R258. Value v is sent every PERIOD, and at once on any change of its marks. `v`: the value. -/
  | valuePublish (v : Nat)
  /-- R275. DO BUS TUNNEL ends with ?E602 when 1 s passes without a reply line. `c`: the command port whose line
    tunnels. -/
  | tunnelTimeout (c : Port)
  /-- R278. A draining port completes its frame, aborts its mailboxes and enters OFF. -/
  | busPortOff (p : Nat) (m : Moment)
  /-- R274. Sets the port keys, including rates, GENMAX and the wake keys. -/
  | setBusPort (l : Line)
  /-- R274. Sets the keys of one receive filter. -/
  | setBusFilter (l : Line)
  /-- R274. Sets the keys of one pre-arm gate. -/
  | setBusGate (l : Line)
  /-- R274. Sets the source, period and destination for value v. -/
  | setBusVal (l : Line)
  /-- R274. Sets the station that receives alarm-state frames. -/
  | setBusAlmto (l : Line)
  /-- R275. Replies with the port's state, error counters and FIFO figures. -/
  | getBus (l : Line)
  /-- R275. Lists the port keys. -/
  | showBus (l : Line)
  /-- R275. Lists the valid trimmer entries. -/
  | showBusTrim (l : Line)
  /-- R275. Places a frame in a user mailbox, and optionally waits until it is sent. -/
  | doBusSend (l : Line)
  /-- R275. Aborts a mailbox unless its frame is already on the wire. -/
  | doBusAbort (l : Line)
  /-- R275. Sends a line to a peer in a command caravan and relays its reply. -/
  | doBusTunnel (l : Line)
  /-- R275. Ends an active LATCH gate. -/
  | doBusGateReset (l : Line)
  /-- R275. Empties the trimmer table, or one entry of it. -/
  | doBusTrimclr (l : Line)
  /-- R275. Locks a station's trimmer entry. -/
  | setBusTrimlock (l : Line)
  /-- R275. Sets up !WATCH BUS notices on changes of port state, error state or fallback. -/
  | watchBus (l : Line)
  /-- R279. Drains the port, reloads its settings, empties its buffers and enables it again. -/
  | doBusReinit (l : Line)
  /-- R275. A write of MBCTL.REQ acts as DO BUS SEND for that mailbox. `k`: the mailbox. -/
  | mailboxReq (p k : Nat)
  /-- R275. A write of MBCTL.ABORT acts as DO BUS ABORT for that mailbox. `k`: the mailbox. -/
  | mailboxAbort (p k : Nat)
  /-- R263. A write of FIFOPOP removes the oldest FIFO record. `v`: the word written. -/
  | fifoPop (p : Nat) (v : Word)
  /-- R266. A write to CARREL clears CARDONE and frees the receive caravan buffer. `v`: the word written. -/
  | caravanRelease (p : Nat) (v : Word)
  /-- R270. A write to EVREL returns a CONFIRMED or RETRACTED early-view buffer to IDLE. `v`: the word written. -/
  | earlyViewRelease (p : Nat) (v : Word)
  /-- R273. A write of GATEW.RESET ends an active LATCH gate. `v`: the word written to GATEWg. -/
  | gateResetWrite (p g : Nat) (v : Word)
  /-- R303. Makes the node master and queues BEGIN. -/
  | doSurveyStart (l : Line)
  /-- R283. A confirmed BEGIN makes every other node a member that holds its traffic and is unassigned. -/
  | begin (p : Nat) (f : Frame) (sofQ : Nat) (m : Moment)
  /-- R284. An unassigned node answers a QUERY round with its bid. -/
  | query (p : Nat) (f : Frame) (sofQ : Nat) (m : Moment)
  /-- R284. The master receives the winning bid of a round and goes on to the next round or to ASSIGN. -/
  | bid (p : Nat) (f : Frame) (sofQ : Nat) (m : Moment)
  /-- R285. A bid window with no bid is an empty branch; the master re-walks, marks a node vanished or ends the walk.
    -/
  | bidWindowExpiry (p : Nat) (m : Moment)
  /-- R286. The winner takes the station assigned and answers ASSIGNED. -/
  | assign (p : Nat) (f : Frame) (sofQ : Nat) (m : Moment)
  /-- R286. The master records the station and starts the next node at round 0. -/
  | assigned (p : Nat) (f : Frame) (sofQ : Nat) (m : Moment)
  /-- R288. A station stamps the PING and answers PONG. -/
  | ping (p : Nat) (f : Frame) (sofQ : Nat) (m : Moment)
  /-- R288. The sender stamps the PONG of a delay exchange. -/
  | pong (p : Nat) (f : Frame) (sofQ : Nat) (m : Moment)
  /-- R288. The sender takes t2 and t3 and completes the exchange's delay arithmetic. -/
  | pongFollowUp (p : Nat) (f : Frame) (sofQ : Nat) (m : Moment)
  /-- R288. A station stores the delay and spread measured for a sender. -/
  | delay (p : Nat) (f : Frame) (sofQ : Nat) (m : Moment)
  /-- R289. The survey ends with its result, and the station and delay tables are written. -/
  | surveyEnd (p : Nat) (f : Frame) (sofQ : Nat) (m : Moment)
  /-- R291. The master with FOLD=ON folds an unmapped node in with a follow-up round. -/
  | announce (p : Nat) (f : Frame) (sofQ : Nat) (m : Moment)
  /-- R283. 5 s with no survey frame ends the survey locally as ABORTED. -/
  | surveyMemberTimeout (p : Nat) (m : Moment)
  /-- R290. LISTEN ends; the port sends ANNOUNCE once and resumes. -/
  | listenEnd (p : Nat)
  /-- R294. A sender requests a major mark at each second boundary and a minor mark every 10 ms. -/
  | markRequest (p : Nat) (m : Moment)
  /-- R294. A mark not started within 1 ms of its request is abandoned. -/
  | markAbandon (p : Nat) (m : Moment)
  /-- R295. A confirmed major mark is stamped and counts towards sender selection. -/
  | majorMark (p : Nat) (f : Frame) (sofQ : Nat) (m : Moment)
  /-- R295. A confirmed minor mark is stamped, awaiting its follow-up. -/
  | minorMark (p : Nat) (f : Frame) (sofQ : Nat) (m : Moment)
  /-- R295. A follow-up from the selected sender within 5 ms makes its mark accepted, and the servo takes an offset.
    -/
  | markFollowUp (p : Nat) (f : Frame) (sofQ : Nat) (m : Moment)
  /-- R295. A mark whose follow-up is not confirmed within 5 ms counts as rejected. -/
  | followUpTimeout (p : Nat) (m : Moment)
  /-- R297. After 30 ms without an accepted mark on TPORT, marks are taken from the other port. -/
  | tportFallback (m : Moment)
  /-- R297. A port that confirms no frame for 1 s while the other does queues PAIR-PORT-SILENT. -/
  | pairPortSilent (p : Nat) (m : Moment)
  /-- R303. The master sends END with ABORTED. -/
  | doSurveyAbort (l : Line)
  /-- R302. Sets the requested station and FOLD. -/
  | setSurvey (l : Line)
  /-- R302. Sets LINK, TPORT, DUPWIN or WAYFWD; a LINK change drains and re-enables both ports. -/
  | setBusLink (l : Line)
  /-- R303. Replies with the survey state, result and counts. -/
  | showSurvey (l : Line)
  /-- R303. Lists the master's station map. -/
  | showSurveyMap (l : Line)
  /-- R303. Replies with the selected mark sender and its figures. -/
  | showBusMark (l : Line)
  /-- R303. Lists the port's delay table. -/
  | showBusDelay (l : Line)
  /-- R303. Replies with the link mode and the duplicate and drop counts. -/
  | getBusLink (l : Line)
  /-- R300. Requests port sleep and arms the wake detector. -/
  | doBusSleep (l : Line)
  /-- R300. The transceiver reaches sleep, PSTATE reads SLEEPING and PORT-SLEEP is queued. -/
  | portSleep (p : Nat) (m : Moment)
  /-- R300. The ISO 11898-2 wake-up pattern wakes a sleeping port. -/
  | wakePattern (p : Nat)
  /-- R300. A matching Gen A frame wakes a sleeping port. -/
  | wakeFrame (p : Nat) (f : Frame)
  /-- R301. The port integrates on the bus, reads AWAKE, rings offset 13 and sends its pending mailboxes. -/
  | portWake (p : Nat) (m : Moment)
  /-- R303. Wakes the port. -/
  | doBusWake (l : Line)
  /-- R303. Sends one WAKE frame from a node mailbox. -/
  | doBusWakeup (l : Line)
  /-- R312. A filtered pin change sets GPISTAT and rings source 144 + n according to IRQ. `level`: the new filtered
    level of pin `i`, as the wiring, the pulls and the node's own drive make it. -/
  | pinEdge (i : Nat) (level : Bool) (m : Moment)
  /-- R307. A bank supply changes class; its pads follow and GP-BANK is queued. `b`: 0 A, 1 B; `cls`: the class as
    GP.BANK codes it; `levels`: the pads' levels found, bit k for pin 24b + k. -/
  | bankClassChange (b cls levels : Nat) (m : Moment)
  /-- R308. LIFE pins toggle at each half-second boundary while the node-core watchdog has been served. `served`: the
    node-core watchdog was served in the preceding 500 ms. -/
  | lifeToggle (served : Bool)
  /-- R313. A write to GPOUT0 or GPOUT1 sets every bit, hardware-owned bits included. `k`: 0 or 1. -/
  | gpoutWrite (rq : Rq) (k : Nat) (v : Word)
  /-- R314. A write of 1 to GP.HWREFRESH writes every hardware-owned bit to its true level. `v`: the word written. -/
  | hwrefresh (rq : Rq) (v : Word)
  /-- R317. A write to GP.GPLOCK advances, completes or aborts the lock sequence. `v`: the word written. -/
  | gplockWrite (rq : Rq) (v : Word) (m : Moment)
  /-- R323. Sets pin keys; function changes hand bit ownership over. -/
  | setGp (l : Line)
  /-- R315. Writes only the named GPOUT bits through the masked port at S7. -/
  | setGpMask (l : Line)
  /-- R324. Inverts the named GPOUT bits through the masked port. -/
  | doGpToggle (l : Line)
  /-- R324. Replies with each pin's level, output, function, owner and lock. -/
  | getGp (l : Line)
  /-- R324. Replies with the class of each bank supply. -/
  | getGpBank (l : Line)
  /-- R324. Lists each pin's keys. -/
  | showGp (l : Line)
  /-- R319. Performs the lock sequence at S7 for the bank and mask given. -/
  | doGpLock (l : Line)
  /-- R324. Sets up !WATCH GP notices on filtered pin changes. -/
  | watchGp (l : Line)
  /-- R324. Sets up !WATCH GP BANK notices on bank class changes. -/
  | watchGpBank (l : Line)
  /-- R328. Reloads pin keys from the store, leaving locked fields unchanged. -/
  | doGpReinit (l : Line)
  /-- R325. Sets the sensor-bus ENABLE, RATE and TIMEOUT. -/
  | setTw (l : Line)
  /-- R325. Starts a write transfer. -/
  | doTwWrite (l : Line)
  /-- R325. Starts a read transfer, optionally preceded by a register write. -/
  | doTwRead (l : Line)
  /-- R325. Runs the bus clear, or only a STOP when SDA is high. -/
  | doTwClear (l : Line)
  /-- R325. Replies with the sensor-bus state, line levels and counts. -/
  | getTw (l : Line)
  /-- R325. Sets the sensor-bus counts to 0. -/
  | clearTw (l : Line)
  /-- R328. Drains the bus, reloads its keys, clears STUCK and enables it with the check. -/
  | doTwReinit (l : Line)
  /-- R321. A write of TW.CMD.START starts an Annex transfer. `v`: the word written. -/
  | twCmdStart (rq : Rq) (v : Word) (m : Moment)
  /-- R322. A write of TW.CMD.CLEAR runs DO TW CLEAR. `v`: the word written. -/
  | twCmdClear (rq : Rq) (v : Word) (m : Moment)
  /-- R321. A transfer ends with OK, NACK or contention, and its result is reported. `bytes`: the data bytes read, or
    as many bytes as were written. -/
  | twTransferEnd (res : TwEnd) (bytes : List (BitVec 8)) (m : Moment)
  /-- R321. SCL held low beyond TIMEOUT ends the transfer with a timeout. `bytes`: as for TW_TRANSFER_END. -/
  | twClockStretchTimeout (bytes : List (BitVec 8)) (m : Moment)
  /-- R322. The bus clear ends with TW-CLEARED, or after nine clocks with STUCK. `freed`: SDA was sampled high after
    `clocks` clocks. -/
  | twBusClearEnd (clocks : Nat) (freed : Bool) (m : Moment)
  /-- R327. A disabled bus completes its byte, issues a STOP and reaches OFF. `bytes`: as for TW_TRANSFER_END. -/
  | twDrained (bytes : List (BitVec 8)) (m : Moment)
  /-- R344. Starts a panel update, forcing FULL where required. -/
  | doDispUpdate (l : Line)
  /-- R330. The copy of the target image into the incoming image ends, and SNAP clears. -/
  | snapshotEnd (m : Moment)
  /-- R334. Each 1 ms the earlier rail is checked against its window and the next rail starts. `mv`: the reading of
    the rail started last. -/
  | railPowerUpStep (mv : Int) (m : Moment)
  /-- R338. A frame of the update begins and drives every line. After the last frame's period it ends the frames. -/
  | dispFrameStart (m : Moment)
  /-- R335. Each 1 ms the next rail begins discharging, and the previous rail is checked. `mv`: the reading of the
    rail that began discharging last. -/
  | railPowerDownStep (mv : Int) (m : Moment)
  /-- R337. A rail outside its window for 100 µs is a fault; an update ends ABANDONED and the rails power down. `k`:
    the rail in the order of Table 12-1; `mv`: its reading. -/
  | railFault (k : Nat) (mv : Int) (m : Moment)
  /-- R335. RAILHOLD after an update ends, the held rails power down. -/
  | railholdExpiry (m : Moment)
  /-- R339. The display block's supply falls below its threshold, starting the fast discharge. -/
  | displayUndervoltage (m : Moment)
  /-- R339. At 1 ms intervals, VCOM, then VGH, then VGL discharge. -/
  | fastDischargeStep (m : Moment)
  /-- R345. Writes pixel bytes into the target image. -/
  | doDispLoad (l : Line)
  /-- R343. Sets the display and LCD keys. -/
  | setDisp (l : Line)
  /-- R346. Sets the LEN of a waveform band. -/
  | setDispWaveLen (l : Line)
  /-- R346. Sets the drive codes of one pair of a waveform band. -/
  | setDispWaveData (l : Line)
  /-- R347. Powers the rails up and holds them, or powers them down. -/
  | doDispRails (l : Line)
  /-- R347. Writes the LCD shadows of one common and commits them. -/
  | setDispCom (l : Line)
  /-- R347. Replies with the display state, the rail readings and the LCD state. -/
  | getDisp (l : Line)
  /-- R347. Lists the display keys. -/
  | showDisp (l : Line)
  /-- R347. Replies with a band's LEN and one line per pair. -/
  | showDispWave (l : Line)
  /-- R347. Sets up !WATCH DISP notices. -/
  | watchDisp (l : Line)
  /-- R351. Drains the display, reloads its keys and waveforms, sets IMGUNK and enables it. -/
  | doDispReinit (l : Line)
  /-- R348. A write of DISP.CMD.UPDATE starts an update, or sets LAST to REFUSED. `v`: the word written. -/
  | dispCmdUpdate (rq : Rq) (v : Word) (m : Moment)
  /-- R348. A write of DISP.CMD.RAILSON acts as DO DISP RAILS=ON. `v`: the word written. -/
  | dispCmdRailsOn (rq : Rq) (v : Word) (m : Moment)
  /-- R348. A write of DISP.CMD.RAILSOFF acts as DO DISP RAILS=OFF. `v`: the word written. -/
  | dispCmdRailsOff (rq : Rq) (v : Word) (m : Moment)
  /-- R342. A write of LCD.COMMIT sets PENDING. `v`: the word written. -/
  | lcdCommit (rq : Rq) (v : Word)
  /-- R342. At an LCD frame start, pending shadows are applied and blink is updated. While the LCD drains it ends the
    last frame. -/
  | lcdFrameStart (m : Moment)
  /-- R353. The Annex core executes one instruction. The instruction is the one at the pc (R375: a POKE takes effect
    at once). -/
  | annexInstruction (m : Moment)
  /-- R382. Returns from a trap or pops the DIC stack, possibly entering a waiting source at once. The instruction at
    the pc is MRET. -/
  | mret (m : Moment)
  /-- R389. The Annex core waits until a source would be accepted or is held only by GDIS or a hold. The instruction
    at the pc is WFI. -/
  | wfi (m : Moment)
  /-- R358. AWDOG passes without a service write; the core stops with cause 17. -/
  | annexWatchdogExpiry (m : Moment)
  /-- R358. A write to SYS.AWDSERVE serves the watchdog, or expires it at once when the value is wrong. `v`: the word
    written. -/
  | awdserveWrite (rq : Rq) (v : Word) (m : Moment)
  /-- R360. Writes bytes into the TCM. -/
  | doNodeLoad (l : Line)
  /-- R361. Checks the image CRC and starts the Annex core at ENTRY. -/
  | doNodeStart (l : Line)
  /-- R374. Stops the Annex core after its instruction in progress and ends the active ANNEX sources. -/
  | doNodeStop (l : Line)
  /-- R370. Sets the Annex watchdog, fault and boot keys. -/
  | setNode (l : Line)
  /-- R371. Replies with the Annex state and its image and fault data. -/
  | showNodeAnnex (l : Line)
  /-- R371. Sets up !WATCH NODE ANNEX notices. -/
  | watchNode (l : Line)
  /-- R362. The boot read from EEPROM ends; the image is checked and started, or ANNEX-FAULT cause 18 is recorded.
    `image`: the bytes read from the devices, header first; none where the bus failed. -/
  | annexBootReadEnd (image : Option (List (BitVec 8))) (m : Moment)
  /-- R367. A write of CMD.REQCTL.GO submits an Annex line, or sets CFGERR. `v`: the word written to CMD.REQCTL. -/
  | mailboxGo (rq : Rq) (v : Word) (m : Moment)
  /-- R368. A write to CMD.RXRD frees ring space, allowing held lines to be written. `v`: the word written to
    CMD.RXRD. -/
  | rxrdWrite (rq : Rq) (v : Word)
  /-- R368. Enabling the receive ring sets RXWR and RXRD to 0, or sets CFGERR. `v`: the word written to CMD.RXCFG. -/
  | rxcfgEnable (rq : Rq) (v : Word)
  /-- R377. A write to DIC.DOORBELL rings the source named. -/
  | doorbellWrite (rq : Rq) (v : Word)
  /-- R394. Rings a source through the masked port. -/
  | doDicRing (l : Line)
  /-- R394. Clears a pending bit through the masked port. -/
  | doDicClear (l : Line)
  /-- R380. The DIC accepts the winning ANNEX source, pushes the return address and passes VECTn to the fetch unit. It
    takes place at an instruction boundary. -/
  | interruptAcceptance (m : Moment)
  /-- R383. A write to DIC.COMPLETE ends a source's active state, or counts a stray completion. -/
  | completeWrite (rq : Rq) (v : Word) (m : Moment)
  /-- R383. Completes a HOST source, or replies ?E308 and counts a stray. -/
  | doDicDone (l : Line)
  /-- R386. Takes the winning deliverable HOST source, or replies NONE. -/
  | doDicTake (l : Line)
  /-- R388. A moderation group's hold of MODTm ends. `g`: the group. -/
  | moderationHoldEnd (g : Nat) (m : Moment)
  /-- R387. A write to DIC.GDIS holds or resumes delivery at each target. -/
  | gdisWrite (rq : Rq) (v : Word)
  /-- R395. A write of DIC.CTRL.STRAYCLR sets STRAYCNT to 0. -/
  | strayclrWrite (rq : Rq) (v : Word)
  /-- R393. Sets per-source and common DIC keys, including the band map. -/
  | setDic (l : Line)
  /-- R394. Replies with per-source state or the DIC summary. -/
  | getDic (l : Line)
  /-- R394. Lists the DIC keys. -/
  | showDic (l : Line)
  /-- R394. Sets DIC.STRAYCNT to 0. -/
  | clearDic (l : Line)
  /-- R398. Reloads the stored DIC keys. -/
  | doDicReinit (l : Line)
  /-- R392. A watched ring is latched in WAKESRC and wakes the node, or ends DORMANT entry. `spent`: the coarse time
    spent in DORMANT, quarter-ns (R76). -/
  | watchUnitWake (spent : Nat) (m : Moment)
  /-- R399. VSYS held at 17.0 V for 1 ms ends power-on reset and start-up begins. In a node that runs, VSYS and HOLD were
    lost together without warning before it. -/
  | powerOn
  /-- R401. The command ports go live at their reset settings, and HOST auto-baud is armed. -/
  | firstPrompt
  /-- R404. The store is loaded, and the Archive start-up, sweep, LO restore, LISTEN and boot follow. -/
  | configStoreLoaded
  /-- R399. HOLD crosses the HOLDOK threshold; source 2 rings and HOLD-STATE is queued. `mv`: HOLD in mV. -/
  | holdokChange (mv : Nat) (m : Moment)
  /-- R400. The core regulator moves one 5 mV step, at most once per 1 ms. `margin`: the timing monitors report margin
    at the present step; `spare`: they would one step lower. -/
  | avsStep (margin spare : Bool)
  /-- R400. The core voltage falls below the regulator's threshold and resets the node with cause CORE. -/
  | coreUndervoltage
  /-- R408. RESET_N held low for 10 µs resets the node with cause PIN. -/
  | resetPin
  /-- R408. Firmware silent for 100 ms resets the node with cause NCWDOG. -/
  | nodeCoreWatchdog
  /-- R406. Writes the running configuration into the target copy of the store, as units. -/
  | doSysCommit (l : Line)
  /-- R407. Once confirmed, clears both store copies and the station tables, then resets. -/
  | doSysFactory (l : Line)
  /-- R422. Replies with the store copy, GEN, LEN, RUNLEN and DIRTY. -/
  | showSysStore (l : Line)
  /-- R422. Replies with the power state, VSYS, HOLD and core voltage. -/
  | getSysPower (l : Line)
  /-- R422. Replies with the reset causes. -/
  | getSysRstcause (l : Line)
  /-- R421. Sets AVS, VCORE and AGRACE. -/
  | setSysPower (l : Line)
  /-- R409. Moves the node from FULL to QUIET. -/
  | doNodeQuiet (l : Line)
  /-- R409. Moves the node from QUIET to FULL. -/
  | doNodeFull (l : Line)
  /-- R410. Starts DORMANT entry by arming the watch unit and running the entry steps. -/
  | doNodeDormant (l : Line)
  /-- R410. After the drains end, the ports sleep and the node core and helpers stop in DORMANT. -/
  | dormantEntryComplete
  /-- R413. The DORMANT timer wakes the node. -/
  | dormantTimerExpiry
  /-- R424. A write of SYS.PCMD.QUIET acts as DO NODE QUIET. -/
  | pcmdQuiet (rq : Rq)
  /-- R424. A write of SYS.PCMD.FULL acts as DO NODE FULL. -/
  | pcmdFull (rq : Rq)
  /-- R424. A write of SYS.PCMD.DORMANT acts as DO NODE DORMANT. -/
  | pcmdDormant (rq : Rq)
  /-- R414. VSYS below 16 V for 50 µs connects HOLD, enters POWERFAIL and starts the power-fail sequence. `vsys`,
    `hold`: VSYS and HOLD in mV; `spent`: as for WATCH_UNIT_WAKE, used in DORMANT only. -/
  | powerFailWarning (vsys hold spent : Nat) (m : Moment)
  /-- R414. AGRACE after the warning, the Annex core is stopped. -/
  | agraceExpiry (m : Moment)
  /-- R417. Once all work is done, or HOLD falls below 25 V, the node stores PFLOST and its checkpoint and goes OFF.
    `hold`: HOLD in mV. -/
  | park (hold : Nat) (m : Moment)
  /-- R418. VSYS good for 10 ms after a park restarts the node with cause PFRESTART. -/
  | powerFailRestart
  /-- R423. Once confirmed, commits the queue and drives PWRCYC_N low. -/
  | doNodePwrcyc (l : Line)
  /-- R423. PWRCYC_N is released after 250 ms. -/
  | pwrcycPulseEnd
  /-- R423. A node still powered 50 ms after the pulse resets itself with cause PWRCYC. -/
  | pwrcycSelfReset
  /-- R438. Replies with the power state, GENMAX, link, Annex state, host state and lock counts. -/
  | showNodeModes (l : Line)
  /-- R30. A command port finishes sending a character; in RS-485 mode HOST_DE is driven low within one bit time after
    the last one, and the output queue frees its line once it is sent. HOST or SERVICE. -/
  | characterSent (p : Port)
  /-- R262. At bus idle the port starts an attempt with the pending mailbox of lowest identifier, and that frame is
    then on the wire. -/
  | transmissionStart (p : Nat) (m : Moment)
  /-- R401. RESET_N rises after a pin reset, ending the reset, and start-up runs from the 2 ms row counted from that
    moment. -/
  | resetNRelease
deriving DecidableEq, Repr

end Sys2Proof
end

