-- ==== Sys2Proof/Decode.lean ====
section
/-! DEFINITION. The words of the table of operations and events. -/
namespace Sys2Proof

/-- The command a word spells. The table of operations and events gives none of its rows any bits, so no word
spells a command. -/
def decodeTableWord (_nbits _w : Nat) : Option Instr := none

end Sys2Proof
end

