-- ==== Sys2Proof/Config.lean ====
section
/-! DEFINITION. What the spec leaves to the device, to the factory, to the firmware or to a standard it only names:
constants without a value, so that nothing can be proved from a value the spec does not give. -/
namespace Sys2Proof

/-- A value the spec leaves undefined, fresh for each number (log entry 2). -/
opaque Config.freeWord : Nat → Word
/-- A number no row delivers, fresh for each number: a time that passes while no beat runs, or the word at which a reset cuts a
commit (log entry 2). -/
opaque Config.freeNat : Nat → Nat
/-- The power-cycle count the factory test left (R465). -/
opaque Config.factoryPwrcyc : Nat
/-- Operating milliseconds the factory test left in each checkpoint slot (R465). -/
opaque Config.factoryCkpt : Nat → Nat
/-- What the factory unique ID is made from (R24). -/
opaque Config.factoryUid : Nat
/-- What a byte of a word whose read-back has failed reads as, by its address and the beat of the read (R216). -/
opaque Config.failedByte : Nat → Nat → Byte
/-- Bytes 4096 to 4099 of a caravan whose message of more than 4092 bytes stands with its header in a user's transmit buffer
of 4 KiB (Table 9-7, R264): by port, buffer and byte (log entry 34). -/
opaque Config.carTail : Nat → Nat → Nat → Byte
/-- The bytes of the stored image of a configuration: their encoding belongs to the firmware (R403). -/
opaque Config.imageByte : List (Nat × Word) → Nat → Byte
/-- The number of bytes a configuration takes in the store (R403). -/
opaque Config.imageLen : List (Nat × Word) → Nat
/-- The 4-digit confirmation code the node issues (R47). -/
opaque Config.confirmCode : Nat → Nat
/-- The decimal digits in which the node writes a binary32 number: the spec fixes the items, not the rounding of
their text. -/
opaque Config.floatText : Word → List Nat

/-- °C of a resistance, in 10^-6 Ω and 10^-6 °C, by the characteristic of a SENSOR code 0 to 3 (IEC 60751, and the
Ni120 table in ROM, which the spec names only). -/
opaque Config.rtdDegC : Nat → Int → Int
/-- °C of a thermoelectric voltage, in nV and 10^-6 °C, by type code (IEC 60584-1). -/
opaque Config.tcDegC : Nat → Int → Int
/-- Thermoelectric voltage of a temperature, by type code (IEC 60584-1). -/
opaque Config.tcVolt : Nat → Int → Int

/-- Whether mtval gets a value at an exception of this cause (2: the instruction's bits, 3: its address) or 0: the
privileged specification that R356 names leaves it to the implementation. -/
opaque Config.trapVal : Nat → Bool

/-- What the phasor engine measures of one input, or of the frequency source, from the samples of a window: its
settings (GRID.CTRL), the input (8: V1), and for each sample present its offset from t_k in quarter-ns, its weight as a
fraction `num / den` (R162), and its codes. The definitions are those of IEEE C37.118.1, which the spec names only (R160
to R163). Frequency in 10^-6 Hz. -/
opaque Config.gridFreq : Word → Nat → List (Int × (Int × Nat) × List Int) → Int
/-- ROCOF, in 10^-6 Hz/s. -/
opaque Config.gridRocof : Word → Nat → List (Int × (Int × Nat) × List Int) → Int
/-- RMS magnitude at the balls in 10^-6 V, corrected for a frequency (10^-6 Hz) or uncorrected. -/
opaque Config.gridMag : Word → Nat → Option Int → List (Int × (Int × Nat) × List Int) → Int
/-- Angle in 10^-6 degrees, corrected for a frequency or uncorrected, against the cosine at nominal frequency that peaks
at the second boundary; the second argument: quarter-ns from that boundary to t_k (R160). -/
opaque Config.gridAng : Word → Nat → Nat → Option Int → List (Int × (Int × Nat) × List Int) → Int
/-- The angle register of a sequence whose magnitude is 0: no phasor has an angle there. -/
opaque Config.angOfZero : Nat → Word
/-- The running RMS of the filtered samples in 10^-6 V after a beat's samples, from the value before them, with time
constant TAU (its code): the spec gives the time constant, not the filter (R165). -/
opaque Config.transRms : Nat → Nat → List Int → Nat

end Sys2Proof
end

