-- ==== Sys2Proof/Machine/Arith.lean ====
section
/-! DEFINITION. Exact quotients and the binary32 numbers of the registers.
The spec's quantities are real numbers written into binary32 fields; the model computes each exactly
and rounds once, to nearest, ties to even (log entry 10, PRESUMED: the spec names binary32 only). -/
namespace Sys2Proof.Machine

/-- An exact number `num / den`. `den = 0` never arises from the operations below when it does not enter. -/
structure Q where
  num : Int
  den : Nat
deriving DecidableEq, Repr

namespace Q
def ofInt (z : Int) : Q := ⟨z, 1⟩
def ofNat (n : Nat) : Q := ⟨n, 1⟩
def add (a b : Q) : Q := ⟨a.num * b.den + b.num * a.den, a.den * b.den⟩
def neg (a : Q) : Q := ⟨-a.num, a.den⟩
def sub (a b : Q) : Q := add a (neg b)
def mul (a b : Q) : Q := ⟨a.num * b.num, a.den * b.den⟩
/-- The quotient; 0 over 1 when the divisor is 0. -/
def div (a b : Q) : Q :=
  if b.num = 0 then ⟨0, 1⟩ else ⟨a.num * b.den * b.num.sign, a.den * b.num.natAbs⟩
def le (a b : Q) : Bool := a.num * b.den ≤ b.num * a.den
def lt (a b : Q) : Bool := a.num * b.den < b.num * a.den
def abs (a : Q) : Q := ⟨a.num.natAbs, a.den⟩
/-- The same number in lowest terms, so that sums over many beats stay small. -/
def norm (a : Q) : Q :=
  let g := Nat.gcd a.num.natAbs a.den
  if g = 0 then a else ⟨a.num / (g : Int), a.den / g⟩
/-- Rounded to the nearest integer, halves away from 0. -/
def round (a : Q) : Int :=
  if a.den = 0 then 0
  else a.num.sign * (((2 * a.num.natAbs + a.den) / (2 * a.den) : Nat) : Int)
/-- Rounded down. -/
def floor (a : Q) : Int := if a.den = 0 then 0 else a.num / (a.den : Int)
/-- Rounded up. -/
def ceil (a : Q) : Int := -(floor (neg a))
def max (a b : Q) : Q := if le a b then b else a
def min (a b : Q) : Q := if le a b then a else b
def clamp (lo hi a : Q) : Q := max lo (min hi a)
end Q

/-- The not-a-number pattern the registers show for "no value". -/
def f32NaN : Word := 0x7FC00000#32

def f32IsNaN (w : Word) : Bool :=
  (w.toNat / 0x800000) % 0x100 = 0xFF && w.toNat % 0x800000 ≠ 0

def f32IsInf (w : Word) : Bool :=
  (w.toNat / 0x800000) % 0x100 = 0xFF && w.toNat % 0x800000 = 0

/-- The exact value of a finite binary32 pattern. -/
def f32Val (w : Word) : Option Q :=
  let e := (w.toNat / 0x800000) % 0x100
  let m := w.toNat % 0x800000
  let sg : Int := if w.toNat / 0x80000000 = 1 then -1 else 1
  if e = 0xFF then none
  else
    let mant : Nat := if e = 0 then m else m + 0x800000
    let ex : Nat := if e = 0 then 1 else e          -- value = mant * 2^(ex - 150)
    if 150 ≤ ex then some ⟨sg * ((mant * 2 ^ (ex - 150) : Nat) : Int), 1⟩
    else some ⟨sg * (mant : Int), 2 ^ (150 - ex)⟩

/-- Division of naturals to nearest, ties to even. -/
def divNearestEven (a b : Nat) : Nat :=
  if b = 0 then 0
  else
    let q := a / b
    let r := a % b
    if 2 * r < b then q else if b < 2 * r then q + 1 else if q % 2 = 0 then q else q + 1

/-- The binary32 pattern nearest to an exact number (ties to even; too large a magnitude gives infinity). -/
def f32OfQ (a : Q) : Word :=
  let n := a.num.natAbs
  let d := a.den
  let sg : Nat := if a.num < 0 then 0x80000000 else 0
  if n = 0 ∨ d = 0 then 0#32
  else
    -- the exponent e with 2^e ≤ n/d < 2^(e+1), kept as e + 200
    let e0 : Nat := 200 + Nat.log2 n - Nat.log2 d
    let ge : Nat → Bool := fun e => if 200 ≤ e then d * 2 ^ (e - 200) ≤ n else d ≤ n * 2 ^ (200 - e)
    let e : Nat := if ge e0 then e0 else e0 - 1
    let e := Nat.max e 74                              -- 2^-126 is the least normal exponent
    -- the significand n/d * 2^(23 - e), rounded
    let m : Nat := if e ≤ 223 then divNearestEven (n * 2 ^ (223 - e)) d else divNearestEven n (d * 2 ^ (e - 223))
    let bits : Nat := if m < 0x800000 then m else (e - 73) * 0x800000 + (m - 0x800000)
    if 0x7F800000 ≤ bits then BitVec.ofNat 32 (sg + 0x7F800000) else BitVec.ofNat 32 (sg + bits)

/-- Value of a register setting, with 0 for a pattern that is no finite number (only where the setting cannot hold one). -/
def f32Q (w : Word) : Q := (f32Val w).getD ⟨0, 1⟩

/-- Comparison of two patterns as numbers; false when either is no finite number. -/
def f32Lt (a b : Word) : Bool :=
  match f32Val a, f32Val b with
  | some x, some y => Q.lt x y
  | _, _ => false

/-! ### Angles (log entry 10): fixed-point numbers of 10^-18, angles in 10^-9 degrees -/

def fxOne : Int := 1000000000000000000
/-- π in 10^-18. -/
def fxPi : Int := 3141592653589793238
/-- An angle in radians. -/
def radFx (u : Int) : Int := u * fxPi / 180000000000
/-- The next terms of the sine's power series; `x2` is the square of the argument. -/
def sinTerms (x2 : Int) : Nat → Nat → Int → Int → Int
  | 0, _, _, acc => acc
  | f + 1, k, term, acc =>
    let t := -(term * x2 / fxOne) / ((2 * k * (2 * k + 1) : Nat) : Int)
    sinTerms x2 f (k + 1) t (acc + t)
/-- The sine of an angle. -/
def sinFx (u : Int) : Int :=
  let r := u % 360000000000
  let x := radFx (if 180000000000 < r then r - 360000000000 else r)
  sinTerms (x * x / fxOne) 20 1 x x
def cosFx (u : Int) : Int := sinFx (u + 90000000000)
/-- sin x / x of an angle. -/
def sincFx (u : Int) : Int := if radFx u = 0 then fxOne else sinFx u * fxOne / radFx u
/-- The largest number below `2 ^ bits` whose square is at most `v`. -/
def isqrt (v : Nat) : Nat → Nat → Nat
  | 0, r => r
  | b + 1, r => isqrt v b (if (r + 2 ^ b) * (r + 2 ^ b) ≤ v then r + 2 ^ b else r)
/-- The angle from 0 to 180° of a vector in the upper half plane, bit by bit. -/
def angleUp (x y : Int) : Nat → Nat → Nat
  | 0, a => a
  | b + 1, a =>
    let c := a + 2 ^ b
    angleUp x y b (if c ≤ 180000000000 && 0 ≤ y * cosFx c - x * sinFx c then c else a)
/-- The angle of a vector, from −180° to 180°. -/
def angleFx (x y : Int) : Int := if 0 ≤ y then (angleUp x y 38 0 : Nat) else -((angleUp x (-y) 38 0 : Nat) : Int)

/-- The two's complement of `z` in `w` bits, as a natural number. -/
def twos (w : Nat) (z : Int) : Nat := (z % (2 ^ w : Int)).toNat
/-- The signed value of a `w`-bit field. -/
def signed (w : Nat) (v : Nat) : Int := if v < 2 ^ (w - 1) then (v : Int) else (v : Int) - (2 ^ w : Int)

/-- `a` plus `b`, saturating at `m`. -/
def satAdd (m a b : Nat) : Nat := if m < a + b then m else a + b

/-- The bytes of a number, least significant first (R3). -/
def bytesLE : Nat → Nat → List Byte
  | 0, _ => []
  | k + 1, v => BitVec.ofNat 8 v :: bytesLE k (v / 256)

/-- The number a list of bytes spells, least significant first (R3). -/
def natLE : List Byte → Nat
  | [] => 0
  | b :: t => b.toNat + 256 * natLE t

/-- One bit of the reflected CRC-32 with polynomial 0x04C1_1DB7 (R361). -/
def crc32Bit (c : Nat) : Nat := if c % 2 = 1 then Nat.xor (c / 2) 0xEDB88320 else c / 2
def crc32Byte (c b : Nat) : Nat :=
  crc32Bit (crc32Bit (crc32Bit (crc32Bit (crc32Bit (crc32Bit (crc32Bit (crc32Bit (Nat.xor c b))))))))
/-- The CRC-32 of R361. -/
def crc32 (l : List Byte) : Nat := Nat.xor (l.foldl (fun c b => crc32Byte c b.toNat) 0xFFFFFFFF) 0xFFFFFFFF

end Sys2Proof.Machine
end

