-- ==== Sys2Proof/Machine/Codes.lean ====
section
/-! DEFINITION. The Archive's node codes with their fixed forms and default flood rules
(Tables 8-6, 9-14, 10-10, 11-8, 12-8, 13-12, 14-8 and 15-10). -/
namespace Sys2Proof.Machine

/-- A node code of the code tables. `form`: 0 S, 1 H, 2 T; `rule`: 0 NONE, 1 LIMIT, 2 REPEAT. -/
structure CodeRow where
  code : Nat
  name : String
  form : Nat
  rule : Nat
  rate : Nat
  burst : Nat
  settable : Bool
deriving DecidableEq, Repr

/-- A code of form T with no flood rule that a SET cannot change. -/
def codeT (c : Nat) (nm : String) : CodeRow := ⟨c, nm, 2, 0, 60, 10, false⟩
/-- A code of form H with no flood rule. -/
def codeH (c : Nat) (nm : String) : CodeRow := ⟨c, nm, 1, 0, 60, 10, false⟩
/-- A settable code of form T with a LIMIT rule. -/
def codeL (c : Nat) (nm : String) (rate burst : Nat) : CodeRow := ⟨c, nm, 2, 1, rate, burst, true⟩

/-- Node codes of the Archive, start-up, time, measurement and alarms (Table 8-6). -/
def codeRows0 : List CodeRow := [
  codeH 0x001 "START", codeT 0x002 "POWER-FAIL", codeH 0x003 "VAULT-RESEALED", codeT 0x004 "VAULT-SEALED",
  codeT 0x005 "INTAKE-OVERFLOW", codeT 0x006 "DISCARDED", codeT 0x007 "GALLERY-CLEARED", codeT 0x008 "ARC-RESUMED",
  codeL 0x009 "NV-FAULT" 6 2, codeH 0x00A "ACCESSION-END", codeH 0x00B "MR-CUT", codeT 0x00C "HOST-LOST",
  codeT 0x00D "HOST-BACK", codeT 0x020 "TIME-SOURCE", codeT 0x021 "TIME-STEP", codeT 0x022 "LEAP-APPLIED",
  codeT 0x023 "REF-CLOCK-FAIL", ⟨0x024, "BEAT-OVERRUN", 2, 0, 60, 10, true⟩, codeT 0x030 "QUAD-FAILED",
  codeT 0x031 "QUAD-MIGRATED", codeT 0x032 "QUAD-RESTORED", codeT 0x033 "QX-FAILED",
  codeL 0x040 "LO-SHORTFALL" 30 8, codeL 0x041 "LO-OPEN" 30 8, codeL 0x042 "LO-DISAGREE" 30 8,
  codeL 0x043 "LO-THERMAL" 30 8, codeT 0x044 "LO-CHECK-FAIL", codeT 0x045 "LO-CHECK-OK",
  codeL 0x050 "GRID-FREQ-RANGE" 30 8, codeT 0x051 "TRANSIENT", codeT 0x060 "ALM-POINT", codeT 0x061 "ALM-GROUP"]

/-- Node codes of Allieno, pins, display, Annex core, DIC and power. -/
def codeRows1 : List CodeRow := [
  codeL 0x070 "BUS-OFF" 30 8, codeL 0x071 "BUS-RECOVERED" 30 8, codeT 0x072 "BUS-GEN-FALLBACK",
  codeL 0x073 "CARAVAN-DISCARDED" 30 8, codeT 0x074 "BUS-PORT-OFF", codeT 0x075 "SURVEY-BEGIN", codeT 0x076 "SURVEY-END",
  codeT 0x077 "STATION-ASSIGNED", codeT 0x078 "NODE-JOINED", codeT 0x079 "NODE-VANISHED", codeT 0x07A "MARK-SENDER",
  codeL 0x07B "PORT-SLEEP" 30 8, codeL 0x07C "PORT-WAKE" 30 8, codeL 0x07D "PAIR-PORT-SILENT" 30 8,
  codeL 0x07E "WAY-DROPPED" 6 2, codeL 0x090 "GP-BANK" 6 2, codeT 0x091 "GP-LOCKED", codeL 0x092 "TW-STUCK" 6 2,
  codeL 0x093 "TW-CLEARED" 6 2, codeL 0x0A0 "DISP-RAIL-FAULT" 6 2, codeT 0x0A1 "DISP-ABANDONED",
  codeL 0x0A2 "DISP-TEMP-RANGE" 6 2, codeL 0x0B0 "ANNEX-FAULT" 6 2, codeT 0x0B1 "ANNEX-START", codeT 0x0B2 "ANNEX-STOP",
  codeT 0x0B3 "DIC-WAKE", codeL 0x0B4 "DIC-STRAY" 6 2, codeT 0x0C0 "POWER-STATE", codeT 0x0C1 "CONFIG-COMMIT",
  codeH 0x0C2 "CONFIG-LOAD", codeL 0x0C3 "HOLD-STATE" 6 2, codeL 0x0C4 "CORE-LIMIT" 6 2]

def codeRows : List CodeRow := codeRows0 ++ codeRows1

/-- The row of an assigned node code. -/
def codeRow (c : Nat) : Option CodeRow := codeRows.find? (fun r => r.code == c)

/-- ARC.CODEc at reset (Table 8-10, R239): the code tables' entry; 0x0000_0001 for code 0 and an unassigned node code. -/
def codeReset (c : Nat) : Word :=
  if 0x100 ≤ c then BitVec.ofNat 32 (10 * 0x1000000 + 60 * 0x100 + 2 * 2)
  else match codeRow c with
    | some r => BitVec.ofNat 32 (r.burst * 0x1000000 + r.rate * 0x100 + r.rule * 8 + r.form * 2 + 1)
    | none => 1#32

/-- The name of a code in replies. -/
def codeName (c : Nat) : String :=
  if 0x100 ≤ c then "USER" else match codeRow c with
    | some r => r.name
    | none => "NONE"

end Sys2Proof.Machine
end

