-- ==== Sys2Proof/Machine/RegMap.lean ====
section
/-! DEFINITION. The register map: every register of the spec's register tables with its address, its fields,
their access codes (Table 0-4) and its reset value, and one accessor `Fd` per field. -/
namespace Sys2Proof.Machine

/-- Access codes (R4, Table 0-4). -/
inductive Acc
  | RW | RO | WO | W1C | RC | RWL
deriving DecidableEq, Repr

/-- One field of a register table. -/
structure FieldRow where
  name : String
  hi : Nat
  lo : Nat
  acc : Acc
deriving DecidableEq, Repr

/-- One register, or `count` registers `stride` apart, of a register table. -/
structure RegRow where
  name : String
  addr : Nat
  stride : Nat
  count : Nat
  reset : Word
  fields : List FieldRow
deriving DecidableEq, Repr

/-- A field of the register at an address. -/
structure Fd where
  addr : Nat
  hi : Nat
  lo : Nat
deriving DecidableEq, Repr

/-- The field's width in bits. -/
def Fd.width (f : Fd) : Nat := f.hi + 1 - f.lo
/-- The field of a word, shifted down to bit 0. -/
def Fd.get (f : Fd) (w : Word) : Nat := w.toNat / 2 ^ f.lo % 2 ^ f.width
/-- The word with the field set to the low bits of `v`, every other bit kept. -/
def Fd.put (f : Fd) (w : Word) (v : Nat) : Word :=
  BitVec.ofNat 32 (w.toNat / 2 ^ (f.hi + 1) * 2 ^ (f.hi + 1) + v % 2 ^ f.width * 2 ^ f.lo + w.toNat % 2 ^ f.lo)

/-- Register rows of block 0x4000_0000 (part 0). -/
def regRows0_0 : List RegRow := [
  ⟨"DIC.DOORBELL", 0x40000000, 0, 1, 0x00000000#32,
   [⟨"SRC", 7, 0, .WO⟩]⟩,
  ⟨"DIC.COMPLETE", 0x40000004, 0, 1, 0x00000000#32,
   [⟨"SRC", 7, 0, .WO⟩]⟩,
  ⟨"DIC.GDIS", 0x40000008, 0, 1, 0x00000000#32,
   [⟨"HOST", 1, 1, .RW⟩, ⟨"ANNEX", 0, 0, .RW⟩]⟩,
  ⟨"DIC.CTRL", 0x4000000C, 0, 1, 0x00000000#32,
   [⟨"STRAYCLR", 8, 8, .WO⟩]⟩,
  ⟨"DIC.STAT", 0x40000010, 0, 1, 0x00000000#32,
   [⟨"WFI", 31, 31, .RO⟩, ⟨"DEPTH", 28, 24, .RO⟩, ⟨"RUNPRIO", 23, 16, .RO⟩, ⟨"INNER", 7, 0, .RO⟩]⟩,
  ⟨"DIC.STRAYCNT", 0x40000014, 0, 1, 0x00000000#32,
   [⟨"COUNT", 15, 0, .RO⟩]⟩,
  ⟨"DIC.STRAYSRC", 0x40000018, 0, 1, 0x00000000#32,
   [⟨"REQ", 8, 8, .RO⟩, ⟨"SRC", 7, 0, .RO⟩]⟩,
  ⟨"DIC.EVT", 0x4000001C, 0, 1, 0x00000000#32,
   [⟨"CFGERR", 0, 0, .W1C⟩, ⟨"STRAY", 1, 1, .W1C⟩, ⟨"WAKE", 2, 2, .W1C⟩]⟩,
  ⟨"DIC.BAND", 0x40000020, 4, 8, 0xFFFFFFFF#32,
   [⟨"EDGE", 31, 0, .RW⟩]⟩,
  ⟨"DIC.MODT", 0x40000040, 4, 8, 0x00000000#32,
   [⟨"MODT", 9, 0, .RW⟩]⟩,
  ⟨"DIC.PEND", 0x40000080, 4, 8, 0x00000000#32,
   [⟨"PEND", 31, 0, .RW⟩]⟩,
  ⟨"DIC.ENA", 0x400000A0, 4, 8, 0x00000000#32,
   [⟨"ENA", 31, 0, .RW⟩]⟩,
  ⟨"DIC.ACT", 0x400000C0, 4, 8, 0x00000000#32,
   [⟨"ACT", 31, 0, .RO⟩]⟩,
  ⟨"DIC.RANG", 0x400000E0, 4, 8, 0x00000000#32,
   [⟨"RANG", 31, 0, .W1C⟩]⟩,
  ⟨"DIC.SRC", 0x40000400, 4, 256, 0x000000FF#32,
   [⟨"MODSEL", 14, 12, .RW⟩, ⟨"MODEN", 11, 11, .RW⟩, ⟨"TARGET", 8, 8, .RW⟩, ⟨"PRIO", 7, 0, .RW⟩]⟩,
  ⟨"DIC.VECT", 0x40000800, 4, 256, 0x00000000#32,
   [⟨"VECT", 31, 0, .RW⟩]⟩,
  ⟨"DIC.WATCH", 0x40000C00, 4, 16, 0x00000000#32,
   [⟨"EN", 8, 8, .RW⟩, ⟨"SRC", 7, 0, .RW⟩]⟩,
  ⟨"DIC.WAKESRC", 0x40000C40, 0, 1, 0x00000000#32,
   [⟨"VALID", 8, 8, .RO⟩, ⟨"SRC", 7, 0, .RO⟩]⟩]
def regRows0 : List RegRow := regRows0_0
/-- Register rows of block 0x4001_0000 (part 0). -/
def regRows1_0 : List RegRow := [
  ⟨"GP.FN", 0x40010000, 4, 48, 0x00008000#32,
   [⟨"LOCKED", 31, 31, .RO⟩, ⟨"FILT", 21, 20, .RWL⟩, ⟨"IRQ", 18, 16, .RWL⟩, ⟨"PULL", 15, 14, .RWL⟩, ⟨"MODE", 13, 12, .RWL⟩, ⟨"ALTSUB", 11, 9, .RWL⟩, ⟨"ALT", 8, 6, .RWL⟩, ⟨"SUB", 5, 3, .RWL⟩, ⟨"FSEL", 2, 0, .RWL⟩]⟩,
  ⟨"GP.GPOUT0", 0x40010100, 0, 1, 0x00000000#32,
   [⟨"OUT", 31, 0, .RW⟩]⟩,
  ⟨"GP.GPOUT1", 0x40010104, 0, 1, 0x00000000#32,
   [⟨"OUT", 15, 0, .RW⟩]⟩,
  ⟨"GP.GPIN0", 0x40010108, 0, 1, 0x00000000#32,
   [⟨"IN", 31, 0, .RO⟩]⟩,
  ⟨"GP.GPIN1", 0x4001010C, 0, 1, 0x00000000#32,
   [⟨"IN", 15, 0, .RO⟩]⟩,
  ⟨"GP.GPISTAT0", 0x40010110, 0, 1, 0x00000000#32,
   [⟨"EVT", 31, 0, .W1C⟩]⟩,
  ⟨"GP.GPISTAT1", 0x40010114, 0, 1, 0x00000000#32,
   [⟨"EVT", 15, 0, .W1C⟩]⟩,
  ⟨"GP.HWMASK0", 0x40010118, 0, 1, 0x00000000#32,
   [⟨"HW", 31, 0, .RO⟩]⟩,
  ⟨"GP.HWMASK1", 0x4001011C, 0, 1, 0x00000000#32,
   [⟨"HW", 15, 0, .RO⟩]⟩,
  ⟨"GP.HWSEQ", 0x40010120, 0, 1, 0x00000000#32,
   [⟨"SEQ", 31, 0, .RO⟩]⟩,
  ⟨"GP.HWREFRESH", 0x40010124, 0, 1, 0x00000000#32,
   [⟨"REFRESH", 0, 0, .WO⟩]⟩,
  ⟨"GP.GPLOCK", 0x40010130, 0, 1, 0x00000000#32,
   [⟨"KEY", 31, 0, .WO⟩]⟩,
  ⟨"GP.LOCKSTA", 0x40010134, 0, 1, 0x00000000#32,
   [⟨"LOCK", 23, 0, .RO⟩]⟩,
  ⟨"GP.LOCKSTB", 0x40010138, 0, 1, 0x00000000#32,
   [⟨"LOCK", 23, 0, .RO⟩]⟩,
  ⟨"GP.BANK", 0x4001013C, 0, 1, 0x00000000#32,
   [⟨"B", 9, 8, .RO⟩, ⟨"A", 1, 0, .RO⟩]⟩,
  ⟨"GP.EVT", 0x40010140, 0, 1, 0x00000000#32,
   [⟨"CFGERR", 0, 0, .W1C⟩, ⟨"LOCKERR", 1, 1, .W1C⟩, ⟨"LOCKWR", 2, 2, .W1C⟩, ⟨"BANKA", 3, 3, .W1C⟩, ⟨"BANKB", 4, 4, .W1C⟩]⟩]
def regRows1 : List RegRow := regRows1_0
/-- Register rows of block 0x4002_0000 (part 0). -/
def regRows2_0 : List RegRow := [
  ⟨"TW.CTRL", 0x40020000, 0, 1, 0x00001900#32,
   [⟨"TIMEOUT", 15, 8, .RW⟩, ⟨"RATE", 2, 1, .RW⟩, ⟨"ENABLE", 0, 0, .RW⟩]⟩,
  ⟨"TW.CMD", 0x40020004, 0, 1, 0x00000100#32,
   [⟨"START", 31, 31, .WO⟩, ⟨"CLEAR", 30, 30, .WO⟩, ⟨"REG", 23, 16, .RW⟩, ⟨"USEREG", 15, 15, .RW⟩, ⟨"COUNT", 13, 8, .RW⟩, ⟨"READ", 7, 7, .RW⟩, ⟨"ADDR", 6, 0, .RW⟩]⟩,
  ⟨"TW.STAT", 0x40020008, 0, 1, 0x00000000#32,
   [⟨"BUSY", 4, 4, .RO⟩, ⟨"STATE", 3, 2, .RO⟩, ⟨"SDA", 1, 1, .RO⟩, ⟨"SCL", 0, 0, .RO⟩]⟩,
  ⟨"TW.RES", 0x4002000C, 0, 1, 0x00000000#32,
   [⟨"BYTES", 15, 8, .RO⟩, ⟨"CODE", 2, 0, .RO⟩]⟩,
  ⟨"TW.EVT", 0x40020010, 0, 1, 0x00000000#32,
   [⟨"DONE", 0, 0, .W1C⟩, ⟨"NACK", 1, 1, .W1C⟩, ⟨"TIMEOUT", 2, 2, .W1C⟩, ⟨"STUCK", 3, 3, .W1C⟩, ⟨"CLEARED", 4, 4, .W1C⟩, ⟨"CFGERR", 5, 5, .W1C⟩, ⟨"OFF", 6, 6, .W1C⟩]⟩,
  ⟨"TW.CNT", 0x40020014, 0, 1, 0x00000000#32,
   [⟨"CLEARED", 23, 16, .RO⟩, ⟨"STUCK", 15, 8, .RO⟩, ⟨"NACK", 7, 0, .RO⟩]⟩,
  ⟨"TW.BUF", 0x40020020, 4, 8, 0x00000000#32,
   [⟨"DATA", 31, 0, .RW⟩]⟩]
def regRows2 : List RegRow := regRows2_0
/-- Register rows of block 0x4003_0000 (part 0). -/
def regRows3_0 : List RegRow := [
  ⟨"TIME.CTRL", 0x40030000, 0, 1, 0x00000100#32,
   [⟨"LEAP", 11, 10, .RW⟩, ⟨"PPSEDGE", 9, 9, .RW⟩, ⟨"IRIGEN", 8, 8, .RW⟩, ⟨"ROLE", 3, 3, .RW⟩, ⟨"SRCSEL", 1, 0, .RW⟩]⟩,
  ⟨"TIME.STATUS", 0x40030004, 0, 1, 0x00000000#32,
   [⟨"STEPSEQ", 31, 24, .RO⟩, ⟨"SETPEND", 11, 11, .RO⟩, ⟨"FINUTOK", 10, 10, .RO⟩, ⟨"IRIGOK", 9, 9, .RO⟩, ⟨"PPSOK", 8, 8, .RO⟩, ⟨"SOURCE", 5, 4, .RO⟩, ⟨"STATE", 2, 0, .RO⟩]⟩,
  ⟨"TIME.SECHI", 0x40030008, 0, 1, 0x00000000#32,
   [⟨"SECHI", 15, 0, .RO⟩]⟩,
  ⟨"TIME.SECLO", 0x4003000C, 0, 1, 0x00000000#32,
   [⟨"SECLO", 31, 0, .RO⟩]⟩,
  ⟨"TIME.QNS", 0x40030010, 0, 1, 0x00000000#32,
   [⟨"QNS", 31, 0, .RO⟩]⟩,
  ⟨"TIME.OFFSET", 0x40030014, 0, 1, 0x00000000#32,
   [⟨"OFFSET", 31, 0, .RO⟩]⟩,
  ⟨"TIME.FREQ", 0x40030018, 0, 1, 0x00000000#32,
   [⟨"FREQ", 31, 0, .RO⟩]⟩,
  ⟨"TIME.EST", 0x4003001C, 0, 1, 0xFFFFFFFF#32,
   [⟨"EST", 31, 0, .RO⟩]⟩,
  ⟨"TIME.SERVO", 0x40030020, 0, 1, 0x0032000A#32,
   [⟨"SLEWMAX", 31, 16, .RW⟩, ⟨"STEPLIM", 15, 0, .RW⟩]⟩,
  ⟨"TIME.PPSCFG", 0x40030024, 0, 1, 0x006403E8#32,
   [⟨"PULSEW", 31, 16, .RW⟩, ⟨"PPSWIN", 15, 0, .RW⟩]⟩,
  ⟨"TIME.PPSDLY", 0x40030028, 0, 1, 0x00000000#32,
   [⟨"PPSDLY", 31, 0, .RW⟩]⟩,
  ⟨"TIME.IRIGCFG", 0x4003002C, 0, 1, 0x00250004#32,
   [⟨"TAIUTC", 23, 16, .RW⟩, ⟨"YEAR", 15, 8, .RW⟩, ⟨"CODE", 2, 0, .RW⟩]⟩,
  ⟨"TIME.CAPCFG", 0x40030040, 4, 8, 0x00000000#32,
   [⟨"ENABLE", 8, 8, .RW⟩, ⟨"EDGE", 7, 6, .RW⟩, ⟨"SEL", 5, 0, .RW⟩]⟩,
  ⟨"TIME.CAPSEC", 0x40030080, 8, 8, 0x00000000#32,
   [⟨"SEC", 31, 0, .RO⟩]⟩,
  ⟨"TIME.CAPQNS", 0x40030084, 8, 8, 0x00000000#32,
   [⟨"QNS", 31, 0, .RO⟩]⟩,
  ⟨"TIME.CAPPOP", 0x400300C0, 0, 1, 0x00000000#32,
   [⟨"POP", 7, 0, .WO⟩]⟩,
  ⟨"TIME.CAPSTAT", 0x400300C4, 0, 1, 0x00000000#32,
   [⟨"OVF0", 3, 3, .W1C⟩, ⟨"COUNT0", 2, 0, .RO⟩, ⟨"OVF1", 7, 7, .W1C⟩, ⟨"COUNT1", 6, 4, .RO⟩, ⟨"OVF2", 11, 11, .W1C⟩, ⟨"COUNT2", 10, 8, .RO⟩, ⟨"OVF3", 15, 15, .W1C⟩, ⟨"COUNT3", 14, 12, .RO⟩, ⟨"OVF4", 19, 19, .W1C⟩, ⟨"COUNT4", 18, 16, .RO⟩, ⟨"OVF5", 23, 23, .W1C⟩, ⟨"COUNT5", 22, 20, .RO⟩, ⟨"OVF6", 27, 27, .W1C⟩, ⟨"COUNT6", 26, 24, .RO⟩, ⟨"OVF7", 31, 31, .W1C⟩, ⟨"COUNT7", 30, 28, .RO⟩]⟩,
  ⟨"BEAT.STATUS", 0x40030100, 0, 1, 0x00000000#32,
   [⟨"INDEX", 31, 16, .RO⟩, ⟨"STEPSEQ", 15, 8, .RO⟩, ⟨"ADJNOW", 2, 2, .RO⟩, ⟨"SHORT", 1, 1, .RO⟩, ⟨"STRETCH", 0, 0, .RO⟩]⟩,
  ⟨"BEAT.ADJ", 0x40030104, 0, 1, 0x00000000#32,
   [⟨"NUMBER", 31, 16, .RO⟩, ⟨"LEN", 15, 0, .RO⟩]⟩,
  ⟨"BEAT.ADJSEC", 0x40030108, 0, 1, 0x00000000#32,
   [⟨"SEC", 31, 0, .RO⟩]⟩,
  ⟨"BEAT.OVR0", 0x40030110, 0, 1, 0x00000000#32,
   [⟨"GRID", 31, 16, .RO⟩, ⟨"SEQ", 15, 0, .RO⟩]⟩,
  ⟨"BEAT.OVR1", 0x40030114, 0, 1, 0x00000000#32,
   [⟨"LO", 31, 16, .RO⟩, ⟨"ALM", 15, 0, .RO⟩]⟩,
  ⟨"BEAT.OVR2", 0x40030118, 0, 1, 0x00000000#32,
   [⟨"ARC", 31, 16, .RO⟩, ⟨"GPIO", 15, 0, .RO⟩]⟩,
  ⟨"BEAT.OVR3", 0x4003011C, 0, 1, 0x00000000#32,
   [⟨"NODE", 15, 0, .RO⟩]⟩,
  ⟨"BEAT.OVRCLR", 0x40030120, 0, 1, 0x00000000#32,
   [⟨"CLR", 6, 0, .WO⟩]⟩,
  ⟨"BEAT.LATE", 0x40030124, 0, 1, 0x00000000#32,
   [⟨"LATE", 6, 0, .W1C⟩]⟩]
def regRows3 : List RegRow := regRows3_0
/-- Register rows of block 0x4004_0000 (part 0). -/
def regRows4_0 : List RegRow := [
  ⟨"UC.CFG", 0x40040000, 64, 24, 0x00000600#32,
   [⟨"SENSOR", 23, 20, .RW⟩, ⟨"REJ", 17, 16, .RW⟩, ⟨"RATE", 14, 12, .RW⟩, ⟨"LOSSACT", 11, 11, .RW⟩, ⟨"DISACT", 10, 10, .RW⟩, ⟨"PFACT", 9, 9, .RW⟩, ⟨"MODE", 3, 0, .RW⟩]⟩,
  ⟨"UC.OPT", 0x40040004, 64, 24, 0x00050078#32,
   [⟨"CJSRC", 31, 30, .RW⟩, ⟨"CJCH", 29, 25, .RW⟩, ⟨"OWPER", 24, 15, .RW⟩, ⟨"DEB", 14, 5, .RW⟩, ⟨"OW", 4, 4, .RW⟩, ⟨"NE43", 3, 3, .RW⟩, ⟨"LOOPPWR", 2, 2, .RW⟩, ⟨"RDY", 1, 1, .RW⟩]⟩,
  ⟨"UC.PLO", 0x40040008, 64, 24, 0x00000000#32,
   [⟨"PLO", 31, 0, .RW⟩]⟩,
  ⟨"UC.PHI", 0x4004000C, 64, 24, 0x00000000#32,
   [⟨"PHI", 31, 0, .RW⟩]⟩,
  ⟨"UC.ELO", 0x40040010, 64, 24, 0x00000000#32,
   [⟨"ELO", 31, 0, .RW⟩]⟩,
  ⟨"UC.EHI", 0x40040014, 64, 24, 0x00000000#32,
   [⟨"EHI", 31, 0, .RW⟩]⟩,
  ⟨"UC.RLO", 0x40040018, 64, 24, 0x7FC00000#32,
   [⟨"RLO", 31, 0, .RW⟩]⟩,
  ⟨"UC.RHI", 0x4004001C, 64, 24, 0x7FC00000#32,
   [⟨"RHI", 31, 0, .RW⟩]⟩,
  ⟨"UC.CJFIX", 0x40040020, 64, 24, 0x41C80000#32,
   [⟨"CJFIX", 31, 0, .RW⟩]⟩,
  ⟨"UC.LEAD", 0x40040024, 64, 24, 0x00000000#32,
   [⟨"LEAD", 31, 0, .RW⟩]⟩,
  ⟨"UC.OUT", 0x40040028, 64, 24, 0x00000000#32,
   [⟨"OUT", 31, 0, .RW⟩]⟩,
  ⟨"UC.SAFE", 0x4004002C, 64, 24, 0x00000000#32,
   [⟨"SAFE", 31, 0, .RW⟩]⟩,
  ⟨"UC.RAMP", 0x40040030, 64, 24, 0x00000000#32,
   [⟨"RAMP", 31, 0, .RW⟩]⟩,
  ⟨"UC.VAL", 0x40040034, 64, 24, 0x7FC00000#32,
   [⟨"VAL", 31, 0, .RO⟩]⟩,
  ⟨"UC.PHYS", 0x40040038, 64, 24, 0x7FC00000#32,
   [⟨"PHYS", 31, 0, .RO⟩]⟩,
  ⟨"UC.VSTAT", 0x40040600, 0, 1, 0x00000000#32,
   [⟨"BEAT", 31, 16, .RO⟩, ⟨"STALE", 15, 15, .RO⟩, ⟨"FAULT", 14, 14, .RO⟩, ⟨"OPEN", 13, 13, .RO⟩, ⟨"OVER", 12, 12, .RO⟩, ⟨"UNDER", 11, 11, .RO⟩, ⟨"OUTHI", 10, 10, .RO⟩, ⟨"OUTLO", 9, 9, .RO⟩, ⟨"CJFAULT", 8, 8, .RO⟩, ⟨"QX", 7, 7, .RO⟩, ⟨"SFAULT", 6, 6, .RO⟩, ⟨"VFAULT", 5, 5, .RO⟩]⟩,
  ⟨"UC.QSTAT", 0x40040604, 0, 1, 0x00070000#32,
   [⟨"QX", 13, 12, .RO⟩, ⟨"QXFOR", 18, 16, .RO⟩, ⟨"Q0", 1, 0, .RO⟩, ⟨"Q1", 3, 2, .RO⟩, ⟨"Q2", 5, 4, .RO⟩, ⟨"Q3", 7, 6, .RO⟩, ⟨"Q4", 9, 8, .RO⟩, ⟨"Q5", 11, 10, .RO⟩]⟩,
  ⟨"UC.QEVT", 0x40040608, 0, 1, 0x00000000#32,
   [⟨"FAILED", 6, 0, .W1C⟩, ⟨"MIGRATED", 13, 8, .W1C⟩, ⟨"RESTORED", 21, 16, .W1C⟩, ⟨"CFGERR", 24, 24, .W1C⟩]⟩,
  ⟨"UC.QLOAD", 0x4004060C, 0, 1, 0x00000000#32,
   [⟨"LOAD0", 3, 0, .RO⟩, ⟨"LOAD1", 7, 4, .RO⟩, ⟨"LOAD2", 11, 8, .RO⟩, ⟨"LOAD3", 15, 12, .RO⟩, ⟨"LOAD4", 19, 16, .RO⟩, ⟨"LOAD5", 23, 20, .RO⟩, ⟨"LOAD6", 27, 24, .RO⟩]⟩,
  ⟨"UC.RDYMASK", 0x40040610, 0, 1, 0x00000000#32,
   [⟨"RDY", 23, 0, .RO⟩]⟩,
  ⟨"UC.FLAGCHG", 0x40040614, 0, 1, 0x00000000#32,
   [⟨"CHG", 23, 0, .W1C⟩]⟩,
  ⟨"UC.CJTEMP", 0x40040618, 0, 1, 0x00000000#32,
   [⟨"CJTEMP", 31, 0, .RO⟩]⟩,
  ⟨"UC.CTNPT", 0x40040620, 0, 1, 0x00000000#32,
   [⟨"NPT0", 5, 0, .RW⟩, ⟨"NPT1", 13, 8, .RW⟩, ⟨"NPT2", 21, 16, .RW⟩, ⟨"NPT3", 29, 24, .RW⟩]⟩,
  ⟨"UC.CTAB0OHM", 0x40040800, 8, 32, 0x00000000#32,
   [⟨"OHM", 31, 0, .RW⟩]⟩,
  ⟨"UC.CTAB0DEGC", 0x40040804, 8, 32, 0x00000000#32,
   [⟨"DEGC", 31, 0, .RW⟩]⟩,
  ⟨"UC.CTAB1OHM", 0x40040900, 8, 32, 0x00000000#32,
   [⟨"OHM", 31, 0, .RW⟩]⟩,
  ⟨"UC.CTAB1DEGC", 0x40040904, 8, 32, 0x00000000#32,
   [⟨"DEGC", 31, 0, .RW⟩]⟩,
  ⟨"UC.CTAB2OHM", 0x40040A00, 8, 32, 0x00000000#32,
   [⟨"OHM", 31, 0, .RW⟩]⟩,
  ⟨"UC.CTAB2DEGC", 0x40040A04, 8, 32, 0x00000000#32,
   [⟨"DEGC", 31, 0, .RW⟩]⟩,
  ⟨"UC.CTAB3OHM", 0x40040B00, 8, 32, 0x00000000#32,
   [⟨"OHM", 31, 0, .RW⟩]⟩]
/-- Register rows of block 0x4004_0000 (part 1). -/
def regRows4_1 : List RegRow := [
  ⟨"UC.CTAB3DEGC", 0x40040B04, 8, 32, 0x00000000#32,
   [⟨"DEGC", 31, 0, .RW⟩]⟩]
def regRows4 : List RegRow := regRows4_0 ++ regRows4_1
/-- Register rows of block 0x4005_0000 (part 0). -/
def regRows5_0 : List RegRow := [
  ⟨"LO.CFG", 0x40050000, 64, 8, 0x00001010#32,
   [⟨"PFACT", 13, 12, .RW⟩, ⟨"LOSSACT", 9, 8, .RW⟩, ⟨"DISACT", 4, 4, .RW⟩, ⟨"MODE", 1, 0, .RW⟩]⟩,
  ⟨"LO.OUT", 0x40050004, 64, 8, 0x00000000#32,
   [⟨"OUT", 31, 0, .RW⟩]⟩,
  ⟨"LO.SAFE", 0x40050008, 64, 8, 0x40800000#32,
   [⟨"SAFE", 31, 0, .RW⟩]⟩,
  ⟨"LO.RAMP", 0x4005000C, 64, 8, 0x00000000#32,
   [⟨"RAMP", 31, 0, .RW⟩]⟩,
  ⟨"LO.SRAMP", 0x40050010, 64, 8, 0x00000000#32,
   [⟨"SRAMP", 31, 0, .RW⟩]⟩,
  ⟨"LO.PFRAMP", 0x40050014, 64, 8, 0x00000000#32,
   [⟨"PFRAMP", 31, 0, .RW⟩]⟩,
  ⟨"LO.DAC", 0x40050018, 64, 8, 0x00000000#32,
   [⟨"CODE", 15, 0, .RO⟩]⟩,
  ⟨"LO.RB", 0x4005001C, 64, 8, 0x7FC00000#32,
   [⟨"RB", 31, 0, .RO⟩]⟩,
  ⟨"LO.PIN", 0x40050020, 64, 8, 0x7FC00000#32,
   [⟨"PIN", 31, 0, .RO⟩]⟩,
  ⟨"LO.SUP", 0x40050024, 64, 8, 0x00000000#32,
   [⟨"SUP", 31, 0, .RO⟩]⟩,
  ⟨"LO.TEMP", 0x40050028, 64, 8, 0x7FC00000#32,
   [⟨"TEMP", 31, 0, .RO⟩]⟩,
  ⟨"LO.STAT", 0x4005002C, 64, 8, 0x00000000#32,
   [⟨"BEAT", 31, 16, .RO⟩, ⟨"STATE", 15, 14, .RO⟩, ⟨"ACTION", 13, 13, .RO⟩, ⟨"RAMPING", 12, 12, .RO⟩, ⟨"HELD", 11, 11, .RO⟩, ⟨"SHORTFALL", 10, 10, .RO⟩, ⟨"OPEN", 9, 9, .RO⟩, ⟨"DISAGREE", 8, 8, .RO⟩, ⟨"THERMAL", 7, 7, .RO⟩, ⟨"UNVERIFIED", 6, 6, .RO⟩]⟩,
  ⟨"LO.EVT0", 0x40050200, 0, 1, 0x00000000#32,
   [⟨"SHORTFALL", 7, 0, .W1C⟩, ⟨"OPEN", 15, 8, .W1C⟩, ⟨"DISAGREE", 23, 16, .W1C⟩, ⟨"THERMAL", 31, 24, .W1C⟩]⟩,
  ⟨"LO.EVT1", 0x40050204, 0, 1, 0x00000000#32,
   [⟨"ACTDONE", 7, 0, .W1C⟩, ⟨"CFGERR", 8, 8, .W1C⟩, ⟨"CHKFAIL", 9, 9, .W1C⟩]⟩,
  ⟨"LO.CHK", 0x40050208, 0, 1, 0x00000000#32,
   [⟨"PASS", 31, 16, .RO⟩, ⟨"FAILED", 0, 0, .RO⟩]⟩]
def regRows5 : List RegRow := regRows5_0
/-- Register rows of block 0x4006_0000 (part 0). -/
def regRows6_0 : List RegRow := [
  ⟨"GRID.CTRL", 0x40060000, 0, 1, 0x00000420#32,
   [⟨"RDY", 16, 16, .RW⟩, ⟨"FRAMES", 13, 12, .RW⟩, ⟨"FREF", 10, 8, .RW⟩, ⟨"FS", 6, 4, .RW⟩, ⟨"CLASS", 2, 2, .RW⟩, ⟨"NOMINAL", 1, 1, .RW⟩, ⟨"ENABLE", 0, 0, .RW⟩]⟩,
  ⟨"GRID.STAT", 0x40060004, 0, 1, 0x00000000#32,
   [⟨"COUNT", 15, 0, .RO⟩]⟩,
  ⟨"GRID.EVT", 0x40060008, 0, 1, 0x00000000#32,
   [⟨"CFGERR", 0, 0, .W1C⟩, ⟨"FLAGCHG", 1, 1, .W1C⟩, ⟨"FREQRANGE", 2, 2, .W1C⟩, ⟨"INVALID", 3, 3, .W1C⟩]⟩,
  ⟨"GRID.RATIO", 0x40060010, 16, 8, 0x3F800000#32,
   [⟨"RATIO", 31, 0, .RW⟩]⟩,
  ⟨"GRID.DELAY", 0x40060014, 16, 8, 0x00000000#32,
   [⟨"DELAY", 31, 0, .RW⟩]⟩,
  ⟨"GRID.INCFG", 0x40060018, 16, 8, 0x00000000#32,
   [⟨"ON", 0, 0, .RW⟩]⟩,
  ⟨"GRID.REPSEC", 0x40060100, 0, 1, 0x00000000#32,
   [⟨"SEC", 31, 0, .RO⟩]⟩,
  ⟨"GRID.REPQNS", 0x40060104, 0, 1, 0x00000000#32,
   [⟨"QNS", 31, 0, .RO⟩]⟩,
  ⟨"GRID.REPEST", 0x40060108, 0, 1, 0xFFFFFFFF#32,
   [⟨"EST", 31, 0, .RO⟩]⟩,
  ⟨"GRID.RFLAGS", 0x4006010C, 0, 1, 0x00000000#32,
   [⟨"CLIPMASK", 15, 8, .RO⟩, ⟨"GAP", 0, 0, .RO⟩, ⟨"INVALID", 1, 1, .RO⟩, ⟨"TIMEQ", 2, 2, .RO⟩, ⟨"FREQRANGE", 3, 3, .RO⟩, ⟨"LOWSIG", 4, 4, .RO⟩, ⟨"CLIP", 5, 5, .RO⟩, ⟨"STEP", 6, 6, .RO⟩]⟩,
  ⟨"GRID.MAG", 0x40060110, 8, 8, 0x7FC00000#32,
   [⟨"MAG", 31, 0, .RO⟩]⟩,
  ⟨"GRID.ANG", 0x40060114, 8, 8, 0x7FC00000#32,
   [⟨"ANG", 31, 0, .RO⟩]⟩,
  ⟨"GRID.SEQ", 0x40060150, 4, 12, 0x7FC00000#32,
   [⟨"SEQ", 31, 0, .RO⟩]⟩,
  ⟨"GRID.FREQ", 0x40060180, 0, 1, 0x7FC00000#32,
   [⟨"FREQ", 31, 0, .RO⟩]⟩,
  ⟨"GRID.ROCOF", 0x40060184, 0, 1, 0x7FC00000#32,
   [⟨"ROCOF", 31, 0, .RO⟩]⟩,
  ⟨"TRANS.CTRL", 0x40060400, 0, 1, 0x00000000#32,
   [⟨"AUTOARM", 31, 16, .RW⟩, ⟨"DISARM", 1, 1, .WO⟩, ⟨"ARM", 0, 0, .WO⟩]⟩,
  ⟨"TRANS.STAT", 0x40060404, 0, 1, 0x00000000#32,
   [⟨"EVENTS", 31, 16, .RO⟩, ⟨"ARRMASK", 15, 8, .RO⟩, ⟨"TRIGIN", 6, 4, .RO⟩, ⟨"KEPT", 2, 2, .RO⟩, ⟨"STATE", 1, 0, .RO⟩]⟩,
  ⟨"TRANS.EVT", 0x40060408, 0, 1, 0x00000000#32,
   [⟨"TRIGGERED", 0, 0, .W1C⟩, ⟨"HELD", 1, 1, .W1C⟩, ⟨"CFGERR", 2, 2, .W1C⟩, ⟨"MISSED", 3, 3, .W1C⟩, ⟨"STEP", 4, 4, .W1C⟩]⟩,
  ⟨"TRANS.MISSED", 0x4006040C, 0, 1, 0x00000000#32,
   [⟨"MISSED", 15, 0, .RC⟩]⟩,
  ⟨"TRANS.TRIGSEC", 0x40060410, 0, 1, 0x00000000#32,
   [⟨"SEC", 31, 0, .RO⟩]⟩,
  ⟨"TRANS.TRIGQNS", 0x40060414, 0, 1, 0x00000000#32,
   [⟨"QNS", 31, 0, .RO⟩]⟩,
  ⟨"TRANS.TRIGBLK", 0x40060418, 0, 1, 0x00000000#32,
   [⟨"SLOT", 13, 0, .RO⟩]⟩,
  ⟨"TRANS.ARRPOL", 0x4006041C, 0, 1, 0x00000000#32,
   [⟨"POL", 7, 0, .RO⟩]⟩,
  ⟨"TRANS.CFG", 0x40060440, 16, 8, 0x00000814#32,
   [⟨"K", 13, 8, .RW⟩, ⟨"TAU", 5, 4, .RW⟩, ⟨"HPF", 3, 2, .RW⟩, ⟨"TRIG", 1, 1, .RW⟩, ⟨"ON", 0, 0, .RW⟩]⟩,
  ⟨"TRANS.FLOOR", 0x40060444, 16, 8, 0x00000032#32,
   [⟨"FLOOR", 11, 0, .RW⟩]⟩,
  ⟨"TRANS.TDELAY", 0x40060448, 16, 8, 0x00000000#32,
   [⟨"TDELAY", 31, 0, .RW⟩]⟩,
  ⟨"TRANS.THR", 0x4006044C, 16, 8, 0x00000000#32,
   [⟨"RMS", 27, 16, .RO⟩, ⟨"THR", 11, 0, .RO⟩]⟩,
  ⟨"TRANS.ARRSEC", 0x40060500, 8, 8, 0x00000000#32,
   [⟨"SEC", 31, 0, .RO⟩]⟩,
  ⟨"TRANS.ARRQNS", 0x40060504, 8, 8, 0x00000000#32,
   [⟨"QNS", 31, 0, .RO⟩]⟩]
def regRows6 : List RegRow := regRows6_0
/-- Register rows of block 0x4007_0000 (part 0). -/
def regRows7_0 : List RegRow := [
  ⟨"ALM.CTRL", 0x40070000, 0, 1, 0x00000001#32,
   [⟨"ENGINE", 0, 0, .RW⟩]⟩,
  ⟨"ALM.STAT", 0x40070004, 0, 1, 0x00000000#32,
   [⟨"UNACK", 26, 16, .RO⟩, ⟨"STATE", 1, 0, .RO⟩]⟩,
  ⟨"ALM.SWEEP", 0x40070008, 0, 1, 0x00000000#32,
   [⟨"COUNT", 5, 0, .RO⟩]⟩,
  ⟨"ALM.ACK", 0x4007000C, 0, 1, 0x00000000#32,
   [⟨"CHECK", 17, 17, .WO⟩, ⟨"GROUP", 16, 16, .WO⟩, ⟨"INDEX", 9, 0, .WO⟩]⟩,
  ⟨"ALM.ACKACC", 0x40070010, 0, 1, 0x00000000#32,
   [⟨"ACC", 31, 0, .RW⟩]⟩,
  ⟨"ALM.ACKRES", 0x40070014, 0, 1, 0x00000000#32,
   [⟨"RES", 1, 0, .RO⟩]⟩,
  ⟨"ALM.EVT", 0x40070018, 0, 1, 0x00000000#32,
   [⟨"ACTIVE", 0, 0, .W1C⟩, ⟨"RETURN", 1, 1, .W1C⟩, ⟨"FAULT", 2, 2, .W1C⟩, ⟨"CFGERR", 3, 3, .W1C⟩, ⟨"STAGE", 4, 4, .W1C⟩, ⟨"FIRSTOUT", 5, 5, .W1C⟩, ⟨"IGNORED", 6, 6, .W1C⟩]⟩,
  ⟨"ALM.CHG", 0x40070040, 4, 32, 0x00000000#32,
   [⟨"CHG", 31, 0, .W1C⟩]⟩,
  ⟨"ALM.AGCFG", 0x40070400, 16, 64, 0x000000FF#32,
   [⟨"BLKEN", 31, 31, .RW⟩, ⟨"BLKKIND", 30, 30, .RW⟩, ⟨"BLKLVL", 29, 29, .RW⟩, ⟨"BLKSRC", 25, 16, .RW⟩, ⟨"ACKAGE", 15, 8, .RW⟩, ⟨"ACKPIN", 7, 2, .RW⟩, ⟨"FAULTCALL", 1, 1, .RW⟩, ⟨"CALL", 0, 0, .RW⟩]⟩,
  ⟨"ALM.AGREL", 0x40070404, 16, 64, 0x00000000#32,
   [⟨"BLKREL", 19, 0, .RW⟩]⟩,
  ⟨"ALM.AGSTAT", 0x40070408, 16, 64, 0x00000000#32,
   [⟨"UNACK", 26, 16, .RO⟩, ⟨"FOPOINT", 14, 5, .RO⟩, ⟨"FOVALID", 4, 4, .RO⟩, ⟨"RELEASING", 3, 3, .RO⟩, ⟨"BLOCKED", 2, 2, .RO⟩, ⟨"STAGE", 1, 0, .RO⟩]⟩,
  ⟨"CALL.MASK", 0x40070800, 0, 1, 0x00040301#32,
   [⟨"BRIDGE", 23, 16, .RW⟩, ⟨"ALL", 15, 8, .RW⟩, ⟨"DUTY", 7, 0, .RW⟩]⟩,
  ⟨"CALL.T", 0x40070804, 0, 1, 0x012C0078#32,
   [⟨"T2", 31, 16, .RW⟩, ⟨"T1", 15, 0, .RW⟩]⟩,
  ⟨"CALL.LINES", 0x40070808, 0, 1, 0x00000000#32,
   [⟨"LINES", 7, 0, .RO⟩]⟩,
  ⟨"CALL.MODE", 0x4007080C, 0, 1, 0x00000000#32,
   [⟨"INVERT", 15, 8, .RW⟩, ⟨"PULSE", 7, 0, .RW⟩]⟩,
  ⟨"CALL.TO", 0x40070810, 0, 1, 0x0A000000#32,
   [⟨"CALLREP", 31, 24, .RW⟩, ⟨"BRIDGETO", 23, 16, .RW⟩, ⟨"ALLTO", 15, 8, .RW⟩, ⟨"DUTYTO", 7, 0, .RW⟩]⟩,
  ⟨"ALM.PSTAT", 0x40071000, 4, 1024, 0x00000000#32,
   [⟨"BEAT", 31, 16, .RO⟩, ⟨"FROZEN", 13, 13, .RO⟩, ⟨"UNDER", 12, 10, .RO⟩, ⟨"UNACK", 8, 8, .RO⟩, ⟨"FO", 7, 7, .RO⟩, ⟨"LEVEL", 6, 4, .RO⟩, ⟨"STATE", 3, 0, .RO⟩]⟩,
  ⟨"ALM.ONDLY", 0x40072000, 4, 1024, 0x00000000#32,
   [⟨"ON", 19, 0, .RW⟩]⟩,
  ⟨"ALM.OFFDLY", 0x40073000, 4, 1024, 0x00000000#32,
   [⟨"OFF", 19, 0, .RW⟩]⟩,
  ⟨"ALM.PCFG", 0x40078000, 32, 1024, 0x00180000#32,
   [⟨"ENABLE", 31, 31, .RW⟩, ⟨"DIFF", 30, 30, .RW⟩, ⟨"KINDA", 29, 27, .RW⟩, ⟨"GRP", 26, 21, .RW⟩, ⟨"BLK", 20, 20, .RW⟩, ⟨"ALMLVL", 19, 19, .RW⟩, ⟨"SRCA", 15, 0, .RW⟩]⟩,
  ⟨"ALM.PSRC2", 0x40078004, 32, 1024, 0x03200000#32,
   [⟨"AGE", 31, 19, .RW⟩, ⟨"KINDB", 18, 16, .RW⟩, ⟨"SRCB", 15, 0, .RW⟩]⟩,
  ⟨"ALM.HH", 0x40078008, 32, 1024, 0x7FC00000#32,
   [⟨"HH", 31, 0, .RW⟩]⟩,
  ⟨"ALM.H", 0x4007800C, 32, 1024, 0x7FC00000#32,
   [⟨"H", 31, 0, .RW⟩]⟩,
  ⟨"ALM.L", 0x40078010, 32, 1024, 0x7FC00000#32,
   [⟨"L", 31, 0, .RW⟩]⟩,
  ⟨"ALM.LL", 0x40078014, 32, 1024, 0x7FC00000#32,
   [⟨"LL", 31, 0, .RW⟩]⟩,
  ⟨"ALM.HYS", 0x40078018, 32, 1024, 0x00000000#32,
   [⟨"HYS", 31, 0, .RW⟩]⟩]
def regRows7 : List RegRow := regRows7_0
/-- Register rows of block 0x4008_0000 (part 0). -/
def regRows8_0 : List RegRow := [
  ⟨"ARC.CTRL", 0x40080000, 0, 1, 0x00000001#32,
   [⟨"RDY", 1, 1, .RW⟩, ⟨"ENABLE", 0, 0, .RW⟩]⟩,
  ⟨"ARC.STAT", 0x40080004, 0, 1, 0x00000000#32,
   [⟨"QDEPTH", 23, 16, .RO⟩, ⟨"ACCEND", 7, 7, .RO⟩, ⟨"CLEARING", 5, 5, .RO⟩, ⟨"RESEALING", 4, 4, .RO⟩, ⟨"OVERFLOW", 3, 3, .RO⟩, ⟨"SEALED", 2, 2, .RO⟩, ⟨"STATE", 1, 0, .RO⟩]⟩,
  ⟨"ARC.CHG", 0x40080008, 0, 1, 0x00000000#32,
   [⟨"CHG", 31, 0, .RO⟩]⟩,
  ⟨"ARC.NEWEST", 0x4008000C, 0, 1, 0x00000000#32,
   [⟨"NEWEST", 31, 0, .RO⟩]⟩,
  ⟨"ARC.OLDEST", 0x40080010, 0, 1, 0x00000000#32,
   [⟨"OLDEST", 31, 0, .RO⟩]⟩,
  ⟨"ARC.VLAST", 0x40080014, 0, 1, 0x00000000#32,
   [⟨"VLAST", 31, 0, .RO⟩]⟩,
  ⟨"ARC.WPTR", 0x40080018, 0, 1, 0x00000000#32,
   [⟨"WPTR", 31, 0, .RO⟩]⟩,
  ⟨"ARC.LOST", 0x4008001C, 0, 1, 0x00000000#32,
   [⟨"LOST", 31, 0, .RO⟩]⟩,
  ⟨"ARC.OFFCNT", 0x40080020, 0, 1, 0x00000000#32,
   [⟨"OFFCNT", 31, 0, .RO⟩]⟩,
  ⟨"ARC.FIND", 0x40080024, 0, 1, 0x00000000#32,
   [⟨"ACC", 31, 0, .RW⟩]⟩,
  ⟨"ARC.FINDADDR", 0x40080028, 0, 1, 0x00000000#32,
   [⟨"ADDR", 31, 3, .RO⟩, ⟨"ABSENT", 1, 1, .RO⟩, ⟨"BUSY", 0, 0, .RO⟩]⟩,
  ⟨"ARC.RESEALS", 0x4008002C, 0, 1, 0x00000000#32,
   [⟨"RESEALS", 31, 0, .RO⟩]⟩,
  ⟨"ARC.PWRCYC", 0x40080030, 0, 1, 0x00000000#32,
   [⟨"COUNT", 23, 0, .RO⟩]⟩,
  ⟨"ARC.OPMSHI", 0x40080034, 0, 1, 0x00000000#32,
   [⟨"MSHI", 7, 0, .RO⟩]⟩,
  ⟨"ARC.OPMSLO", 0x40080038, 0, 1, 0x00000000#32,
   [⟨"MSLO", 31, 0, .RO⟩]⟩,
  ⟨"ARC.EVT", 0x4008003C, 0, 1, 0x00000000#32,
   [⟨"COMMIT", 0, 0, .W1C⟩, ⟨"OVERFLOW", 1, 1, .W1C⟩, ⟨"SEALED", 2, 2, .W1C⟩, ⟨"RECLAIM", 3, 3, .W1C⟩, ⟨"CLEARED", 4, 4, .W1C⟩, ⟨"RESEALED", 5, 5, .W1C⟩, ⟨"NVFAIL", 6, 6, .W1C⟩, ⟨"ACCEND", 7, 7, .W1C⟩, ⟨"CFGERR", 8, 8, .W1C⟩, ⟨"OFF", 9, 9, .W1C⟩]⟩,
  ⟨"ARC.CODE", 0x40080400, 4, 512, 0x00000000#32,
   [⟨"BURST", 31, 24, .RW⟩, ⟨"RATE", 23, 8, .RW⟩, ⟨"KEYLEN", 7, 5, .RW⟩, ⟨"RULE", 4, 3, .RW⟩, ⟨"FORM", 2, 1, .RW⟩, ⟨"NODE", 0, 0, .RO⟩]⟩,
  ⟨"ARC.SUPP", 0x40081000, 4, 256, 0x00000000#32,
   [⟨"SUPP", 31, 16, .RO⟩, ⟨"SUPP", 15, 0, .RO⟩]⟩]
def regRows8 : List RegRow := regRows8_0
/-- Register rows of block 0x4009_0000 (part 0). -/
def regRows9_0 : List RegRow := [
  ⟨"BUSA.CTRL", 0x40090000, 0, 1, 0x0000001B#32,
   [⟨"RDY", 5, 5, .RW⟩, ⟨"GCGUARD", 4, 4, .RW⟩, ⟨"TRIM", 3, 3, .RW⟩, ⟨"GENMAX", 2, 1, .RW⟩, ⟨"ENABLE", 0, 0, .RW⟩]⟩,
  ⟨"BUSA.BITNOM", 0x40090004, 0, 1, 0x0000A002#32,
   [⟨"NSP", 15, 8, .RW⟩, ⟨"NRATE", 1, 0, .RW⟩]⟩,
  ⟨"BUSA.BITDATA", 0x40090008, 0, 1, 0x00008C31#32,
   [⟨"DSP", 15, 8, .RW⟩, ⟨"CRATE", 6, 4, .RW⟩, ⟨"BRATE", 1, 0, .RW⟩]⟩,
  ⟨"BUSA.STAT", 0x4009000C, 0, 1, 0x00000001#32,
   [⟨"FALLBACK", 4, 4, .RO⟩, ⟨"ERR", 3, 2, .RO⟩, ⟨"STATE", 1, 0, .RO⟩]⟩,
  ⟨"BUSA.ERRCNT", 0x40090010, 0, 1, 0x00000000#32,
   [⟨"BUSOFF", 31, 16, .RO⟩, ⟨"REC", 15, 8, .RO⟩, ⟨"TEC", 7, 0, .RO⟩]⟩,
  ⟨"BUSA.EVT", 0x40090014, 0, 1, 0x00000000#32,
   [⟨"CFGERR", 0, 0, .W1C⟩, ⟨"DOORBAD", 1, 1, .W1C⟩, ⟨"CARDISC", 2, 2, .W1C⟩, ⟨"RXOVF", 3, 3, .W1C⟩, ⟨"FALLBACK", 4, 4, .W1C⟩, ⟨"BUSOFF", 5, 5, .W1C⟩, ⟨"RECOVER", 6, 6, .W1C⟩, ⟨"OFF", 7, 7, .W1C⟩]⟩,
  ⟨"BUSA.FIFO", 0x40090018, 0, 1, 0x00000000#32,
   [⟨"COUNT", 25, 16, .RO⟩, ⟨"HEAD", 8, 0, .RO⟩]⟩,
  ⟨"BUSA.FIFOPOP", 0x4009001C, 0, 1, 0x00000000#32,
   [⟨"POP", 0, 0, .WO⟩]⟩,
  ⟨"BUSA.RXLOST", 0x40090020, 0, 1, 0x00000000#32,
   [⟨"LOST", 15, 0, .RC⟩]⟩,
  ⟨"BUSA.EVMISS", 0x40090024, 0, 1, 0x00000000#32,
   [⟨"MISS", 15, 0, .RC⟩]⟩,
  ⟨"BUSA.CARDONE", 0x40090028, 0, 1, 0x00000000#32,
   [⟨"DONE", 7, 0, .RO⟩]⟩,
  ⟨"BUSA.CARREL", 0x4009002C, 0, 1, 0x00000000#32,
   [⟨"REL", 7, 0, .WO⟩]⟩,
  ⟨"BUSA.CARLEN", 0x40090040, 8, 8, 0x00000000#32,
   [⟨"FILT", 22, 16, .RO⟩, ⟨"LEN", 12, 0, .RO⟩]⟩,
  ⟨"BUSA.CARSRC", 0x40090044, 8, 8, 0x00000000#32,
   [⟨"NUMBER", 15, 8, .RO⟩, ⟨"STATION", 7, 0, .RO⟩]⟩,
  ⟨"BUSA.MBCTL", 0x40090100, 4, 64, 0x00003000#32,
   [⟨"LEN", 23, 16, .RW⟩, ⟨"GEN", 13, 12, .RW⟩, ⟨"CARBUF", 10, 8, .RW⟩, ⟨"CARAVAN", 5, 5, .RW⟩, ⟨"RING", 4, 4, .RW⟩, ⟨"STATUS", 3, 2, .RO⟩, ⟨"ABORT", 1, 1, .WO⟩, ⟨"REQ", 0, 0, .WO⟩]⟩,
  ⟨"BUSA.MBID", 0x40090200, 4, 64, 0x00000000#32,
   [⟨"IDE", 29, 29, .RW⟩, ⟨"ID", 28, 0, .RW⟩]⟩,
  ⟨"BUSA.FILT", 0x40090400, 8, 128, 0x20000000#32,
   [⟨"IDE", 29, 29, .RW⟩, ⟨"ID", 28, 0, .RW⟩]⟩,
  ⟨"BUSA.FMASK", 0x40090404, 8, 128, 0x00000000#32,
   [⟨"CARAVAN", 31, 31, .RW⟩, ⟨"EARLY", 30, 30, .RW⟩, ⟨"ENABLE", 29, 29, .RW⟩, ⟨"MASK", 28, 0, .RW⟩]⟩,
  ⟨"BUSA.EVSTAT", 0x40090800, 4, 4, 0x00000000#32,
   [⟨"WORD", 31, 0, .RO⟩]⟩,
  ⟨"BUSA.EVREL", 0x40090810, 0, 1, 0x00000000#32,
   [⟨"REL", 3, 0, .WO⟩]⟩,
  ⟨"BUSA.EVID", 0x40090820, 4, 4, 0x00000000#32,
   [⟨"ID", 29, 0, .RO⟩]⟩,
  ⟨"BUSA.GATECFG", 0x40090900, 8, 4, 0xFF000004#32,
   [⟨"BMASK", 31, 24, .RW⟩, ⟨"BYTE", 23, 16, .RW⟩, ⟨"FILT", 14, 8, .RW⟩, ⟨"ACTIVE", 4, 4, .RO⟩, ⟨"ARMED", 3, 3, .RO⟩, ⟨"POL", 2, 2, .RW⟩, ⟨"LATCH", 1, 1, .RW⟩, ⟨"ENABLE", 0, 0, .RW⟩]⟩,
  ⟨"BUSA.GATEW", 0x40090904, 8, 4, 0x00000064#32,
   [⟨"RESET", 16, 16, .WO⟩, ⟨"WIDTH", 15, 0, .RW⟩]⟩,
  ⟨"BUSA.TRIM", 0x40090A00, 4, 64, 0x00000000#32,
   [⟨"VALID", 25, 25, .RO⟩, ⟨"LOCK", 24, 24, .RW⟩, ⟨"FRAMES", 23, 16, .RO⟩, ⟨"STATION", 15, 8, .RO⟩, ⟨"OFFSET", 7, 0, .RO⟩]⟩,
  ⟨"BUSA.DLYSTA", 0x40090B00, 8, 4, 0x00000000#32,
   [⟨"VALID", 8, 8, .RO⟩, ⟨"STATION", 7, 0, .RO⟩]⟩,
  ⟨"BUSA.DLY", 0x40090B04, 8, 4, 0x00000000#32,
   [⟨"SPREAD", 31, 16, .RO⟩, ⟨"DELAY", 15, 0, .RO⟩]⟩,
  ⟨"BUSA.MARK", 0x40090B20, 0, 1, 0x00000000#32,
   [⟨"SEQ", 31, 24, .RO⟩, ⟨"SENDER", 23, 16, .RO⟩, ⟨"GRADE", 10, 8, .RO⟩, ⟨"SENDING", 2, 2, .RO⟩, ⟨"SELECTED", 1, 1, .RO⟩, ⟨"ACCEPTED", 0, 0, .RO⟩]⟩,
  ⟨"BUSA.MARKCNT", 0x40090B24, 0, 1, 0x00000000#32,
   [⟨"REJECTED", 31, 16, .RO⟩, ⟨"ACCEPTED", 15, 0, .RO⟩]⟩,
  ⟨"BUSA.SLEEP", 0x40090B40, 0, 1, 0x00000004#32,
   [⟨"PSTATE", 9, 8, .RO⟩, ⟨"LWAKE", 2, 2, .RW⟩, ⟨"WMODE", 1, 1, .RW⟩]⟩,
  ⟨"BUSA.WID", 0x40090B44, 0, 1, 0x031000FF#32,
   [⟨"ID", 28, 0, .RW⟩]⟩]
/-- Register rows of block 0x4009_0000 (part 1). -/
def regRows9_1 : List RegRow := [
  ⟨"BUSA.WMASK", 0x40090B48, 0, 1, 0x1FFF00FF#32,
   [⟨"MASK", 28, 0, .RW⟩]⟩,
  ⟨"BUSA.WDATA", 0x40090B4C, 4, 2, 0x00000000#32,
   [⟨"BYTES", 31, 0, .RW⟩]⟩,
  ⟨"BUSA.WDMASK", 0x40090B54, 4, 2, 0x00000000#32,
   [⟨"BYTES", 31, 0, .RW⟩]⟩,
  ⟨"BUS.LINK", 0x40090C00, 0, 1, 0x01070500#32,
   [⟨"FOLD", 24, 24, .RW⟩, ⟨"WAYFWD", 20, 16, .RW⟩, ⟨"DUPWIN", 13, 8, .RW⟩, ⟨"TPORT", 4, 4, .RW⟩, ⟨"MODE", 1, 0, .RW⟩]⟩,
  ⟨"BUS.STATION", 0x40090C04, 0, 1, 0x00000000#32,
   [⟨"REQUEST", 15, 8, .RW⟩, ⟨"STATION", 7, 0, .RO⟩]⟩,
  ⟨"BUS.SVSTAT", 0x40090C08, 0, 1, 0x00000000#32,
   [⟨"PORT", 8, 8, .RO⟩, ⟨"RESULT", 6, 4, .RO⟩, ⟨"STATE", 2, 0, .RO⟩]⟩,
  ⟨"BUS.SVCNT", 0x40090C0C, 0, 1, 0x00000000#32,
   [⟨"JOINED", 23, 16, .RO⟩, ⟨"VANISHED", 15, 8, .RO⟩, ⟨"ASSIGNED", 7, 0, .RO⟩]⟩,
  ⟨"BUS.SVDLY", 0x40090C10, 0, 1, 0x00000000#32,
   [⟨"EXPECTED", 31, 16, .RO⟩, ⟨"MEASURED", 15, 0, .RO⟩]⟩,
  ⟨"BUS.WAYCNT", 0x40090C14, 0, 1, 0x00000000#32,
   [⟨"DROPBA", 31, 16, .RC⟩, ⟨"DROPAB", 15, 0, .RC⟩]⟩,
  ⟨"BUS.DUPCNT", 0x40090C18, 0, 1, 0x00000000#32,
   [⟨"DUP", 15, 0, .RO⟩]⟩,
  ⟨"BUSB.CTRL", 0x40098000, 0, 1, 0x0000001B#32,
   [⟨"RDY", 5, 5, .RW⟩, ⟨"GCGUARD", 4, 4, .RW⟩, ⟨"TRIM", 3, 3, .RW⟩, ⟨"GENMAX", 2, 1, .RW⟩, ⟨"ENABLE", 0, 0, .RW⟩]⟩,
  ⟨"BUSB.BITNOM", 0x40098004, 0, 1, 0x0000A002#32,
   [⟨"NSP", 15, 8, .RW⟩, ⟨"NRATE", 1, 0, .RW⟩]⟩,
  ⟨"BUSB.BITDATA", 0x40098008, 0, 1, 0x00008C31#32,
   [⟨"DSP", 15, 8, .RW⟩, ⟨"CRATE", 6, 4, .RW⟩, ⟨"BRATE", 1, 0, .RW⟩]⟩,
  ⟨"BUSB.STAT", 0x4009800C, 0, 1, 0x00000001#32,
   [⟨"FALLBACK", 4, 4, .RO⟩, ⟨"ERR", 3, 2, .RO⟩, ⟨"STATE", 1, 0, .RO⟩]⟩,
  ⟨"BUSB.ERRCNT", 0x40098010, 0, 1, 0x00000000#32,
   [⟨"BUSOFF", 31, 16, .RO⟩, ⟨"REC", 15, 8, .RO⟩, ⟨"TEC", 7, 0, .RO⟩]⟩,
  ⟨"BUSB.EVT", 0x40098014, 0, 1, 0x00000000#32,
   [⟨"CFGERR", 0, 0, .W1C⟩, ⟨"DOORBAD", 1, 1, .W1C⟩, ⟨"CARDISC", 2, 2, .W1C⟩, ⟨"RXOVF", 3, 3, .W1C⟩, ⟨"FALLBACK", 4, 4, .W1C⟩, ⟨"BUSOFF", 5, 5, .W1C⟩, ⟨"RECOVER", 6, 6, .W1C⟩, ⟨"OFF", 7, 7, .W1C⟩]⟩,
  ⟨"BUSB.FIFO", 0x40098018, 0, 1, 0x00000000#32,
   [⟨"COUNT", 25, 16, .RO⟩, ⟨"HEAD", 8, 0, .RO⟩]⟩,
  ⟨"BUSB.FIFOPOP", 0x4009801C, 0, 1, 0x00000000#32,
   [⟨"POP", 0, 0, .WO⟩]⟩,
  ⟨"BUSB.RXLOST", 0x40098020, 0, 1, 0x00000000#32,
   [⟨"LOST", 15, 0, .RC⟩]⟩,
  ⟨"BUSB.EVMISS", 0x40098024, 0, 1, 0x00000000#32,
   [⟨"MISS", 15, 0, .RC⟩]⟩,
  ⟨"BUSB.CARDONE", 0x40098028, 0, 1, 0x00000000#32,
   [⟨"DONE", 7, 0, .RO⟩]⟩,
  ⟨"BUSB.CARREL", 0x4009802C, 0, 1, 0x00000000#32,
   [⟨"REL", 7, 0, .WO⟩]⟩,
  ⟨"BUSB.CARLEN", 0x40098040, 8, 8, 0x00000000#32,
   [⟨"FILT", 22, 16, .RO⟩, ⟨"LEN", 12, 0, .RO⟩]⟩,
  ⟨"BUSB.CARSRC", 0x40098044, 8, 8, 0x00000000#32,
   [⟨"NUMBER", 15, 8, .RO⟩, ⟨"STATION", 7, 0, .RO⟩]⟩,
  ⟨"BUSB.MBCTL", 0x40098100, 4, 64, 0x00003000#32,
   [⟨"LEN", 23, 16, .RW⟩, ⟨"GEN", 13, 12, .RW⟩, ⟨"CARBUF", 10, 8, .RW⟩, ⟨"CARAVAN", 5, 5, .RW⟩, ⟨"RING", 4, 4, .RW⟩, ⟨"STATUS", 3, 2, .RO⟩, ⟨"ABORT", 1, 1, .WO⟩, ⟨"REQ", 0, 0, .WO⟩]⟩,
  ⟨"BUSB.MBID", 0x40098200, 4, 64, 0x00000000#32,
   [⟨"IDE", 29, 29, .RW⟩, ⟨"ID", 28, 0, .RW⟩]⟩,
  ⟨"BUSB.FILT", 0x40098400, 8, 128, 0x20000000#32,
   [⟨"IDE", 29, 29, .RW⟩, ⟨"ID", 28, 0, .RW⟩]⟩,
  ⟨"BUSB.FMASK", 0x40098404, 8, 128, 0x00000000#32,
   [⟨"CARAVAN", 31, 31, .RW⟩, ⟨"EARLY", 30, 30, .RW⟩, ⟨"ENABLE", 29, 29, .RW⟩, ⟨"MASK", 28, 0, .RW⟩]⟩,
  ⟨"BUSB.EVSTAT", 0x40098800, 4, 4, 0x00000000#32,
   [⟨"WORD", 31, 0, .RO⟩]⟩,
  ⟨"BUSB.EVREL", 0x40098810, 0, 1, 0x00000000#32,
   [⟨"REL", 3, 0, .WO⟩]⟩]
/-- Register rows of block 0x4009_0000 (part 2). -/
def regRows9_2 : List RegRow := [
  ⟨"BUSB.EVID", 0x40098820, 4, 4, 0x00000000#32,
   [⟨"ID", 29, 0, .RO⟩]⟩,
  ⟨"BUSB.GATECFG", 0x40098900, 8, 4, 0xFF000004#32,
   [⟨"BMASK", 31, 24, .RW⟩, ⟨"BYTE", 23, 16, .RW⟩, ⟨"FILT", 14, 8, .RW⟩, ⟨"ACTIVE", 4, 4, .RO⟩, ⟨"ARMED", 3, 3, .RO⟩, ⟨"POL", 2, 2, .RW⟩, ⟨"LATCH", 1, 1, .RW⟩, ⟨"ENABLE", 0, 0, .RW⟩]⟩,
  ⟨"BUSB.GATEW", 0x40098904, 8, 4, 0x00000064#32,
   [⟨"RESET", 16, 16, .WO⟩, ⟨"WIDTH", 15, 0, .RW⟩]⟩,
  ⟨"BUSB.TRIM", 0x40098A00, 4, 64, 0x00000000#32,
   [⟨"VALID", 25, 25, .RO⟩, ⟨"LOCK", 24, 24, .RW⟩, ⟨"FRAMES", 23, 16, .RO⟩, ⟨"STATION", 15, 8, .RO⟩, ⟨"OFFSET", 7, 0, .RO⟩]⟩,
  ⟨"BUSB.DLYSTA", 0x40098B00, 8, 4, 0x00000000#32,
   [⟨"VALID", 8, 8, .RO⟩, ⟨"STATION", 7, 0, .RO⟩]⟩,
  ⟨"BUSB.DLY", 0x40098B04, 8, 4, 0x00000000#32,
   [⟨"SPREAD", 31, 16, .RO⟩, ⟨"DELAY", 15, 0, .RO⟩]⟩,
  ⟨"BUSB.MARK", 0x40098B20, 0, 1, 0x00000000#32,
   [⟨"SEQ", 31, 24, .RO⟩, ⟨"SENDER", 23, 16, .RO⟩, ⟨"GRADE", 10, 8, .RO⟩, ⟨"SENDING", 2, 2, .RO⟩, ⟨"SELECTED", 1, 1, .RO⟩, ⟨"ACCEPTED", 0, 0, .RO⟩]⟩,
  ⟨"BUSB.MARKCNT", 0x40098B24, 0, 1, 0x00000000#32,
   [⟨"REJECTED", 31, 16, .RO⟩, ⟨"ACCEPTED", 15, 0, .RO⟩]⟩,
  ⟨"BUSB.SLEEP", 0x40098B40, 0, 1, 0x00000004#32,
   [⟨"PSTATE", 9, 8, .RO⟩, ⟨"LWAKE", 2, 2, .RW⟩, ⟨"WMODE", 1, 1, .RW⟩]⟩,
  ⟨"BUSB.WID", 0x40098B44, 0, 1, 0x031000FF#32,
   [⟨"ID", 28, 0, .RW⟩]⟩,
  ⟨"BUSB.WMASK", 0x40098B48, 0, 1, 0x1FFF00FF#32,
   [⟨"MASK", 28, 0, .RW⟩]⟩,
  ⟨"BUSB.WDATA", 0x40098B4C, 4, 2, 0x00000000#32,
   [⟨"BYTES", 31, 0, .RW⟩]⟩,
  ⟨"BUSB.WDMASK", 0x40098B54, 4, 2, 0x00000000#32,
   [⟨"BYTES", 31, 0, .RW⟩]⟩]
def regRows9 : List RegRow := regRows9_0 ++ regRows9_1 ++ regRows9_2
/-- Register rows of block 0x400A_0000 (part 0). -/
def regRowsA_0 : List RegRow := [
  ⟨"DISP.CTRL", 0x400A0000, 0, 1, 0x00001024#32,
   [⟨"RAILHOLD", 23, 16, .RW⟩, ⟨"PARTMAX", 15, 8, .RW⟩, ⟨"LINEGAP", 7, 4, .RW⟩, ⟨"PCLK", 2, 2, .RW⟩, ⟨"FRATE", 1, 1, .RW⟩, ⟨"ENABLE", 0, 0, .RW⟩]⟩,
  ⟨"DISP.GEOM", 0x400A0004, 0, 1, 0x02580320#32,
   [⟨"H", 26, 16, .RW⟩, ⟨"W", 10, 0, .RW⟩]⟩,
  ⟨"DISP.VCOM", 0x400A0008, 0, 1, 0x00000096#32,
   [⟨"VCOM", 8, 0, .RW⟩]⟩,
  ⟨"DISP.STAT", 0x400A000C, 0, 1, 0x00000800#32,
   [⟨"STATE", 15, 14, .RO⟩, ⟨"SNAP", 13, 13, .RO⟩, ⟨"BUSY", 12, 12, .RO⟩, ⟨"IMGUNK", 11, 11, .RO⟩, ⟨"TEMPRANGE", 10, 10, .RO⟩, ⟨"LAST", 9, 8, .RO⟩, ⟨"BAND", 7, 5, .RO⟩, ⟨"RAILS", 4, 0, .RO⟩]⟩,
  ⟨"DISP.TEMP", 0x400A0010, 0, 1, 0x32001819#32,
   [⟨"TMAX", 31, 24, .RW⟩, ⟨"TMIN", 23, 16, .RW⟩, ⟨"TSRC", 13, 8, .RW⟩, ⟨"TFIX", 7, 0, .RW⟩]⟩,
  ⟨"DISP.BASE", 0x400A0014, 0, 1, 0x20240000#32,
   [⟨"BASE", 31, 0, .RW⟩]⟩,
  ⟨"DISP.CNT", 0x400A0018, 0, 1, 0x00000000#32,
   [⟨"UPDATES", 31, 16, .RO⟩, ⟨"PARTS", 15, 8, .RO⟩, ⟨"ABANDONED", 7, 0, .RO⟩]⟩,
  ⟨"DISP.LAST", 0x400A001C, 0, 1, 0x00000000#32,
   [⟨"TEMP", 23, 16, .RO⟩, ⟨"MODE", 9, 8, .RO⟩, ⟨"FRAMES", 7, 0, .RO⟩]⟩,
  ⟨"DISP.CMD", 0x400A0020, 0, 1, 0x00000000#32,
   [⟨"RAILSOFF", 4, 4, .WO⟩, ⟨"RAILSON", 3, 3, .WO⟩, ⟨"UPDATE", 2, 2, .WO⟩, ⟨"FULL", 1, 1, .WO⟩, ⟨"UNIFORM", 0, 0, .WO⟩, ⟨"GREY", 9, 8, .WO⟩]⟩,
  ⟨"DISP.EVT", 0x400A0024, 0, 1, 0x00000000#32,
   [⟨"DONE", 0, 0, .W1C⟩, ⟨"ABANDONED", 1, 1, .W1C⟩, ⟨"RAILFAULT", 2, 2, .W1C⟩, ⟨"CFGERR", 3, 3, .W1C⟩, ⟨"TEMPRANGE", 4, 4, .W1C⟩, ⟨"FORCED", 5, 5, .W1C⟩, ⟨"LCDCOMMIT", 6, 6, .W1C⟩, ⟨"OFF", 7, 7, .W1C⟩]⟩,
  ⟨"DISP.RAIL", 0x400A0040, 4, 5, 0x00000000#32,
   [⟨"MV", 15, 0, .RO⟩]⟩,
  ⟨"DISP.WSEL", 0x400A0060, 0, 1, 0x00000000#32,
   [⟨"MODE", 8, 8, .RW⟩, ⟨"BAND", 6, 4, .RW⟩, ⟨"FROM", 3, 2, .RW⟩, ⟨"TO", 1, 0, .RW⟩]⟩,
  ⟨"DISP.WLEN", 0x400A0064, 0, 1, 0x00000000#32,
   [⟨"LEN", 6, 0, .RW⟩]⟩,
  ⟨"DISP.WDATA", 0x400A0070, 4, 4, 0x00000000#32,
   [⟨"CODES", 31, 0, .RW⟩]⟩,
  ⟨"LCD.CTRL", 0x400A0100, 0, 1, 0x00214000#32,
   [⟨"VLCD", 23, 16, .RW⟩, ⟨"LFRATE", 15, 8, .RW⟩, ⟨"ENABLE", 0, 0, .RW⟩]⟩,
  ⟨"LCD.COMMIT", 0x400A0104, 0, 1, 0x00000000#32,
   [⟨"REQ", 0, 0, .WO⟩]⟩,
  ⟨"LCD.STAT", 0x400A0108, 0, 1, 0x00000000#32,
   [⟨"STATE", 2, 1, .RO⟩, ⟨"PENDING", 0, 0, .RO⟩]⟩,
  ⟨"LCD.SEGLO", 0x400A0110, 8, 4, 0x00000000#32,
   [⟨"SEG", 31, 0, .RW⟩]⟩,
  ⟨"LCD.SEGHI", 0x400A0114, 8, 4, 0x00000000#32,
   [⟨"SEG", 7, 0, .RW⟩]⟩,
  ⟨"LCD.BLKLO", 0x400A0130, 8, 4, 0x00000000#32,
   [⟨"BLINK", 31, 0, .RW⟩]⟩,
  ⟨"LCD.BLKHI", 0x400A0134, 8, 4, 0x00000000#32,
   [⟨"BLINK", 7, 0, .RW⟩]⟩]
def regRowsA : List RegRow := regRowsA_0
/-- Register rows of block 0x400B_0000 (part 0). -/
def regRowsB_0 : List RegRow := [
  ⟨"SYS.DEVID", 0x400B0000, 0, 1, 0x48000002#32,
   [⟨"PART", 31, 16, .RO⟩, ⟨"REV", 15, 8, .RO⟩, ⟨"MINOR", 7, 0, .RO⟩]⟩,
  ⟨"SYS.UIDLO", 0x400B0004, 0, 1, 0x00000000#32,
   [⟨"UIDLO", 31, 0, .RO⟩]⟩,
  ⟨"SYS.UIDHI", 0x400B0008, 0, 1, 0x00000000#32,
   [⟨"UIDHI", 31, 0, .RO⟩]⟩,
  ⟨"SYS.ROMVER", 0x400B000C, 0, 1, 0x00020007#32,
   [⟨"MAJOR", 31, 16, .RO⟩, ⟨"MINOR", 15, 0, .RO⟩]⟩,
  ⟨"SYS.RSTCAUSE", 0x400B0010, 0, 1, 0x00000000#32,
   [⟨"CAUSE", 7, 0, .RO⟩]⟩,
  ⟨"SYS.PSTATE", 0x400B0014, 0, 1, 0x00000000#32,
   [⟨"STATE", 2, 0, .RO⟩]⟩,
  ⟨"SYS.PCMD", 0x400B0018, 0, 1, 0x00000000#32,
   [⟨"DORMANT", 2, 2, .WO⟩, ⟨"FULL", 1, 1, .WO⟩, ⟨"QUIET", 0, 0, .WO⟩]⟩,
  ⟨"SYS.PWRSTAT", 0x400B001C, 0, 1, 0x00000001#32,
   [⟨"HOLDCONN", 3, 3, .RO⟩, ⟨"HOLDOK", 2, 2, .RO⟩, ⟨"PFWARN", 1, 1, .RO⟩, ⟨"VSYSOK", 0, 0, .RO⟩]⟩,
  ⟨"SYS.VSYS", 0x400B0020, 0, 1, 0x00000000#32,
   [⟨"MV", 15, 0, .RO⟩]⟩,
  ⟨"SYS.HOLD", 0x400B0024, 0, 1, 0x00000000#32,
   [⟨"MV", 15, 0, .RO⟩]⟩,
  ⟨"SYS.CORE", 0x400B0028, 0, 1, 0x24002401#32,
   [⟨"STEP", 29, 24, .RO⟩, ⟨"LIMIT", 16, 16, .RO⟩, ⟨"VFIX", 13, 8, .RW⟩, ⟨"AVS", 0, 0, .RW⟩]⟩,
  ⟨"SYS.PFCFG", 0x400B002C, 0, 1, 0x000000C8#32,
   [⟨"AGRACE", 10, 0, .RW⟩]⟩,
  ⟨"SYS.DTIME", 0x400B0030, 0, 1, 0x00000000#32,
   [⟨"TIME", 16, 0, .RW⟩]⟩,
  ⟨"SYS.STORE", 0x400B0034, 0, 1, 0x00000200#32,
   [⟨"LEN", 31, 16, .RO⟩, ⟨"COPY", 9, 8, .RO⟩, ⟨"DIRTY", 4, 4, .RO⟩, ⟨"BUSY", 0, 0, .RO⟩]⟩,
  ⟨"SYS.STOREGEN", 0x400B0038, 0, 1, 0x00000000#32,
   [⟨"GEN", 31, 0, .RO⟩]⟩,
  ⟨"SYS.EVT", 0x400B003C, 0, 1, 0x00000000#32,
   [⟨"PFWARN", 0, 0, .W1C⟩, ⟨"HOLDOK", 1, 1, .W1C⟩, ⟨"HOLDLOST", 2, 2, .W1C⟩, ⟨"STOREDEF", 3, 3, .W1C⟩, ⟨"COMMITDONE", 4, 4, .W1C⟩, ⟨"COMMITFAIL", 5, 5, .W1C⟩, ⟨"CORELIMIT", 6, 6, .W1C⟩, ⟨"CFGERR", 7, 7, .W1C⟩]⟩,
  ⟨"SYS.MODES", 0x400B0040, 0, 1, 0x00000050#32,
   [⟨"LOCKB", 28, 24, .RO⟩, ⟨"LOCKA", 20, 16, .RO⟩, ⟨"AUTONOMOUS", 12, 12, .RO⟩, ⟨"LINK", 11, 10, .RO⟩, ⟨"ANNEX", 9, 8, .RO⟩, ⟨"GENB", 7, 6, .RO⟩, ⟨"GENA", 5, 4, .RO⟩, ⟨"PSTATE", 2, 0, .RO⟩]⟩,
  ⟨"SYS.ASTAT", 0x400B0100, 0, 1, 0x00000000#32,
   [⟨"RESTARTS", 31, 24, .RO⟩, ⟨"CAUSE", 20, 16, .RO⟩, ⟨"STATE", 9, 8, .RO⟩, ⟨"TRAP", 0, 0, .RO⟩]⟩,
  ⟨"SYS.AFPC", 0x400B0104, 0, 1, 0x00000000#32,
   [⟨"PC", 31, 0, .RO⟩]⟩,
  ⟨"SYS.AFVAL", 0x400B0108, 0, 1, 0x00000000#32,
   [⟨"VAL", 31, 0, .RO⟩]⟩,
  ⟨"SYS.ALEN", 0x400B010C, 0, 1, 0x00000000#32,
   [⟨"LEN", 31, 0, .RO⟩]⟩,
  ⟨"SYS.AENTRY", 0x400B0110, 0, 1, 0x00000000#32,
   [⟨"ENTRY", 31, 0, .RO⟩]⟩,
  ⟨"SYS.ACRC", 0x400B0114, 0, 1, 0x00000000#32,
   [⟨"CRC", 31, 0, .RO⟩]⟩,
  ⟨"SYS.AWDCFG", 0x400B0118, 0, 1, 0x00000000#32,
   [⟨"RESTART", 16, 16, .RW⟩, ⟨"TIMEOUT", 15, 0, .RW⟩]⟩,
  ⟨"SYS.AWDSERVE", 0x400B011C, 0, 1, 0x00000000#32,
   [⟨"KEY", 31, 0, .WO⟩]⟩,
  ⟨"SYS.ABOOT", 0x400B0120, 0, 1, 0x00000050#32,
   [⟨"TW", 8, 8, .RW⟩, ⟨"ADDR", 6, 0, .RW⟩]⟩,
  ⟨"SYS.AVER", 0x400B0124, 0, 1, 0x00000000#32,
   [⟨"VERSION", 31, 0, .RO⟩]⟩]
def regRowsB : List RegRow := regRowsB_0
/-- Register rows of block 0x400C_0000 (part 0). -/
def regRowsC_0 : List RegRow := [
  ⟨"CMD.REQPTR", 0x400C0000, 0, 1, 0x00000000#32,
   [⟨"PTR", 31, 0, .RW⟩]⟩,
  ⟨"CMD.REQCTL", 0x400C0004, 0, 1, 0x00000000#32,
   [⟨"GO", 31, 31, .WO⟩, ⟨"BUSY", 30, 30, .RO⟩, ⟨"LEN", 7, 0, .RW⟩]⟩,
  ⟨"CMD.RXBASE", 0x400C0008, 0, 1, 0x00000000#32,
   [⟨"BASE", 31, 0, .RW⟩]⟩,
  ⟨"CMD.RXCFG", 0x400C000C, 0, 1, 0x00000000#32,
   [⟨"ENABLE", 8, 8, .RW⟩, ⟨"SIZE", 2, 0, .RW⟩]⟩,
  ⟨"CMD.RXWR", 0x400C0010, 0, 1, 0x00000000#32,
   [⟨"WR", 13, 0, .RO⟩]⟩,
  ⟨"CMD.RXRD", 0x400C0014, 0, 1, 0x00000000#32,
   [⟨"RD", 13, 0, .RW⟩]⟩,
  ⟨"CMD.MBSTAT", 0x400C0018, 0, 1, 0x00000000#32,
   [⟨"WAITING", 10, 8, .RO⟩, ⟨"STALLED", 2, 2, .RO⟩, ⟨"REPLY", 1, 1, .RO⟩]⟩,
  ⟨"CMD.MBEVT", 0x400C001C, 0, 1, 0x00000000#32,
   [⟨"LINE", 0, 0, .W1C⟩, ⟨"REPLYEND", 1, 1, .W1C⟩, ⟨"REQFREE", 2, 2, .W1C⟩, ⟨"CFGERR", 3, 3, .W1C⟩, ⟨"LOST", 4, 4, .W1C⟩]⟩,
  ⟨"CMD.HOSTCFG", 0x400C0100, 0, 1, 0x0708000C#32,
   [⟨"BAUD", 31, 10, .RW⟩, ⟨"ECHO", 7, 7, .RW⟩, ⟨"STOP2", 6, 6, .RW⟩, ⟨"PAR", 5, 4, .RW⟩, ⟨"ARMED", 3, 3, .RO⟩, ⟨"AUTO", 2, 2, .RW⟩, ⟨"PHY", 0, 0, .RW⟩]⟩,
  ⟨"CMD.SVCCFG", 0x400C0104, 0, 1, 0x07080000#32,
   [⟨"BAUD", 31, 10, .RW⟩]⟩,
  ⟨"CMD.HBCFG", 0x400C0108, 0, 1, 0x0014000A#32,
   [⟨"AUTONOMOUS", 31, 31, .RO⟩, ⟨"TURN", 25, 16, .RW⟩, ⟨"HBEAT", 9, 0, .RW⟩]⟩,
  ⟨"CMD.ERRCNT", 0x400C010C, 0, 1, 0x00000000#32,
   [⟨"SVCFRAME", 31, 24, .RC⟩, ⟨"HOSTFRAME", 23, 16, .RC⟩, ⟨"CRCERR", 15, 8, .RC⟩, ⟨"LOST", 7, 0, .RC⟩]⟩,
  ⟨"CMD.MRSTAT", 0x400C0110, 0, 1, 0x00000000#32,
   [⟨"PROGRESS", 31, 16, .RO⟩, ⟨"PAUSED", 7, 4, .RO⟩, ⟨"ACTIVE", 3, 0, .RO⟩]⟩]
def regRowsC : List RegRow := regRowsC_0
/-- The register rows of a block (Table 13-6). -/
def regBlock (b : Nat) : List RegRow :=
  match b with
  | 0 => regRows0
  | 1 => regRows1
  | 2 => regRows2
  | 3 => regRows3
  | 4 => regRows4
  | 5 => regRows5
  | 6 => regRows6
  | 7 => regRows7
  | 8 => regRows8
  | 9 => regRows9
  | 10 => regRowsA
  | 11 => regRowsB
  | 12 => regRowsC
  | _ => []
/-- Table 14-7: DIC.DOORBELL. -/
abbrev Ad.DIC_DOORBELL : Nat := 0x40000000
abbrev Fd.DIC_DOORBELL_SRC : Fd := ⟨Ad.DIC_DOORBELL, 7, 0⟩
/-- Table 14-7: DIC.COMPLETE. -/
abbrev Ad.DIC_COMPLETE : Nat := 0x40000004
abbrev Fd.DIC_COMPLETE_SRC : Fd := ⟨Ad.DIC_COMPLETE, 7, 0⟩
/-- Table 14-7: DIC.GDIS. -/
abbrev Ad.DIC_GDIS : Nat := 0x40000008
abbrev Fd.DIC_GDIS_HOST : Fd := ⟨Ad.DIC_GDIS, 1, 1⟩
abbrev Fd.DIC_GDIS_ANNEX : Fd := ⟨Ad.DIC_GDIS, 0, 0⟩
/-- Table 14-7: DIC.CTRL. -/
abbrev Ad.DIC_CTRL : Nat := 0x4000000C
abbrev Fd.DIC_CTRL_STRAYCLR : Fd := ⟨Ad.DIC_CTRL, 8, 8⟩
/-- Table 14-7: DIC.STAT. -/
abbrev Ad.DIC_STAT : Nat := 0x40000010
abbrev Fd.DIC_STAT_WFI : Fd := ⟨Ad.DIC_STAT, 31, 31⟩
abbrev Fd.DIC_STAT_DEPTH : Fd := ⟨Ad.DIC_STAT, 28, 24⟩
abbrev Fd.DIC_STAT_RUNPRIO : Fd := ⟨Ad.DIC_STAT, 23, 16⟩
abbrev Fd.DIC_STAT_INNER : Fd := ⟨Ad.DIC_STAT, 7, 0⟩
/-- Table 14-7: DIC.STRAYCNT. -/
abbrev Ad.DIC_STRAYCNT : Nat := 0x40000014
abbrev Fd.DIC_STRAYCNT_COUNT : Fd := ⟨Ad.DIC_STRAYCNT, 15, 0⟩
/-- Table 14-7: DIC.STRAYSRC. -/
abbrev Ad.DIC_STRAYSRC : Nat := 0x40000018
abbrev Fd.DIC_STRAYSRC_REQ : Fd := ⟨Ad.DIC_STRAYSRC, 8, 8⟩
abbrev Fd.DIC_STRAYSRC_SRC : Fd := ⟨Ad.DIC_STRAYSRC, 7, 0⟩
/-- Table 14-7: DIC.EVT. -/
abbrev Ad.DIC_EVT : Nat := 0x4000001C
abbrev Fd.DIC_EVT_CFGERR : Fd := ⟨Ad.DIC_EVT, 0, 0⟩
abbrev Fd.DIC_EVT_STRAY : Fd := ⟨Ad.DIC_EVT, 1, 1⟩
abbrev Fd.DIC_EVT_WAKE : Fd := ⟨Ad.DIC_EVT, 2, 2⟩
/-- Table 14-7: DIC.BANDn. -/
abbrev Ad.DIC_BAND (i : Nat) : Nat := 0x40000020 + 0x4 * i
abbrev Fd.DIC_BAND_EDGE (i : Nat) : Fd := ⟨Ad.DIC_BAND i, 31, 0⟩
/-- Table 14-7: DIC.MODTn. -/
abbrev Ad.DIC_MODT (i : Nat) : Nat := 0x40000040 + 0x4 * i
abbrev Fd.DIC_MODT_MODT (i : Nat) : Fd := ⟨Ad.DIC_MODT i, 9, 0⟩
/-- Table 14-7: DIC.PENDn. -/
abbrev Ad.DIC_PEND (i : Nat) : Nat := 0x40000080 + 0x4 * i
abbrev Fd.DIC_PEND_PEND (i : Nat) : Fd := ⟨Ad.DIC_PEND i, 31, 0⟩
/-- Table 14-7: DIC.ENAn. -/
abbrev Ad.DIC_ENA (i : Nat) : Nat := 0x400000A0 + 0x4 * i
abbrev Fd.DIC_ENA_ENA (i : Nat) : Fd := ⟨Ad.DIC_ENA i, 31, 0⟩
/-- Table 14-7: DIC.ACTn. -/
abbrev Ad.DIC_ACT (i : Nat) : Nat := 0x400000C0 + 0x4 * i
abbrev Fd.DIC_ACT_ACT (i : Nat) : Fd := ⟨Ad.DIC_ACT i, 31, 0⟩
/-- Table 14-7: DIC.RANGn. -/
abbrev Ad.DIC_RANG (i : Nat) : Nat := 0x400000E0 + 0x4 * i
abbrev Fd.DIC_RANG_RANG (i : Nat) : Fd := ⟨Ad.DIC_RANG i, 31, 0⟩
/-- Table 14-7: DIC.SRCn. -/
abbrev Ad.DIC_SRC (i : Nat) : Nat := 0x40000400 + 0x4 * i
abbrev Fd.DIC_SRC_MODSEL (i : Nat) : Fd := ⟨Ad.DIC_SRC i, 14, 12⟩
abbrev Fd.DIC_SRC_MODEN (i : Nat) : Fd := ⟨Ad.DIC_SRC i, 11, 11⟩
abbrev Fd.DIC_SRC_TARGET (i : Nat) : Fd := ⟨Ad.DIC_SRC i, 8, 8⟩
abbrev Fd.DIC_SRC_PRIO (i : Nat) : Fd := ⟨Ad.DIC_SRC i, 7, 0⟩
/-- Table 14-7: DIC.VECTn. -/
abbrev Ad.DIC_VECT (i : Nat) : Nat := 0x40000800 + 0x4 * i
abbrev Fd.DIC_VECT_VECT (i : Nat) : Fd := ⟨Ad.DIC_VECT i, 31, 0⟩
/-- Table 14-7: DIC.WATCHn. -/
abbrev Ad.DIC_WATCH (i : Nat) : Nat := 0x40000C00 + 0x4 * i
abbrev Fd.DIC_WATCH_EN (i : Nat) : Fd := ⟨Ad.DIC_WATCH i, 8, 8⟩
abbrev Fd.DIC_WATCH_SRC (i : Nat) : Fd := ⟨Ad.DIC_WATCH i, 7, 0⟩
/-- Table 14-7: DIC.WAKESRC. -/
abbrev Ad.DIC_WAKESRC : Nat := 0x40000C40
abbrev Fd.DIC_WAKESRC_VALID : Fd := ⟨Ad.DIC_WAKESRC, 8, 8⟩
abbrev Fd.DIC_WAKESRC_SRC : Fd := ⟨Ad.DIC_WAKESRC, 7, 0⟩
/-- Table 11-5: GP.FNn. -/
abbrev Ad.GP_FN (i : Nat) : Nat := 0x40010000 + 0x4 * i
abbrev Fd.GP_FN_LOCKED (i : Nat) : Fd := ⟨Ad.GP_FN i, 31, 31⟩
abbrev Fd.GP_FN_FILT (i : Nat) : Fd := ⟨Ad.GP_FN i, 21, 20⟩
abbrev Fd.GP_FN_IRQ (i : Nat) : Fd := ⟨Ad.GP_FN i, 18, 16⟩
abbrev Fd.GP_FN_PULL (i : Nat) : Fd := ⟨Ad.GP_FN i, 15, 14⟩
abbrev Fd.GP_FN_MODE (i : Nat) : Fd := ⟨Ad.GP_FN i, 13, 12⟩
abbrev Fd.GP_FN_ALTSUB (i : Nat) : Fd := ⟨Ad.GP_FN i, 11, 9⟩
abbrev Fd.GP_FN_ALT (i : Nat) : Fd := ⟨Ad.GP_FN i, 8, 6⟩
abbrev Fd.GP_FN_SUB (i : Nat) : Fd := ⟨Ad.GP_FN i, 5, 3⟩
abbrev Fd.GP_FN_FSEL (i : Nat) : Fd := ⟨Ad.GP_FN i, 2, 0⟩
/-- Table 11-5: GP.GPOUT0. -/
abbrev Ad.GP_GPOUT0 : Nat := 0x40010100
abbrev Fd.GP_GPOUT0_OUT : Fd := ⟨Ad.GP_GPOUT0, 31, 0⟩
/-- Table 11-5: GP.GPOUT1. -/
abbrev Ad.GP_GPOUT1 : Nat := 0x40010104
abbrev Fd.GP_GPOUT1_OUT : Fd := ⟨Ad.GP_GPOUT1, 15, 0⟩
/-- Table 11-5: GP.GPIN0. -/
abbrev Ad.GP_GPIN0 : Nat := 0x40010108
abbrev Fd.GP_GPIN0_IN : Fd := ⟨Ad.GP_GPIN0, 31, 0⟩
/-- Table 11-5: GP.GPIN1. -/
abbrev Ad.GP_GPIN1 : Nat := 0x4001010C
abbrev Fd.GP_GPIN1_IN : Fd := ⟨Ad.GP_GPIN1, 15, 0⟩
/-- Table 11-5: GP.GPISTAT0. -/
abbrev Ad.GP_GPISTAT0 : Nat := 0x40010110
abbrev Fd.GP_GPISTAT0_EVT : Fd := ⟨Ad.GP_GPISTAT0, 31, 0⟩
/-- Table 11-5: GP.GPISTAT1. -/
abbrev Ad.GP_GPISTAT1 : Nat := 0x40010114
abbrev Fd.GP_GPISTAT1_EVT : Fd := ⟨Ad.GP_GPISTAT1, 15, 0⟩
/-- Table 11-5: GP.HWMASK0. -/
abbrev Ad.GP_HWMASK0 : Nat := 0x40010118
abbrev Fd.GP_HWMASK0_HW : Fd := ⟨Ad.GP_HWMASK0, 31, 0⟩
/-- Table 11-5: GP.HWMASK1. -/
abbrev Ad.GP_HWMASK1 : Nat := 0x4001011C
abbrev Fd.GP_HWMASK1_HW : Fd := ⟨Ad.GP_HWMASK1, 15, 0⟩
/-- Table 11-5: GP.HWSEQ. -/
abbrev Ad.GP_HWSEQ : Nat := 0x40010120
abbrev Fd.GP_HWSEQ_SEQ : Fd := ⟨Ad.GP_HWSEQ, 31, 0⟩
/-- Table 11-5: GP.HWREFRESH. -/
abbrev Ad.GP_HWREFRESH : Nat := 0x40010124
abbrev Fd.GP_HWREFRESH_REFRESH : Fd := ⟨Ad.GP_HWREFRESH, 0, 0⟩
/-- Table 11-5: GP.GPLOCK. -/
abbrev Ad.GP_GPLOCK : Nat := 0x40010130
abbrev Fd.GP_GPLOCK_KEY : Fd := ⟨Ad.GP_GPLOCK, 31, 0⟩
/-- Table 11-5: GP.LOCKSTA. -/
abbrev Ad.GP_LOCKSTA : Nat := 0x40010134
abbrev Fd.GP_LOCKSTA_LOCK : Fd := ⟨Ad.GP_LOCKSTA, 23, 0⟩
/-- Table 11-5: GP.LOCKSTB. -/
abbrev Ad.GP_LOCKSTB : Nat := 0x40010138
abbrev Fd.GP_LOCKSTB_LOCK : Fd := ⟨Ad.GP_LOCKSTB, 23, 0⟩
/-- Table 11-5: GP.BANK. -/
abbrev Ad.GP_BANK : Nat := 0x4001013C
abbrev Fd.GP_BANK_B : Fd := ⟨Ad.GP_BANK, 9, 8⟩
abbrev Fd.GP_BANK_A : Fd := ⟨Ad.GP_BANK, 1, 0⟩
/-- Table 11-5: GP.EVT. -/
abbrev Ad.GP_EVT : Nat := 0x40010140
abbrev Fd.GP_EVT_CFGERR : Fd := ⟨Ad.GP_EVT, 0, 0⟩
abbrev Fd.GP_EVT_LOCKERR : Fd := ⟨Ad.GP_EVT, 1, 1⟩
abbrev Fd.GP_EVT_LOCKWR : Fd := ⟨Ad.GP_EVT, 2, 2⟩
abbrev Fd.GP_EVT_BANKA : Fd := ⟨Ad.GP_EVT, 3, 3⟩
abbrev Fd.GP_EVT_BANKB : Fd := ⟨Ad.GP_EVT, 4, 4⟩
/-- Table 11-6: TW.CTRL. -/
abbrev Ad.TW_CTRL : Nat := 0x40020000
abbrev Fd.TW_CTRL_TIMEOUT : Fd := ⟨Ad.TW_CTRL, 15, 8⟩
abbrev Fd.TW_CTRL_RATE : Fd := ⟨Ad.TW_CTRL, 2, 1⟩
abbrev Fd.TW_CTRL_ENABLE : Fd := ⟨Ad.TW_CTRL, 0, 0⟩
/-- Table 11-6: TW.CMD. -/
abbrev Ad.TW_CMD : Nat := 0x40020004
abbrev Fd.TW_CMD_START : Fd := ⟨Ad.TW_CMD, 31, 31⟩
abbrev Fd.TW_CMD_CLEAR : Fd := ⟨Ad.TW_CMD, 30, 30⟩
abbrev Fd.TW_CMD_REG : Fd := ⟨Ad.TW_CMD, 23, 16⟩
abbrev Fd.TW_CMD_USEREG : Fd := ⟨Ad.TW_CMD, 15, 15⟩
abbrev Fd.TW_CMD_COUNT : Fd := ⟨Ad.TW_CMD, 13, 8⟩
abbrev Fd.TW_CMD_READ : Fd := ⟨Ad.TW_CMD, 7, 7⟩
abbrev Fd.TW_CMD_ADDR : Fd := ⟨Ad.TW_CMD, 6, 0⟩
/-- Table 11-6: TW.STAT. -/
abbrev Ad.TW_STAT : Nat := 0x40020008
abbrev Fd.TW_STAT_BUSY : Fd := ⟨Ad.TW_STAT, 4, 4⟩
abbrev Fd.TW_STAT_STATE : Fd := ⟨Ad.TW_STAT, 3, 2⟩
abbrev Fd.TW_STAT_SDA : Fd := ⟨Ad.TW_STAT, 1, 1⟩
abbrev Fd.TW_STAT_SCL : Fd := ⟨Ad.TW_STAT, 0, 0⟩
/-- Table 11-6: TW.RES. -/
abbrev Ad.TW_RES : Nat := 0x4002000C
abbrev Fd.TW_RES_BYTES : Fd := ⟨Ad.TW_RES, 15, 8⟩
abbrev Fd.TW_RES_CODE : Fd := ⟨Ad.TW_RES, 2, 0⟩
/-- Table 11-6: TW.EVT. -/
abbrev Ad.TW_EVT : Nat := 0x40020010
abbrev Fd.TW_EVT_DONE : Fd := ⟨Ad.TW_EVT, 0, 0⟩
abbrev Fd.TW_EVT_NACK : Fd := ⟨Ad.TW_EVT, 1, 1⟩
abbrev Fd.TW_EVT_TIMEOUT : Fd := ⟨Ad.TW_EVT, 2, 2⟩
abbrev Fd.TW_EVT_STUCK : Fd := ⟨Ad.TW_EVT, 3, 3⟩
abbrev Fd.TW_EVT_CLEARED : Fd := ⟨Ad.TW_EVT, 4, 4⟩
abbrev Fd.TW_EVT_CFGERR : Fd := ⟨Ad.TW_EVT, 5, 5⟩
abbrev Fd.TW_EVT_OFF : Fd := ⟨Ad.TW_EVT, 6, 6⟩
/-- Table 11-6: TW.CNT. -/
abbrev Ad.TW_CNT : Nat := 0x40020014
abbrev Fd.TW_CNT_CLEARED : Fd := ⟨Ad.TW_CNT, 23, 16⟩
abbrev Fd.TW_CNT_STUCK : Fd := ⟨Ad.TW_CNT, 15, 8⟩
abbrev Fd.TW_CNT_NACK : Fd := ⟨Ad.TW_CNT, 7, 0⟩
/-- Table 11-6: TW.BUFn. -/
abbrev Ad.TW_BUF (i : Nat) : Nat := 0x40020020 + 0x4 * i
abbrev Fd.TW_BUF_DATA (i : Nat) : Fd := ⟨Ad.TW_BUF i, 31, 0⟩
/-- Table 3-6: TIME.CTRL. -/
abbrev Ad.TIME_CTRL : Nat := 0x40030000
abbrev Fd.TIME_CTRL_LEAP : Fd := ⟨Ad.TIME_CTRL, 11, 10⟩
abbrev Fd.TIME_CTRL_PPSEDGE : Fd := ⟨Ad.TIME_CTRL, 9, 9⟩
abbrev Fd.TIME_CTRL_IRIGEN : Fd := ⟨Ad.TIME_CTRL, 8, 8⟩
abbrev Fd.TIME_CTRL_ROLE : Fd := ⟨Ad.TIME_CTRL, 3, 3⟩
abbrev Fd.TIME_CTRL_SRCSEL : Fd := ⟨Ad.TIME_CTRL, 1, 0⟩
/-- Table 3-7: TIME.STATUS. -/
abbrev Ad.TIME_STATUS : Nat := 0x40030004
abbrev Fd.TIME_STATUS_STEPSEQ : Fd := ⟨Ad.TIME_STATUS, 31, 24⟩
abbrev Fd.TIME_STATUS_SETPEND : Fd := ⟨Ad.TIME_STATUS, 11, 11⟩
abbrev Fd.TIME_STATUS_FINUTOK : Fd := ⟨Ad.TIME_STATUS, 10, 10⟩
abbrev Fd.TIME_STATUS_IRIGOK : Fd := ⟨Ad.TIME_STATUS, 9, 9⟩
abbrev Fd.TIME_STATUS_PPSOK : Fd := ⟨Ad.TIME_STATUS, 8, 8⟩
abbrev Fd.TIME_STATUS_SOURCE : Fd := ⟨Ad.TIME_STATUS, 5, 4⟩
abbrev Fd.TIME_STATUS_STATE : Fd := ⟨Ad.TIME_STATUS, 2, 0⟩
/-- Table 3-8: TIME.SECHI. -/
abbrev Ad.TIME_SECHI : Nat := 0x40030008
abbrev Fd.TIME_SECHI_SECHI : Fd := ⟨Ad.TIME_SECHI, 15, 0⟩
/-- Table 3-8: TIME.SECLO. -/
abbrev Ad.TIME_SECLO : Nat := 0x4003000C
abbrev Fd.TIME_SECLO_SECLO : Fd := ⟨Ad.TIME_SECLO, 31, 0⟩
/-- Table 3-8: TIME.QNS. -/
abbrev Ad.TIME_QNS : Nat := 0x40030010
abbrev Fd.TIME_QNS_QNS : Fd := ⟨Ad.TIME_QNS, 31, 0⟩
/-- Table 3-8: TIME.OFFSET. -/
abbrev Ad.TIME_OFFSET : Nat := 0x40030014
abbrev Fd.TIME_OFFSET_OFFSET : Fd := ⟨Ad.TIME_OFFSET, 31, 0⟩
/-- Table 3-8: TIME.FREQ. -/
abbrev Ad.TIME_FREQ : Nat := 0x40030018
abbrev Fd.TIME_FREQ_FREQ : Fd := ⟨Ad.TIME_FREQ, 31, 0⟩
/-- Table 3-8: TIME.EST. -/
abbrev Ad.TIME_EST : Nat := 0x4003001C
abbrev Fd.TIME_EST_EST : Fd := ⟨Ad.TIME_EST, 31, 0⟩
/-- Table 3-8: TIME.SERVO. -/
abbrev Ad.TIME_SERVO : Nat := 0x40030020
abbrev Fd.TIME_SERVO_SLEWMAX : Fd := ⟨Ad.TIME_SERVO, 31, 16⟩
abbrev Fd.TIME_SERVO_STEPLIM : Fd := ⟨Ad.TIME_SERVO, 15, 0⟩
/-- Table 3-8: TIME.PPSCFG. -/
abbrev Ad.TIME_PPSCFG : Nat := 0x40030024
abbrev Fd.TIME_PPSCFG_PULSEW : Fd := ⟨Ad.TIME_PPSCFG, 31, 16⟩
abbrev Fd.TIME_PPSCFG_PPSWIN : Fd := ⟨Ad.TIME_PPSCFG, 15, 0⟩
/-- Table 3-8: TIME.PPSDLY. -/
abbrev Ad.TIME_PPSDLY : Nat := 0x40030028
abbrev Fd.TIME_PPSDLY_PPSDLY : Fd := ⟨Ad.TIME_PPSDLY, 31, 0⟩
/-- Table 3-8: TIME.IRIGCFG. -/
abbrev Ad.TIME_IRIGCFG : Nat := 0x4003002C
abbrev Fd.TIME_IRIGCFG_TAIUTC : Fd := ⟨Ad.TIME_IRIGCFG, 23, 16⟩
abbrev Fd.TIME_IRIGCFG_YEAR : Fd := ⟨Ad.TIME_IRIGCFG, 15, 8⟩
abbrev Fd.TIME_IRIGCFG_CODE : Fd := ⟨Ad.TIME_IRIGCFG, 2, 0⟩
/-- Table 3-9: TIME.CAPCFGn. -/
abbrev Ad.TIME_CAPCFG (i : Nat) : Nat := 0x40030040 + 0x4 * i
abbrev Fd.TIME_CAPCFG_ENABLE (i : Nat) : Fd := ⟨Ad.TIME_CAPCFG i, 8, 8⟩
abbrev Fd.TIME_CAPCFG_EDGE (i : Nat) : Fd := ⟨Ad.TIME_CAPCFG i, 7, 6⟩
abbrev Fd.TIME_CAPCFG_SEL (i : Nat) : Fd := ⟨Ad.TIME_CAPCFG i, 5, 0⟩
/-- Table 3-9: TIME.CAPSECn. -/
abbrev Ad.TIME_CAPSEC (i : Nat) : Nat := 0x40030080 + 0x8 * i
abbrev Fd.TIME_CAPSEC_SEC (i : Nat) : Fd := ⟨Ad.TIME_CAPSEC i, 31, 0⟩
/-- Table 3-9: TIME.CAPQNSn. -/
abbrev Ad.TIME_CAPQNS (i : Nat) : Nat := 0x40030084 + 0x8 * i
abbrev Fd.TIME_CAPQNS_QNS (i : Nat) : Fd := ⟨Ad.TIME_CAPQNS i, 31, 0⟩
/-- Table 3-9: TIME.CAPPOP. -/
abbrev Ad.TIME_CAPPOP : Nat := 0x400300C0
abbrev Fd.TIME_CAPPOP_POP : Fd := ⟨Ad.TIME_CAPPOP, 7, 0⟩
/-- Table 3-9: TIME.CAPSTAT. -/
abbrev Ad.TIME_CAPSTAT : Nat := 0x400300C4
abbrev Fd.TIME_CAPSTAT_OVF0 : Fd := ⟨Ad.TIME_CAPSTAT, 3, 3⟩
abbrev Fd.TIME_CAPSTAT_COUNT0 : Fd := ⟨Ad.TIME_CAPSTAT, 2, 0⟩
abbrev Fd.TIME_CAPSTAT_OVF1 : Fd := ⟨Ad.TIME_CAPSTAT, 7, 7⟩
abbrev Fd.TIME_CAPSTAT_COUNT1 : Fd := ⟨Ad.TIME_CAPSTAT, 6, 4⟩
abbrev Fd.TIME_CAPSTAT_OVF2 : Fd := ⟨Ad.TIME_CAPSTAT, 11, 11⟩
abbrev Fd.TIME_CAPSTAT_COUNT2 : Fd := ⟨Ad.TIME_CAPSTAT, 10, 8⟩
abbrev Fd.TIME_CAPSTAT_OVF3 : Fd := ⟨Ad.TIME_CAPSTAT, 15, 15⟩
abbrev Fd.TIME_CAPSTAT_COUNT3 : Fd := ⟨Ad.TIME_CAPSTAT, 14, 12⟩
abbrev Fd.TIME_CAPSTAT_OVF4 : Fd := ⟨Ad.TIME_CAPSTAT, 19, 19⟩
abbrev Fd.TIME_CAPSTAT_COUNT4 : Fd := ⟨Ad.TIME_CAPSTAT, 18, 16⟩
abbrev Fd.TIME_CAPSTAT_OVF5 : Fd := ⟨Ad.TIME_CAPSTAT, 23, 23⟩
abbrev Fd.TIME_CAPSTAT_COUNT5 : Fd := ⟨Ad.TIME_CAPSTAT, 22, 20⟩
abbrev Fd.TIME_CAPSTAT_OVF6 : Fd := ⟨Ad.TIME_CAPSTAT, 27, 27⟩
abbrev Fd.TIME_CAPSTAT_COUNT6 : Fd := ⟨Ad.TIME_CAPSTAT, 26, 24⟩
abbrev Fd.TIME_CAPSTAT_OVF7 : Fd := ⟨Ad.TIME_CAPSTAT, 31, 31⟩
abbrev Fd.TIME_CAPSTAT_COUNT7 : Fd := ⟨Ad.TIME_CAPSTAT, 30, 28⟩
/-- Table 3-10: BEAT.STATUS. -/
abbrev Ad.BEAT_STATUS : Nat := 0x40030100
abbrev Fd.BEAT_STATUS_INDEX : Fd := ⟨Ad.BEAT_STATUS, 31, 16⟩
abbrev Fd.BEAT_STATUS_STEPSEQ : Fd := ⟨Ad.BEAT_STATUS, 15, 8⟩
abbrev Fd.BEAT_STATUS_ADJNOW : Fd := ⟨Ad.BEAT_STATUS, 2, 2⟩
abbrev Fd.BEAT_STATUS_SHORT : Fd := ⟨Ad.BEAT_STATUS, 1, 1⟩
abbrev Fd.BEAT_STATUS_STRETCH : Fd := ⟨Ad.BEAT_STATUS, 0, 0⟩
/-- Table 3-10: BEAT.ADJ. -/
abbrev Ad.BEAT_ADJ : Nat := 0x40030104
abbrev Fd.BEAT_ADJ_NUMBER : Fd := ⟨Ad.BEAT_ADJ, 31, 16⟩
abbrev Fd.BEAT_ADJ_LEN : Fd := ⟨Ad.BEAT_ADJ, 15, 0⟩
/-- Table 3-10: BEAT.ADJSEC. -/
abbrev Ad.BEAT_ADJSEC : Nat := 0x40030108
abbrev Fd.BEAT_ADJSEC_SEC : Fd := ⟨Ad.BEAT_ADJSEC, 31, 0⟩
/-- Table 3-10: BEAT.OVR0. -/
abbrev Ad.BEAT_OVR0 : Nat := 0x40030110
abbrev Fd.BEAT_OVR0_GRID : Fd := ⟨Ad.BEAT_OVR0, 31, 16⟩
abbrev Fd.BEAT_OVR0_SEQ : Fd := ⟨Ad.BEAT_OVR0, 15, 0⟩
/-- Table 3-10: BEAT.OVR1. -/
abbrev Ad.BEAT_OVR1 : Nat := 0x40030114
abbrev Fd.BEAT_OVR1_LO : Fd := ⟨Ad.BEAT_OVR1, 31, 16⟩
abbrev Fd.BEAT_OVR1_ALM : Fd := ⟨Ad.BEAT_OVR1, 15, 0⟩
/-- Table 3-10: BEAT.OVR2. -/
abbrev Ad.BEAT_OVR2 : Nat := 0x40030118
abbrev Fd.BEAT_OVR2_ARC : Fd := ⟨Ad.BEAT_OVR2, 31, 16⟩
abbrev Fd.BEAT_OVR2_GPIO : Fd := ⟨Ad.BEAT_OVR2, 15, 0⟩
/-- Table 3-10: BEAT.OVR3. -/
abbrev Ad.BEAT_OVR3 : Nat := 0x4003011C
abbrev Fd.BEAT_OVR3_NODE : Fd := ⟨Ad.BEAT_OVR3, 15, 0⟩
/-- Table 3-10: BEAT.OVRCLR. -/
abbrev Ad.BEAT_OVRCLR : Nat := 0x40030120
abbrev Fd.BEAT_OVRCLR_CLR : Fd := ⟨Ad.BEAT_OVRCLR, 6, 0⟩
/-- Table 3-10: BEAT.LATE. -/
abbrev Ad.BEAT_LATE : Nat := 0x40030124
abbrev Fd.BEAT_LATE_LATE : Fd := ⟨Ad.BEAT_LATE, 6, 0⟩
/-- Table 4-6: UC.CFGn. -/
abbrev Ad.UC_CFG (i : Nat) : Nat := 0x40040000 + 0x40 * i
abbrev Fd.UC_CFG_SENSOR (i : Nat) : Fd := ⟨Ad.UC_CFG i, 23, 20⟩
abbrev Fd.UC_CFG_REJ (i : Nat) : Fd := ⟨Ad.UC_CFG i, 17, 16⟩
abbrev Fd.UC_CFG_RATE (i : Nat) : Fd := ⟨Ad.UC_CFG i, 14, 12⟩
abbrev Fd.UC_CFG_LOSSACT (i : Nat) : Fd := ⟨Ad.UC_CFG i, 11, 11⟩
abbrev Fd.UC_CFG_DISACT (i : Nat) : Fd := ⟨Ad.UC_CFG i, 10, 10⟩
abbrev Fd.UC_CFG_PFACT (i : Nat) : Fd := ⟨Ad.UC_CFG i, 9, 9⟩
abbrev Fd.UC_CFG_MODE (i : Nat) : Fd := ⟨Ad.UC_CFG i, 3, 0⟩
/-- Table 4-6: UC.OPTn. -/
abbrev Ad.UC_OPT (i : Nat) : Nat := 0x40040004 + 0x40 * i
abbrev Fd.UC_OPT_CJSRC (i : Nat) : Fd := ⟨Ad.UC_OPT i, 31, 30⟩
abbrev Fd.UC_OPT_CJCH (i : Nat) : Fd := ⟨Ad.UC_OPT i, 29, 25⟩
abbrev Fd.UC_OPT_OWPER (i : Nat) : Fd := ⟨Ad.UC_OPT i, 24, 15⟩
abbrev Fd.UC_OPT_DEB (i : Nat) : Fd := ⟨Ad.UC_OPT i, 14, 5⟩
abbrev Fd.UC_OPT_OW (i : Nat) : Fd := ⟨Ad.UC_OPT i, 4, 4⟩
abbrev Fd.UC_OPT_NE43 (i : Nat) : Fd := ⟨Ad.UC_OPT i, 3, 3⟩
abbrev Fd.UC_OPT_LOOPPWR (i : Nat) : Fd := ⟨Ad.UC_OPT i, 2, 2⟩
abbrev Fd.UC_OPT_RDY (i : Nat) : Fd := ⟨Ad.UC_OPT i, 1, 1⟩
/-- Table 4-6: UC.PLOn. -/
abbrev Ad.UC_PLO (i : Nat) : Nat := 0x40040008 + 0x40 * i
abbrev Fd.UC_PLO_PLO (i : Nat) : Fd := ⟨Ad.UC_PLO i, 31, 0⟩
/-- Table 4-6: UC.PHIn. -/
abbrev Ad.UC_PHI (i : Nat) : Nat := 0x4004000C + 0x40 * i
abbrev Fd.UC_PHI_PHI (i : Nat) : Fd := ⟨Ad.UC_PHI i, 31, 0⟩
/-- Table 4-6: UC.ELOn. -/
abbrev Ad.UC_ELO (i : Nat) : Nat := 0x40040010 + 0x40 * i
abbrev Fd.UC_ELO_ELO (i : Nat) : Fd := ⟨Ad.UC_ELO i, 31, 0⟩
/-- Table 4-6: UC.EHIn. -/
abbrev Ad.UC_EHI (i : Nat) : Nat := 0x40040014 + 0x40 * i
abbrev Fd.UC_EHI_EHI (i : Nat) : Fd := ⟨Ad.UC_EHI i, 31, 0⟩
/-- Table 4-6: UC.RLOn. -/
abbrev Ad.UC_RLO (i : Nat) : Nat := 0x40040018 + 0x40 * i
abbrev Fd.UC_RLO_RLO (i : Nat) : Fd := ⟨Ad.UC_RLO i, 31, 0⟩
/-- Table 4-6: UC.RHIn. -/
abbrev Ad.UC_RHI (i : Nat) : Nat := 0x4004001C + 0x40 * i
abbrev Fd.UC_RHI_RHI (i : Nat) : Fd := ⟨Ad.UC_RHI i, 31, 0⟩
/-- Table 4-6: UC.CJFIXn. -/
abbrev Ad.UC_CJFIX (i : Nat) : Nat := 0x40040020 + 0x40 * i
abbrev Fd.UC_CJFIX_CJFIX (i : Nat) : Fd := ⟨Ad.UC_CJFIX i, 31, 0⟩
/-- Table 4-6: UC.LEADn. -/
abbrev Ad.UC_LEAD (i : Nat) : Nat := 0x40040024 + 0x40 * i
abbrev Fd.UC_LEAD_LEAD (i : Nat) : Fd := ⟨Ad.UC_LEAD i, 31, 0⟩
/-- Table 4-6: UC.OUTn. -/
abbrev Ad.UC_OUT (i : Nat) : Nat := 0x40040028 + 0x40 * i
abbrev Fd.UC_OUT_OUT (i : Nat) : Fd := ⟨Ad.UC_OUT i, 31, 0⟩
/-- Table 4-6: UC.SAFEn. -/
abbrev Ad.UC_SAFE (i : Nat) : Nat := 0x4004002C + 0x40 * i
abbrev Fd.UC_SAFE_SAFE (i : Nat) : Fd := ⟨Ad.UC_SAFE i, 31, 0⟩
/-- Table 4-6: UC.RAMPn. -/
abbrev Ad.UC_RAMP (i : Nat) : Nat := 0x40040030 + 0x40 * i
abbrev Fd.UC_RAMP_RAMP (i : Nat) : Fd := ⟨Ad.UC_RAMP i, 31, 0⟩
/-- Table 4-6: UC.VALn. -/
abbrev Ad.UC_VAL (i : Nat) : Nat := 0x40040034 + 0x40 * i
abbrev Fd.UC_VAL_VAL (i : Nat) : Fd := ⟨Ad.UC_VAL i, 31, 0⟩
/-- Table 4-6: UC.PHYSn. -/
abbrev Ad.UC_PHYS (i : Nat) : Nat := 0x40040038 + 0x40 * i
abbrev Fd.UC_PHYS_PHYS (i : Nat) : Fd := ⟨Ad.UC_PHYS i, 31, 0⟩
/-- Table 4-7: UC.VSTAT. -/
abbrev Ad.UC_VSTAT : Nat := 0x40040600
abbrev Fd.UC_VSTAT_BEAT : Fd := ⟨Ad.UC_VSTAT, 31, 16⟩
abbrev Fd.UC_VSTAT_STALE : Fd := ⟨Ad.UC_VSTAT, 15, 15⟩
abbrev Fd.UC_VSTAT_FAULT : Fd := ⟨Ad.UC_VSTAT, 14, 14⟩
abbrev Fd.UC_VSTAT_OPEN : Fd := ⟨Ad.UC_VSTAT, 13, 13⟩
abbrev Fd.UC_VSTAT_OVER : Fd := ⟨Ad.UC_VSTAT, 12, 12⟩
abbrev Fd.UC_VSTAT_UNDER : Fd := ⟨Ad.UC_VSTAT, 11, 11⟩
abbrev Fd.UC_VSTAT_OUTHI : Fd := ⟨Ad.UC_VSTAT, 10, 10⟩
abbrev Fd.UC_VSTAT_OUTLO : Fd := ⟨Ad.UC_VSTAT, 9, 9⟩
abbrev Fd.UC_VSTAT_CJFAULT : Fd := ⟨Ad.UC_VSTAT, 8, 8⟩
abbrev Fd.UC_VSTAT_QX : Fd := ⟨Ad.UC_VSTAT, 7, 7⟩
abbrev Fd.UC_VSTAT_SFAULT : Fd := ⟨Ad.UC_VSTAT, 6, 6⟩
abbrev Fd.UC_VSTAT_VFAULT : Fd := ⟨Ad.UC_VSTAT, 5, 5⟩
/-- Table 4-7: UC.QSTAT. -/
abbrev Ad.UC_QSTAT : Nat := 0x40040604
abbrev Fd.UC_QSTAT_QX : Fd := ⟨Ad.UC_QSTAT, 13, 12⟩
abbrev Fd.UC_QSTAT_QXFOR : Fd := ⟨Ad.UC_QSTAT, 18, 16⟩
abbrev Fd.UC_QSTAT_Q0 : Fd := ⟨Ad.UC_QSTAT, 1, 0⟩
abbrev Fd.UC_QSTAT_Q1 : Fd := ⟨Ad.UC_QSTAT, 3, 2⟩
abbrev Fd.UC_QSTAT_Q2 : Fd := ⟨Ad.UC_QSTAT, 5, 4⟩
abbrev Fd.UC_QSTAT_Q3 : Fd := ⟨Ad.UC_QSTAT, 7, 6⟩
abbrev Fd.UC_QSTAT_Q4 : Fd := ⟨Ad.UC_QSTAT, 9, 8⟩
abbrev Fd.UC_QSTAT_Q5 : Fd := ⟨Ad.UC_QSTAT, 11, 10⟩
/-- Table 4-7: UC.QEVT. -/
abbrev Ad.UC_QEVT : Nat := 0x40040608
abbrev Fd.UC_QEVT_FAILED : Fd := ⟨Ad.UC_QEVT, 6, 0⟩
abbrev Fd.UC_QEVT_MIGRATED : Fd := ⟨Ad.UC_QEVT, 13, 8⟩
abbrev Fd.UC_QEVT_RESTORED : Fd := ⟨Ad.UC_QEVT, 21, 16⟩
abbrev Fd.UC_QEVT_CFGERR : Fd := ⟨Ad.UC_QEVT, 24, 24⟩
/-- Table 4-7: UC.QLOAD. -/
abbrev Ad.UC_QLOAD : Nat := 0x4004060C
abbrev Fd.UC_QLOAD_LOAD0 : Fd := ⟨Ad.UC_QLOAD, 3, 0⟩
abbrev Fd.UC_QLOAD_LOAD1 : Fd := ⟨Ad.UC_QLOAD, 7, 4⟩
abbrev Fd.UC_QLOAD_LOAD2 : Fd := ⟨Ad.UC_QLOAD, 11, 8⟩
abbrev Fd.UC_QLOAD_LOAD3 : Fd := ⟨Ad.UC_QLOAD, 15, 12⟩
abbrev Fd.UC_QLOAD_LOAD4 : Fd := ⟨Ad.UC_QLOAD, 19, 16⟩
abbrev Fd.UC_QLOAD_LOAD5 : Fd := ⟨Ad.UC_QLOAD, 23, 20⟩
abbrev Fd.UC_QLOAD_LOAD6 : Fd := ⟨Ad.UC_QLOAD, 27, 24⟩
/-- Table 4-7: UC.RDYMASK. -/
abbrev Ad.UC_RDYMASK : Nat := 0x40040610
abbrev Fd.UC_RDYMASK_RDY : Fd := ⟨Ad.UC_RDYMASK, 23, 0⟩
/-- Table 4-7: UC.FLAGCHG. -/
abbrev Ad.UC_FLAGCHG : Nat := 0x40040614
abbrev Fd.UC_FLAGCHG_CHG : Fd := ⟨Ad.UC_FLAGCHG, 23, 0⟩
/-- Table 4-7: UC.CJTEMP. -/
abbrev Ad.UC_CJTEMP : Nat := 0x40040618
abbrev Fd.UC_CJTEMP_CJTEMP : Fd := ⟨Ad.UC_CJTEMP, 31, 0⟩
/-- Table 4-7: UC.CTNPT. -/
abbrev Ad.UC_CTNPT : Nat := 0x40040620
abbrev Fd.UC_CTNPT_NPT0 : Fd := ⟨Ad.UC_CTNPT, 5, 0⟩
abbrev Fd.UC_CTNPT_NPT1 : Fd := ⟨Ad.UC_CTNPT, 13, 8⟩
abbrev Fd.UC_CTNPT_NPT2 : Fd := ⟨Ad.UC_CTNPT, 21, 16⟩
abbrev Fd.UC_CTNPT_NPT3 : Fd := ⟨Ad.UC_CTNPT, 29, 24⟩
/-- Table 4-7: UC.CTAB0OHMn. -/
abbrev Ad.UC_CTAB0OHM (i : Nat) : Nat := 0x40040800 + 0x8 * i
abbrev Fd.UC_CTAB0OHM_OHM (i : Nat) : Fd := ⟨Ad.UC_CTAB0OHM i, 31, 0⟩
/-- Table 4-7: UC.CTAB0DEGCn. -/
abbrev Ad.UC_CTAB0DEGC (i : Nat) : Nat := 0x40040804 + 0x8 * i
abbrev Fd.UC_CTAB0DEGC_DEGC (i : Nat) : Fd := ⟨Ad.UC_CTAB0DEGC i, 31, 0⟩
/-- Table 4-7: UC.CTAB1OHMn. -/
abbrev Ad.UC_CTAB1OHM (i : Nat) : Nat := 0x40040900 + 0x8 * i
abbrev Fd.UC_CTAB1OHM_OHM (i : Nat) : Fd := ⟨Ad.UC_CTAB1OHM i, 31, 0⟩
/-- Table 4-7: UC.CTAB1DEGCn. -/
abbrev Ad.UC_CTAB1DEGC (i : Nat) : Nat := 0x40040904 + 0x8 * i
abbrev Fd.UC_CTAB1DEGC_DEGC (i : Nat) : Fd := ⟨Ad.UC_CTAB1DEGC i, 31, 0⟩
/-- Table 4-7: UC.CTAB2OHMn. -/
abbrev Ad.UC_CTAB2OHM (i : Nat) : Nat := 0x40040A00 + 0x8 * i
abbrev Fd.UC_CTAB2OHM_OHM (i : Nat) : Fd := ⟨Ad.UC_CTAB2OHM i, 31, 0⟩
/-- Table 4-7: UC.CTAB2DEGCn. -/
abbrev Ad.UC_CTAB2DEGC (i : Nat) : Nat := 0x40040A04 + 0x8 * i
abbrev Fd.UC_CTAB2DEGC_DEGC (i : Nat) : Fd := ⟨Ad.UC_CTAB2DEGC i, 31, 0⟩
/-- Table 4-7: UC.CTAB3OHMn. -/
abbrev Ad.UC_CTAB3OHM (i : Nat) : Nat := 0x40040B00 + 0x8 * i
abbrev Fd.UC_CTAB3OHM_OHM (i : Nat) : Fd := ⟨Ad.UC_CTAB3OHM i, 31, 0⟩
/-- Table 4-7: UC.CTAB3DEGCn. -/
abbrev Ad.UC_CTAB3DEGC (i : Nat) : Nat := 0x40040B04 + 0x8 * i
abbrev Fd.UC_CTAB3DEGC_DEGC (i : Nat) : Fd := ⟨Ad.UC_CTAB3DEGC i, 31, 0⟩
/-- Table 5-7: LO.CFGn. -/
abbrev Ad.LO_CFG (i : Nat) : Nat := 0x40050000 + 0x40 * i
abbrev Fd.LO_CFG_PFACT (i : Nat) : Fd := ⟨Ad.LO_CFG i, 13, 12⟩
abbrev Fd.LO_CFG_LOSSACT (i : Nat) : Fd := ⟨Ad.LO_CFG i, 9, 8⟩
abbrev Fd.LO_CFG_DISACT (i : Nat) : Fd := ⟨Ad.LO_CFG i, 4, 4⟩
abbrev Fd.LO_CFG_MODE (i : Nat) : Fd := ⟨Ad.LO_CFG i, 1, 0⟩
/-- Table 5-7: LO.OUTn. -/
abbrev Ad.LO_OUT (i : Nat) : Nat := 0x40050004 + 0x40 * i
abbrev Fd.LO_OUT_OUT (i : Nat) : Fd := ⟨Ad.LO_OUT i, 31, 0⟩
/-- Table 5-7: LO.SAFEn. -/
abbrev Ad.LO_SAFE (i : Nat) : Nat := 0x40050008 + 0x40 * i
abbrev Fd.LO_SAFE_SAFE (i : Nat) : Fd := ⟨Ad.LO_SAFE i, 31, 0⟩
/-- Table 5-7: LO.RAMPn. -/
abbrev Ad.LO_RAMP (i : Nat) : Nat := 0x4005000C + 0x40 * i
abbrev Fd.LO_RAMP_RAMP (i : Nat) : Fd := ⟨Ad.LO_RAMP i, 31, 0⟩
/-- Table 5-7: LO.SRAMPn. -/
abbrev Ad.LO_SRAMP (i : Nat) : Nat := 0x40050010 + 0x40 * i
abbrev Fd.LO_SRAMP_SRAMP (i : Nat) : Fd := ⟨Ad.LO_SRAMP i, 31, 0⟩
/-- Table 5-7: LO.PFRAMPn. -/
abbrev Ad.LO_PFRAMP (i : Nat) : Nat := 0x40050014 + 0x40 * i
abbrev Fd.LO_PFRAMP_PFRAMP (i : Nat) : Fd := ⟨Ad.LO_PFRAMP i, 31, 0⟩
/-- Table 5-7: LO.DACn. -/
abbrev Ad.LO_DAC (i : Nat) : Nat := 0x40050018 + 0x40 * i
abbrev Fd.LO_DAC_CODE (i : Nat) : Fd := ⟨Ad.LO_DAC i, 15, 0⟩
/-- Table 5-7: LO.RBn. -/
abbrev Ad.LO_RB (i : Nat) : Nat := 0x4005001C + 0x40 * i
abbrev Fd.LO_RB_RB (i : Nat) : Fd := ⟨Ad.LO_RB i, 31, 0⟩
/-- Table 5-7: LO.PINn. -/
abbrev Ad.LO_PIN (i : Nat) : Nat := 0x40050020 + 0x40 * i
abbrev Fd.LO_PIN_PIN (i : Nat) : Fd := ⟨Ad.LO_PIN i, 31, 0⟩
/-- Table 5-7: LO.SUPn. -/
abbrev Ad.LO_SUP (i : Nat) : Nat := 0x40050024 + 0x40 * i
abbrev Fd.LO_SUP_SUP (i : Nat) : Fd := ⟨Ad.LO_SUP i, 31, 0⟩
/-- Table 5-7: LO.TEMPn. -/
abbrev Ad.LO_TEMP (i : Nat) : Nat := 0x40050028 + 0x40 * i
abbrev Fd.LO_TEMP_TEMP (i : Nat) : Fd := ⟨Ad.LO_TEMP i, 31, 0⟩
/-- Table 5-7: LO.STATn. -/
abbrev Ad.LO_STAT (i : Nat) : Nat := 0x4005002C + 0x40 * i
abbrev Fd.LO_STAT_BEAT (i : Nat) : Fd := ⟨Ad.LO_STAT i, 31, 16⟩
abbrev Fd.LO_STAT_STATE (i : Nat) : Fd := ⟨Ad.LO_STAT i, 15, 14⟩
abbrev Fd.LO_STAT_ACTION (i : Nat) : Fd := ⟨Ad.LO_STAT i, 13, 13⟩
abbrev Fd.LO_STAT_RAMPING (i : Nat) : Fd := ⟨Ad.LO_STAT i, 12, 12⟩
abbrev Fd.LO_STAT_HELD (i : Nat) : Fd := ⟨Ad.LO_STAT i, 11, 11⟩
abbrev Fd.LO_STAT_SHORTFALL (i : Nat) : Fd := ⟨Ad.LO_STAT i, 10, 10⟩
abbrev Fd.LO_STAT_OPEN (i : Nat) : Fd := ⟨Ad.LO_STAT i, 9, 9⟩
abbrev Fd.LO_STAT_DISAGREE (i : Nat) : Fd := ⟨Ad.LO_STAT i, 8, 8⟩
abbrev Fd.LO_STAT_THERMAL (i : Nat) : Fd := ⟨Ad.LO_STAT i, 7, 7⟩
abbrev Fd.LO_STAT_UNVERIFIED (i : Nat) : Fd := ⟨Ad.LO_STAT i, 6, 6⟩
/-- Table 5-8: LO.EVT0. -/
abbrev Ad.LO_EVT0 : Nat := 0x40050200
abbrev Fd.LO_EVT0_SHORTFALL : Fd := ⟨Ad.LO_EVT0, 7, 0⟩
abbrev Fd.LO_EVT0_OPEN : Fd := ⟨Ad.LO_EVT0, 15, 8⟩
abbrev Fd.LO_EVT0_DISAGREE : Fd := ⟨Ad.LO_EVT0, 23, 16⟩
abbrev Fd.LO_EVT0_THERMAL : Fd := ⟨Ad.LO_EVT0, 31, 24⟩
/-- Table 5-8: LO.EVT1. -/
abbrev Ad.LO_EVT1 : Nat := 0x40050204
abbrev Fd.LO_EVT1_ACTDONE : Fd := ⟨Ad.LO_EVT1, 7, 0⟩
abbrev Fd.LO_EVT1_CFGERR : Fd := ⟨Ad.LO_EVT1, 8, 8⟩
abbrev Fd.LO_EVT1_CHKFAIL : Fd := ⟨Ad.LO_EVT1, 9, 9⟩
/-- Table 5-8: LO.CHK. -/
abbrev Ad.LO_CHK : Nat := 0x40050208
abbrev Fd.LO_CHK_PASS : Fd := ⟨Ad.LO_CHK, 31, 16⟩
abbrev Fd.LO_CHK_FAILED : Fd := ⟨Ad.LO_CHK, 0, 0⟩
/-- Table 6-10: GRID.CTRL. -/
abbrev Ad.GRID_CTRL : Nat := 0x40060000
abbrev Fd.GRID_CTRL_RDY : Fd := ⟨Ad.GRID_CTRL, 16, 16⟩
abbrev Fd.GRID_CTRL_FRAMES : Fd := ⟨Ad.GRID_CTRL, 13, 12⟩
abbrev Fd.GRID_CTRL_FREF : Fd := ⟨Ad.GRID_CTRL, 10, 8⟩
abbrev Fd.GRID_CTRL_FS : Fd := ⟨Ad.GRID_CTRL, 6, 4⟩
abbrev Fd.GRID_CTRL_CLASS : Fd := ⟨Ad.GRID_CTRL, 2, 2⟩
abbrev Fd.GRID_CTRL_NOMINAL : Fd := ⟨Ad.GRID_CTRL, 1, 1⟩
abbrev Fd.GRID_CTRL_ENABLE : Fd := ⟨Ad.GRID_CTRL, 0, 0⟩
/-- Table 6-10: GRID.STAT. -/
abbrev Ad.GRID_STAT : Nat := 0x40060004
abbrev Fd.GRID_STAT_COUNT : Fd := ⟨Ad.GRID_STAT, 15, 0⟩
/-- Table 6-10: GRID.EVT. -/
abbrev Ad.GRID_EVT : Nat := 0x40060008
abbrev Fd.GRID_EVT_CFGERR : Fd := ⟨Ad.GRID_EVT, 0, 0⟩
abbrev Fd.GRID_EVT_FLAGCHG : Fd := ⟨Ad.GRID_EVT, 1, 1⟩
abbrev Fd.GRID_EVT_FREQRANGE : Fd := ⟨Ad.GRID_EVT, 2, 2⟩
abbrev Fd.GRID_EVT_INVALID : Fd := ⟨Ad.GRID_EVT, 3, 3⟩
/-- Table 6-10: GRID.RATIOn. -/
abbrev Ad.GRID_RATIO (i : Nat) : Nat := 0x40060010 + 0x10 * i
abbrev Fd.GRID_RATIO_RATIO (i : Nat) : Fd := ⟨Ad.GRID_RATIO i, 31, 0⟩
/-- Table 6-10: GRID.DELAYn. -/
abbrev Ad.GRID_DELAY (i : Nat) : Nat := 0x40060014 + 0x10 * i
abbrev Fd.GRID_DELAY_DELAY (i : Nat) : Fd := ⟨Ad.GRID_DELAY i, 31, 0⟩
/-- Table 6-10: GRID.INCFGn. -/
abbrev Ad.GRID_INCFG (i : Nat) : Nat := 0x40060018 + 0x10 * i
abbrev Fd.GRID_INCFG_ON (i : Nat) : Fd := ⟨Ad.GRID_INCFG i, 0, 0⟩
/-- Table 6-10: GRID.REPSEC. -/
abbrev Ad.GRID_REPSEC : Nat := 0x40060100
abbrev Fd.GRID_REPSEC_SEC : Fd := ⟨Ad.GRID_REPSEC, 31, 0⟩
/-- Table 6-10: GRID.REPQNS. -/
abbrev Ad.GRID_REPQNS : Nat := 0x40060104
abbrev Fd.GRID_REPQNS_QNS : Fd := ⟨Ad.GRID_REPQNS, 31, 0⟩
/-- Table 6-10: GRID.REPEST. -/
abbrev Ad.GRID_REPEST : Nat := 0x40060108
abbrev Fd.GRID_REPEST_EST : Fd := ⟨Ad.GRID_REPEST, 31, 0⟩
/-- Table 6-10: GRID.RFLAGS. -/
abbrev Ad.GRID_RFLAGS : Nat := 0x4006010C
abbrev Fd.GRID_RFLAGS_CLIPMASK : Fd := ⟨Ad.GRID_RFLAGS, 15, 8⟩
abbrev Fd.GRID_RFLAGS_GAP : Fd := ⟨Ad.GRID_RFLAGS, 0, 0⟩
abbrev Fd.GRID_RFLAGS_INVALID : Fd := ⟨Ad.GRID_RFLAGS, 1, 1⟩
abbrev Fd.GRID_RFLAGS_TIMEQ : Fd := ⟨Ad.GRID_RFLAGS, 2, 2⟩
abbrev Fd.GRID_RFLAGS_FREQRANGE : Fd := ⟨Ad.GRID_RFLAGS, 3, 3⟩
abbrev Fd.GRID_RFLAGS_LOWSIG : Fd := ⟨Ad.GRID_RFLAGS, 4, 4⟩
abbrev Fd.GRID_RFLAGS_CLIP : Fd := ⟨Ad.GRID_RFLAGS, 5, 5⟩
abbrev Fd.GRID_RFLAGS_STEP : Fd := ⟨Ad.GRID_RFLAGS, 6, 6⟩
/-- Table 6-10: GRID.MAGn. -/
abbrev Ad.GRID_MAG (i : Nat) : Nat := 0x40060110 + 0x8 * i
abbrev Fd.GRID_MAG_MAG (i : Nat) : Fd := ⟨Ad.GRID_MAG i, 31, 0⟩
/-- Table 6-10: GRID.ANGn. -/
abbrev Ad.GRID_ANG (i : Nat) : Nat := 0x40060114 + 0x8 * i
abbrev Fd.GRID_ANG_ANG (i : Nat) : Fd := ⟨Ad.GRID_ANG i, 31, 0⟩
/-- Table 6-10: GRID.SEQn. -/
abbrev Ad.GRID_SEQ (i : Nat) : Nat := 0x40060150 + 0x4 * i
abbrev Fd.GRID_SEQ_SEQ (i : Nat) : Fd := ⟨Ad.GRID_SEQ i, 31, 0⟩
/-- Table 6-10: GRID.FREQ. -/
abbrev Ad.GRID_FREQ : Nat := 0x40060180
abbrev Fd.GRID_FREQ_FREQ : Fd := ⟨Ad.GRID_FREQ, 31, 0⟩
/-- Table 6-10: GRID.ROCOF. -/
abbrev Ad.GRID_ROCOF : Nat := 0x40060184
abbrev Fd.GRID_ROCOF_ROCOF : Fd := ⟨Ad.GRID_ROCOF, 31, 0⟩
/-- Table 6-11: TRANS.CTRL. -/
abbrev Ad.TRANS_CTRL : Nat := 0x40060400
abbrev Fd.TRANS_CTRL_AUTOARM : Fd := ⟨Ad.TRANS_CTRL, 31, 16⟩
abbrev Fd.TRANS_CTRL_DISARM : Fd := ⟨Ad.TRANS_CTRL, 1, 1⟩
abbrev Fd.TRANS_CTRL_ARM : Fd := ⟨Ad.TRANS_CTRL, 0, 0⟩
/-- Table 6-11: TRANS.STAT. -/
abbrev Ad.TRANS_STAT : Nat := 0x40060404
abbrev Fd.TRANS_STAT_EVENTS : Fd := ⟨Ad.TRANS_STAT, 31, 16⟩
abbrev Fd.TRANS_STAT_ARRMASK : Fd := ⟨Ad.TRANS_STAT, 15, 8⟩
abbrev Fd.TRANS_STAT_TRIGIN : Fd := ⟨Ad.TRANS_STAT, 6, 4⟩
abbrev Fd.TRANS_STAT_KEPT : Fd := ⟨Ad.TRANS_STAT, 2, 2⟩
abbrev Fd.TRANS_STAT_STATE : Fd := ⟨Ad.TRANS_STAT, 1, 0⟩
/-- Table 6-11: TRANS.EVT. -/
abbrev Ad.TRANS_EVT : Nat := 0x40060408
abbrev Fd.TRANS_EVT_TRIGGERED : Fd := ⟨Ad.TRANS_EVT, 0, 0⟩
abbrev Fd.TRANS_EVT_HELD : Fd := ⟨Ad.TRANS_EVT, 1, 1⟩
abbrev Fd.TRANS_EVT_CFGERR : Fd := ⟨Ad.TRANS_EVT, 2, 2⟩
abbrev Fd.TRANS_EVT_MISSED : Fd := ⟨Ad.TRANS_EVT, 3, 3⟩
abbrev Fd.TRANS_EVT_STEP : Fd := ⟨Ad.TRANS_EVT, 4, 4⟩
/-- Table 6-11: TRANS.MISSED. -/
abbrev Ad.TRANS_MISSED : Nat := 0x4006040C
abbrev Fd.TRANS_MISSED_MISSED : Fd := ⟨Ad.TRANS_MISSED, 15, 0⟩
/-- Table 6-11: TRANS.TRIGSEC. -/
abbrev Ad.TRANS_TRIGSEC : Nat := 0x40060410
abbrev Fd.TRANS_TRIGSEC_SEC : Fd := ⟨Ad.TRANS_TRIGSEC, 31, 0⟩
/-- Table 6-11: TRANS.TRIGQNS. -/
abbrev Ad.TRANS_TRIGQNS : Nat := 0x40060414
abbrev Fd.TRANS_TRIGQNS_QNS : Fd := ⟨Ad.TRANS_TRIGQNS, 31, 0⟩
/-- Table 6-11: TRANS.TRIGBLK. -/
abbrev Ad.TRANS_TRIGBLK : Nat := 0x40060418
abbrev Fd.TRANS_TRIGBLK_SLOT : Fd := ⟨Ad.TRANS_TRIGBLK, 13, 0⟩
/-- Table 6-11: TRANS.ARRPOL. -/
abbrev Ad.TRANS_ARRPOL : Nat := 0x4006041C
abbrev Fd.TRANS_ARRPOL_POL : Fd := ⟨Ad.TRANS_ARRPOL, 7, 0⟩
/-- Table 6-11: TRANS.CFGn. -/
abbrev Ad.TRANS_CFG (i : Nat) : Nat := 0x40060440 + 0x10 * i
abbrev Fd.TRANS_CFG_K (i : Nat) : Fd := ⟨Ad.TRANS_CFG i, 13, 8⟩
abbrev Fd.TRANS_CFG_TAU (i : Nat) : Fd := ⟨Ad.TRANS_CFG i, 5, 4⟩
abbrev Fd.TRANS_CFG_HPF (i : Nat) : Fd := ⟨Ad.TRANS_CFG i, 3, 2⟩
abbrev Fd.TRANS_CFG_TRIG (i : Nat) : Fd := ⟨Ad.TRANS_CFG i, 1, 1⟩
abbrev Fd.TRANS_CFG_ON (i : Nat) : Fd := ⟨Ad.TRANS_CFG i, 0, 0⟩
/-- Table 6-11: TRANS.FLOORn. -/
abbrev Ad.TRANS_FLOOR (i : Nat) : Nat := 0x40060444 + 0x10 * i
abbrev Fd.TRANS_FLOOR_FLOOR (i : Nat) : Fd := ⟨Ad.TRANS_FLOOR i, 11, 0⟩
/-- Table 6-11: TRANS.TDELAYn. -/
abbrev Ad.TRANS_TDELAY (i : Nat) : Nat := 0x40060448 + 0x10 * i
abbrev Fd.TRANS_TDELAY_TDELAY (i : Nat) : Fd := ⟨Ad.TRANS_TDELAY i, 31, 0⟩
/-- Table 6-11: TRANS.THRn. -/
abbrev Ad.TRANS_THR (i : Nat) : Nat := 0x4006044C + 0x10 * i
abbrev Fd.TRANS_THR_RMS (i : Nat) : Fd := ⟨Ad.TRANS_THR i, 27, 16⟩
abbrev Fd.TRANS_THR_THR (i : Nat) : Fd := ⟨Ad.TRANS_THR i, 11, 0⟩
/-- Table 6-11: TRANS.ARRSECn. -/
abbrev Ad.TRANS_ARRSEC (i : Nat) : Nat := 0x40060500 + 0x8 * i
abbrev Fd.TRANS_ARRSEC_SEC (i : Nat) : Fd := ⟨Ad.TRANS_ARRSEC i, 31, 0⟩
/-- Table 6-11: TRANS.ARRQNSn. -/
abbrev Ad.TRANS_ARRQNS (i : Nat) : Nat := 0x40060504 + 0x8 * i
abbrev Fd.TRANS_ARRQNS_QNS (i : Nat) : Fd := ⟨Ad.TRANS_ARRQNS i, 31, 0⟩
/-- Table 7-7: ALM.CTRL. -/
abbrev Ad.ALM_CTRL : Nat := 0x40070000
abbrev Fd.ALM_CTRL_ENGINE : Fd := ⟨Ad.ALM_CTRL, 0, 0⟩
/-- Table 7-7: ALM.STAT. -/
abbrev Ad.ALM_STAT : Nat := 0x40070004
abbrev Fd.ALM_STAT_UNACK : Fd := ⟨Ad.ALM_STAT, 26, 16⟩
abbrev Fd.ALM_STAT_STATE : Fd := ⟨Ad.ALM_STAT, 1, 0⟩
/-- Table 7-7: ALM.SWEEP. -/
abbrev Ad.ALM_SWEEP : Nat := 0x40070008
abbrev Fd.ALM_SWEEP_COUNT : Fd := ⟨Ad.ALM_SWEEP, 5, 0⟩
/-- Table 7-7: ALM.ACK. -/
abbrev Ad.ALM_ACK : Nat := 0x4007000C
abbrev Fd.ALM_ACK_CHECK : Fd := ⟨Ad.ALM_ACK, 17, 17⟩
abbrev Fd.ALM_ACK_GROUP : Fd := ⟨Ad.ALM_ACK, 16, 16⟩
abbrev Fd.ALM_ACK_INDEX : Fd := ⟨Ad.ALM_ACK, 9, 0⟩
/-- Table 7-7: ALM.ACKACC. -/
abbrev Ad.ALM_ACKACC : Nat := 0x40070010
abbrev Fd.ALM_ACKACC_ACC : Fd := ⟨Ad.ALM_ACKACC, 31, 0⟩
/-- Table 7-7: ALM.ACKRES. -/
abbrev Ad.ALM_ACKRES : Nat := 0x40070014
abbrev Fd.ALM_ACKRES_RES : Fd := ⟨Ad.ALM_ACKRES, 1, 0⟩
/-- Table 7-7: ALM.EVT. -/
abbrev Ad.ALM_EVT : Nat := 0x40070018
abbrev Fd.ALM_EVT_ACTIVE : Fd := ⟨Ad.ALM_EVT, 0, 0⟩
abbrev Fd.ALM_EVT_RETURN : Fd := ⟨Ad.ALM_EVT, 1, 1⟩
abbrev Fd.ALM_EVT_FAULT : Fd := ⟨Ad.ALM_EVT, 2, 2⟩
abbrev Fd.ALM_EVT_CFGERR : Fd := ⟨Ad.ALM_EVT, 3, 3⟩
abbrev Fd.ALM_EVT_STAGE : Fd := ⟨Ad.ALM_EVT, 4, 4⟩
abbrev Fd.ALM_EVT_FIRSTOUT : Fd := ⟨Ad.ALM_EVT, 5, 5⟩
abbrev Fd.ALM_EVT_IGNORED : Fd := ⟨Ad.ALM_EVT, 6, 6⟩
/-- Table 7-7: ALM.CHGn. -/
abbrev Ad.ALM_CHG (i : Nat) : Nat := 0x40070040 + 0x4 * i
abbrev Fd.ALM_CHG_CHG (i : Nat) : Fd := ⟨Ad.ALM_CHG i, 31, 0⟩
/-- Table 7-7: ALM.AGCFGn. -/
abbrev Ad.ALM_AGCFG (i : Nat) : Nat := 0x40070400 + 0x10 * i
abbrev Fd.ALM_AGCFG_BLKEN (i : Nat) : Fd := ⟨Ad.ALM_AGCFG i, 31, 31⟩
abbrev Fd.ALM_AGCFG_BLKKIND (i : Nat) : Fd := ⟨Ad.ALM_AGCFG i, 30, 30⟩
abbrev Fd.ALM_AGCFG_BLKLVL (i : Nat) : Fd := ⟨Ad.ALM_AGCFG i, 29, 29⟩
abbrev Fd.ALM_AGCFG_BLKSRC (i : Nat) : Fd := ⟨Ad.ALM_AGCFG i, 25, 16⟩
abbrev Fd.ALM_AGCFG_ACKAGE (i : Nat) : Fd := ⟨Ad.ALM_AGCFG i, 15, 8⟩
abbrev Fd.ALM_AGCFG_ACKPIN (i : Nat) : Fd := ⟨Ad.ALM_AGCFG i, 7, 2⟩
abbrev Fd.ALM_AGCFG_FAULTCALL (i : Nat) : Fd := ⟨Ad.ALM_AGCFG i, 1, 1⟩
abbrev Fd.ALM_AGCFG_CALL (i : Nat) : Fd := ⟨Ad.ALM_AGCFG i, 0, 0⟩
/-- Table 7-7: ALM.AGRELn. -/
abbrev Ad.ALM_AGREL (i : Nat) : Nat := 0x40070404 + 0x10 * i
abbrev Fd.ALM_AGREL_BLKREL (i : Nat) : Fd := ⟨Ad.ALM_AGREL i, 19, 0⟩
/-- Table 7-7: ALM.AGSTATn. -/
abbrev Ad.ALM_AGSTAT (i : Nat) : Nat := 0x40070408 + 0x10 * i
abbrev Fd.ALM_AGSTAT_UNACK (i : Nat) : Fd := ⟨Ad.ALM_AGSTAT i, 26, 16⟩
abbrev Fd.ALM_AGSTAT_FOPOINT (i : Nat) : Fd := ⟨Ad.ALM_AGSTAT i, 14, 5⟩
abbrev Fd.ALM_AGSTAT_FOVALID (i : Nat) : Fd := ⟨Ad.ALM_AGSTAT i, 4, 4⟩
abbrev Fd.ALM_AGSTAT_RELEASING (i : Nat) : Fd := ⟨Ad.ALM_AGSTAT i, 3, 3⟩
abbrev Fd.ALM_AGSTAT_BLOCKED (i : Nat) : Fd := ⟨Ad.ALM_AGSTAT i, 2, 2⟩
abbrev Fd.ALM_AGSTAT_STAGE (i : Nat) : Fd := ⟨Ad.ALM_AGSTAT i, 1, 0⟩
/-- Table 7-7: CALL.MASK. -/
abbrev Ad.CALL_MASK : Nat := 0x40070800
abbrev Fd.CALL_MASK_BRIDGE : Fd := ⟨Ad.CALL_MASK, 23, 16⟩
abbrev Fd.CALL_MASK_ALL : Fd := ⟨Ad.CALL_MASK, 15, 8⟩
abbrev Fd.CALL_MASK_DUTY : Fd := ⟨Ad.CALL_MASK, 7, 0⟩
/-- Table 7-7: CALL.T. -/
abbrev Ad.CALL_T : Nat := 0x40070804
abbrev Fd.CALL_T_T2 : Fd := ⟨Ad.CALL_T, 31, 16⟩
abbrev Fd.CALL_T_T1 : Fd := ⟨Ad.CALL_T, 15, 0⟩
/-- Table 7-7: CALL.LINES. -/
abbrev Ad.CALL_LINES : Nat := 0x40070808
abbrev Fd.CALL_LINES_LINES : Fd := ⟨Ad.CALL_LINES, 7, 0⟩
/-- Table 7-7: CALL.MODE. -/
abbrev Ad.CALL_MODE : Nat := 0x4007080C
abbrev Fd.CALL_MODE_INVERT : Fd := ⟨Ad.CALL_MODE, 15, 8⟩
abbrev Fd.CALL_MODE_PULSE : Fd := ⟨Ad.CALL_MODE, 7, 0⟩
/-- Table 7-7: CALL.TO. -/
abbrev Ad.CALL_TO : Nat := 0x40070810
abbrev Fd.CALL_TO_CALLREP : Fd := ⟨Ad.CALL_TO, 31, 24⟩
abbrev Fd.CALL_TO_BRIDGETO : Fd := ⟨Ad.CALL_TO, 23, 16⟩
abbrev Fd.CALL_TO_ALLTO : Fd := ⟨Ad.CALL_TO, 15, 8⟩
abbrev Fd.CALL_TO_DUTYTO : Fd := ⟨Ad.CALL_TO, 7, 0⟩
/-- Table 7-8: ALM.PSTATn. -/
abbrev Ad.ALM_PSTAT (i : Nat) : Nat := 0x40071000 + 0x4 * i
abbrev Fd.ALM_PSTAT_BEAT (i : Nat) : Fd := ⟨Ad.ALM_PSTAT i, 31, 16⟩
abbrev Fd.ALM_PSTAT_FROZEN (i : Nat) : Fd := ⟨Ad.ALM_PSTAT i, 13, 13⟩
abbrev Fd.ALM_PSTAT_UNDER (i : Nat) : Fd := ⟨Ad.ALM_PSTAT i, 12, 10⟩
abbrev Fd.ALM_PSTAT_UNACK (i : Nat) : Fd := ⟨Ad.ALM_PSTAT i, 8, 8⟩
abbrev Fd.ALM_PSTAT_FO (i : Nat) : Fd := ⟨Ad.ALM_PSTAT i, 7, 7⟩
abbrev Fd.ALM_PSTAT_LEVEL (i : Nat) : Fd := ⟨Ad.ALM_PSTAT i, 6, 4⟩
abbrev Fd.ALM_PSTAT_STATE (i : Nat) : Fd := ⟨Ad.ALM_PSTAT i, 3, 0⟩
/-- Table 7-8: ALM.ONDLYn. -/
abbrev Ad.ALM_ONDLY (i : Nat) : Nat := 0x40072000 + 0x4 * i
abbrev Fd.ALM_ONDLY_ON (i : Nat) : Fd := ⟨Ad.ALM_ONDLY i, 19, 0⟩
/-- Table 7-8: ALM.OFFDLYn. -/
abbrev Ad.ALM_OFFDLY (i : Nat) : Nat := 0x40073000 + 0x4 * i
abbrev Fd.ALM_OFFDLY_OFF (i : Nat) : Fd := ⟨Ad.ALM_OFFDLY i, 19, 0⟩
/-- Table 7-8: ALM.PCFGn. -/
abbrev Ad.ALM_PCFG (i : Nat) : Nat := 0x40078000 + 0x20 * i
abbrev Fd.ALM_PCFG_ENABLE (i : Nat) : Fd := ⟨Ad.ALM_PCFG i, 31, 31⟩
abbrev Fd.ALM_PCFG_DIFF (i : Nat) : Fd := ⟨Ad.ALM_PCFG i, 30, 30⟩
abbrev Fd.ALM_PCFG_KINDA (i : Nat) : Fd := ⟨Ad.ALM_PCFG i, 29, 27⟩
abbrev Fd.ALM_PCFG_GRP (i : Nat) : Fd := ⟨Ad.ALM_PCFG i, 26, 21⟩
abbrev Fd.ALM_PCFG_BLK (i : Nat) : Fd := ⟨Ad.ALM_PCFG i, 20, 20⟩
abbrev Fd.ALM_PCFG_ALMLVL (i : Nat) : Fd := ⟨Ad.ALM_PCFG i, 19, 19⟩
abbrev Fd.ALM_PCFG_SRCA (i : Nat) : Fd := ⟨Ad.ALM_PCFG i, 15, 0⟩
/-- Table 7-8: ALM.PSRC2n. -/
abbrev Ad.ALM_PSRC2 (i : Nat) : Nat := 0x40078004 + 0x20 * i
abbrev Fd.ALM_PSRC2_AGE (i : Nat) : Fd := ⟨Ad.ALM_PSRC2 i, 31, 19⟩
abbrev Fd.ALM_PSRC2_KINDB (i : Nat) : Fd := ⟨Ad.ALM_PSRC2 i, 18, 16⟩
abbrev Fd.ALM_PSRC2_SRCB (i : Nat) : Fd := ⟨Ad.ALM_PSRC2 i, 15, 0⟩
/-- Table 7-8: ALM.HHn. -/
abbrev Ad.ALM_HH (i : Nat) : Nat := 0x40078008 + 0x20 * i
abbrev Fd.ALM_HH_HH (i : Nat) : Fd := ⟨Ad.ALM_HH i, 31, 0⟩
/-- Table 7-8: ALM.Hn. -/
abbrev Ad.ALM_H (i : Nat) : Nat := 0x4007800C + 0x20 * i
abbrev Fd.ALM_H_H (i : Nat) : Fd := ⟨Ad.ALM_H i, 31, 0⟩
/-- Table 7-8: ALM.Ln. -/
abbrev Ad.ALM_L (i : Nat) : Nat := 0x40078010 + 0x20 * i
abbrev Fd.ALM_L_L (i : Nat) : Fd := ⟨Ad.ALM_L i, 31, 0⟩
/-- Table 7-8: ALM.LLn. -/
abbrev Ad.ALM_LL (i : Nat) : Nat := 0x40078014 + 0x20 * i
abbrev Fd.ALM_LL_LL (i : Nat) : Fd := ⟨Ad.ALM_LL i, 31, 0⟩
/-- Table 7-8: ALM.HYSn. -/
abbrev Ad.ALM_HYS (i : Nat) : Nat := 0x40078018 + 0x20 * i
abbrev Fd.ALM_HYS_HYS (i : Nat) : Fd := ⟨Ad.ALM_HYS i, 31, 0⟩
/-- Table 8-10: ARC.CTRL. -/
abbrev Ad.ARC_CTRL : Nat := 0x40080000
abbrev Fd.ARC_CTRL_RDY : Fd := ⟨Ad.ARC_CTRL, 1, 1⟩
abbrev Fd.ARC_CTRL_ENABLE : Fd := ⟨Ad.ARC_CTRL, 0, 0⟩
/-- Table 8-10: ARC.STAT. -/
abbrev Ad.ARC_STAT : Nat := 0x40080004
abbrev Fd.ARC_STAT_QDEPTH : Fd := ⟨Ad.ARC_STAT, 23, 16⟩
abbrev Fd.ARC_STAT_ACCEND : Fd := ⟨Ad.ARC_STAT, 7, 7⟩
abbrev Fd.ARC_STAT_CLEARING : Fd := ⟨Ad.ARC_STAT, 5, 5⟩
abbrev Fd.ARC_STAT_RESEALING : Fd := ⟨Ad.ARC_STAT, 4, 4⟩
abbrev Fd.ARC_STAT_OVERFLOW : Fd := ⟨Ad.ARC_STAT, 3, 3⟩
abbrev Fd.ARC_STAT_SEALED : Fd := ⟨Ad.ARC_STAT, 2, 2⟩
abbrev Fd.ARC_STAT_STATE : Fd := ⟨Ad.ARC_STAT, 1, 0⟩
/-- Table 8-10: ARC.CHG. -/
abbrev Ad.ARC_CHG : Nat := 0x40080008
abbrev Fd.ARC_CHG_CHG : Fd := ⟨Ad.ARC_CHG, 31, 0⟩
/-- Table 8-10: ARC.NEWEST. -/
abbrev Ad.ARC_NEWEST : Nat := 0x4008000C
abbrev Fd.ARC_NEWEST_NEWEST : Fd := ⟨Ad.ARC_NEWEST, 31, 0⟩
/-- Table 8-10: ARC.OLDEST. -/
abbrev Ad.ARC_OLDEST : Nat := 0x40080010
abbrev Fd.ARC_OLDEST_OLDEST : Fd := ⟨Ad.ARC_OLDEST, 31, 0⟩
/-- Table 8-10: ARC.VLAST. -/
abbrev Ad.ARC_VLAST : Nat := 0x40080014
abbrev Fd.ARC_VLAST_VLAST : Fd := ⟨Ad.ARC_VLAST, 31, 0⟩
/-- Table 8-10: ARC.WPTR. -/
abbrev Ad.ARC_WPTR : Nat := 0x40080018
abbrev Fd.ARC_WPTR_WPTR : Fd := ⟨Ad.ARC_WPTR, 31, 0⟩
/-- Table 8-10: ARC.LOST. -/
abbrev Ad.ARC_LOST : Nat := 0x4008001C
abbrev Fd.ARC_LOST_LOST : Fd := ⟨Ad.ARC_LOST, 31, 0⟩
/-- Table 8-10: ARC.OFFCNT. -/
abbrev Ad.ARC_OFFCNT : Nat := 0x40080020
abbrev Fd.ARC_OFFCNT_OFFCNT : Fd := ⟨Ad.ARC_OFFCNT, 31, 0⟩
/-- Table 8-10: ARC.FIND. -/
abbrev Ad.ARC_FIND : Nat := 0x40080024
abbrev Fd.ARC_FIND_ACC : Fd := ⟨Ad.ARC_FIND, 31, 0⟩
/-- Table 8-10: ARC.FINDADDR. -/
abbrev Ad.ARC_FINDADDR : Nat := 0x40080028
abbrev Fd.ARC_FINDADDR_ADDR : Fd := ⟨Ad.ARC_FINDADDR, 31, 3⟩
abbrev Fd.ARC_FINDADDR_ABSENT : Fd := ⟨Ad.ARC_FINDADDR, 1, 1⟩
abbrev Fd.ARC_FINDADDR_BUSY : Fd := ⟨Ad.ARC_FINDADDR, 0, 0⟩
/-- Table 8-10: ARC.RESEALS. -/
abbrev Ad.ARC_RESEALS : Nat := 0x4008002C
abbrev Fd.ARC_RESEALS_RESEALS : Fd := ⟨Ad.ARC_RESEALS, 31, 0⟩
/-- Table 8-10: ARC.PWRCYC. -/
abbrev Ad.ARC_PWRCYC : Nat := 0x40080030
abbrev Fd.ARC_PWRCYC_COUNT : Fd := ⟨Ad.ARC_PWRCYC, 23, 0⟩
/-- Table 8-10: ARC.OPMSHI. -/
abbrev Ad.ARC_OPMSHI : Nat := 0x40080034
abbrev Fd.ARC_OPMSHI_MSHI : Fd := ⟨Ad.ARC_OPMSHI, 7, 0⟩
/-- Table 8-10: ARC.OPMSLO. -/
abbrev Ad.ARC_OPMSLO : Nat := 0x40080038
abbrev Fd.ARC_OPMSLO_MSLO : Fd := ⟨Ad.ARC_OPMSLO, 31, 0⟩
/-- Table 8-10: ARC.EVT. -/
abbrev Ad.ARC_EVT : Nat := 0x4008003C
abbrev Fd.ARC_EVT_COMMIT : Fd := ⟨Ad.ARC_EVT, 0, 0⟩
abbrev Fd.ARC_EVT_OVERFLOW : Fd := ⟨Ad.ARC_EVT, 1, 1⟩
abbrev Fd.ARC_EVT_SEALED : Fd := ⟨Ad.ARC_EVT, 2, 2⟩
abbrev Fd.ARC_EVT_RECLAIM : Fd := ⟨Ad.ARC_EVT, 3, 3⟩
abbrev Fd.ARC_EVT_CLEARED : Fd := ⟨Ad.ARC_EVT, 4, 4⟩
abbrev Fd.ARC_EVT_RESEALED : Fd := ⟨Ad.ARC_EVT, 5, 5⟩
abbrev Fd.ARC_EVT_NVFAIL : Fd := ⟨Ad.ARC_EVT, 6, 6⟩
abbrev Fd.ARC_EVT_ACCEND : Fd := ⟨Ad.ARC_EVT, 7, 7⟩
abbrev Fd.ARC_EVT_CFGERR : Fd := ⟨Ad.ARC_EVT, 8, 8⟩
abbrev Fd.ARC_EVT_OFF : Fd := ⟨Ad.ARC_EVT, 9, 9⟩
/-- Table 8-10: ARC.CODEn. -/
abbrev Ad.ARC_CODE (i : Nat) : Nat := 0x40080400 + 0x4 * i
abbrev Fd.ARC_CODE_BURST (i : Nat) : Fd := ⟨Ad.ARC_CODE i, 31, 24⟩
abbrev Fd.ARC_CODE_RATE (i : Nat) : Fd := ⟨Ad.ARC_CODE i, 23, 8⟩
abbrev Fd.ARC_CODE_KEYLEN (i : Nat) : Fd := ⟨Ad.ARC_CODE i, 7, 5⟩
abbrev Fd.ARC_CODE_RULE (i : Nat) : Fd := ⟨Ad.ARC_CODE i, 4, 3⟩
abbrev Fd.ARC_CODE_FORM (i : Nat) : Fd := ⟨Ad.ARC_CODE i, 2, 1⟩
abbrev Fd.ARC_CODE_NODE (i : Nat) : Fd := ⟨Ad.ARC_CODE i, 0, 0⟩
/-- Table 8-10: ARC.SUPPn. -/
abbrev Ad.ARC_SUPP (i : Nat) : Nat := 0x40081000 + 0x4 * i
abbrev Fd.ARC_SUPP_SUPPHI (i : Nat) : Fd := ⟨Ad.ARC_SUPP i, 31, 16⟩
abbrev Fd.ARC_SUPP_SUPP (i : Nat) : Fd := ⟨Ad.ARC_SUPP i, 15, 0⟩
/-- Table 9-12: BUSx.CTRL. -/
abbrev Ad.BUS_CTRL (p : Nat) : Nat := 0x40090000 + 0x8000 * p
abbrev Fd.BUS_CTRL_RDY (p : Nat) : Fd := ⟨Ad.BUS_CTRL p, 5, 5⟩
abbrev Fd.BUS_CTRL_GCGUARD (p : Nat) : Fd := ⟨Ad.BUS_CTRL p, 4, 4⟩
abbrev Fd.BUS_CTRL_TRIM (p : Nat) : Fd := ⟨Ad.BUS_CTRL p, 3, 3⟩
abbrev Fd.BUS_CTRL_GENMAX (p : Nat) : Fd := ⟨Ad.BUS_CTRL p, 2, 1⟩
abbrev Fd.BUS_CTRL_ENABLE (p : Nat) : Fd := ⟨Ad.BUS_CTRL p, 0, 0⟩
/-- Table 9-12: BUSx.BITNOM. -/
abbrev Ad.BUS_BITNOM (p : Nat) : Nat := 0x40090004 + 0x8000 * p
abbrev Fd.BUS_BITNOM_NSP (p : Nat) : Fd := ⟨Ad.BUS_BITNOM p, 15, 8⟩
abbrev Fd.BUS_BITNOM_NRATE (p : Nat) : Fd := ⟨Ad.BUS_BITNOM p, 1, 0⟩
/-- Table 9-12: BUSx.BITDATA. -/
abbrev Ad.BUS_BITDATA (p : Nat) : Nat := 0x40090008 + 0x8000 * p
abbrev Fd.BUS_BITDATA_DSP (p : Nat) : Fd := ⟨Ad.BUS_BITDATA p, 15, 8⟩
abbrev Fd.BUS_BITDATA_CRATE (p : Nat) : Fd := ⟨Ad.BUS_BITDATA p, 6, 4⟩
abbrev Fd.BUS_BITDATA_BRATE (p : Nat) : Fd := ⟨Ad.BUS_BITDATA p, 1, 0⟩
/-- Table 9-12: BUSx.STAT. -/
abbrev Ad.BUS_STAT (p : Nat) : Nat := 0x4009000C + 0x8000 * p
abbrev Fd.BUS_STAT_FALLBACK (p : Nat) : Fd := ⟨Ad.BUS_STAT p, 4, 4⟩
abbrev Fd.BUS_STAT_ERR (p : Nat) : Fd := ⟨Ad.BUS_STAT p, 3, 2⟩
abbrev Fd.BUS_STAT_STATE (p : Nat) : Fd := ⟨Ad.BUS_STAT p, 1, 0⟩
/-- Table 9-12: BUSx.ERRCNT. -/
abbrev Ad.BUS_ERRCNT (p : Nat) : Nat := 0x40090010 + 0x8000 * p
abbrev Fd.BUS_ERRCNT_BUSOFF (p : Nat) : Fd := ⟨Ad.BUS_ERRCNT p, 31, 16⟩
abbrev Fd.BUS_ERRCNT_REC (p : Nat) : Fd := ⟨Ad.BUS_ERRCNT p, 15, 8⟩
abbrev Fd.BUS_ERRCNT_TEC (p : Nat) : Fd := ⟨Ad.BUS_ERRCNT p, 7, 0⟩
/-- Table 9-12: BUSx.EVT. -/
abbrev Ad.BUS_EVT (p : Nat) : Nat := 0x40090014 + 0x8000 * p
abbrev Fd.BUS_EVT_CFGERR (p : Nat) : Fd := ⟨Ad.BUS_EVT p, 0, 0⟩
abbrev Fd.BUS_EVT_DOORBAD (p : Nat) : Fd := ⟨Ad.BUS_EVT p, 1, 1⟩
abbrev Fd.BUS_EVT_CARDISC (p : Nat) : Fd := ⟨Ad.BUS_EVT p, 2, 2⟩
abbrev Fd.BUS_EVT_RXOVF (p : Nat) : Fd := ⟨Ad.BUS_EVT p, 3, 3⟩
abbrev Fd.BUS_EVT_FALLBACK (p : Nat) : Fd := ⟨Ad.BUS_EVT p, 4, 4⟩
abbrev Fd.BUS_EVT_BUSOFF (p : Nat) : Fd := ⟨Ad.BUS_EVT p, 5, 5⟩
abbrev Fd.BUS_EVT_RECOVER (p : Nat) : Fd := ⟨Ad.BUS_EVT p, 6, 6⟩
abbrev Fd.BUS_EVT_OFF (p : Nat) : Fd := ⟨Ad.BUS_EVT p, 7, 7⟩
/-- Table 9-12: BUSx.FIFO. -/
abbrev Ad.BUS_FIFO (p : Nat) : Nat := 0x40090018 + 0x8000 * p
abbrev Fd.BUS_FIFO_COUNT (p : Nat) : Fd := ⟨Ad.BUS_FIFO p, 25, 16⟩
abbrev Fd.BUS_FIFO_HEAD (p : Nat) : Fd := ⟨Ad.BUS_FIFO p, 8, 0⟩
/-- Table 9-12: BUSx.FIFOPOP. -/
abbrev Ad.BUS_FIFOPOP (p : Nat) : Nat := 0x4009001C + 0x8000 * p
abbrev Fd.BUS_FIFOPOP_POP (p : Nat) : Fd := ⟨Ad.BUS_FIFOPOP p, 0, 0⟩
/-- Table 9-12: BUSx.RXLOST. -/
abbrev Ad.BUS_RXLOST (p : Nat) : Nat := 0x40090020 + 0x8000 * p
abbrev Fd.BUS_RXLOST_LOST (p : Nat) : Fd := ⟨Ad.BUS_RXLOST p, 15, 0⟩
/-- Table 9-12: BUSx.EVMISS. -/
abbrev Ad.BUS_EVMISS (p : Nat) : Nat := 0x40090024 + 0x8000 * p
abbrev Fd.BUS_EVMISS_MISS (p : Nat) : Fd := ⟨Ad.BUS_EVMISS p, 15, 0⟩
/-- Table 9-12: BUSx.CARDONE. -/
abbrev Ad.BUS_CARDONE (p : Nat) : Nat := 0x40090028 + 0x8000 * p
abbrev Fd.BUS_CARDONE_DONE (p : Nat) : Fd := ⟨Ad.BUS_CARDONE p, 7, 0⟩
/-- Table 9-12: BUSx.CARREL. -/
abbrev Ad.BUS_CARREL (p : Nat) : Nat := 0x4009002C + 0x8000 * p
abbrev Fd.BUS_CARREL_REL (p : Nat) : Fd := ⟨Ad.BUS_CARREL p, 7, 0⟩
/-- Table 9-12: BUSx.CARLENn. -/
abbrev Ad.BUS_CARLEN (p : Nat) (i : Nat) : Nat := 0x40090040 + 0x8000 * p + 0x8 * i
abbrev Fd.BUS_CARLEN_FILT (p : Nat) (i : Nat) : Fd := ⟨Ad.BUS_CARLEN p i, 22, 16⟩
abbrev Fd.BUS_CARLEN_LEN (p : Nat) (i : Nat) : Fd := ⟨Ad.BUS_CARLEN p i, 12, 0⟩
/-- Table 9-12: BUSx.CARSRCn. -/
abbrev Ad.BUS_CARSRC (p : Nat) (i : Nat) : Nat := 0x40090044 + 0x8000 * p + 0x8 * i
abbrev Fd.BUS_CARSRC_NUMBER (p : Nat) (i : Nat) : Fd := ⟨Ad.BUS_CARSRC p i, 15, 8⟩
abbrev Fd.BUS_CARSRC_STATION (p : Nat) (i : Nat) : Fd := ⟨Ad.BUS_CARSRC p i, 7, 0⟩
/-- Table 9-12: BUSx.MBCTLn. -/
abbrev Ad.BUS_MBCTL (p : Nat) (i : Nat) : Nat := 0x40090100 + 0x8000 * p + 0x4 * i
abbrev Fd.BUS_MBCTL_LEN (p : Nat) (i : Nat) : Fd := ⟨Ad.BUS_MBCTL p i, 23, 16⟩
abbrev Fd.BUS_MBCTL_GEN (p : Nat) (i : Nat) : Fd := ⟨Ad.BUS_MBCTL p i, 13, 12⟩
abbrev Fd.BUS_MBCTL_CARBUF (p : Nat) (i : Nat) : Fd := ⟨Ad.BUS_MBCTL p i, 10, 8⟩
abbrev Fd.BUS_MBCTL_CARAVAN (p : Nat) (i : Nat) : Fd := ⟨Ad.BUS_MBCTL p i, 5, 5⟩
abbrev Fd.BUS_MBCTL_RING (p : Nat) (i : Nat) : Fd := ⟨Ad.BUS_MBCTL p i, 4, 4⟩
abbrev Fd.BUS_MBCTL_STATUS (p : Nat) (i : Nat) : Fd := ⟨Ad.BUS_MBCTL p i, 3, 2⟩
abbrev Fd.BUS_MBCTL_ABORT (p : Nat) (i : Nat) : Fd := ⟨Ad.BUS_MBCTL p i, 1, 1⟩
abbrev Fd.BUS_MBCTL_REQ (p : Nat) (i : Nat) : Fd := ⟨Ad.BUS_MBCTL p i, 0, 0⟩
/-- Table 9-12: BUSx.MBIDn. -/
abbrev Ad.BUS_MBID (p : Nat) (i : Nat) : Nat := 0x40090200 + 0x8000 * p + 0x4 * i
abbrev Fd.BUS_MBID_IDE (p : Nat) (i : Nat) : Fd := ⟨Ad.BUS_MBID p i, 29, 29⟩
abbrev Fd.BUS_MBID_ID (p : Nat) (i : Nat) : Fd := ⟨Ad.BUS_MBID p i, 28, 0⟩
/-- Table 9-12: BUSx.FILTn. -/
abbrev Ad.BUS_FILT (p : Nat) (i : Nat) : Nat := 0x40090400 + 0x8000 * p + 0x8 * i
abbrev Fd.BUS_FILT_IDE (p : Nat) (i : Nat) : Fd := ⟨Ad.BUS_FILT p i, 29, 29⟩
abbrev Fd.BUS_FILT_ID (p : Nat) (i : Nat) : Fd := ⟨Ad.BUS_FILT p i, 28, 0⟩
/-- Table 9-12: BUSx.FMASKn. -/
abbrev Ad.BUS_FMASK (p : Nat) (i : Nat) : Nat := 0x40090404 + 0x8000 * p + 0x8 * i
abbrev Fd.BUS_FMASK_CARAVAN (p : Nat) (i : Nat) : Fd := ⟨Ad.BUS_FMASK p i, 31, 31⟩
abbrev Fd.BUS_FMASK_EARLY (p : Nat) (i : Nat) : Fd := ⟨Ad.BUS_FMASK p i, 30, 30⟩
abbrev Fd.BUS_FMASK_ENABLE (p : Nat) (i : Nat) : Fd := ⟨Ad.BUS_FMASK p i, 29, 29⟩
abbrev Fd.BUS_FMASK_MASK (p : Nat) (i : Nat) : Fd := ⟨Ad.BUS_FMASK p i, 28, 0⟩
/-- Table 9-12: BUSx.EVSTATn. -/
abbrev Ad.BUS_EVSTAT (p : Nat) (i : Nat) : Nat := 0x40090800 + 0x8000 * p + 0x4 * i
abbrev Fd.BUS_EVSTAT_WORD (p : Nat) (i : Nat) : Fd := ⟨Ad.BUS_EVSTAT p i, 31, 0⟩
/-- Table 9-12: BUSx.EVREL. -/
abbrev Ad.BUS_EVREL (p : Nat) : Nat := 0x40090810 + 0x8000 * p
abbrev Fd.BUS_EVREL_REL (p : Nat) : Fd := ⟨Ad.BUS_EVREL p, 3, 0⟩
/-- Table 9-12: BUSx.EVIDn. -/
abbrev Ad.BUS_EVID (p : Nat) (i : Nat) : Nat := 0x40090820 + 0x8000 * p + 0x4 * i
abbrev Fd.BUS_EVID_ID (p : Nat) (i : Nat) : Fd := ⟨Ad.BUS_EVID p i, 29, 0⟩
/-- Table 9-12: BUSx.GATECFGn. -/
abbrev Ad.BUS_GATECFG (p : Nat) (i : Nat) : Nat := 0x40090900 + 0x8000 * p + 0x8 * i
abbrev Fd.BUS_GATECFG_BMASK (p : Nat) (i : Nat) : Fd := ⟨Ad.BUS_GATECFG p i, 31, 24⟩
abbrev Fd.BUS_GATECFG_BYTE (p : Nat) (i : Nat) : Fd := ⟨Ad.BUS_GATECFG p i, 23, 16⟩
abbrev Fd.BUS_GATECFG_FILT (p : Nat) (i : Nat) : Fd := ⟨Ad.BUS_GATECFG p i, 14, 8⟩
abbrev Fd.BUS_GATECFG_ACTIVE (p : Nat) (i : Nat) : Fd := ⟨Ad.BUS_GATECFG p i, 4, 4⟩
abbrev Fd.BUS_GATECFG_ARMED (p : Nat) (i : Nat) : Fd := ⟨Ad.BUS_GATECFG p i, 3, 3⟩
abbrev Fd.BUS_GATECFG_POL (p : Nat) (i : Nat) : Fd := ⟨Ad.BUS_GATECFG p i, 2, 2⟩
abbrev Fd.BUS_GATECFG_LATCH (p : Nat) (i : Nat) : Fd := ⟨Ad.BUS_GATECFG p i, 1, 1⟩
abbrev Fd.BUS_GATECFG_ENABLE (p : Nat) (i : Nat) : Fd := ⟨Ad.BUS_GATECFG p i, 0, 0⟩
/-- Table 9-12: BUSx.GATEWn. -/
abbrev Ad.BUS_GATEW (p : Nat) (i : Nat) : Nat := 0x40090904 + 0x8000 * p + 0x8 * i
abbrev Fd.BUS_GATEW_RESET (p : Nat) (i : Nat) : Fd := ⟨Ad.BUS_GATEW p i, 16, 16⟩
abbrev Fd.BUS_GATEW_WIDTH (p : Nat) (i : Nat) : Fd := ⟨Ad.BUS_GATEW p i, 15, 0⟩
/-- Table 9-12: BUSx.TRIMn. -/
abbrev Ad.BUS_TRIM (p : Nat) (i : Nat) : Nat := 0x40090A00 + 0x8000 * p + 0x4 * i
abbrev Fd.BUS_TRIM_VALID (p : Nat) (i : Nat) : Fd := ⟨Ad.BUS_TRIM p i, 25, 25⟩
abbrev Fd.BUS_TRIM_LOCK (p : Nat) (i : Nat) : Fd := ⟨Ad.BUS_TRIM p i, 24, 24⟩
abbrev Fd.BUS_TRIM_FRAMES (p : Nat) (i : Nat) : Fd := ⟨Ad.BUS_TRIM p i, 23, 16⟩
abbrev Fd.BUS_TRIM_STATION (p : Nat) (i : Nat) : Fd := ⟨Ad.BUS_TRIM p i, 15, 8⟩
abbrev Fd.BUS_TRIM_OFFSET (p : Nat) (i : Nat) : Fd := ⟨Ad.BUS_TRIM p i, 7, 0⟩
/-- Table 10-7: BUSx.DLYSTAn. -/
abbrev Ad.BUS_DLYSTA (p : Nat) (i : Nat) : Nat := 0x40090B00 + 0x8000 * p + 0x8 * i
abbrev Fd.BUS_DLYSTA_VALID (p : Nat) (i : Nat) : Fd := ⟨Ad.BUS_DLYSTA p i, 8, 8⟩
abbrev Fd.BUS_DLYSTA_STATION (p : Nat) (i : Nat) : Fd := ⟨Ad.BUS_DLYSTA p i, 7, 0⟩
/-- Table 10-7: BUSx.DLYn. -/
abbrev Ad.BUS_DLY (p : Nat) (i : Nat) : Nat := 0x40090B04 + 0x8000 * p + 0x8 * i
abbrev Fd.BUS_DLY_SPREAD (p : Nat) (i : Nat) : Fd := ⟨Ad.BUS_DLY p i, 31, 16⟩
abbrev Fd.BUS_DLY_DELAY (p : Nat) (i : Nat) : Fd := ⟨Ad.BUS_DLY p i, 15, 0⟩
/-- Table 10-7: BUSx.MARK. -/
abbrev Ad.BUS_MARK (p : Nat) : Nat := 0x40090B20 + 0x8000 * p
abbrev Fd.BUS_MARK_SEQ (p : Nat) : Fd := ⟨Ad.BUS_MARK p, 31, 24⟩
abbrev Fd.BUS_MARK_SENDER (p : Nat) : Fd := ⟨Ad.BUS_MARK p, 23, 16⟩
abbrev Fd.BUS_MARK_GRADE (p : Nat) : Fd := ⟨Ad.BUS_MARK p, 10, 8⟩
abbrev Fd.BUS_MARK_SENDING (p : Nat) : Fd := ⟨Ad.BUS_MARK p, 2, 2⟩
abbrev Fd.BUS_MARK_SELECTED (p : Nat) : Fd := ⟨Ad.BUS_MARK p, 1, 1⟩
abbrev Fd.BUS_MARK_ACCEPTED (p : Nat) : Fd := ⟨Ad.BUS_MARK p, 0, 0⟩
/-- Table 10-7: BUSx.MARKCNT. -/
abbrev Ad.BUS_MARKCNT (p : Nat) : Nat := 0x40090B24 + 0x8000 * p
abbrev Fd.BUS_MARKCNT_REJECTED (p : Nat) : Fd := ⟨Ad.BUS_MARKCNT p, 31, 16⟩
abbrev Fd.BUS_MARKCNT_ACCEPTED (p : Nat) : Fd := ⟨Ad.BUS_MARKCNT p, 15, 0⟩
/-- Table 10-7: BUSx.SLEEP. -/
abbrev Ad.BUS_SLEEP (p : Nat) : Nat := 0x40090B40 + 0x8000 * p
abbrev Fd.BUS_SLEEP_PSTATE (p : Nat) : Fd := ⟨Ad.BUS_SLEEP p, 9, 8⟩
abbrev Fd.BUS_SLEEP_LWAKE (p : Nat) : Fd := ⟨Ad.BUS_SLEEP p, 2, 2⟩
abbrev Fd.BUS_SLEEP_WMODE (p : Nat) : Fd := ⟨Ad.BUS_SLEEP p, 1, 1⟩
/-- Table 10-7: BUSx.WID. -/
abbrev Ad.BUS_WID (p : Nat) : Nat := 0x40090B44 + 0x8000 * p
abbrev Fd.BUS_WID_ID (p : Nat) : Fd := ⟨Ad.BUS_WID p, 28, 0⟩
/-- Table 10-7: BUSx.WMASK. -/
abbrev Ad.BUS_WMASK (p : Nat) : Nat := 0x40090B48 + 0x8000 * p
abbrev Fd.BUS_WMASK_MASK (p : Nat) : Fd := ⟨Ad.BUS_WMASK p, 28, 0⟩
/-- Table 10-7: BUSx.WDATAn. -/
abbrev Ad.BUS_WDATA (p : Nat) (i : Nat) : Nat := 0x40090B4C + 0x8000 * p + 0x4 * i
abbrev Fd.BUS_WDATA_BYTES (p : Nat) (i : Nat) : Fd := ⟨Ad.BUS_WDATA p i, 31, 0⟩
/-- Table 10-7: BUSx.WDMASKn. -/
abbrev Ad.BUS_WDMASK (p : Nat) (i : Nat) : Nat := 0x40090B54 + 0x8000 * p + 0x4 * i
abbrev Fd.BUS_WDMASK_BYTES (p : Nat) (i : Nat) : Fd := ⟨Ad.BUS_WDMASK p i, 31, 0⟩
/-- Table 10-8: BUS.LINK. -/
abbrev Ad.BUS_LINK : Nat := 0x40090C00
abbrev Fd.BUS_LINK_FOLD : Fd := ⟨Ad.BUS_LINK, 24, 24⟩
abbrev Fd.BUS_LINK_WAYFWD : Fd := ⟨Ad.BUS_LINK, 20, 16⟩
abbrev Fd.BUS_LINK_DUPWIN : Fd := ⟨Ad.BUS_LINK, 13, 8⟩
abbrev Fd.BUS_LINK_TPORT : Fd := ⟨Ad.BUS_LINK, 4, 4⟩
abbrev Fd.BUS_LINK_MODE : Fd := ⟨Ad.BUS_LINK, 1, 0⟩
/-- Table 10-8: BUS.STATION. -/
abbrev Ad.BUS_STATION : Nat := 0x40090C04
abbrev Fd.BUS_STATION_REQUEST : Fd := ⟨Ad.BUS_STATION, 15, 8⟩
abbrev Fd.BUS_STATION_STATION : Fd := ⟨Ad.BUS_STATION, 7, 0⟩
/-- Table 10-8: BUS.SVSTAT. -/
abbrev Ad.BUS_SVSTAT : Nat := 0x40090C08
abbrev Fd.BUS_SVSTAT_PORT : Fd := ⟨Ad.BUS_SVSTAT, 8, 8⟩
abbrev Fd.BUS_SVSTAT_RESULT : Fd := ⟨Ad.BUS_SVSTAT, 6, 4⟩
abbrev Fd.BUS_SVSTAT_STATE : Fd := ⟨Ad.BUS_SVSTAT, 2, 0⟩
/-- Table 10-8: BUS.SVCNT. -/
abbrev Ad.BUS_SVCNT : Nat := 0x40090C0C
abbrev Fd.BUS_SVCNT_JOINED : Fd := ⟨Ad.BUS_SVCNT, 23, 16⟩
abbrev Fd.BUS_SVCNT_VANISHED : Fd := ⟨Ad.BUS_SVCNT, 15, 8⟩
abbrev Fd.BUS_SVCNT_ASSIGNED : Fd := ⟨Ad.BUS_SVCNT, 7, 0⟩
/-- Table 10-8: BUS.SVDLY. -/
abbrev Ad.BUS_SVDLY : Nat := 0x40090C10
abbrev Fd.BUS_SVDLY_EXPECTED : Fd := ⟨Ad.BUS_SVDLY, 31, 16⟩
abbrev Fd.BUS_SVDLY_MEASURED : Fd := ⟨Ad.BUS_SVDLY, 15, 0⟩
/-- Table 10-8: BUS.WAYCNT. -/
abbrev Ad.BUS_WAYCNT : Nat := 0x40090C14
abbrev Fd.BUS_WAYCNT_DROPBA : Fd := ⟨Ad.BUS_WAYCNT, 31, 16⟩
abbrev Fd.BUS_WAYCNT_DROPAB : Fd := ⟨Ad.BUS_WAYCNT, 15, 0⟩
/-- Table 10-8: BUS.DUPCNT. -/
abbrev Ad.BUS_DUPCNT : Nat := 0x40090C18
abbrev Fd.BUS_DUPCNT_DUP : Fd := ⟨Ad.BUS_DUPCNT, 15, 0⟩
/-- Table 12-6: DISP.CTRL. -/
abbrev Ad.DISP_CTRL : Nat := 0x400A0000
abbrev Fd.DISP_CTRL_RAILHOLD : Fd := ⟨Ad.DISP_CTRL, 23, 16⟩
abbrev Fd.DISP_CTRL_PARTMAX : Fd := ⟨Ad.DISP_CTRL, 15, 8⟩
abbrev Fd.DISP_CTRL_LINEGAP : Fd := ⟨Ad.DISP_CTRL, 7, 4⟩
abbrev Fd.DISP_CTRL_PCLK : Fd := ⟨Ad.DISP_CTRL, 2, 2⟩
abbrev Fd.DISP_CTRL_FRATE : Fd := ⟨Ad.DISP_CTRL, 1, 1⟩
abbrev Fd.DISP_CTRL_ENABLE : Fd := ⟨Ad.DISP_CTRL, 0, 0⟩
/-- Table 12-6: DISP.GEOM. -/
abbrev Ad.DISP_GEOM : Nat := 0x400A0004
abbrev Fd.DISP_GEOM_H : Fd := ⟨Ad.DISP_GEOM, 26, 16⟩
abbrev Fd.DISP_GEOM_W : Fd := ⟨Ad.DISP_GEOM, 10, 0⟩
/-- Table 12-6: DISP.VCOM. -/
abbrev Ad.DISP_VCOM : Nat := 0x400A0008
abbrev Fd.DISP_VCOM_VCOM : Fd := ⟨Ad.DISP_VCOM, 8, 0⟩
/-- Table 12-6: DISP.STAT. -/
abbrev Ad.DISP_STAT : Nat := 0x400A000C
abbrev Fd.DISP_STAT_STATE : Fd := ⟨Ad.DISP_STAT, 15, 14⟩
abbrev Fd.DISP_STAT_SNAP : Fd := ⟨Ad.DISP_STAT, 13, 13⟩
abbrev Fd.DISP_STAT_BUSY : Fd := ⟨Ad.DISP_STAT, 12, 12⟩
abbrev Fd.DISP_STAT_IMGUNK : Fd := ⟨Ad.DISP_STAT, 11, 11⟩
abbrev Fd.DISP_STAT_TEMPRANGE : Fd := ⟨Ad.DISP_STAT, 10, 10⟩
abbrev Fd.DISP_STAT_LAST : Fd := ⟨Ad.DISP_STAT, 9, 8⟩
abbrev Fd.DISP_STAT_BAND : Fd := ⟨Ad.DISP_STAT, 7, 5⟩
abbrev Fd.DISP_STAT_RAILS : Fd := ⟨Ad.DISP_STAT, 4, 0⟩
/-- Table 12-6: DISP.TEMP. -/
abbrev Ad.DISP_TEMP : Nat := 0x400A0010
abbrev Fd.DISP_TEMP_TMAX : Fd := ⟨Ad.DISP_TEMP, 31, 24⟩
abbrev Fd.DISP_TEMP_TMIN : Fd := ⟨Ad.DISP_TEMP, 23, 16⟩
abbrev Fd.DISP_TEMP_TSRC : Fd := ⟨Ad.DISP_TEMP, 13, 8⟩
abbrev Fd.DISP_TEMP_TFIX : Fd := ⟨Ad.DISP_TEMP, 7, 0⟩
/-- Table 12-6: DISP.BASE. -/
abbrev Ad.DISP_BASE : Nat := 0x400A0014
abbrev Fd.DISP_BASE_BASE : Fd := ⟨Ad.DISP_BASE, 31, 0⟩
/-- Table 12-6: DISP.CNT. -/
abbrev Ad.DISP_CNT : Nat := 0x400A0018
abbrev Fd.DISP_CNT_UPDATES : Fd := ⟨Ad.DISP_CNT, 31, 16⟩
abbrev Fd.DISP_CNT_PARTS : Fd := ⟨Ad.DISP_CNT, 15, 8⟩
abbrev Fd.DISP_CNT_ABANDONED : Fd := ⟨Ad.DISP_CNT, 7, 0⟩
/-- Table 12-6: DISP.LAST. -/
abbrev Ad.DISP_LAST : Nat := 0x400A001C
abbrev Fd.DISP_LAST_TEMP : Fd := ⟨Ad.DISP_LAST, 23, 16⟩
abbrev Fd.DISP_LAST_MODE : Fd := ⟨Ad.DISP_LAST, 9, 8⟩
abbrev Fd.DISP_LAST_FRAMES : Fd := ⟨Ad.DISP_LAST, 7, 0⟩
/-- Table 12-6: DISP.CMD. -/
abbrev Ad.DISP_CMD : Nat := 0x400A0020
abbrev Fd.DISP_CMD_RAILSOFF : Fd := ⟨Ad.DISP_CMD, 4, 4⟩
abbrev Fd.DISP_CMD_RAILSON : Fd := ⟨Ad.DISP_CMD, 3, 3⟩
abbrev Fd.DISP_CMD_UPDATE : Fd := ⟨Ad.DISP_CMD, 2, 2⟩
abbrev Fd.DISP_CMD_FULL : Fd := ⟨Ad.DISP_CMD, 1, 1⟩
abbrev Fd.DISP_CMD_UNIFORM : Fd := ⟨Ad.DISP_CMD, 0, 0⟩
abbrev Fd.DISP_CMD_GREY : Fd := ⟨Ad.DISP_CMD, 9, 8⟩
/-- Table 12-6: DISP.EVT. -/
abbrev Ad.DISP_EVT : Nat := 0x400A0024
abbrev Fd.DISP_EVT_DONE : Fd := ⟨Ad.DISP_EVT, 0, 0⟩
abbrev Fd.DISP_EVT_ABANDONED : Fd := ⟨Ad.DISP_EVT, 1, 1⟩
abbrev Fd.DISP_EVT_RAILFAULT : Fd := ⟨Ad.DISP_EVT, 2, 2⟩
abbrev Fd.DISP_EVT_CFGERR : Fd := ⟨Ad.DISP_EVT, 3, 3⟩
abbrev Fd.DISP_EVT_TEMPRANGE : Fd := ⟨Ad.DISP_EVT, 4, 4⟩
abbrev Fd.DISP_EVT_FORCED : Fd := ⟨Ad.DISP_EVT, 5, 5⟩
abbrev Fd.DISP_EVT_LCDCOMMIT : Fd := ⟨Ad.DISP_EVT, 6, 6⟩
abbrev Fd.DISP_EVT_OFF : Fd := ⟨Ad.DISP_EVT, 7, 7⟩
/-- Table 12-6: DISP.RAILn. -/
abbrev Ad.DISP_RAIL (i : Nat) : Nat := 0x400A0040 + 0x4 * i
abbrev Fd.DISP_RAIL_MV (i : Nat) : Fd := ⟨Ad.DISP_RAIL i, 15, 0⟩
/-- Table 12-6: DISP.WSEL. -/
abbrev Ad.DISP_WSEL : Nat := 0x400A0060
abbrev Fd.DISP_WSEL_MODE : Fd := ⟨Ad.DISP_WSEL, 8, 8⟩
abbrev Fd.DISP_WSEL_BAND : Fd := ⟨Ad.DISP_WSEL, 6, 4⟩
abbrev Fd.DISP_WSEL_FROM : Fd := ⟨Ad.DISP_WSEL, 3, 2⟩
abbrev Fd.DISP_WSEL_TO : Fd := ⟨Ad.DISP_WSEL, 1, 0⟩
/-- Table 12-6: DISP.WLEN. -/
abbrev Ad.DISP_WLEN : Nat := 0x400A0064
abbrev Fd.DISP_WLEN_LEN : Fd := ⟨Ad.DISP_WLEN, 6, 0⟩
/-- Table 12-6: DISP.WDATAn. -/
abbrev Ad.DISP_WDATA (i : Nat) : Nat := 0x400A0070 + 0x4 * i
abbrev Fd.DISP_WDATA_CODES (i : Nat) : Fd := ⟨Ad.DISP_WDATA i, 31, 0⟩
/-- Table 12-6: LCD.CTRL. -/
abbrev Ad.LCD_CTRL : Nat := 0x400A0100
abbrev Fd.LCD_CTRL_VLCD : Fd := ⟨Ad.LCD_CTRL, 23, 16⟩
abbrev Fd.LCD_CTRL_LFRATE : Fd := ⟨Ad.LCD_CTRL, 15, 8⟩
abbrev Fd.LCD_CTRL_ENABLE : Fd := ⟨Ad.LCD_CTRL, 0, 0⟩
/-- Table 12-6: LCD.COMMIT. -/
abbrev Ad.LCD_COMMIT : Nat := 0x400A0104
abbrev Fd.LCD_COMMIT_REQ : Fd := ⟨Ad.LCD_COMMIT, 0, 0⟩
/-- Table 12-6: LCD.STAT. -/
abbrev Ad.LCD_STAT : Nat := 0x400A0108
abbrev Fd.LCD_STAT_STATE : Fd := ⟨Ad.LCD_STAT, 2, 1⟩
abbrev Fd.LCD_STAT_PENDING : Fd := ⟨Ad.LCD_STAT, 0, 0⟩
/-- Table 12-6: LCD.SEGLOn. -/
abbrev Ad.LCD_SEGLO (i : Nat) : Nat := 0x400A0110 + 0x8 * i
abbrev Fd.LCD_SEGLO_SEG (i : Nat) : Fd := ⟨Ad.LCD_SEGLO i, 31, 0⟩
/-- Table 12-6: LCD.SEGHIn. -/
abbrev Ad.LCD_SEGHI (i : Nat) : Nat := 0x400A0114 + 0x8 * i
abbrev Fd.LCD_SEGHI_SEG (i : Nat) : Fd := ⟨Ad.LCD_SEGHI i, 7, 0⟩
/-- Table 12-6: LCD.BLKLOn. -/
abbrev Ad.LCD_BLKLO (i : Nat) : Nat := 0x400A0130 + 0x8 * i
abbrev Fd.LCD_BLKLO_BLINK (i : Nat) : Fd := ⟨Ad.LCD_BLKLO i, 31, 0⟩
/-- Table 12-6: LCD.BLKHIn. -/
abbrev Ad.LCD_BLKHI (i : Nat) : Nat := 0x400A0134 + 0x8 * i
abbrev Fd.LCD_BLKHI_BLINK (i : Nat) : Fd := ⟨Ad.LCD_BLKHI i, 7, 0⟩
/-- Table 1-8: SYS.DEVID. -/
abbrev Ad.SYS_DEVID : Nat := 0x400B0000
abbrev Fd.SYS_DEVID_PART : Fd := ⟨Ad.SYS_DEVID, 31, 16⟩
abbrev Fd.SYS_DEVID_REV : Fd := ⟨Ad.SYS_DEVID, 15, 8⟩
abbrev Fd.SYS_DEVID_MINOR : Fd := ⟨Ad.SYS_DEVID, 7, 0⟩
/-- Table 1-9: SYS.UIDLO. -/
abbrev Ad.SYS_UIDLO : Nat := 0x400B0004
abbrev Fd.SYS_UIDLO_UIDLO : Fd := ⟨Ad.SYS_UIDLO, 31, 0⟩
/-- Table 1-10: SYS.UIDHI. -/
abbrev Ad.SYS_UIDHI : Nat := 0x400B0008
abbrev Fd.SYS_UIDHI_UIDHI : Fd := ⟨Ad.SYS_UIDHI, 31, 0⟩
/-- Table 1-11: SYS.ROMVER. -/
abbrev Ad.SYS_ROMVER : Nat := 0x400B000C
abbrev Fd.SYS_ROMVER_MAJOR : Fd := ⟨Ad.SYS_ROMVER, 31, 16⟩
abbrev Fd.SYS_ROMVER_MINOR : Fd := ⟨Ad.SYS_ROMVER, 15, 0⟩
/-- Table 15-8: SYS.RSTCAUSE. -/
abbrev Ad.SYS_RSTCAUSE : Nat := 0x400B0010
abbrev Fd.SYS_RSTCAUSE_CAUSE : Fd := ⟨Ad.SYS_RSTCAUSE, 7, 0⟩
/-- Table 15-8: SYS.PSTATE. -/
abbrev Ad.SYS_PSTATE : Nat := 0x400B0014
abbrev Fd.SYS_PSTATE_STATE : Fd := ⟨Ad.SYS_PSTATE, 2, 0⟩
/-- Table 15-8: SYS.PCMD. -/
abbrev Ad.SYS_PCMD : Nat := 0x400B0018
abbrev Fd.SYS_PCMD_DORMANT : Fd := ⟨Ad.SYS_PCMD, 2, 2⟩
abbrev Fd.SYS_PCMD_FULL : Fd := ⟨Ad.SYS_PCMD, 1, 1⟩
abbrev Fd.SYS_PCMD_QUIET : Fd := ⟨Ad.SYS_PCMD, 0, 0⟩
/-- Table 15-8: SYS.PWRSTAT. -/
abbrev Ad.SYS_PWRSTAT : Nat := 0x400B001C
abbrev Fd.SYS_PWRSTAT_HOLDCONN : Fd := ⟨Ad.SYS_PWRSTAT, 3, 3⟩
abbrev Fd.SYS_PWRSTAT_HOLDOK : Fd := ⟨Ad.SYS_PWRSTAT, 2, 2⟩
abbrev Fd.SYS_PWRSTAT_PFWARN : Fd := ⟨Ad.SYS_PWRSTAT, 1, 1⟩
abbrev Fd.SYS_PWRSTAT_VSYSOK : Fd := ⟨Ad.SYS_PWRSTAT, 0, 0⟩
/-- Table 15-8: SYS.VSYS. -/
abbrev Ad.SYS_VSYS : Nat := 0x400B0020
abbrev Fd.SYS_VSYS_MV : Fd := ⟨Ad.SYS_VSYS, 15, 0⟩
/-- Table 15-8: SYS.HOLD. -/
abbrev Ad.SYS_HOLD : Nat := 0x400B0024
abbrev Fd.SYS_HOLD_MV : Fd := ⟨Ad.SYS_HOLD, 15, 0⟩
/-- Table 15-8: SYS.CORE. -/
abbrev Ad.SYS_CORE : Nat := 0x400B0028
abbrev Fd.SYS_CORE_STEP : Fd := ⟨Ad.SYS_CORE, 29, 24⟩
abbrev Fd.SYS_CORE_LIMIT : Fd := ⟨Ad.SYS_CORE, 16, 16⟩
abbrev Fd.SYS_CORE_VFIX : Fd := ⟨Ad.SYS_CORE, 13, 8⟩
abbrev Fd.SYS_CORE_AVS : Fd := ⟨Ad.SYS_CORE, 0, 0⟩
/-- Table 15-8: SYS.PFCFG. -/
abbrev Ad.SYS_PFCFG : Nat := 0x400B002C
abbrev Fd.SYS_PFCFG_AGRACE : Fd := ⟨Ad.SYS_PFCFG, 10, 0⟩
/-- Table 15-8: SYS.DTIME. -/
abbrev Ad.SYS_DTIME : Nat := 0x400B0030
abbrev Fd.SYS_DTIME_TIME : Fd := ⟨Ad.SYS_DTIME, 16, 0⟩
/-- Table 15-8: SYS.STORE. -/
abbrev Ad.SYS_STORE : Nat := 0x400B0034
abbrev Fd.SYS_STORE_LEN : Fd := ⟨Ad.SYS_STORE, 31, 16⟩
abbrev Fd.SYS_STORE_COPY : Fd := ⟨Ad.SYS_STORE, 9, 8⟩
abbrev Fd.SYS_STORE_DIRTY : Fd := ⟨Ad.SYS_STORE, 4, 4⟩
abbrev Fd.SYS_STORE_BUSY : Fd := ⟨Ad.SYS_STORE, 0, 0⟩
/-- Table 15-8: SYS.STOREGEN. -/
abbrev Ad.SYS_STOREGEN : Nat := 0x400B0038
abbrev Fd.SYS_STOREGEN_GEN : Fd := ⟨Ad.SYS_STOREGEN, 31, 0⟩
/-- Table 15-8: SYS.EVT. -/
abbrev Ad.SYS_EVT : Nat := 0x400B003C
abbrev Fd.SYS_EVT_PFWARN : Fd := ⟨Ad.SYS_EVT, 0, 0⟩
abbrev Fd.SYS_EVT_HOLDOK : Fd := ⟨Ad.SYS_EVT, 1, 1⟩
abbrev Fd.SYS_EVT_HOLDLOST : Fd := ⟨Ad.SYS_EVT, 2, 2⟩
abbrev Fd.SYS_EVT_STOREDEF : Fd := ⟨Ad.SYS_EVT, 3, 3⟩
abbrev Fd.SYS_EVT_COMMITDONE : Fd := ⟨Ad.SYS_EVT, 4, 4⟩
abbrev Fd.SYS_EVT_COMMITFAIL : Fd := ⟨Ad.SYS_EVT, 5, 5⟩
abbrev Fd.SYS_EVT_CORELIMIT : Fd := ⟨Ad.SYS_EVT, 6, 6⟩
abbrev Fd.SYS_EVT_CFGERR : Fd := ⟨Ad.SYS_EVT, 7, 7⟩
/-- Table 16-3: SYS.MODES. -/
abbrev Ad.SYS_MODES : Nat := 0x400B0040
abbrev Fd.SYS_MODES_LOCKB : Fd := ⟨Ad.SYS_MODES, 28, 24⟩
abbrev Fd.SYS_MODES_LOCKA : Fd := ⟨Ad.SYS_MODES, 20, 16⟩
abbrev Fd.SYS_MODES_AUTONOMOUS : Fd := ⟨Ad.SYS_MODES, 12, 12⟩
abbrev Fd.SYS_MODES_LINK : Fd := ⟨Ad.SYS_MODES, 11, 10⟩
abbrev Fd.SYS_MODES_ANNEX : Fd := ⟨Ad.SYS_MODES, 9, 8⟩
abbrev Fd.SYS_MODES_GENB : Fd := ⟨Ad.SYS_MODES, 7, 6⟩
abbrev Fd.SYS_MODES_GENA : Fd := ⟨Ad.SYS_MODES, 5, 4⟩
abbrev Fd.SYS_MODES_PSTATE : Fd := ⟨Ad.SYS_MODES, 2, 0⟩
/-- Table 13-9: SYS.ASTAT. -/
abbrev Ad.SYS_ASTAT : Nat := 0x400B0100
abbrev Fd.SYS_ASTAT_RESTARTS : Fd := ⟨Ad.SYS_ASTAT, 31, 24⟩
abbrev Fd.SYS_ASTAT_CAUSE : Fd := ⟨Ad.SYS_ASTAT, 20, 16⟩
abbrev Fd.SYS_ASTAT_STATE : Fd := ⟨Ad.SYS_ASTAT, 9, 8⟩
abbrev Fd.SYS_ASTAT_TRAP : Fd := ⟨Ad.SYS_ASTAT, 0, 0⟩
/-- Table 13-9: SYS.AFPC. -/
abbrev Ad.SYS_AFPC : Nat := 0x400B0104
abbrev Fd.SYS_AFPC_PC : Fd := ⟨Ad.SYS_AFPC, 31, 0⟩
/-- Table 13-9: SYS.AFVAL. -/
abbrev Ad.SYS_AFVAL : Nat := 0x400B0108
abbrev Fd.SYS_AFVAL_VAL : Fd := ⟨Ad.SYS_AFVAL, 31, 0⟩
/-- Table 13-9: SYS.ALEN. -/
abbrev Ad.SYS_ALEN : Nat := 0x400B010C
abbrev Fd.SYS_ALEN_LEN : Fd := ⟨Ad.SYS_ALEN, 31, 0⟩
/-- Table 13-9: SYS.AENTRY. -/
abbrev Ad.SYS_AENTRY : Nat := 0x400B0110
abbrev Fd.SYS_AENTRY_ENTRY : Fd := ⟨Ad.SYS_AENTRY, 31, 0⟩
/-- Table 13-9: SYS.ACRC. -/
abbrev Ad.SYS_ACRC : Nat := 0x400B0114
abbrev Fd.SYS_ACRC_CRC : Fd := ⟨Ad.SYS_ACRC, 31, 0⟩
/-- Table 13-9: SYS.AWDCFG. -/
abbrev Ad.SYS_AWDCFG : Nat := 0x400B0118
abbrev Fd.SYS_AWDCFG_RESTART : Fd := ⟨Ad.SYS_AWDCFG, 16, 16⟩
abbrev Fd.SYS_AWDCFG_TIMEOUT : Fd := ⟨Ad.SYS_AWDCFG, 15, 0⟩
/-- Table 13-9: SYS.AWDSERVE. -/
abbrev Ad.SYS_AWDSERVE : Nat := 0x400B011C
abbrev Fd.SYS_AWDSERVE_KEY : Fd := ⟨Ad.SYS_AWDSERVE, 31, 0⟩
/-- Table 13-9: SYS.ABOOT. -/
abbrev Ad.SYS_ABOOT : Nat := 0x400B0120
abbrev Fd.SYS_ABOOT_TW : Fd := ⟨Ad.SYS_ABOOT, 8, 8⟩
abbrev Fd.SYS_ABOOT_ADDR : Fd := ⟨Ad.SYS_ABOOT, 6, 0⟩
/-- Table 13-9: SYS.AVER. -/
abbrev Ad.SYS_AVER : Nat := 0x400B0124
abbrev Fd.SYS_AVER_VERSION : Fd := ⟨Ad.SYS_AVER, 31, 0⟩
/-- Table 13-10: CMD.REQPTR. -/
abbrev Ad.CMD_REQPTR : Nat := 0x400C0000
abbrev Fd.CMD_REQPTR_PTR : Fd := ⟨Ad.CMD_REQPTR, 31, 0⟩
/-- Table 13-10: CMD.REQCTL. -/
abbrev Ad.CMD_REQCTL : Nat := 0x400C0004
abbrev Fd.CMD_REQCTL_GO : Fd := ⟨Ad.CMD_REQCTL, 31, 31⟩
abbrev Fd.CMD_REQCTL_BUSY : Fd := ⟨Ad.CMD_REQCTL, 30, 30⟩
abbrev Fd.CMD_REQCTL_LEN : Fd := ⟨Ad.CMD_REQCTL, 7, 0⟩
/-- Table 13-10: CMD.RXBASE. -/
abbrev Ad.CMD_RXBASE : Nat := 0x400C0008
abbrev Fd.CMD_RXBASE_BASE : Fd := ⟨Ad.CMD_RXBASE, 31, 0⟩
/-- Table 13-10: CMD.RXCFG. -/
abbrev Ad.CMD_RXCFG : Nat := 0x400C000C
abbrev Fd.CMD_RXCFG_ENABLE : Fd := ⟨Ad.CMD_RXCFG, 8, 8⟩
abbrev Fd.CMD_RXCFG_SIZE : Fd := ⟨Ad.CMD_RXCFG, 2, 0⟩
/-- Table 13-10: CMD.RXWR. -/
abbrev Ad.CMD_RXWR : Nat := 0x400C0010
abbrev Fd.CMD_RXWR_WR : Fd := ⟨Ad.CMD_RXWR, 13, 0⟩
/-- Table 13-10: CMD.RXRD. -/
abbrev Ad.CMD_RXRD : Nat := 0x400C0014
abbrev Fd.CMD_RXRD_RD : Fd := ⟨Ad.CMD_RXRD, 13, 0⟩
/-- Table 13-10: CMD.MBSTAT. -/
abbrev Ad.CMD_MBSTAT : Nat := 0x400C0018
abbrev Fd.CMD_MBSTAT_WAITING : Fd := ⟨Ad.CMD_MBSTAT, 10, 8⟩
abbrev Fd.CMD_MBSTAT_STALLED : Fd := ⟨Ad.CMD_MBSTAT, 2, 2⟩
abbrev Fd.CMD_MBSTAT_REPLY : Fd := ⟨Ad.CMD_MBSTAT, 1, 1⟩
/-- Table 13-10: CMD.MBEVT. -/
abbrev Ad.CMD_MBEVT : Nat := 0x400C001C
abbrev Fd.CMD_MBEVT_LINE : Fd := ⟨Ad.CMD_MBEVT, 0, 0⟩
abbrev Fd.CMD_MBEVT_REPLYEND : Fd := ⟨Ad.CMD_MBEVT, 1, 1⟩
abbrev Fd.CMD_MBEVT_REQFREE : Fd := ⟨Ad.CMD_MBEVT, 2, 2⟩
abbrev Fd.CMD_MBEVT_CFGERR : Fd := ⟨Ad.CMD_MBEVT, 3, 3⟩
abbrev Fd.CMD_MBEVT_LOST : Fd := ⟨Ad.CMD_MBEVT, 4, 4⟩
/-- Table 2-8: CMD.HOSTCFG. -/
abbrev Ad.CMD_HOSTCFG : Nat := 0x400C0100
abbrev Fd.CMD_HOSTCFG_BAUD : Fd := ⟨Ad.CMD_HOSTCFG, 31, 10⟩
abbrev Fd.CMD_HOSTCFG_ECHO : Fd := ⟨Ad.CMD_HOSTCFG, 7, 7⟩
abbrev Fd.CMD_HOSTCFG_STOP2 : Fd := ⟨Ad.CMD_HOSTCFG, 6, 6⟩
abbrev Fd.CMD_HOSTCFG_PAR : Fd := ⟨Ad.CMD_HOSTCFG, 5, 4⟩
abbrev Fd.CMD_HOSTCFG_ARMED : Fd := ⟨Ad.CMD_HOSTCFG, 3, 3⟩
abbrev Fd.CMD_HOSTCFG_AUTO : Fd := ⟨Ad.CMD_HOSTCFG, 2, 2⟩
abbrev Fd.CMD_HOSTCFG_PHY : Fd := ⟨Ad.CMD_HOSTCFG, 0, 0⟩
/-- Table 2-9: CMD.SVCCFG. -/
abbrev Ad.CMD_SVCCFG : Nat := 0x400C0104
abbrev Fd.CMD_SVCCFG_BAUD : Fd := ⟨Ad.CMD_SVCCFG, 31, 10⟩
/-- Table 2-10: CMD.HBCFG. -/
abbrev Ad.CMD_HBCFG : Nat := 0x400C0108
abbrev Fd.CMD_HBCFG_AUTONOMOUS : Fd := ⟨Ad.CMD_HBCFG, 31, 31⟩
abbrev Fd.CMD_HBCFG_TURN : Fd := ⟨Ad.CMD_HBCFG, 25, 16⟩
abbrev Fd.CMD_HBCFG_HBEAT : Fd := ⟨Ad.CMD_HBCFG, 9, 0⟩
/-- Table 2-11: CMD.ERRCNT. -/
abbrev Ad.CMD_ERRCNT : Nat := 0x400C010C
abbrev Fd.CMD_ERRCNT_SVCFRAME : Fd := ⟨Ad.CMD_ERRCNT, 31, 24⟩
abbrev Fd.CMD_ERRCNT_HOSTFRAME : Fd := ⟨Ad.CMD_ERRCNT, 23, 16⟩
abbrev Fd.CMD_ERRCNT_CRCERR : Fd := ⟨Ad.CMD_ERRCNT, 15, 8⟩
abbrev Fd.CMD_ERRCNT_LOST : Fd := ⟨Ad.CMD_ERRCNT, 7, 0⟩
/-- Table 2-12: CMD.MRSTAT. -/
abbrev Ad.CMD_MRSTAT : Nat := 0x400C0110
abbrev Fd.CMD_MRSTAT_PROGRESS : Fd := ⟨Ad.CMD_MRSTAT, 31, 16⟩
abbrev Fd.CMD_MRSTAT_PAUSED : Fd := ⟨Ad.CMD_MRSTAT, 7, 4⟩
abbrev Fd.CMD_MRSTAT_ACTIVE : Fd := ⟨Ad.CMD_MRSTAT, 3, 0⟩

/-- Does the row hold the register at address `a`? -/
def RegRow.holds (r : RegRow) (a : Nat) : Bool :=
  if r.count ≤ 1 then a == r.addr
  else r.addr ≤ a && a < r.addr + r.stride * r.count && (a - r.addr) % r.stride == 0

/-- The row of the register at an address, if a register occupies it (R364). -/
def regRow (a : Nat) : Option RegRow :=
  if a < 0x40000000 then none else (regBlock ((a - 0x40000000) / 0x10000)).find? (fun r => r.holds a)

/-- The reset value of the register at an address: the register table's, and for ARC.CODEc the code tables' (Table 8-6
and its continuations). Registers whose table gives no number reset here to 0 (log entry 11). -/
def resetWord (a : Nat) : Word :=
  if 0x40080400 ≤ a ∧ a < 0x40080C00 then codeReset ((a - 0x40080400) / 4)
  else match regRow a with
    | some r => r.reset
    | none => 0#32

/-- Which register of its row an address names. -/
def RegRow.index (r : RegRow) (a : Nat) : Nat :=
  if r.count ≤ 1 then 0 else (a - r.addr) / r.stride

/-- Every register row of the map, block by block. -/
def regRows : List RegRow := (List.range 13).flatMap regBlock

end Sys2Proof.Machine
end

