-- ==== Sys2Proof/Machine/State.lean ====
section
/-! DEFINITION. The state of the node: the register file, the memories, and for each function the state its chapter
gives it beside its registers; the queue of waiting commands; the machine at reset. -/
namespace Sys2Proof.Machine

/-! ### Output lines of the command ports -/

/-- One item of an output line: a word, a decimal number, an integer, a hex number with its count of digits, a
binary32 number, a fixed-point number `num / 10^scale`, bytes as hex digits, an index list, a quoted string, or text
kept as characters. -/
inductive Item
  | w (s : String)
  | n (k : Nat)
  | i (v : Int)
  | h (v : Nat) (digits : Nat)
  | f (x : Word)
  | d (num : Int) (scale : Nat)
  | b (l : List Byte)
  | x (l : List (Nat × Nat))
  | q (chars : List Nat)
  | c (chars : List Nat)
deriving DecidableEq, Repr

/-- The line forms the node sends (Table 2-4). -/
inductive LineKind
  | data
  | done
  | error (code : Nat)
  | partialAt (n : Nat)
  | resume (n : Nat)
  | notice
  | raw           -- a line relayed as it was received (DO BUS TUNNEL)
deriving DecidableEq, Repr

/-- A line the node sends: the tag it carries (empty in the typed form, R35), its form and its items. -/
structure OutLine where
  tag : String
  kind : LineKind
  items : List Item
deriving DecidableEq, Repr

/-- A complete line waiting for its execution (R41): its characters, its tag (empty: typed), its checksum, and the
station a BUS line came from. -/
structure Waiting where
  chars : List Nat
  tag : String
  crc : Nat
  station : Nat
  via : Nat                         -- the Allieno port it came by
  at_ : Nat                         -- tick of the beat in which its terminator arrived (R41)
  bulk : Bool                       -- a further line of the caravan before it
deriving DecidableEq, Repr

/-- The stored reply of the most recent generated line (R36): what identifies the line, its reply (none kept when it
had more than 64 lines), and the tick at which the reply ended (none while it has not). -/
structure Stored where
  tag : String
  crc : Nat
  lines : List OutLine
  count : Nat
  ended : Option Nat
  again : Bool            -- a repeat has arrived and waits to be answered
deriving DecidableEq, Repr

/-- What one unit of a micro-routine does (Table 2-5). -/
inductive UnitOp
  | set (o : Obj) (keys : Keys)
  | act (o : Obj) (action : String) (keys : Keys)
  | clear (o : Obj)
  | reinit (o : Obj)
  | commit
  | clearGallery
  | reseal
deriving DecidableEq, Repr

/-- A running micro-routine (R43, R44). `units` are its unit numbers in order, `pos` the position of the first unit
not yet applied, `since` the position at which the present part of its reply began. -/
structure Mr where
  op : UnitOp
  tag : String
  verb : Nat
  obj : Obj
  units : List Nat
  indexed : Bool
  pos : Nat
  since : Nat
  paused : Bool
  wasPaused : Bool
  pauseSurvey : Bool      -- a survey caused the last pause
  from_ : Nat             -- tick of the first beat whose stage S7 may apply the next unit (R43, Table 4-5a)
deriving DecidableEq, Repr

/-- A pending confirmation (R47): 0 reseal, 1 power cycle, 2 factory; the code; the tick at which it lapses. -/
structure Confirm where
  what : Nat
  code : Nat
  until_ : Nat
deriving DecidableEq, Repr

/-- One watch (R472): the item watched. `sub` tells watches of one object apart (empty, BANK, CAPTURE, ANNEX). -/
structure Watch where
  obj : Obj
  sub : String
  idx : Option Nat
deriving DecidableEq, Repr

/-- What a line waits for when its reply ends later (R275, R325, R344). -/
inductive AwaitOf
  | busSend (p mb : Nat)
  | tunnel (p station : Nat)
  | disp
  | tw
deriving DecidableEq, Repr

/-- A line whose reply is open until something ends: its tag, what it waits for, and the tick since when. -/
structure Await where
  tag : String
  what : AwaitOf
  since : Nat
deriving DecidableEq, Repr

/-- One command port. -/
structure PortSt where
  inbuf : List Nat := []            -- characters of the line being received
  overlong : Bool := false              -- a character beyond 240 was discarded (R467)
  afterCr : Bool := false           -- the last character was CR: a following LF ends the same line
  waiting : List Waiting := []      -- at most 4 (R41)
  genForm : Bool := false           -- the most recent line was generated (R35)
  prev : Option (String × Nat) := none   -- tag and checksum of the previous generated line (R36)
  reply : List OutLine := []        -- reply lines waiting to be sent
  replyOpen : Bool := false         -- a reply or continuation is open (R40)
  refusals : List OutLine := []     -- lines refused while a reply is open: sent after it
  await : Option Await := none      -- the line in execution waits for this
  station : Nat := 0                -- BUS: the station of the lines being executed, and the Allieno port they came by
  via : Nat := 0
  notices : List OutLine := []      -- the output queue of notices and stream lines (R40)
  lost : Nat := 0                   -- notices discarded since the last !LOST
  stored : Option Stored := none
  confirm : Option Confirm := none
  mr : Option Mr := none
  watches : List Watch := []
  lastLine : Nat := 0               -- clock of the last line received (silence, heartbeat)
  frameRun : Nat := 0               -- consecutive framing errors (R29)
  rxAt : Nat := 0                   -- when the stop bit of the last received character ended (Node.mono, R30)
  err : Nat := 0                    -- ERR of SHOW SYS PORT (R469)
  cfgInForce : Word := 0#32         -- port settings in force (R54), in CMD.HOSTCFG's layout
  cfgWait : Bool := false           -- changed settings wait for the port to be quiet (R54)
  cfgAfter : Bool := false          -- the change came by a line of this port: wait for its completion line
  out : List Nat := []              -- characters still to be sent of the line, echo or prompt in progress
  outOf : Nat := 0                  -- what it is: 0 nothing, 1 echo or prompt, 2 a reply line, 3 a notice or stream line
  de : Bool := false                -- HOST_DE
  echo : List Nat := []             -- echo characters waiting to be sent
  wrote : Bool := false             -- ANNEX: lines were written to the receive ring this beat
deriving DecidableEq, Repr

/-- A lease (R48, R49): `left` is the clock at which it ends, none for TIME=0. -/
structure Lease where
  port : Port
  obj : Obj
  idx : Option (List (Nat × Nat))
  left : Option Nat
  station : Nat
deriving DecidableEq, Repr

/-- One stream (R472). `phase` grows by `rate` at each publication; a line is due when it has reached the number of
publications in a second, so that the lines go with the publications nearest to the rate. -/
structure Stream where
  port : Port
  obj : Obj
  idx : Option Nat
  rate : Nat
  phase : Nat
deriving DecidableEq, Repr

/-- The command line (chapter 2). -/
structure Cmd where
  ports : List (Nat × PortSt) := []     -- HOST 0, SERVICE 1, BUS 2, ANNEX 3
  leases : List Lease := []
  streams : List Stream := []
  heard : List (Nat × Nat) := []        -- clock of the last line from each BUS station (R49)
  clock : Nat := 0                      -- beats counted while the line counts run (R435)
  resetDrain : Option Nat := none       -- DO NODE RESET is draining since this tick (R56)
  irqTold : List Nat := []              -- HOST sources whose !IRQ has been sent (R386)
  reqLen : Nat := 0                     -- length and address of the request line being copied (R367)
  reqPtr : Nat := 0
deriving DecidableEq, Repr

/-! ### Doorbell interrupt controller and Annex core -/

/-- An entry of the return stack (chapter 14). -/
structure DicEntry where
  addr : Nat
  src : Nat
  prio : Nat
  stop : Bool
deriving DecidableEq, Repr

/-- State of the DIC beside its registers. -/
structure Dic where
  stack : List DicEntry := []           -- innermost first
  hold : List (Nat × Nat) := []         -- moderation groups holding: when the hold ends (Node.mono)
  actHost : List Nat := []              -- active sources that were taken at the HOST target
  strayed : Bool := false               -- a stray completion has been counted since reset
  armed : Bool := false                 -- the watch unit is armed (R392)
deriving DecidableEq, Repr

/-- The Annex core (chapter 13): x1 to x31, the pc, the CSRs of Table 13-1 by number. -/
structure Annex where
  x : List (Nat × Word) := []
  pc : Word := 0#32
  csr : List (Nat × Word) := []
  wfi : Bool := false
  resume : Bool := false                -- it was RUNNING when QUIET, DORMANT or POWERFAIL stopped it (R373)
  startAt : Bool := false               -- it starts at the next beat boundary (R361)
  dog : Nat := 0                        -- when the watchdog was last served (Node.mono)
  cyc : Nat := 0                        -- mcycle (64 bits) as it stood at `cycAt`
  cycAt : Nat := 0                      -- Node.mono
  instret : Nat := 0                    -- minstret (64 bits)
  restarts : List Nat := []             -- ticks of the restarts of the last 60 s (R357)
  boot : Bool := false                  -- the boot read is running (R362)
  bootBus : Bool := false               -- the boot read enabled the sensor bus
deriving DecidableEq, Repr

/-! ### Archive and nonvolatile array -/

/-- An entry of the intake queue. -/
structure Entry where
  code : Nat
  form : Nat                            -- 0 S, 1 H, 2 T
  sec : Nat
  qns : Nat
  ms : Nat
  pwr : Nat
  payload : List Byte
  supp : Option Nat
  rep : Option Nat                      -- REPEAT rule with this KEYLEN
  tick : Nat                            -- beat, stage window and helper: the order of R27
  win : Nat
  helper : Nat
  head : Bool := false                  -- placed at the head of the queue
deriving DecidableEq, Repr

/-- Records lost since the last INTAKE-OVERFLOW (R224): count, and code and time of the first. -/
structure LostRec where
  count : Nat
  code : Nat
  sec : Nat
  qns : Nat
deriving DecidableEq, Repr

/-- One search (R231): ARC.FIND and ARC.FINDADDR as one requester sees them. -/
structure Search where
  acc : Word
  res : Word
deriving DecidableEq, Repr

/-- The Archive (chapter 8) beside its registers and its pages. -/
structure Arc where
  queue : List Entry := []
  staged : List Entry := []             -- records of the alarm engine that stage S6 takes into the queue (R20)
  lostRec : Option LostRec := none
  used : List (Nat × Nat) := []         -- tokens missing from each LIMIT bucket
  searchA : Search := ⟨0#32, 0#32⟩
  searchC : Search := ⟨0#32, 0#32⟩
  newPage : Bool := false               -- the next record starts a new page (R232)
  cleared : List Nat := []              -- Gallery pages started since CLEAR ARC GALLERY began
  firstClear : Nat := 0                 -- the page P of R232
  afterWarn : Nat := 0                  -- records raised after the power-fail warning
  opMs : Nat := 0                       -- operating milliseconds
  opBeat : Nat := 0                     -- beats into the present millisecond
  ckpt : Nat := 0                       -- checkpoint number c (R218)
  rdyRung : Bool := false               -- source 96 has rung this beat
  loadTick : Nat := 0                   -- tick at which the code table loaded
  gain : List (Nat × Nat × Nat) := []   -- for a code refilled since: tick of the refill, tokens gained since
  lastAddr : Nat := 0                   -- address of the newest committed record; 0: none
  prevNewest : Word := 0#32             -- NEWEST of the seal a reseal ends
  resealTick : Nat := 0                 -- tick of phase 0
deriving DecidableEq, Repr

/-- A copy of the configuration store (R403): its header words and the stored items, (register or key, word). -/
structure Copy where
  magic : Bool                          -- MAGIC is in place
  gen : Nat
  len : Nat
  check : Bool                          -- CHECK matches the image
  image : List (Nat × Word)
deriving DecidableEq, Repr

/-- The nonvolatile array beside the Archive pages, which are bytes of `mem` (R214, R217, R403, R281). -/
structure Nv where
  copies : List (Nat × Copy) := []      -- copies 0 and 1; not listed: never written (R465)
  reseals : Nat := 0
  pwrcyc : Nat := Config.factoryPwrcyc
  pflost : Nat := 0
  resealFlag : Bool := false
  ckpts : List (Nat × Nat) := []        -- checkpoint slots written since the factory test (R465)
  cuts : List (List Byte) := []         -- payloads of the MR-CUT records due at the next start-up (R45)
  failed : List Nat := []               -- bytes of words whose read-back failed: their content is not defined (R216)
deriving DecidableEq, Repr

/-- A commit in progress: the image, its target copy, its GEN, its length and its number of blocks. -/
structure Commit where
  target : Nat
  gen : Nat
  len : Nat
  image : List (Nat × Word)
deriving DecidableEq, Repr

/-! ### Node core, power and start-up -/

/-- Where start-up stands (Table 15-1). -/
inductive Phase
  | por        -- held in power-on reset or in reset
  | starting   -- before the first prompt
  | prompt     -- ports live, store not loaded
  | loaded     -- store loaded
deriving DecidableEq, Repr

/-- The power states of Table 1-6. -/
inductive Power
  | full | quiet | dormant | powerfail | off
deriving DecidableEq, Repr

/-- A DORMANT entry under way or complete: the state it left, the step reached (8: complete), whether a register write
asked for it, and the DORMANT timer. -/
structure Sleep where
  from_ : Power
  step : Nat
  byReg : Bool
  timer : Nat
  portSlept : List Nat                  -- ports that were sleeping by command before entry
deriving DecidableEq, Repr

/-- The node core and the power chapter beside their registers. -/
structure Sys where
  phase : Phase := .por
  power : Power := .off
  sleep : Option Sleep := none
  resetPin : Bool := false              -- RESET_N is low
  parked : Bool := false                -- the node has parked, and restarts when VSYS is good (R418)
  cause : Nat := 0                      -- causes collected for the next start
  warnAt : Nat := 0                     -- when the power-fail warning fell (Node.mono)
  graceOver : Bool := false
  pwrcyc : Option Nat := none           -- PWRCYC_N sequence: 0 committing, 1 low, 2 released
  commit : Option Commit := none
  oscInt : Bool := false                -- running on the internal oscillator (R91)
  pfLo : Bool := false                  -- the loop outputs have begun PFACT (Table 15-5)
  pwrcycAt : Nat := 0                   -- tick at which that sequence last advanced
  avsAt : Nat := 0                      -- 1 + the tick of the last step of the core voltage
deriving DecidableEq, Repr

/-! ### The beat and node time -/

/-- The time service (chapter 3) beside its registers. Times are totals in quarter-nanoseconds. -/
structure TimeU where
  t0 : Nat := 0                         -- node time at which the present beat began (t1 itself until the first beat begins)
  t1 : Nat := 0                         -- node time at which the next beat begins
  ctrlF : Word := 0x100#32              -- TIME.CTRL, PPSDLY and IRIGCFG as they were in force at the last boundary (R79)
  dlyF : Word := 0#32
  irigF : Word := 0x250004#32
  change : Bool := false                -- one of the settings of R79 changed and waits for the boundary
  ppsRun : Nat := 0                     -- consecutive good edges, to 3 (R64)
  ppsQual : Bool := false
  ppsMiss : Nat := 0                    -- consecutive missing edges
  ppsLast : Option Nat := none          -- corrected stamp of the last edge, or its prediction once qualified
  ppsSince : Nat := 0                   -- node time at which PPS became qualified (R63)
  irigRun : Nat := 0                    -- consecutive frames whose labels differ by 1 s
  irigLast : Option Nat := none         -- TAI second of the last label
  nextSec : Option Nat := none          -- TAI second of the next PPS edge, counted from the edges (R68)
  irigDis : Nat := 0                    -- consecutive frames that disagree by the same whole seconds (R68)
  irigDisBy : Int := 0
  majorRun : Nat := 0                   -- consecutive accepted major marks (R69)
  majorAt : Nat := 0                    -- node time of the last of them
  markAt : Nat := 0                     -- node time of the last accepted mark
  offs : List Nat := []                 -- magnitudes of the last offsets, newest first, at most 10
  good : Nat := 0                       -- consecutive offsets of at most 40 ns
  badRun : Nat := 0                     -- consecutive offsets above 200 ns
  offAt : Option Nat := none            -- node time of the last valid offset (Table 3-3)
  estBase : Nat := 0xFFFFFFFF           -- TIME.EST on entry to HOLDOVER
  lockFreq : Word := 0#32               -- the last frequency correction reached while LOCKED (R71)
  stepPend : Option (Int × Nat) := none -- a servo step: its size and its pre-step second
  setPend : Option (Nat × Nat) := none  -- a commanded step: post-step total and pre-step second (R80)
  coarseTick : Nat := 0                 -- tick at which COARSE was entered
  ovrSec : List (Nat × Nat) := []       -- overruns of the present second by slot (R61)
  lateWork : List Nat := []             -- slots whose work of this beat is not yet published (R59)
  caps : List (Nat × List Nat) := []    -- stamps of each capture channel, oldest first
  capLast : List (Nat × Nat) := []      -- 1 + the moment of the last edge a channel saw
  pulse : Bool := false                 -- the second pulse is high
  pulseAt : Nat := 0                    -- when it rose (Node.mono)
  secDue : Nat := 0                     -- second boundaries of the present beat whose work is not done
  lateLo : Option LoIn := none          -- what the check converter delivered to a late loop-output controller (R59)
  lateBad : List Nat := []              -- failing words a late Archive writer will meet
  lateLines : Nat := 0                  -- call lines the GPIO block found asserted at its stage, when it is late (R59)
  lateWin : Option Nat := none          -- the stage window in which a late helper finishes (R27)
  watchStep : Bool := false             -- the beat sequence broke at a step (R75)
deriving DecidableEq, Repr

/-! ### Universal channels -/

/-- One universal channel beside its registers (chapter 4). Sums are of raw conversions in 10^-6 of the unit. -/
structure Chan where
  mode : Nat := 0                       -- the mode in force (CFG.MODE is the setting), and the other settings of R110
  rate : Nat := 0
  rej : Nat := 0
  sensor : Nat := 0
  lead : Word := 0#32
  drain : Bool := false                 -- an output channel is DRAINING (R124)
  restart : Bool := false               -- changed settings take effect at the next stage S0 (R110)
  flags : Word := 0#32                  -- Table 4-4, in the bits of UC.VSTAT; FAULT is computed
  stamp : Nat := 0                      -- beat stamp of the last publication
  sums : List (Int × Nat) := []         -- sum and number of raw conversions of the present chunk, per stream
  chunks : List (List (Int × Nat)) := []   -- finished chunks, newest first
  whole : Bool := false                 -- the present chunk began at its boundary
  winCh : Nat := 0                      -- finished chunks of the window in progress
  skip : Bool := false                  -- after a step: nothing is kept until the next window begins (R75)
  muteAt : Nat := 0                     -- 1 + the tick of that window boundary, at which nothing is published
  owDue : Option Bool := none           -- an open-wire test that stage S3 judges: failed or passed (R105)
  last : List (Nat × Option Int) := []  -- preceding raw conversion of each stream
  owNext : List (Nat × Nat) := []       -- 1 + the open-wire period in which each stream last took a pulse
  owFail : Nat := 0
  owPass : Nat := 0
  over1 : Bool := false                 -- II20: a raw conversion of the present window reached 1.0 mA
  overWin : Bool := false               -- II20: one of the window that ended last did
  since : Nat := 0                      -- tick of the last publication or restart
  staleDue : Bool := false              -- STALE sets at the next stage S3 (R114)
  staleTick : Nat := 0                  -- tick at which STALE set
  diIn : Bool := false                  -- DI: the level sampled at S0
  diCnt : Nat := 0                      -- DI: beats for which it has differed from the level published
  di : Bool := false                    -- DI: the level published
  level : Q := ⟨0, 1⟩                   -- outputs: the DAC level, V or mA
  goal : Option Q := none               -- outputs: the level of a host-loss, disable or power-fail action
  rampOff : Q := ⟨0, 1⟩                 -- outputs: the RAMP a DRAINING channel goes on with (R112)
  vbad : Nat := 0
  vgood : Nat := 0
  cjLast : Q := ⟨25, 1⟩                 -- TC: the last good cold-junction temperature
deriving DecidableEq, Repr

/-- What a converter converts in a beat. -/
inductive Task
  | idle
  | spare                               -- a conversion at a position that no stream owns
  | check
  | raw (chan stream : Nat) (pulse : Bool)
deriving DecidableEq, Repr

/-- A converter's checks and failure. `cause`: 0 CHECK, 1 TIMEOUT, 2 FORCED. -/
structure QuadSt where
  pass : Nat := 0
  cause : Option Nat := none
  dev : Int := 0
deriving DecidableEq, Repr

/-- A migration to QX, or its reverse, with the tick of its beat f (R114, R118). -/
structure Mig where
  quad : Nat
  f : Nat
  restore : Bool
deriving DecidableEq, Repr

/-- The universal-channel sequencer. -/
structure Uc where
  ch : List (Nat × Chan) := []
  tasks : List (Nat × Task) := []       -- what each converter converts in this beat
  quads : List (Nat × QuadSt) := []     -- Q0 to Q5 and QX (6)
  migs : List Mig := []                 -- migrations under way: one to QX, and the reverse ones of DO UC QUAD RESTORE
  forced : Option Nat := none           -- DO UC QUAD FAIL waits for the next beat
  checkTill : Nat := 0                  -- beats before this tick are check beats (start-up)
  rdyRung : Bool := false
deriving DecidableEq, Repr

/-- A quad migration is under way. -/
def Uc.migrating (u : Uc) : Bool := !u.migs.isEmpty

/-! ### Loop outputs -/

/-- One loop output beside its registers (chapter 5). Levels are in mA, buck and pin voltages in V. The state ON,
DRAINING or OFF and the flags are in LO.STATn. -/
structure LoCh where
  stage : Nat := 0                      -- wiring the stage drives: 0 none, 1 SRC, 2 SNK
  former : Nat := 0                     -- the mode left by MODE=OFF
  level : Q := ⟨0, 1⟩                   -- the DAC level in force
  s0 : Q := ⟨0, 1⟩                      -- the level in force at stage S0
  from_ : Q := ⟨0, 1⟩                   -- the level at which the present ramp began
  goal : Q := ⟨0, 1⟩
  rate : Q := ⟨0, 1⟩                    -- mA/s; 0: one step
  start : Nat := 0                      -- tick at which the present ramp began
  fold : Bool := false                  -- foldback in force (R139)
  limit : Option Q := none              -- the limit on the output while foldback is in force or the output returns
  buck : Q := ⟨0, 1⟩
  doneTold : Bool := true               -- ACTDONE has been told for the present action or disable
  okRun : Nat := 0                      -- consecutive checks with headroom of 1.0 V or more
  sfBad : Nat := 0                      -- counts of Table 5-2
  sfGood : Nat := 0
  opBad : Nat := 0
  opGood : Nat := 0
  dsBad : Nat := 0
  dsGood : Nat := 0
deriving DecidableEq, Repr

/-- The loop-output controller: the channels and the consecutive failed and passed self-checks (R150). -/
structure Lo where
  ch : List (Nat × LoCh) := []
  selfBad : Nat := 0
  selfGood : Nat := 0
deriving DecidableEq, Repr

/-! ### Grid measurement and fault transients -/

/-- The samples of one beat (R157): the node time of its first instant, and for each of the four instants the codes of
the eight inputs; none when an overrun lost them. -/
structure GridBeat where
  at_ : Nat
  codes : Option (List (List Int))
deriving DecidableEq, Repr

/-- A report whose instant t_k has passed: t_k, k, and what TIME held at t_k (R159, R164). -/
structure GridDue where
  tk : Nat
  k : Nat
  locked : Bool
  est : Word
  shift : Int := 0                      -- the steps of node time since its instant (R164)
  broken : Bool := false                -- its window holds a step
deriving DecidableEq, Repr

/-- The phasor engine beside its registers. -/
structure Grid where
  run : Bool := false                   -- the engine is on (ENABLE=OFF is a request, R179)
  since : Nat := 0                      -- node time from which windows may begin
  win : List GridBeat := []             -- newest first
  s0at : Nat := 0                       -- node time at which the last sampled beat began
  due : List GridDue := []
  lost : Bool := false                  -- an overrun lost the samples of the beat before (R60)
  steps : List Nat := []                -- instants of the last steps, on the present scale of node time
  repSec : Nat := 0                     -- the report's seconds in full (GRID.REPSEC holds their low 32 bits)
  on_ : List Nat := []                  -- inputs in use by the reports
  frames : Bool := false                -- a report published in this beat waits for its frames
deriving DecidableEq, Repr

/-- The transient timer and capture engine beside its registers and its ring, which lies in SRAM. -/
structure Trans where
  onF : Nat := 0                        -- ON and TRIG in force, bit n: input n (R174)
  trigF : Nat := 0
  rms : List (Nat × Nat) := []          -- RMS of each input, 10^-6 V
  arrThr : List (Nat × Nat) := []       -- threshold in force at each arrival, mV
  arrAt : List (Nat × Nat) := []        -- 1 + node time of each first firing
  arrStamp : List (Nat × Nat) := []     -- the stamp of each arrival in full (TRANS.ARRSEC holds its low 32 bits)
  arrSlot : List (Nat × Nat) := []      -- 1 + the slot that holds each arrival's block, once written
  cut : Option (Nat × Nat) := none      -- the present beat's writing ended with a state: from and until (Table 6-4)
  trigAt : Nat := 0                     -- stamp of the trigger
  trigRaw : Nat := 0                    -- node time of the trigger's firing
  trigEst : Nat := 0
  fillEnd : Nat := 0                    -- node time at which the last block is written
  stepped : Bool := false
  disarm : Bool := false                -- a DISARM was given in TRIGGERED
  armAt : Nat := 0
  heldTick : Nat := 0
  record : Option (List Byte × Nat) := none   -- the TRANSIENT record waiting for S6: payload and time
  arrRung : Bool := false               -- source 66 has rung this beat
deriving DecidableEq, Repr

/-! ### Alarms and calls -/

/-- One alarm point beside its registers (chapter 7). `under` is the underlying state, code 0 to 4. -/
structure Pt where
  under : Nat := 0
  lvl : Nat := 0                        -- level held: 0 none, 1 H, 2 HH, 3 L, 4 LL, 5 DIG
  conds : List Nat := []                -- levels whose condition holds (R186)
  dly : Nat := 0                        -- delay running: 0 none, 1 on, 2 off
  count : Nat := 0
  lastEval : Nat := 0                   -- tick of the previous evaluation
  blocked : Bool := false
  shelf : Option Nat := none            -- tick at which the shelving ends
  shelfLen : Nat := 0                   -- beats of the shelving time
  fault : Bool := false
  unack : Bool := false                 -- the UNACK bit of R191
  frozen : Bool := false
  aged : Bool := false
  acc : Nat := 0                        -- accession of the newest entry's record (R200); 0: none yet
  entryRec : List Byte := []            -- that record's payload
  entry : Nat := 0                      -- tick of the newest entry to ACTIVE-UNACK or SENSOR-FAULT
  enabledAt : Nat := 0
  reconf : Option Nat := none           -- the point returns to NORMAL at its next evaluation, with this cause
  grp : Nat := 0                        -- group in force
  val : Word := 0x7FC00000#32           -- value at the last evaluation
deriving DecidableEq, Repr

/-- One group beside its registers. -/
structure Grp where
  relAt : Nat := 0                      -- tick at which RELEASING began
  callAt : Nat := 0                     -- tick at which calling began
  sentAt : Nat := 0                     -- tick of the last call frame
  sentTo : List Nat := []               -- stations that received a call
  again : Bool := false                 -- a wake from DORMANT: a calling group restarts at DUTY (R209)
  foTick : Nat := 0                     -- 1 + the tick at which the first-out was set (R197)
  pinCnt : Nat := 0                     -- beats the acknowledgement pin has been high since it rose
  pinWas : Bool := true
deriving DecidableEq, Repr

/-- An acknowledgement waiting for stage S7 (R212). `path`: 1 pin, 2 frame, 3 Annex. -/
structure AckReq where
  path : Nat
  group : Bool
  index : Nat
  acc : Option Nat
deriving DecidableEq, Repr

/-- A peer value (R184, R185): its value, its marks and the tick of its last confirmed frame. -/
structure Peer where
  val : Word
  stale : Bool
  fault : Bool
  at_ : Nat
deriving DecidableEq, Repr

/-- A call or cancel frame to be sent (R203): station, group, stage (0: cancel). -/
structure CallOut where
  station : Nat
  group : Nat
  stage : Nat
deriving DecidableEq, Repr

/-- What an evaluation reads of other helpers: their value registers, the channels and the peer values. -/
structure Seen where
  regs : List (Nat × Word)
  chans : List (Nat × Chan)
  peers : List (Nat × Peer)
deriving DecidableEq, Repr

/-- The alarm engine and the call logic. -/
structure Alm where
  pts : List (Nat × Pt) := []
  grps : List (Nat × Grp) := []
  peers : List (Nat × Peer) := []       -- by station × 256 + value
  acks : List AckReq := []
  rung : List Nat := []                 -- sources rung in this beat
  pulse : Bool := true                  -- the first 500 ms of the second (R202)
  drainTick : Nat := 0                  -- tick at which ENGINE=OFF was taken
  calls : List CallOut := []            -- call frames waiting for the bus
  stateOut : List (Nat × Nat × Nat × Nat) := []   -- alarm-state frames waiting: point, state, level, accession
  late : Option Seen := none            -- what stood at stage S4 for an engine that is late (R19, R59)
deriving DecidableEq, Repr

/-! ### Allieno -/

/-- A message of the node for one port: its identifier, its bytes, whether it is always Gen A (R282), and the kind of
its caravan when it is one (0 commands, 1 replies). -/
structure OutMsg where
  id : Nat
  data : List Byte
  genA : Bool := false
  car : Option Nat := none
deriving DecidableEq, Repr

/-- A caravan in reception (R265): the identifier its frames carry, its filter (user), its buffer (user), number,
total length, the next SEQ, the bytes so far and the tick of its last frame. -/
structure CarRx where
  id : Nat
  filt : Nat
  buf : Nat
  num : Nat
  total : Nat
  next : Nat
  data : List Byte
  last : Nat
deriving DecidableEq, Repr

/-- An attempt on the wire (R262): the port that holds the mailbox, the mailbox (64: the waystation queue), the frame,
its SOF stamp, and whether it is the last frame of the mailbox. -/
structure TxA where
  own : Nat
  mb : Nat
  frame : Frame
  sof : Nat
  last : Bool
deriving DecidableEq, Repr

/-- A frame in reception that took an early-view buffer (R270). -/
structure RxA where
  buf : Nat
  filts : List Nat
  frame : Frame
deriving DecidableEq, Repr

/-- A received mark that waits for its follow-up (R295). -/
structure MarkRx where
  src : Nat
  seq : Nat
  grade : Nat
  major : Bool
  sof : Nat
deriving DecidableEq, Repr

/-- A sender of major marks: station, grade, tick of its last major mark. -/
structure Sender where
  station : Nat
  grade : Nat
  at_ : Nat
deriving DecidableEq, Repr

/-- One Allieno port beside its registers. -/
structure BusPort where
  queue : List OutMsg := []             -- messages of the node that wait for a node mailbox
  held : List (Nat × OutMsg) := []      -- the message each taken node mailbox holds
  tx : Option TxA := none
  rx : Option RxA := none
  passed : Bool := false                -- the frame in reception has had its early match and took no buffer (R270)
  sent : List (Nat × Nat) := []         -- frames already sent of each mailbox's caravan
  done : List Nat := []                 -- PAIR: user mailboxes of port A this port has sent (R297)
  aborting : Option Nat := none         -- an abort asked for while the frame is on the wire (R275)
  gateF : List (Nat × (Word × Word)) := []   -- settings with which a gate armed (R274)
  gateEnd : List (Nat × Nat) := []      -- node time at which a gate's pulse ends
  cars : List CarRx := []               -- user caravans
  cmds : List CarRx := []               -- command and reply caravans
  guard : Nat := 0                      -- Gen C attempts destroyed after BRS in a row (R255)
  trimAge : List Nat := []              -- trimmer entries, the most recently updated first
  rdyTick : Nat := 0                    -- tick of the last ring of offset 1
  nomF : Word := 0xA002#32              -- bit timing in force (R274)
  dataF : Word := 0x8C31#32
  then_ : Nat := 0                      -- what follows OFF: 0 nothing, 1 re-initialise, 2 enable
  listen : Nat := 0                     -- LISTEN (R290): 0 none, 1 on enable, 2 on survey traffic
  listenAt : Nat := 0                   -- tick at which it was entered, or of the last survey frame in it
  sleep : Nat := 0                      -- 0 awake, 1 asked to sleep, 2 asleep, 3 waking
  sleepCause : Nat := 0
  wakeCause : Nat := 0
  seen : Nat := 0                       -- tick of the last confirmed frame
  silent : Bool := false                -- PAIR-PORT-SILENT is set
  senders : List Sender := []
  marks : List MarkRx := []
  markSeq : Nat := 0
  markReq : Option Nat := none          -- node time at which the pending own mark was requested
  markOk : Nat := 0                     -- node time of the last accepted mark on the port
  count : Nat := 0                      -- nodes of the last completed survey (R248)
deriving DecidableEq, Repr

/-- Publication of a value (R258): the tick at which it is next due, and the marks last sent. -/
structure ValPub where
  next : Nat
  marks : Nat
deriving DecidableEq, Repr

/-- The Allieno controllers and links (chapters 9 and 10). -/
structure Bus where
  ports : List (Nat × BusPort) := []
  noteBlocked : Bool := false           -- BNOTE can be reached only through ports with GENMAX=A (R436)
  carNum : Nat := 0                     -- caravans sent, modulo 256
  vals : List (Nat × ValPub) := []
  recent : List (Nat × Frame × Nat) := []   -- PAIR: frames confirmed, with their port and node time
  way : List (Nat × List Frame) := []   -- waystation queues by the port they leave on
  wayLost : List (Nat × Nat) := []      -- drops since the last WAY-DROPPED, by the port of arrival
  wayTick : List (Nat × Nat) := []      -- 1 + the tick of the last WAY-DROPPED
  tport : Nat := 0                      -- the port marks are taken from (R297)
  linkF : Nat := 0                      -- LINK in force (R302)
deriving DecidableEq, Repr

/-- Where a survey stands at a node that drives it. -/
inductive SvStep
  | off
  | begin_
  | query
  | assign
  | ping
  | rest                                -- other stations measure
  | last                                -- END is queued
deriving DecidableEq, Repr

/-- A station of the map: station, UID, segment, flags (bit 0 REF, bit 1 WAY). -/
structure MapEnt where
  station : Nat
  uid : Nat
  seg : Nat
  flags : Nat
deriving DecidableEq, Repr

/-- A survey on one port. -/
structure SvPort where
  role : Nat := 0                       -- 0 none, 1 master, 2 member
  step : SvStep := .off
  window : Bool := false                -- the master's frame is out and its bid window runs
  master : Nat := 0                     -- UID of the master
  mst : Nat := 0                        -- its station
  res : Nat := 0                        -- result of the END queued
  renumber : Bool := false
  round : Nat := 0
  bits : List Nat := []                 -- UID parts decided, highest first
  give : Nat := 0                       -- station of the ASSIGN
  again : Bool := false                 -- the branch, or the exchange, has been repeated once
  errs : Nat := 0                       -- QUERY repeats after error frames
  short : Bool := false                 -- something fell short (INCOMPLETE)
  known : List MapEnt := []             -- stations assigned in this survey, as master or as overheard
  pairs : List (Nat × Nat × Nat) := []  -- pairs still to measure: port, sender, station
  t1 : Nat := 0
  t4 : Nat := 0
  diffs : List Int := []                -- (t4 − t1) − (t3 − t2) of the exchanges of the pair
  t2 : Nat := 0                         -- stamp of the PING that waits for its PONG
  asked : Nat := 0                      -- station that sent that PING
  assigned : Nat := 0
  vanished : Nat := 0
  joined : Nat := 0
  measured : Nat := 0
  expected : Nat := 0
  fold : Bool := false                  -- a follow-up round (R291)
  foldUid : Nat := 0
  free_ : Bool := false                 -- unassigned in this survey (R283)
  lastAt : Nat := 0                     -- tick of the last survey frame
  lastQ : Bool := false                 -- the last survey frame was a QUERY of round 0
  prev : List (Nat × Word) := []        -- station and delay registers before the survey (R289)
  got : List (Nat × Nat) := []          -- delay entries measured in this survey: port, entry
deriving DecidableEq, Repr

/-- The survey function (chapter 10). -/
structure Srv where
  running : Bool := false               -- a survey runs on some port
  ports : List (Nat × SvPort) := []
  map : List MapEnt := []               -- the map of the last survey, where this node was its master
  heard : List MapEnt := []             -- the stations of the last survey, as master or as overheard
  wayNext : Bool := false               -- WAY: segment B follows
  used : List Nat := []                 -- stations given on segment A
deriving DecidableEq, Repr

/-! ### Pins and the sensor bus -/

/-- The pins (chapter 11) beside their registers. -/
structure Gp where
  fnF : List (Nat × Word) := []         -- GP.FN words whose functions are in force (R316)
  fnWait : List Nat := []               -- pins whose function changes at the next S7
  lockStep : Nat := 0                   -- writes of the lock sequence made (R317)
  lockAt : Nat := 0                     -- node time of its first write
  told : List (Nat × Nat) := []         -- 1 + the tick of a pin's last !WATCH GP
  life : Bool := false                  -- the level of the LIFE pins
  lifeTick : Nat := 0                   -- 1 + the tick of their last toggle
deriving DecidableEq, Repr

/-- A transfer on the sensor bus: the port whose line asked for it (none: TW.CMD), its direction, address, register
byte, length and data to write. -/
structure TwJob where
  who : Option Port
  read : Bool
  addr : Nat
  sub : Option Nat
  count : Nat
  data : List Byte
deriving DecidableEq, Repr

/-- What the sensor-bus controller does. -/
inductive TwPhase
  | idle
  | check      -- the check of R322 waits for SCL
  | transfer
  | clear      -- the bus clear runs
  | boot       -- the boot read runs (R362)
deriving DecidableEq, Repr

/-- The sensor bus (chapter 11) beside its registers. -/
structure Tw where
  phase : TwPhase := .idle
  job : Option TwJob := none            -- the transfer that runs, or waits for the check or the clear
  queue : List TwJob := []              -- transfers of lines that wait behind it
  clearBy : Option (Option Port) := none    -- who asked for the clear (none inside: TW.CMD)
  since : Nat := 0                      -- when SCL went low (Node.mono)
  low : Bool := false                   -- SCL was low when last seen
  stuckScl : Bool := false              -- STUCK with cause SCL
  rateF : Nat := 0                      -- RATE in force
  then_ : Nat := 0                      -- what follows OFF: 0 nothing, 2 enable
deriving DecidableEq, Repr

/-! ### The panel and the LCD -/

/-- A panel image: the bytes that differ from one fill byte, by offset. -/
structure Image where
  fill : Byte
  cells : List (Nat × Byte)
deriving DecidableEq, Repr

/-- An update (R330 to R340). -/
structure Upd where
  full : Bool
  grey : Option Nat                     -- a uniform image
  who : Option Port                     -- the port whose line waits for its end
  band : Nat
  len : Nat
  temp : Word                           -- °C, binary32
  frames : Nat                          -- frames begun
  begun : Bool                          -- its beat boundary has come
  snapAt : Nat                          -- when the snapshot began (Node.mono)
  frame0 : Option Nat                   -- when its first frame begins
  over_ : Bool                          -- its frames are done; it ends with the power-down
  wave : List (Nat × Word)              -- the waveform codes in force at its start (R346)
deriving DecidableEq, Repr

/-- The rails: down; `k` of them started; up; discharging, the head of the list since the last step; the fast discharge
with its steps made. -/
inductive Rails
  | down
  | rising (k : Nat)
  | up
  | falling (l : List Nat)
  | fast (k : Nat)
deriving DecidableEq, Repr

/-- The display (chapter 12) beside its registers. Times as Node.mono. -/
structure Disp where
  rails : Rails := .down
  railAt : Nat := 0                     -- when the next rail step is due
  faulted : Bool := false               -- VGL has been reported in this power-down
  upd : Option Upd := none
  held : Bool := false                  -- DO DISP RAILS=ON holds the rails
  heldBy : Option Port := none          -- the port whose RAILS=ON line waits
  holdEnd : Option Nat := none          -- RAILHOLD runs
  shown : Image := ⟨0#8, []⟩
  incoming : Image := ⟨0#8, []⟩
  loads : List (Nat × List Byte) := []  -- LOAD lines that wait for SNAP to clear
  then_ : Nat := 0                      -- what follows OFF: 0 nothing, 2 enable
  lcdF : Word := 0x00214000#32          -- LCD.CTRL in force
  lcdAt : Nat := 0                      -- when the next LCD frame begins
  lcdUse : List (Nat × Word) := []      -- segment and blink words in use, by the shadow's address
  blink : Bool := true                  -- blinking segments are shown
deriving DecidableEq, Repr

/-! ### The whole node -/

/-- Everything the spec gives the node but the queue of waiting commands. -/
structure Node where
  reg : List (Nat × Word) := []         -- registers by address that differ from their reset value
  key : List (Nat × Word) := []         -- settings without a register, by number (Machine/Operands.lean)
  latA : List (Nat × Word) := []        -- companion registers latched for the Annex core (R366)
  latC : List (Nat × Word) := []        -- companion registers latched for REG and PEEK (R366)
  mem : List Host.Cell := []            -- bytes of the memory regions that differ from what unlisted bytes read
  tick : Nat := 0                       -- beats begun since the node started
  free : Nat := 0                       -- the model's own: next unused free value
  rdata : Word := 0#32                  -- the model's own: what the last register read returned to its requester
  cmd : Cmd := {}
  dic : Dic := {}
  annex : Annex := {}
  arc : Arc := {}
  nv : Nv := {}
  sys : Sys := {}
  tm : TimeU := {}
  uc : Uc := {}
  lo : Lo := {}
  grid : Grid := {}
  trans : Trans := {}
  alm : Alm := {}
  bus : Bus := {}
  srv : Srv := {}
  gp : Gp := {}
  tw : Tw := {}
  disp : Disp := {}
deriving DecidableEq, Repr

/-- The state of the block: the node, and the commands waiting, first in, first out. -/
structure State where
  node : Node
  pending : List Instr
deriving DecidableEq, Repr

/-- The node held in reset before its first start: every register at its reset value, memory as it left the factory
(R465), VSYS not yet good. No command waits. -/
def State.reset : State := ⟨{}, []⟩

/-- Reasons to stop with a fault. No meaning raises one: the spec lets every command and event complete or refuses
it with an error line. Safe: nothing is claimed of a stop that never happens. -/
inductive Fault
  | none
deriving DecidableEq, Repr

/-- Reasons to refuse. `notModelled` is answered only by the arms of `exec` that have no meaning yet, of which there
are none at the end of this work. Safe: the machine stops where the node would go on. -/
inductive Refusal
  | notModelled (mnemonic : String)
deriving DecidableEq, Repr

end Sys2Proof.Machine
end

