-- ==== Sys2Proof/Machine/Ops.lean ====
section
/-! DEFINITION. The named operations every function shares: registers and memory, rings of the DIC, records of the
Archive's intake, notices, replies, leases and claims. -/
namespace Sys2Proof.Machine

/-! ### Registers -/

/-- The stored word of the register at `a`. -/
def Node.rd (n : Node) (a : Nat) : Word := Bank.get (resetWord a) n.reg a
/-- Gives the register at `a` the word `v`. -/
def Node.wr (n : Node) (a : Nat) (v : Word) : Node := { n with reg := Bank.set (resetWord a) n.reg a v }
/-- A register field. -/
def Node.fd (n : Node) (f : Fd) : Nat := f.get (n.rd f.addr)
/-- Sets a register field. -/
def Node.setFd (n : Node) (f : Fd) (v : Nat) : Node := n.wr f.addr (f.put (n.rd f.addr) v)
/-- Adds to a counting field, which saturates at all ones (R10: a count is never lost to a clear of an earlier cycle). -/
def Node.bump (n : Node) (f : Fd) (k : Nat) : Node := n.setFd f (satAdd (2 ^ f.width - 1) (n.fd f) k)
/-- A field as a truth value. -/
def Node.on (n : Node) (f : Fd) : Bool := n.fd f != 0
/-- Sets a one-bit field. -/
def Node.setOn (n : Node) (f : Fd) (b : Bool) : Node := n.setFd f (if b then 1 else 0)
/-- Sets a bit of the word at `a`. -/
def Node.setBit (n : Node) (a i : Nat) : Node := n.wr a (n.rd a ||| (1#32 <<< i))
/-- Clears a bit of the word at `a`. -/
def Node.clrBit (n : Node) (a i : Nat) : Node := n.wr a (n.rd a &&& ~~~(1#32 <<< i))
/-- A bit of the word at `a`. -/
def Node.bit (n : Node) (a i : Nat) : Bool := (n.rd a).getLsbD i
/-- Sets several fields, in order. -/
def Node.setFds (n : Node) : List (Fd × Nat) → Node
  | [] => n
  | (f, v) :: t => (n.setFd f v).setFds t

/-! ### Settings without a register, and latches -/

/-- Numbers of the settings that have a key but no register. -/
def Kid.note (p : Nat) : Nat := p
def Kid.bnote : Nat := 8
def Kid.bpoke : Nat := 9
/-- First-out mode of alarm group g (Table 7-5). -/
def Kid.fomode (g : Nat) : Nat := 0x100 + g
/-- 1 when alarm point i has a source (SRC is not NONE: no code of ALM.PCFGn says so). -/
def Kid.apSrc (i : Nat) : Nat := 0x10000 + i
/-- Source, destination and period of BUS value v (Table 9-9). -/
def Kid.valSrc (v : Nat) : Nat := 0x3000 + v
def Kid.valTo (v : Nat) : Nat := 0x3100 + v
def Kid.valPeriod (v : Nat) : Nat := 0x3200 + v
/-- Destination of alarm-state frames. -/
def Kid.almTo : Nat := 0x2C0
/-- A waveform band's LEN, and the drive code of pair `q` at frame `f` of band `b` (Table 12-5). -/
def Kid.waveLen (b : Nat) : Nat := 0x1000 + b
def Kid.wave (b q f : Nat) : Nat := 0x20000 + (b * 16 + q) * 256 + f

/-- The value of a key before any SET: every notice class on for NOTE (Table 2-7), PERIOD 1000 and TO 255 for a value,
ALMTO 255 (Table 9-11), 0 for the others. -/
def keyDefault (k : Nat) : Word :=
  if k < 4 then 0x3FF#32
  else if k = 0x2C0 then 255#32
  else if 0x3100 ≤ k ∧ k < 0x3200 then 255#32
  else if 0x3200 ≤ k ∧ k < 0x3300 then 1000#32
  else 0#32

def Node.k (n : Node) (k : Nat) : Word := Bank.get (keyDefault k) n.key k
def Node.setK (n : Node) (k : Nat) (v : Word) : Node := { n with key := Bank.set (keyDefault k) n.key k v }

/-- A latched companion register as the requester sees it (R366). -/
def Node.lat (n : Node) (q : Rq) (a : Nat) : Word :=
  match q with
  | .annex => Bank.get (resetWord a) n.latA a
  | .cmd => Bank.get (resetWord a) n.latC a
def Node.setLat (n : Node) (q : Rq) (a : Nat) (v : Word) : Node :=
  match q with
  | .annex => { n with latA := Bank.set (resetWord a) n.latA a v }
  | .cmd => { n with latC := Bank.set (resetWord a) n.latC a v }

/-! ### Memory (Tables 1-2 and 13-4) -/

/-- What a byte that nothing has written reads as: 0xFF in the Archive pages and the store (R465); 0 in SRAM, whose
content after a reset is undefined (log entry 12, a byte the model names). -/
def memDefault (a : Nat) : Byte := if 0x30000000 ≤ a ∧ a < 0x30100000 then 0xFF#8 else 0#8

/-- One byte as the memory holds it; in a word whose read-back failed, whatever it happens to read as (R216). -/
def Node.byte (n : Node) (a : Nat) : Byte :=
  if n.nv.failed.contains a then Config.failedByte a n.tick else Bank.get (memDefault a) n.mem a
/-- A write of a byte that succeeds. -/
def Node.setByte (n : Node) (a : Nat) (b : Byte) : Node :=
  { n with mem := Bank.set (memDefault a) n.mem a b, nv := { n.nv with failed := n.nv.failed.filter (· != a) } }
/-- The word that holds the byte at `a` has failed its read-back twice. -/
def Node.spoil (n : Node) (a : Nat) : Node :=
  { n with nv := { n.nv with failed := n.nv.failed ++ (List.range 8).map (fun i => a / 8 * 8 + i) } }
/-- Stores bytes at ascending addresses. -/
def Node.setBytes (n : Node) (a : Nat) : List Byte → Node
  | [] => n
  | b :: t => (n.setByte a b).setBytes (a + 1) t
/-- Bytes at ascending addresses. -/
def Node.bytes (n : Node) (a k : Nat) : List Byte := (List.range k).map (fun i => n.byte (a + i))
/-- A little-endian number of `k` bytes (R3). -/
def Node.num (n : Node) (a k : Nat) : Nat := natLE (n.bytes a k)

/-- The canonical form of memory: addresses strictly rising, no byte listed at its unlisted value. -/
def Memory.wf : List Host.Cell → Bool
  | [] => true
  | [(a, b)] => b != memDefault a
  | (a, b) :: (c, d) :: t => b != memDefault a && a < c && Memory.wf ((c, d) :: t)

/-- The 64-bit factory unique ID: neither 0 nor all ones (R24). -/
def Node.uid : Nat := 1 + Config.factoryUid % (2 ^ 64 - 2)

/-- A free value: nothing in the model can say what it is; the counter moves on. -/
def Node.fresh (n : Node) : Word × Node := (Config.freeWord n.free, { n with free := n.free + 1 })
/-- A free number (log entry 2). -/
def Node.freshNat (n : Node) : Nat × Node := (Config.freeNat n.free, { n with free := n.free + 1 })

/-! ### Time of events -/

/-- Quarter-nanoseconds of a second. -/
def qnsSec : Nat := 4000000000

/-- The index the present beat carries (R16, R73): that of the 20 µs beat in which it ends. -/
def Node.idx (n : Node) : Nat :=
  if n.tm.t1 = n.tm.t0 then n.tm.t0 % qnsSec / 80000 else (n.tm.t1 + qnsSec - 80000) % qnsSec / 80000
/-- The second to which the present beat's index belongs. -/
def Node.idxSec (n : Node) : Nat := if n.tm.t1 = n.tm.t0 then n.tm.t0 / qnsSec else (n.tm.t1 - 80000) / qnsSec
/-- Node time at a moment of the beat. -/
def Node.now (n : Node) (m : Moment) : Nat := n.tm.t0 + m
/-- Quarter-nanoseconds since the node started, as beats of nominal length count them: durations of sequences that run
on their own timing, which no step of node time moves. -/
def Node.mono (n : Node) (m : Moment) : Nat := n.tick * 80000 + m
/-- Node time at the start of stage `k` (R58). -/
def Node.stageAt (n : Node) (k : Nat) : Nat := n.tm.t0 + k * 10000
/-- Whole TAI seconds of a time, 48 bits (R62). -/
def secOf (t : Nat) : Nat := t / qnsSec % 2 ^ 48
/-- The quarter-nanosecond field of a time. -/
def qnsOf (t : Nat) : Nat := t % qnsSec
/-- The stage window that holds a moment of the beat (R27). -/
def windowOf (m : Moment) : Nat := Nat.min (m / 10000) 7

/-! ### Is the node running? -/

/-- The class of a bank supply: 0 ABSENT, 1 1V8, 2 3V3 (R307). -/
def Node.bank (n : Node) (b : Nat) : Nat := if b = 0 then n.fd Fd.GP_BANK_A else n.fd Fd.GP_BANK_B
/-- The pad's bank is supplied: pins 24 to 47 on bank B, the others, PPS_IN (48) and IRIGB_IN (49) on bank A (R307, R455). -/
def Node.padOn (n : Node) (i : Nat) : Bool := n.bank (if 24 ≤ i ∧ i < 48 then 1 else 0) != 0

/-- The node core and the helpers run (not in reset, DORMANT or OFF). -/
def Node.awake (n : Node) : Bool :=
  match n.sys.phase, n.sys.power with
  | .por, _ => false
  | _, .full => true
  | _, .quiet => true
  | _, .powerfail => true
  | _, _ => false
/-- Command lines may execute: FULL or QUIET, after the first prompt (R401, R416). -/
def Node.lively (n : Node) : Bool :=
  (n.sys.phase == .prompt || n.sys.phase == .loaded) && (n.sys.power == .full || n.sys.power == .quiet) &&
    n.sys.sleep.isNone && n.cmd.resetDrain.isNone
/-- The helpers work on settings that have loaded, in FULL or QUIET. -/
def Node.working (n : Node) : Bool :=
  n.sys.phase == .loaded && (n.sys.power == .full || n.sys.power == .quiet)

/-! ### DIC rings (R376) -/

/-- A source the watch unit watches in one of its slots (R392). -/
def Node.watched (n : Node) (s : Nat) : Bool :=
  (List.range 16).any (fun k => n.on (Fd.DIC_WATCH_EN k) && n.fd (Fd.DIC_WATCH_SRC k) == s)

/-- A ring: the pending bit sets whatever the enable, and RANG records it; an armed watch unit latches the first
watched ring. Nothing rings before power-on or while OFF. -/
def Node.ring (n : Node) (s : Nat) : Node :=
  if n.sys.phase == .por || n.sys.power == .off then n
  else
    let n := (n.setBit (Ad.DIC_PEND (s / 32)) (s % 32)).setBit (Ad.DIC_RANG (s / 32)) (s % 32)
    if n.dic.armed && n.watched s && !n.on Fd.DIC_WAKESRC_VALID then
      n.setFds [(Fd.DIC_WAKESRC_VALID, 1), (Fd.DIC_WAKESRC_SRC, s), (Fd.DIC_EVT_WAKE, 1)]
    else n

/-! ### Archive intake (R221 to R224, R27) -/

/-- Does entry `a` stand before entry `b` in the order of R27? An entry placed at the head stands before every other. -/
def Entry.before (a b : Entry) : Bool :=
  a.head || a.tick < b.tick || (a.tick == b.tick && (a.win < b.win || (a.win == b.win && a.helper ≤ b.helper)))

/-- Puts an entry behind every entry that stands before it: at the tail, or ahead of entries of the same beat whose
stage window or helper comes later (R27). The list is given newest first. -/
def queueIn (e : Entry) : List Entry → List Entry
  | [] => [e]
  | x :: t => if x.before e then e :: x :: t else x :: queueIn e t

/-- What became of a raised record. -/
inductive Raised
  | queued
  | suppressed (count : Nat)
  | lost
  | notTaken
deriving DecidableEq, Repr

/-- Bytes the time field takes (Table 8-5). -/
def formBytes (form : Nat) : Nat := if form = 0 then 0 else if form = 1 then 8 else 10

/-- The suppressed-count field of a code (Table 8-10). -/
def suppFd (c : Nat) : Fd := ⟨Ad.ARC_SUPP (c / 2), c % 2 * 16 + 15, c % 2 * 16⟩

/-- A new intake entry of a code, with the code table's form and rule at the moment it is raised. -/
def Node.entry (n : Node) (c : Nat) (payload : List Byte) (win helper t : Nat) (supp : Option Nat) : Entry where
  code := c
  form := n.fd (Fd.ARC_CODE_FORM c)
  sec := secOf t
  qns := qnsOf t
  ms := n.arc.opMs
  pwr := n.nv.pwrcyc
  payload := payload
  supp := supp
  rep := if n.fd (Fd.ARC_CODE_RULE c) = 2 then some (n.fd (Fd.ARC_CODE_KEYLEN c)) else none
  tick := n.tick
  win := win
  helper := helper

/-- An entry offered to the intake queue: taken while fewer than 128 entries wait, lost and counted otherwise (R224). -/
def Node.intake (n : Node) (e : Entry) : Node × Raised :=
  if n.arc.queue.length < 128 then
    ({ n with arc := { n.arc with queue := (queueIn e n.arc.queue.reverse).reverse } }, .queued)
  else
    let lr : LostRec := match n.arc.lostRec with
      | some l => { l with count := l.count + 1 }
      | none => ⟨1, e.code, e.sec, e.qns⟩
    let n := { n with arc := { n.arc with lostRec := some lr } }
    ((n.bump Fd.ARC_LOST_LOST 1).setOn Fd.ARC_STAT_OVERFLOW true, .lost)

/-- Whether records are taken now: none where a raised record goes on to the queue; otherwise it is counted, and what
became of it is said (R241, R243, R244). The Archive takes no record while it is OFF; while it drains, records join those
that it discards (log entry 84). -/
def Node.gate (n : Node) : Node × Option Raised :=
  if n.sys.phase == .por || n.sys.power == .off || n.sys.power == .dormant then (n, some .notTaken)
  else if n.sys.power == .powerfail then
    ({ n with arc := { n.arc with afterWarn := n.arc.afterWarn + 1 } }, some .notTaken)
  else if n.on Fd.ARC_STAT_ACCEND then (n.bump Fd.ARC_LOST_LOST 1, some .lost)
  else if n.sys.phase == .loaded && n.fd Fd.ARC_STAT_STATE == 0 then (n.bump Fd.ARC_OFFCNT_OFFCNT 1, some .notTaken)
  else (n, none)

/-- The flood rule of a code (R222): the count of a suppressed record, or the token taken. -/
def Node.flood (n : Node) (c : Nat) : Node × Option Nat :=
  let used := Bank.get 0 n.arc.used c
  if n.fd (Fd.ARC_CODE_RULE c) != 1 then (n, none)
  else if n.fd (Fd.ARC_CODE_BURST c) ≤ used then
    let n := n.bump (suppFd c) 1
    (n, some (n.fd (suppFd c)))
  else ({ n with arc := { n.arc with used := Bank.set 0 n.arc.used c (used + 1) } }, none)

/-- The suppressed count that a record of a code carries with a payload: none where there is none, or no room (R222). -/
def Node.carried (n : Node) (c : Nat) (payload : List Byte) : Option Nat :=
  let t := formBytes (n.fd (Fd.ARC_CODE_FORM c))
  let rep := if n.fd (Fd.ARC_CODE_RULE c) = 2 then 2 + t else 0
  if n.fd (suppFd c) != 0 && t + rep + 2 + payload.length ≤ 70 then some (n.fd (suppFd c)) else none

/-- A record of code `c` raised in a stage window by a helper, its time field holding the time `t`. -/
def Node.raiseAt (n : Node) (c : Nat) (payload : List Byte) (win helper t : Nat) : Node × Raised :=
  match n.gate with
  | (n, some r) => (n, r)
  | (n, none) => match n.flood c with
    | (n, some k) => (n, .suppressed k)
    | (n, none) =>
      let sc := n.carried c payload
      let (n', r) := n.intake (n.entry c payload win helper t sc)
      if r = .queued && sc.isSome then (n'.setFd (suppFd c) 0, r) else (n', r)

/-- An entry offered to the Archive: taken, lost, or not taken (R224, R241, R243, R244). -/
def Node.offer (n : Node) (e : Entry) : Node × Raised :=
  match n.gate with
  | (n, some r) => (n, r)
  | (n, none) => n.intake e
/-- A record of the alarm engine, whose codes have no flood rule: stage S6 takes it into the queue (R20). -/
def Node.stageRecord (n : Node) (c : Nat) (payload : List Byte) (win helper t : Nat) : Node :=
  { n with arc := { n.arc with staged := n.arc.staged ++ [n.entry c payload win helper t none] } }

/-- A record raised by a helper in stage `k`, or, when it finishes late, in the window in which it does (R27): its time is
the start of that stage (R220). -/
def Node.raise (n : Node) (c : Nat) (payload : List Byte) (k helper : Nat) : Node :=
  let k := n.tm.lateWin.getD k
  (n.raiseAt c payload k helper (n.stageAt k)).1
/-- A record raised by a command: its time is the start of S7, and it stands after every helper's record (R220, R27). -/
def Node.raiseCmd (n : Node) (c : Nat) (payload : List Byte) : Node :=
  (n.raiseAt c payload 8 0 (n.stageAt 7)).1
/-- A record raised by a helper marked Continuous, at a moment of the beat: it lies in that moment's stage window
and its time is the start of that stage (R27, R220). -/
def Node.raiseM (n : Node) (c : Nat) (payload : List Byte) (m : Moment) (helper : Nat) : Node :=
  n.raise c payload (windowOf m) helper
/-- A record placed at the head of the queue (R228, R232, R242, R244), unless its code's flood rule suppresses it; `win`:
the stage window in which it is raised, 8 for a command. -/
def Node.raiseHead (n : Node) (c : Nat) (payload : List Byte) (win t : Nat) : Node :=
  match n.flood c with
  | (n, some _) => n
  | (n, none) =>
    let sc := n.carried c payload
    let e := { n.entry c payload win 0 t sc with head := true }
    let n := { n with arc := { n.arc with queue := e :: n.arc.queue } }
    if sc.isSome then n.setFd (suppFd c) 0 else n

/-! ### Ports, notices and replies -/

def portNum : Port → Nat
  | .host => 0 | .service => 1 | .bus => 2 | .annex => 3
def allPorts : List Port := [.host, .service, .bus, .annex]

def Node.port (n : Node) (p : Port) : PortSt := Bank.get {} n.cmd.ports (portNum p)
def Node.setPort (n : Node) (p : Port) (s : PortSt) : Node :=
  { n with cmd := { n.cmd with ports := Bank.set {} n.cmd.ports (portNum p) s } }

/-- Notice classes, in the order of the NOTE key's words (Table 2-7). -/
inductive Cls
  | alm | quad | pfail | irq | survey | lease | host | mr | watch | stream
deriving DecidableEq, Repr

def Cls.bit : Cls → Nat
  | .alm => 0 | .quad => 1 | .pfail => 2 | .irq => 3 | .survey => 4 | .lease => 5 | .host => 6 | .mr => 7
  | .watch => 8 | .stream => 9

/-- Does the port send notices of this class? BUS sends none while BNOTE is 0, nor where the notice station can be
reached only through a port with GENMAX=A (R436, which counts them as discarded). -/
def Node.notes (n : Node) (p : Port) (c : Cls) : Bool :=
  (n.k (Kid.note (portNum p))).getLsbD c.bit && (p != .bus || n.k Kid.bnote != 0#32)

/-- Counts one discarded notice (R40, R369). -/
def Node.loseNotice (n : Node) (p : Port) : Node :=
  let s := n.port p
  let n := (n.setPort p { s with lost := s.lost + 1 }).bump Fd.CMD_ERRCNT_LOST 1
  if p = .annex then (n.setOn Fd.CMD_MBEVT_LOST true).ring 219 else n

/-- A notice for one port: it waits in the port's output queue of 64 lines, or is discarded and counted (R40). The tag it
carries is that of the moment at which it is sent (R35). -/
def Node.notifyPort (n : Node) (p : Port) (c : Cls) (items : List Item) : Node :=
  if !n.notes p c then n
  else
    let s := n.port p
    if s.notices.length < 64 && s.lost = 0 && !(p = .bus && n.bus.noteBlocked) then
      n.setPort p { s with notices := s.notices ++ [⟨"", .notice, items⟩] }
    else n.loseNotice p
/-- A notice on every port whose NOTE includes its class. -/
def Node.notify (n : Node) (c : Cls) (items : List Item) : Node :=
  allPorts.foldl (fun n p => n.notifyPort p c items) n

/-- !WATCH lines for the watchers of an item. -/
def Node.notifyWatch (n : Node) (o : Obj) (sub : String) (i : Option Nat) (items : List Item) : Node :=
  allPorts.foldl (fun n p =>
    if (n.port p).watches.any (fun w => w.obj == o && w.sub == sub && w.idx == i) then
      n.notifyPort p .watch (.w "WATCH" :: items) else n) n

/-- A publication of a streamed item (R120, R147, R173): each of its streams advances by its rate. -/
def Node.published (n : Node) (o : Obj) (i : Option Nat) : Node :=
  { n with cmd := { n.cmd with streams := n.cmd.streams.map (fun t =>
      if t.obj == o && t.idx == i then { t with phase := t.phase + t.rate } else t) } }

/-- An error of a line: its code and the detail after the code's text. -/
structure Err where
  code : Nat
  detail : List Item
deriving DecidableEq, Repr

/-- The text of an error code (Table 2-13). -/
def errText (c : Nat) : String :=
  match c with
  | 101 => "UNKNOWN VERB" | 102 => "UNKNOWN OBJECT" | 103 => "VERB NOT FOR OBJECT" | 104 => "UNKNOWN KEY"
  | 105 => "MALFORMED" | 106 => "TOO LONG" | 107 => "CHECKSUM" | 108 => "BAD TAG" | 109 => "FORM NOT ACCEPTED"
  | 110 => "NOT PERMITTED ON PORT" | 111 => "DUPLICATE KEY" | 112 => "MISSING KEY" | 113 => "BAD INDEX"
  | 201 => "VALUE OUT OF RANGE" | 202 => "INDEX OUT OF RANGE" | 203 => "BAD VALUE FORM" | 204 => "NOT ON STEP"
  | 205 => "KEYS CONFLICT" | 206 => "NOT FOUND" | 207 => "ADDRESS NOT MAPPED" | 208 => "MISALIGNED"
  | 209 => "NO SUCH REGISTER" | 210 => "READ ONLY REGION" | 301 => "BUSY" | 302 => "NOT IN POWER STATE"
  | 303 => "FUNCTION OFF" | 304 => "LOCKED" | 305 => "CONFIRM" | 306 => "SURVEY RUNNING" | 307 => "NO ANNEX CODE"
  | 308 => "WRONG STATE" | 309 => "INTERRUPTED" | 310 => "NOT REPEATED" | 401 => "LEASED" | 402 => "NO LEASE"
  | 403 => "LEASE TABLE FULL" | 404 => "PORT QUEUE FULL" | 405 => "NO MAILBOX" | 406 => "NO STREAM SLOT"
  | 407 => "NO WATCH SLOT" | 501 => "UNIT FAULT" | 502 => "NO RESERVE" | 503 => "NV WRITE FAILED"
  | 504 => "RAIL OUT OF WINDOW" | 505 => "CONVERSION TIMEOUT" | 601 => "BUS OFF" | 602 => "NO PEER REPLY"
  | 603 => "FRAME ABORTED" | 604 => "LINE OVERRUN" | 605 => "BUS STUCK" | 606 => "NO ACK" | 607 => "TW TIMEOUT"
  | _ => ""

/-- Does the line end the first part of a reply, with a continuation to follow (R39)? -/
def LineKind.isPartial : LineKind → Bool
  | .partialAt _ => true
  | _ => false

/-- Adds lines to the port's reply (R39). `ends`: the last of them ends the reply, or its part. A generated line's reply is
stored with its continuation while it has at most 64 lines, and has ended when the continuation has (R36). -/
def Node.send (n : Node) (p : Port) (tag : String) (lines : List (LineKind × List Item)) (ends : Bool) : Node :=
  let s := n.port p
  let ls := lines.map (fun (k, i) => (⟨tag, k, i⟩ : OutLine))
  let st := match s.stored with
    | some r =>
      if tag != "" && r.tag == tag && r.ended.isNone then
        some { r with lines := if r.count + ls.length ≤ 64 then r.lines ++ ls else [], count := r.count + ls.length,
                      ended := if ends && !lines.any (fun x => x.1.isPartial) then some n.tick else none }
      else some r
    | none => none
  n.setPort p { s with reply := s.reply ++ ls ++ (if ends then s.refusals else []),
                       refusals := if ends then [] else s.refusals, replyOpen := !ends, stored := st }

/-- Ends a reply with the completion line after its data lines. -/
def Node.replyOk (n : Node) (l : Line) (data : List (List Item)) : Node :=
  n.send l.port l.tag (data.map (fun i => (.data, i)) ++ [(.done, [])]) true
/-- Ends a reply with an error line (R57). -/
def Node.replyErr (n : Node) (l : Line) (e : Err) : Node :=
  n.send l.port l.tag [(.error e.code, .w (errText e.code) :: e.detail)] true

/-! ### Index sets, claims and leases -/

/-- The set an index list names, in ascending order (R464): no index twice. -/
def indexSet (l : List (Nat × Nat)) : List Nat :=
  let hi := l.foldl (fun m (_, b) => Nat.max m b) 0
  (List.range (hi + 1)).filter (fun i => l.any (fun (a, b) => a ≤ i && i ≤ b))

/-- Do two index items name a common index? No index names every item of the object. -/
def idxMeet : Option (List (Nat × Nat)) → Option (List (Nat × Nat)) → Bool
  | some a, some b => a.any (fun (x, y) => b.any (fun (u, v) => x ≤ v && u ≤ y))
  | _, _ => true
/-- Capacity of an object's index (Table 1-7); 0: the object takes no index. -/
def objCap : Obj → Nat
  | .uc => 24 | .lo => 8 | .grid => 8 | .trans => 8 | .ap => 1024 | .ag => 64 | .call => 8 | .arc => 512 | .gp => 48
  | .time => 8 | .dic => 256 | _ => 0

/-- Do all items of the first lie within the second? `cap`: how many items the object has; no index names them all. -/
def idxWithin (cap : Nat) : Option (List (Nat × Nat)) → Option (List (Nat × Nat)) → Bool
  | some a, some b => (indexSet a).all (fun i => b.any (fun (u, v) => u ≤ i && i ≤ v))
  | none, some b => (List.range cap).all (fun i => b.any (fun (u, v) => u ≤ i && i ≤ v))
  | _, none => true

/-- Is the object claimed by another port's micro-routine (R43)? The claim covers the whole object (log entry 57). -/
def Node.claimed (n : Node) (p : Port) (o : Obj) : Bool :=
  allPorts.any (fun q => q != p && match (n.port q).mr with
    | some m => m.obj == o
    | none => false)

def portName : Port → String
  | .host => "HOST" | .service => "SERVICE" | .bus => "BUS" | .annex => "ANNEX"

/-- Step 13 of R470 for a line that writes to items of an object: claims, then leases. -/
def Node.mayWrite (n : Node) (p : Port) (o : Obj) (idx : Option (List (Nat × Nat))) : Except Err Unit :=
  if n.claimed p o then .error ⟨301, []⟩
  else match n.cmd.leases.find? (fun l => l.port != p && l.obj == o && idxMeet l.idx idx) with
    | some l => .error ⟨401, [.w "HELD BY", .w (portName l.port)]⟩
    | none => .ok ()

/-! ### Execution of a line (R41, R402) -/

/-- Nothing on the port itself stands in the way of its next line: live, and no micro-routine of its own running, nor a line
whose reply is still open (R41, R275), nor a reply line of the ANNEX port that lacks room (R369). -/
def Node.portFree (n : Node) (p : Port) : Bool :=
  n.lively && (n.port p).mr.isNone && (n.port p).await.isNone && !(p == .annex && n.on Fd.CMD_MBSTAT_STALLED)

/-- A port before `p` in the order of R41, itself free, has a line whose terminator arrived in the same beat as that of the
line at the head of `p`: it executes first (log entry 85). -/
def Node.yields (n : Node) (p : Port) : Bool :=
  match (n.port p).waiting with
  | [] => false
  | w :: _ => allPorts.any (fun q => portNum q < portNum p && n.portFree q && (n.port q).waiting.any (fun x => x.at_ == w.at_))
/-- The port may execute its next line (R41). -/
def Node.portReady (n : Node) (p : Port) : Bool := n.portFree p && !n.yields p

/-- Takes the line from the head of its port's waiting lines; a pending confirmation of the port is cancelled (R47). -/
def Node.takeLine (n : Node) (l : Line) : Node :=
  let s := n.port l.port
  let (st, via) := match s.waiting with
    | w :: _ => (w.station, w.via)
    | [] => (s.station, s.via)
  n.setPort l.port { s with waiting := s.waiting.drop 1, confirm := none, station := st, via := via }

/-- One line at its execution: nothing happens while its port cannot execute it; before the store has loaded, only the
lines R402 names run (`early`); otherwise its error line, or its effect with its data lines and the completion line. -/
def Node.runLine (n : Node) (l : Line) (early : Bool) (body : Node → Except Err (Node × List (List Item))) : Node :=
  if !n.portReady l.port then n
  else
    let n := n.takeLine l
    if n.sys.phase != .loaded && !early then n.replyErr l ⟨308, [.w "STARTING"]⟩
    else match body n with
      | .error e => n.replyErr l e
      | .ok (n', data) => n'.replyOk l data

/-- As `runLine`, for a line that answers later or sends its own reply: the body's node is the outcome. -/
def Node.runOpen (n : Node) (l : Line) (body : Node → Except Err Node) : Node :=
  if !n.portReady l.port then n
  else
    let n := n.takeLine l
    if n.sys.phase != .loaded then n.replyErr l ⟨308, [.w "STARTING"]⟩
    else match body n with
      | .error e => n.replyErr l e
      | .ok n' => n'

/-- A list of words in a reply: joined by +, the form in which R33 writes a list, or NONE. -/
def listItem (l : List String) : Item := .w (if l.isEmpty then "NONE" else String.intercalate "+" l)

/-- A refusal with a code and no detail. -/
def refuse (c : Nat) : Except Err α := .error ⟨c, []⟩
/-- Goes on only when the condition holds; otherwise the code. -/
def need (b : Bool) (c : Nat) : Except Err Unit := if b then .ok () else .error ⟨c, []⟩

end Sys2Proof.Machine
end

