-- ==== Sys2Proof/Machine/Operands.lean ====
section
/-! DEFINITION. Indices, keys and values of command lines (steps 9 to 11 of R470), the tables of keys that say where
each setting is held, and the two ways in which a line takes effect: at once, or as a micro-routine (R43). -/
namespace Sys2Proof.Machine

/-! ### Values (R33) -/

/-- Where a setting is held. -/
inductive Loc
  | fd (f : Fd)
  | kid (k : Nat)
deriving DecidableEq, Repr

/-- The forms and the range a key accepts, and the number its value is stored as.
`enum`: one word of a list. `flags`: words joined by +, each a bit; NONE is 0 and ALL is `all` (no word when 0). `int`: an integer.
`ext`: a word of the list, or an integer. `fix`: a number stored as the whole number (v - base) / unit.
`flt`: a binary32 number, or a word standing for a pattern. `flts`: as `flt`, on a step, with at most `digits` fraction digits unless that is 0. `big`: an unsigned number. `src`: a source word of Table 7-1 or
NONE, stored as 1 + kind × 65536 + index, or 0. `blk`: GPnn or APn, stored as 1 + kind × 65536 + index (kind 0 GP, 1 AP), or NONE. `nats`: one of some words, or numbers joined by +. -/
inductive Form
  | enum (l : List (String × Nat))
  | flags (l : List (String × Nat)) (all : Nat)
  | int (lo hi : Int)
  | ext (l : List (String × Nat)) (lo hi : Int)
  | fix (lo hi unit base : Q)
  | flt (lo hi : Q) (l : List (String × Nat))
  | big (lo hi : Nat)
  | src (gp : Bool)
  | blk
  | flts (lo hi step : Q) (digits : Nat)
  | text
  | nats (special : List String) (lo hi : Nat)
deriving DecidableEq, Repr

/-- The value matches a form of R33: a decimal number has 1 to 6 fraction digits, a hex number 1 to 16 digits, and a quoted
string at most 48 characters, none of them a quote. -/
def Val.ok : Val → Bool
  | .int _ => true
  | .dec _ s => 1 ≤ s && s ≤ 6
  | .hex v d => 1 ≤ d && d ≤ 16 && v < 16 ^ d
  | .words l => !l.isEmpty
  | .quoted cs => cs.length ≤ 48 && !cs.contains 34
/-- The fraction digits a value is written with. -/
def Val.fraction : Val → Nat
  | .dec _ s => s
  | _ => 0
/-- The number an integer or hex value names. -/
def Val.int? (v : Val) : Option Int :=
  match v with
  | .int z => some z
  | .hex z _ => if v.ok then some (z : Int) else none
  | _ => none
/-- The number a value names, decimals included. -/
def Val.q? (v : Val) : Option Q :=
  match v with
  | .int z => some ⟨z, 1⟩
  | .hex z _ => if v.ok then some ⟨(z : Int), 1⟩ else none
  | .dec m s => if v.ok then some ⟨m, 10 ^ s⟩ else none
  | _ => none

/-- Words of the grid quantities (Table 7-1), by code. -/
def gridWords : List String :=
  ["GRID-MAG0", "GRID-MAG1", "GRID-MAG2", "GRID-MAG3", "GRID-MAG4", "GRID-MAG5", "GRID-MAG6", "GRID-MAG7",
   "GRID-ANG0", "GRID-ANG1", "GRID-ANG2", "GRID-ANG3", "GRID-ANG4", "GRID-ANG5", "GRID-ANG6", "GRID-ANG7",
   "GRID-V1M", "GRID-V1A", "GRID-V2M", "GRID-V2A", "GRID-V0M", "GRID-V0A", "GRID-I1M", "GRID-I1A", "GRID-I2M",
   "GRID-I2A", "GRID-I0M", "GRID-I0A", "GRID-FREQ", "GRID-ROCOF"]

/-- A number of at most `k` decimal digits at the head of the characters, and what follows it. -/
def digitsOf : Nat → List Char → Option (Nat × List Char)
  | 0, _ => none
  | k + 1, cs =>
    let rec go : Nat → Nat → List Char → Nat × List Char
      | 0, a, cs => (a, cs)
      | f + 1, a, c :: t => if c.isDigit then go f (a * 10 + (c.toNat - 48)) t else (a, c :: t)
      | _ + 1, a, [] => (a, [])
    match cs with
    | c :: t => if c.isDigit then some (go k (c.toNat - 48) t) else none
    | [] => none

/-- Kind and index of a source word (Table 7-1): kind 0 UC, 1 LO, 2 GRID, 3 GP, 4 PEER (station × 256 + value). -/
def srcWord (w : String) : Option (Nat × Nat) :=
  match w.toList with
  | 'U' :: 'C' :: t => match digitsOf 2 t with
    | some (k, []) => if k < 24 then some (0, k) else none
    | _ => none
  | 'L' :: 'O' :: t => match digitsOf 1 t with
    | some (k, []) => if k < 8 then some (1, k) else none
    | _ => none
  | 'G' :: 'P' :: t => match digitsOf 2 t with
    | some (k, []) => if k < 48 && t.length = 2 then some (3, k) else none
    | _ => none
  | 'P' :: 'E' :: 'E' :: 'R' :: '-' :: t => match digitsOf 3 t with
    | some (s, '-' :: u) => match digitsOf 3 u with
      | some (v, []) => if 1 ≤ s && s ≤ 254 && v ≤ 255 then some (4, s * 256 + v) else none
      | _ => none
    | _ => none
  | _ => (gridWords.idxOf? w).map (fun k => (2, k))
/-- The word of a source. -/
def srcName (kind i : Nat) : String :=
  match kind with
  | 0 => "UC" ++ toString i
  | 1 => "LO" ++ toString i
  | 2 => gridWords.getD i "NONE"
  | 3 => "GP" ++ toString (i / 10) ++ toString (i % 10)
  | _ => "PEER-" ++ toString (i / 256) ++ "-" ++ toString (i % 256)

/-- Looks a word up. -/
def wordCode (l : List (String × Nat)) (w : String) : Option Nat := (l.find? (fun p => p.1 == w)).map (·.2)

/-- Bits of a list of words joined by +. -/
def flagBits (l : List (String × Nat)) : List String → Option Nat
  | [] => some 0
  | w :: t => match wordCode l w, flagBits l t with
    | some b, some r => some (r ||| 2 ^ b)
    | _, _ => none

/-- The stored number of a value, or the code that refuses it: 203 for its form, 201 for its range, 204 off the step.
A word outside a key's list is out of range (log entry 20). -/
def Form.code : Form → Val → Except Nat Nat
  | .enum l, .words [w] => match wordCode l w with
    | some c => .ok c
    | none => .error 201
  | .enum l, .int v => match wordCode l (toString v) with      -- keys such as HSTOP list digits as their words
    | some c => .ok c
    | none => if l.any (fun p => p.1.all Char.isDigit) then .error 201 else .error 203
  | .flags l all, .words ws =>
    if ws.isEmpty then .error 203 else if ws == ["ALL"] && all != 0 then .ok all else if ws == ["NONE"] then .ok 0
    else match flagBits l ws with
      | some b => .ok b
      | none => .error 201
  | .int lo hi, v => match Val.int? v with
    | some z => if lo ≤ z ∧ z ≤ hi then .ok (twos 32 z) else .error 201
    | none => .error 203
  | .ext l _ _, .words [w] => match wordCode l w with
    | some c => .ok c
    | none => .error 201
  | .ext _ lo hi, v => match Val.int? v with
    | some z => if lo ≤ z ∧ z ≤ hi then .ok (twos 32 z) else .error 201
    | none => .error 203
  | .fix lo hi u b, v => match Val.q? v with
    | some q =>
      if !(Q.le lo q && Q.le q hi) then .error 201
      else
        let r := Q.div (Q.sub q b) u
        if r.num % (r.den : Int) = 0 then .ok (twos 32 (r.num / (r.den : Int))) else .error 204
    | none => .error 203
  | .flt lo hi l, v => match v, Val.q? v with
    | .words [w], _ => match wordCode l w with
      | some c => .ok c
      | none => .error 201
    | _, some q => if Q.le lo q && Q.le q hi then .ok (f32OfQ q).toNat else .error 201
    | _, none => .error 203
  | .flts lo hi st ds, v => match Val.q? v with
    | some q =>
      if !(Q.le lo q && Q.le q hi) then .error 201
      else if ds != 0 && ds < v.fraction then .error 204
      else if (Q.div q st).num % ((Q.div q st).den : Int) = 0 then .ok (f32OfQ q).toNat else .error 204
    | none => .error 203
  | .big lo hi, v => match Val.int? v with
    | some z => if (lo : Int) ≤ z ∧ z ≤ (hi : Int) then .ok z.toNat else .error 201
    | none => .error 203
  | .src gp, .words [w] =>
    if w = "NONE" then .ok 0
    else match srcWord w with
      | some (k, i) => if k = 3 && !gp then .error 201 else .ok (1 + k * 65536 + i)
      | none => .error 201
  | .blk, .words [w] =>
    if w = "NONE" then .ok 0
    else match w.toList with
      | 'A' :: 'P' :: t => match digitsOf 4 t with
        | some (k, []) => if k < 1024 then .ok (65537 + k) else .error 201
        | _ => .error 201
      | _ => match srcWord w with
        | some (3, i) => .ok (1 + i)
        | _ => .error 201
  | .text, .quoted cs => if (Val.quoted cs).ok then .ok 0 else .error 203
  | .nats sp lo hi, .words ws =>
    if ws.length = 1 ∧ sp.contains (ws.headD "") then .ok 0
    else if ws.isEmpty || ws.any (fun w => w.toNat?.isNone) then .error 203
    else if ws.all (fun w => lo ≤ w.toNat?.getD 0 && w.toNat?.getD 0 ≤ hi) then .ok 0 else .error 201
  | .nats _ lo hi, .int v => if (lo : Int) ≤ v ∧ v ≤ (hi : Int) then .ok 0 else .error 201
  | _, _ => .error 203

/-- The items a setting's stored number is shown as. -/
def Form.shows (f : Form) (v : Nat) : List Item :=
  let word (l : List (String × Nat)) : Option String := (l.find? (fun p => p.2 == v)).map (·.1)
  match f with
  | .enum l => [.w ((word l).getD "NONE")]
  | .flags l all =>
    if all != 0 && v = all then [.w "ALL"] else [listItem ((l.filter (fun p => v.testBit p.2)).map (·.1))]
  | .int lo _ => [if lo < 0 then .i (signed 32 v) else .n v]
  | .ext l lo _ => match word l with
    | some w => [.w w]
    | none => [if lo < 0 then .i (signed 32 v) else .n v]
  | .fix _ _ u b =>
    let q := Q.add b (Q.mul u ⟨signed 32 v, 1⟩)
    let k := if u.den = 1 then 0 else if u.den = 10 then 1 else if u.den = 100 then 2 else if u.den = 1000 then 3 else 6
    if q.den = 1 then [.i q.num] else [.d (Q.round (Q.mul q ⟨10 ^ k, 1⟩)) k]
  | .flt _ _ l => match word l with
    | some w => [.w w]
    | none => [.f (BitVec.ofNat 32 v)]
  | .flts _ _ _ _ => [.f (BitVec.ofNat 32 v)]
  | .big _ _ => [.h v 8]
  | .src _ => [.w (if v = 0 then "NONE" else srcName ((v - 1) / 65536) ((v - 1) % 65536))]
  | .blk => [.w (if v = 0 then "NONE" else if v ≤ 65536 then srcName 3 (v - 1) else "AP" ++ toString (v - 65537))]
  | .text => []
  | .nats _ _ _ => []

/-- A key of a SET: its name, what it accepts, and where item `i` holds it. `stored`: DO SYS COMMIT keeps it. -/
structure KeySpec where
  key : String
  form : Form
  loc : Nat → Loc
  stored : Bool := true

def onOff : Form := .enum [("OFF", 0), ("ON", 1)]
def q (z : Int) : Q := ⟨z, 1⟩
/-- A number `num / 10^scale`. -/
def qd (num : Int) (scale : Nat) : Q := ⟨num, 10 ^ scale⟩

/-- A key held in a register field of item `i`. -/
def ks (key : String) (form : Form) (f : Nat → Fd) : KeySpec := { key, form, loc := fun i => .fd (f i) }
/-- A key held in a register field, not kept by DO SYS COMMIT. -/
def ksv (key : String) (form : Form) (f : Nat → Fd) : KeySpec := { key, form, loc := fun i => .fd (f i), stored := false }
/-- A key without a register. -/
def kk (key : String) (form : Form) (k : Nat → Nat) : KeySpec := { key, form, loc := fun i => .kid (k i) }

def specOf (specs : List KeySpec) (k : String) : Option KeySpec := specs.find? (fun s => s.key == k)

/-- The value of a key of the line. -/
def Line.key (l : Line) (k : String) : Option Val := (l.keys.find? (fun p => p.1 == k)).map (·.2)
def keyVal (ks : Keys) (k : String) : Option Val := (ks.find? (fun p => p.1 == k)).map (·.2)
/-- Is the key given? -/
def hasKey (ks : Keys) (k : String) : Bool := ks.any (fun p => p.1 == k)

/-- The first key, from left to right, that is unknown or stands a second time; `seen`: the keys before it. -/
def keyErr (known : String → Bool) (seen : List String) : Keys → Option Nat
  | [] => none
  | (k, _) :: t => if !known k then some 104 else if seen.contains k then some 111 else keyErr known (k :: seen) t
/-- The code of the first value, from left to right, that its key's form refuses. -/
def valErr (specs : List KeySpec) (keys : Keys) : Option Nat :=
  keys.findSome? (fun (k, v) => match specOf specs k with
    | some s => match s.form.code v with
      | .error e => some e
      | .ok _ => none
    | none => none)
/-- Step 10 of R470: the first key from left to right that is unknown or given twice, then a key that is missing. -/
def stepTen (known : String → Bool) (required : List String) (keys : Keys) : Option Nat :=
  match keyErr known [] keys with
  | some c => some c
  | none => if required.any (fun r => !hasKey keys r) then some 112 else none

/-- Steps 10 and 11 of R470 (log entry 24). -/
def checkKeys (specs : List KeySpec) (required : List String) (keys : Keys) : Except Err Unit :=
  match stepTen (fun k => (specOf specs k).isSome) required keys with
  | some c => refuse c
  | none => match valErr specs keys with
    | some c => refuse c
    | none => .ok ()

/-- Step 10 for a line whose keys, beside those of the table, must be among `known`. -/
def onlyKeys (known required : List String) (keys : Keys) : Except Err Unit :=
  match stepTen (fun k => known.contains k) required keys with
  | some c => refuse c
  | none => .ok ()

/-- The stored number of a key given, when its form accepts it. -/
def keyNum (specs : List KeySpec) (keys : Keys) (k : String) : Option Nat :=
  match keyVal keys k, specOf specs k with
  | some v, some s => match s.form.code v with
    | .ok c => some c
    | .error _ => none
  | _, _ => none

/-! ### Reading and writing settings -/

def Node.getLoc (n : Node) : Loc → Nat
  | .fd f => n.fd f
  | .kid k => (n.k k).toNat
def Node.putLoc (n : Node) (l : Loc) (v : Nat) : Node :=
  match l with
  | .fd f => n.setFd f v
  | .kid k => n.setK k (BitVec.ofNat 32 v)

/-- Gives item `i` the values of the keys. -/
def Node.putKeys (n : Node) (specs : List KeySpec) (i : Nat) : Keys → Node
  | [] => n
  | (k, v) :: t =>
    let n' := match specOf specs k with
      | some s => match s.form.code v with
        | .ok c => n.putLoc (s.loc i) c
        | .error _ => n
      | none => n
    n'.putKeys specs i t

/-- A change of a stored key sets SYS.STORE.DIRTY (R405). -/
def Node.dirty (n : Node) : Node := n.setOn Fd.SYS_STORE_DIRTY true

/-- Gives item `i` the values of the keys and notes a change of stored ones. -/
def Node.setKeys (n : Node) (specs : List KeySpec) (i : Nat) (keys : Keys) : Node :=
  let n' := n.putKeys specs i keys
  let changed := keys.any (fun (k, _) => match specOf specs k with
    | some s => s.stored && n'.getLoc (s.loc i) != n.getLoc (s.loc i)
    | none => false)
  if changed then n'.dirty else n'

/-- Each setting as its key and its value, for SHOW. -/
def Node.showKeys (n : Node) (specs : List KeySpec) (i : Nat) : List Item :=
  specs.flatMap (fun s =>
    let v := n.getLoc (s.loc i)
    let v := match s.form, s.loc i with
      | .int lo _, .fd f => if lo < 0 then twos 32 (signed f.width v) else v
      | .ext _ lo _, .fd f => if lo < 0 then twos 32 (signed f.width v) else v
      | .fix _ _ _ _, .fd f => if f.width < 32 then v else v
      | _, _ => v
    .w s.key :: s.form.shows v)

/-! ### The configuration store as it stands (R403 to R405) -/

/-- The number under which the store lists a setting that has no register. -/
def kidAddr (k : Nat) : Nat := 2 ^ 33 + k

/-- A copy is valid: MAGIC, LEN and CHECK (R403). -/
def Copy.valid (c : Copy) : Bool := c.magic && c.check && c.len ≤ 31712
/-- A copy that was never written or whose header is cleared. -/
def Copy.none : Copy := ⟨false, 0, 0, false, []⟩
def Node.copy (n : Node) (k : Nat) : Copy := Bank.get Copy.none n.nv.copies k
def Node.setCopy (n : Node) (k : Nat) (c : Copy) : Node :=
  { n with nv := { n.nv with copies := Bank.set Copy.none n.nv.copies k c } }

/-- The copy that stands: the valid one with the larger GEN, copy 0 when they are equal (R404). -/
def Node.standing (n : Node) : Option Nat :=
  let a := n.copy 0
  let b := n.copy 1
  if a.valid && b.valid then (if a.gen < b.gen then some 1 else some 0)
  else if a.valid then some 0 else if b.valid then some 1 else none

/-- The items the standing copy lists; none with a store at defaults. -/
def Node.image (n : Node) : List (Nat × Word) :=
  match n.standing with
  | some k => (n.copy k).image
  | none => []

/-- A setting's value in the store. -/
def Node.storeLoc (n : Node) : Loc → Nat
  | .fd f => f.get (Bank.get (resetWord f.addr) n.image f.addr)
  | .kid k => (Bank.get (keyDefault k) n.image (kidAddr k)).toNat

/-- Reloads the stored settings of item `i` from the store (R405). -/
def Node.reload (n : Node) (specs : List KeySpec) (i : Nat) : Node :=
  specs.foldl (fun m s => if s.stored then m.putLoc (s.loc i) (n.storeLoc (s.loc i)) else m) n

/-- Reloads whole registers from the store (R405). -/
def Node.reloadRegs (n : Node) (as : List Nat) : Node :=
  as.foldl (fun m a => m.wr a (Bank.get (resetWord a) n.image a)) n

/-! ### Indices (step 9 of R470) -/

/-- The index syntax: each range ascending, at most 16 items as written (R464). -/
def idxSyntax (l : List (Nat × Nat)) : Bool := l.all (fun (a, b) => a ≤ b) && l.length ≤ 16 && !l.isEmpty

/-- The index set of a line that takes an index: `?E113` for its syntax or its absence, `?E202` beyond the capacity. -/
def Line.items (l : Line) (cap : Nat) : Except Err (List Nat) :=
  match l.idx with
  | none => refuse 113
  | some x =>
    if !idxSyntax x then refuse 113
    else if x.any (fun (_, b) => cap ≤ b) then refuse 202
    else .ok (indexSet x)
/-- The index of a line that takes exactly one. -/
def Line.item (l : Line) (cap : Nat) : Except Err Nat :=
  match l.items cap with
  | .error e => .error e
  | .ok [i] => .ok i
  | .ok _ => refuse 113
/-- A line whose object takes no index here. -/
def Line.bare (l : Line) : Except Err Unit := if l.idx.isNone then .ok () else refuse 113

/-! ### Micro-routines (R43, R44) -/

/-- Higher-priority work of the node core that pauses micro-routines: a quad migration or a survey (Table 2-5). -/
def Node.coreWork (n : Node) : Bool := n.uc.migrating || n.srv.running

/-- Starts a micro-routine on the line's port; while such work is under way it is paused before its first unit. -/
def Node.startMr (n : Node) (l : Line) (verb : Nat) (o : Obj) (op : UnitOp) (units : List Nat) (indexed : Bool) : Node :=
  let pz := n.coreWork
  let m : Mr := { op := op, tag := l.tag, verb := verb, obj := o, units := units, indexed := indexed, pos := 0,
                  since := 0, paused := pz, wasPaused := pz, pauseSurvey := pz && n.srv.running, from_ := n.tick + 1 }
  let n := n.setPort l.port { n.port l.port with mr := some m, replyOpen := true }
  if pz then n.send l.port l.tag [(.partialAt 0, [])] true else n

/-- A line that acts on indices: checked whole (R32), then, for one index, applied at once with its completion line,
and for more than one index begun as a micro-routine with one unit per index (R464). -/
def Node.runMulti (n : Node) (l : Line) (verb : Nat) (o : Obj) (cap : Nat) (op : UnitOp)
    (check : Node → List Nat → Except Err Unit)
    (unit : Nat → Node → Except Err (Node × List (List Item))) : Node :=
  n.runOpen l (fun n =>
    match l.items cap with
    | .error e => .error e
    | .ok is => match check n is with
      | .error e => .error e
      | .ok _ => match n.mayWrite l.port o l.idx with
        | .error e => .error e
        | .ok _ => match is with
          | [i] => match unit i n with
            | .error e => .error e
            | .ok (n', data) => .ok (n'.replyOk l data)
          | _ => .ok (n.startMr l verb o op is true))

/-- A line that writes settings of an object without an index. -/
def Node.runWhole (n : Node) (l : Line) (o : Obj) (check : Node → Except Err Unit)
    (act : Node → Except Err (Node × List (List Item))) : Node :=
  n.runLine l false (fun n => do
    l.bare
    check n
    n.mayWrite l.port o none
    act n)

/-- A line that only reads. -/
def Node.runRead (n : Node) (l : Line) (act : Node → Except Err (List (List Item))) : Node :=
  n.runLine l false (fun n => do
    let d ← act n
    pure (n, d))

/-- Positions of the verbs in Table 2-2. -/
def verbSet : Nat := 0
def verbDo : Nat := 3
def verbClear : Nat := 4

/-- The line of a micro-routine. -/
def mrLine (p : Port) (m : Mr) : Line := ⟨p, m.tag, none, []⟩

/-- The index items of the units applied in the present part of the reply, in runs, at most 16 to a line (R44). -/
def runsOf : List Nat → List (Nat × Nat)
  | [] => []
  | a :: t => match runsOf t with
    | (x, y) :: r => if a + 1 = x then (a, y) :: r else (a, a) :: (x, y) :: r
    | [] => [(a, a)]
/-- Cuts a list into pieces of 16. -/
def chunk16 (l : List (Nat × Nat)) : Nat → List (List (Nat × Nat))
  | 0 => []
  | k + 1 => if l.isEmpty then [] else l.take 16 :: chunk16 (l.drop 16) k

def objName : Obj → String
  | .uc => "UC" | .lo => "LO" | .grid => "GRID" | .trans => "TRANS" | .ap => "AP" | .ag => "AG" | .call => "CALL"
  | .arc => "ARC" | .bus => "BUS" | .survey => "SURVEY" | .gp => "GP" | .tw => "TW" | .disp => "DISP" | .time => "TIME"
  | .beat => "BEAT" | .dic => "DIC" | .sys => "SYS" | .node => "NODE"

/-- The =APPLIED lines for the units from `since` up to `pos`: indices, or unit positions (R44). -/
def Mr.appliedLines (m : Mr) : List (List Item) :=
  let done := if m.indexed then (m.units.take m.pos).drop m.since else (List.range m.pos).drop m.since
  (chunk16 (runsOf done) (done.length + 1)).map (fun x => [.w "APPLIED", .w (objName m.obj), .x x])

/-- Ends a micro-routine with the line that ends its reply; a paused one first tells the units of this part (R44). -/
def Node.endMr (n : Node) (p : Port) (kind : LineKind) (items : List Item) : Node :=
  match (n.port p).mr with
  | none => n
  | some m =>
    let n := n.setPort p { n.port p with mr := none }
    let lines := (if m.wasPaused then m.appliedLines.map (fun i => (LineKind.data, i)) else []) ++ [(kind, items)]
    n.send p m.tag lines true

/-- Ends a micro-routine with the error of the unit at its position (R43). -/
def Node.failMr (n : Node) (p : Port) (e : Err) : Node :=
  match (n.port p).mr with
  | none => n
  | some m => n.endMr p (.error e.code) (.w (errText e.code) :: e.detail ++ [.w "AT", .n m.pos])

/-! ### Watches and streams (R472) -/

/-- Sets up or, with OFF=1, ends the watches of a line; 32 watches to a port. -/
def Node.runWatch (n : Node) (l : Line) (o : Obj) (sub : String) (items : Except Err (List (Option Nat))) : Node :=
  n.runLine l false (fun n => do
    let is ← items
    onlyKeys ["OFF"] [] l.keys
    match l.key "OFF" with
    | some (.int 1) => pure ()
    | none => pure ()
    | some (.int _) => refuse 201
    | some _ => refuse 203
    let s := n.port l.port
    let ws : List Watch := is.map (fun i => ⟨o, sub, i⟩)
    let rest := s.watches.filter (fun w => !ws.contains w)
    if (l.key "OFF").isSome then pure (n.setPort l.port { s with watches := rest }, [])
    else if 32 < rest.length + ws.length then refuse 407
    else pure (n.setPort l.port { s with watches := rest ++ ws }, []))

/-- Sets up or, with RATE=0, ends the streams of a line; 8 streams to the node. `ok` judges the rate. -/
def Node.runStream (n : Node) (l : Line) (o : Obj) (items : Except Err (List (Option Nat))) (ok : Nat → Except Err Unit) :
    Node :=
  n.runLine l false (fun n => do
    let is ← items
    onlyKeys ["RATE"] ["RATE"] l.keys
    match l.key "RATE" with
    | some (.int r) =>
      if r < 0 then refuse 201
      let r := r.toNat
      if r != 0 then ok r
      let mine := fun (t : Stream) => t.port == l.port && t.obj == o && is.contains t.idx
      let rest := n.cmd.streams.filter (fun t => !mine t)
      if r = 0 then pure ({ n with cmd := { n.cmd with streams := rest } }, [])
      else if 8 < rest.length + is.length then refuse 406
      else
        let new : List Stream := is.map (fun i => ⟨l.port, o, i, r, 0⟩)
        pure ({ n with cmd := { n.cmd with streams := rest ++ new } }, [])
    | _ => refuse 203)

/-- The items of a line that may stand without an index: none names the object itself. -/
def Line.optItems (l : Line) (cap : Nat) : Except Err (List (Option Nat)) :=
  match l.idx with
  | none => .ok [none]
  | some _ => match l.items cap with
    | .ok is => .ok (is.map some)
    | .error e => .error e

/-- A meaning acts on the node and leaves the queue of commands as it is. -/
def State.lift (s : State) (f : Node → Node) : Host.Outcome State Fault Refusal := .next { s with node := f s.node }

end Sys2Proof.Machine
end

