-- ==== Sys2Proof/Machine/Grid.lean ====
section
/-! DEFINITION. Grid measurement: windows, reports and their flags, and the GRID commands and registers (chapter 6). -/
namespace Sys2Proof.Machine

/-- The helper order of Table 1-1 for the phasor engine. -/
def helpGrid : Nat := 3

/-! ### Rates, windows and weights (Tables 6-1 and 6-2) -/

/-- FS values of a NOMINAL code. -/
def fsRow (nominal : Nat) : List Nat := if nominal = 0 then [10, 25, 50, 100, 200] else [10, 12, 15, 20, 30, 60, 120]
def Node.gridFs (n : Node) : Nat := (fsRow (n.fd Fd.GRID_CTRL_NOMINAL)).getD (n.fd Fd.GRID_CTRL_FS) 10

/-- The window W in µs. -/
def gridW (nominal cls fsCode : Nat) : Nat :=
  if cls = 0 then (if nominal = 0 then 40000 else 33333)
  else if nominal = 0 then [280000, 120000, 80000, 60000, 40000].getD fsCode 40000
  else [283333, 233333, 183333, 133333, 100000, 66667, 33333].getD fsCode 33333
/-- Half the window in quarter-nanoseconds. -/
def Node.gridHalf (n : Node) : Nat :=
  gridW (n.fd Fd.GRID_CTRL_NOMINAL) (n.fd Fd.GRID_CTRL_CLASS) (n.fd Fd.GRID_CTRL_FS) * 2000

/-- The weight of a sample at an offset from t_k (R162): a triangle in P class; in M class the low-pass sin x / x of
cut-off 0.25 × FS under a Hamming window of length W (log entry 87). -/
def Node.gridWeight (n : Node) (d : Int) : Int :=
  if n.fd Fd.GRID_CTRL_CLASS = 0 then (n.gridHalf : Int) - d.natAbs
  else
    let hamming := 54 * fxOne / 100 + 46 * cosFx (180000000000 * d / (n.gridHalf : Int)) / 100
    sincFx (90 * (n.gridFs : Int) * d / 4) * hamming / fxOne

/-- A sample of a report: its offset from t_k, its weight as a fraction, and the codes of the inputs. -/
abbrev GridSample := Int × (Int × Nat) × List Int

/-- The samples of a window around an instant: offset from it, and the codes or none. -/
def Node.gridSamples (n : Node) (tk : Int) : List (Int × Option (List Int)) :=
  (n.grid.win.flatMap (fun b => (List.range 4).map (fun j =>
    (((b.at_ + 20000 * j : Nat) : Int) - tk, b.codes.map (fun c => c.getD j []))))).filter
    (fun p => p.1.natAbs ≤ n.gridHalf)

/-- The report instants of a beat: t_k = s + floor(k × 4·10^9 / FS) (R159). -/
def Node.gridInstant (n : Node) (a len : Nat) : Option (Nat × Nat) :=
  let fs := n.gridFs
  let s := a / qnsSec
  -- the first k of second s whose instant is not before a
  let k := ((a % qnsSec) * fs + qnsSec - 1) / qnsSec
  let tk := s * qnsSec + k * qnsSec / fs
  let (k, tk) := if a ≤ tk then (k, tk) else (k + 1, s * qnsSec + (k + 1) * qnsSec / fs)
  -- floor may put the instant of k - 1 inside the beat as well
  let tp := s * qnsSec + (k - 1) * qnsSec / fs
  if 0 < k && a ≤ tp && tp < a + len then some (tp, (k - 1) % fs)
  else if tk < a + len then some (tk, k % fs) else none

/-! ### One report (R158 to R164) -/

/-- The clip code of an input in a window. -/
def clipped (ss : List GridSample) (i : Nat) : Bool :=
  ss.any (fun p => p.2.2.getD i 0 == -131072 || p.2.2.getD i 0 == 131071)

def microF (z : Int) : Word := f32OfQ ⟨z, 1000000⟩

/-- The angle in (−180, 180] degrees. -/
def wrapDeg (z : Int) : Int :=
  let r := z % 360000000
  if 180000000 < r then r - 360000000 else r

/-- Magnitude and angle of an input in primary units: × RATIO, + 360° × f × DELAY (R158). -/
def Node.gridPhasor (n : Node) (i tk : Nat) (f : Option Int) (fq : Int) (ss : List GridSample) : Q × Int :=
  let v := Config.gridMag (n.rd Ad.GRID_CTRL) i f ss
  let a := Config.gridAng (n.rd Ad.GRID_CTRL) i (tk % qnsSec) f ss
  let d := signed 32 (n.fd (Fd.GRID_DELAY_DELAY i))
  (Q.mul ⟨v, 1000000⟩ (f32Q (n.rd (Ad.GRID_RATIO i))), wrapDeg (a + Q.round ⟨360 * fq * d, qnsSec⟩))

/-- A sequence component of three phasors A, B, C as a vector of 10^-12 units (R159): one third of A + aB + a²C for the
positive (1), of A + a²B + aC for the negative (2), of A + B + C for the zero sequence (0), with a = 1∠120°. -/
def seqVector (sq : Nat) (ph : List (Q × Int)) : Int × Int :=
  let turn : Int := if sq = 1 then 120000000000 else if sq = 2 then -120000000000 else 0
  let part (f : Int → Int) : Int := (ph.zipIdx.foldl (fun s x =>
    s + Q.round (Q.mul x.1.1 (q 1000000000000)) * f (1000 * x.1.2 + (x.2 : Int) * turn) / fxOne) 0) / 3
  (part cosFx, part sinFx)
/-- The magnitude of a sequence component. -/
def seqMag (sq : Nat) (ph : List (Q × Int)) : Word :=
  let v := seqVector sq ph
  f32OfQ ⟨(isqrt (v.1 * v.1 + v.2 * v.2).toNat 80 0 : Nat), 1000000000000⟩
/-- Its angle in degrees; none of a component that is 0. -/
def seqAng (sq : Nat) (ph : List (Q × Int)) : Word :=
  let v := seqVector sq ph
  if v = (0, 0) then Config.angOfZero sq else f32OfQ ⟨angleFx v.1 v.2, 1000000000⟩

/-- An input that is not in use reads NaN, and so does every sequence that includes it (Table 6-10, R179). -/
def Node.gridMask (n : Node) (on : List Nat) : Node :=
  let nan := fun (n : Node) (a : Nat) => (n.wr a f32NaN).wr (a + 4) f32NaN
  let n := ((List.range 8).filter (fun i => !on.contains i)).foldl (fun n i => nan n (Ad.GRID_MAG i)) n
  ([0, 1].filter (fun g => !([4 * g, 4 * g + 1, 4 * g + 2].all on.contains))).foldl (fun n g =>
    [0, 1, 2].foldl (fun n p => nan n (Ad.GRID_SEQ (6 * g + 2 * p))) n) n

/-- Limits of the tracking range in 10^-6 Hz (R161). -/
def Node.trackRange (n : Node) : Int × Int :=
  if n.fd Fd.GRID_CTRL_NOMINAL = 0 then (42500000, 57500000) else (51000000, 69000000)

/-- The quantities of a report written to the registers. -/
def Node.gridWrite (n : Node) (tk : Nat) (fq : Option (Int × Int)) (corr : Option Int) (used : Int) (ss : List GridSample) :
    Node :=
  let ph := fun (i : Nat) => n.gridPhasor i tk corr used ss
  let n := (List.range 8).foldl (fun m i => (m.wr (Ad.GRID_MAG i) (f32OfQ (ph i).1)).wr (Ad.GRID_ANG i) (microF (ph i).2)) n
  let n := [0, 1].foldl (fun m g =>
    let idx := [4 * g, 4 * g + 1, 4 * g + 2]
    [(1, 0), (2, 1), (0, 2)].foldl (fun m (sq, pos) =>
      let a := Ad.GRID_SEQ (6 * g + 2 * pos)
      (m.wr a (seqMag sq (idx.map ph))).wr (a + 4) (seqAng sq (idx.map ph))) m) n
  match fq with
  | some (f, r) => (n.wr Ad.GRID_FREQ (microF f)).wr Ad.GRID_ROCOF (microF r)
  | none => n

/-- The report's streams advance: each sends every (FS / rate)-th report, counted from the second's first (R173). -/
def Node.gridStreams (n : Node) (k : Nat) : Node :=
  { n with cmd := { n.cmd with streams := n.cmd.streams.map (fun t =>
      if t.obj == .grid && k % (n.gridFs / Nat.max t.rate 1) = 0 then { t with phase := n.gridFs } else t) } }
/-- What a report sets off, by its flags and those of the report before (R164, R177). -/
def Node.gridTold (n : Node) (old : Word) : Node :=
  let new := n.rd Ad.GRID_RFLAGS
  let n := if new = old then n else (n.setOn Fd.GRID_EVT_FLAGCHG true).ring 57
  let n := if new.getLsbD 3 = old.getLsbD 3 then n
    else
      let n := (n.setOn Fd.GRID_EVT_FREQRANGE true).ring 58
      n.raise 0x050 ((if new.getLsbD 3 then 1#8 else 0#8) :: bytesLE 4 (n.rd Ad.GRID_FREQ).toNat) 2 helpGrid
  let n := if n.on Fd.GRID_RFLAGS_INVALID then (n.setOn Fd.GRID_EVT_INVALID true).ring 59 else n
  if n.on Fd.GRID_CTRL_RDY then n.ring 56 else n

/-- The due report is computed and published (stage S2). -/
def Node.gridReport (n : Node) (d : GridDue) : Node :=
  let all := n.gridSamples ((d.tk : Int) + d.shift)
  let total := (all.map (fun p => n.gridWeight p.1)).sum
  let gone := ((all.filter (fun p => p.2.isNone)).map (fun p => n.gridWeight p.1)).sum
  let near := fun (t : Nat) => ((t : Int) - ((d.tk : Int) + d.shift)).natAbs ≤ n.gridHalf
  let step := d.broken || n.grid.steps.any near
  let invalid := step || total < 10 * gone
  let ss : List GridSample := all.filterMap (fun p => p.2.map (fun c => (p.1, (n.gridWeight p.1 * total, (total - gone).toNat), c)))
  let ctrl := n.rd Ad.GRID_CTRL
  let fref := n.fd Fd.GRID_CTRL_FREF
  let src := if fref = 4 then 8 else fref
  let clip := (List.range 8).filter (fun i => n.grid.on_.contains i && clipped ss i)
  let old := n.rd Ad.GRID_RFLAGS
  let f := Config.gridFreq ctrl src ss
  let (lo, hi) := n.trackRange
  let outR := f < lo || hi < f
  let low := Config.gridMag ctrl src none ss < 50000
  let fr := if f < lo then lo else if hi < f then hi else f
  let nom : Int := if n.fd Fd.GRID_CTRL_NOMINAL = 0 then 50000000 else 60000000
  let n := (if invalid then n
    else if low then n.gridWrite d.tk none none nom ss
    else n.gridWrite d.tk (some (fr, Config.gridRocof ctrl src ss)) (some fr) fr ss).gridMask n.grid.on_
  let n := { n with grid := { n.grid with repSec := d.tk / qnsSec % 2 ^ 48 } }
  let n := ((n.wr Ad.GRID_REPSEC (BitVec.ofNat 32 (d.tk / qnsSec))).wr Ad.GRID_REPQNS (BitVec.ofNat 32 (d.tk % qnsSec))).wr
    Ad.GRID_REPEST d.est
  let n := n.setFds [(Fd.GRID_RFLAGS_CLIPMASK, (clip.map (fun i => 2 ^ i)).sum), (Fd.GRID_RFLAGS_CLIP, if clip.isEmpty then 0 else 1),
    (Fd.GRID_RFLAGS_GAP, if !invalid && gone != 0 then 1 else 0), (Fd.GRID_RFLAGS_INVALID, if invalid then 1 else 0),
    (Fd.GRID_RFLAGS_STEP, if step then 1 else 0), (Fd.GRID_RFLAGS_TIMEQ, if d.locked then 0 else 1)]
  let n := if invalid then n
    else n.setFds [(Fd.GRID_RFLAGS_LOWSIG, if low then 1 else 0), (Fd.GRID_RFLAGS_FREQRANGE, if !low && outR then 1 else 0)]
  let n := n.setFd Fd.GRID_STAT_COUNT ((n.fd Fd.GRID_STAT_COUNT + 1) % 65536)
  { n with grid := { n.grid with frames := true } }.gridTold old |>.gridStreams d.k

/-! ### Stages -/

/-- Stage S0: the beat's sampling begins; ENABLE takes effect; the report instant of this beat keeps what TIME holds
(R157, R159, R164, R179). -/
def Node.gridS0 (n : Node) : Node :=
  let en := n.on Fd.GRID_CTRL_ENABLE
  let g := n.grid
  let n :=
    if g.run && !en then
      { n with grid := { g with run := false, win := [], due := [] } }.setOn Fd.GRID_RFLAGS_INVALID true
    else if !g.run && en then { n with grid := { g with run := true, since := n.tm.t0, win := [], due := [], steps := [] } }
    else n
  let n := { n with grid := { n.grid with on_ := (List.range 8).filter (fun i => n.on (Fd.GRID_INCFG_ON i)), frames := false } }
  if !n.grid.run then n.gridMask n.grid.on_
  else
    let due := match n.gridInstant n.tm.t0 (n.tm.t1 - n.tm.t0) with
      | some (tk, k) => n.grid.due ++ [{ tk := tk, k := k, locked := n.fd Fd.TIME_STATUS_STATE == 2, est := n.rd Ad.TIME_EST }]
      | none => n.grid.due
    { n with grid := { n.grid with due := due } }

/-- Folds in the samples of the beat before (R157); `none` when an overrun lost them. -/
def Node.gridFold (n : Node) (codes : Option (List (List Int))) : Node :=
  if !n.grid.run then { n with grid := { n.grid with s0at := n.tm.t0 } }
  else
    let keep := 2 * n.gridHalf + 240000
    let w := (⟨n.grid.s0at, codes⟩ :: n.grid.win).filter (fun b => n.grid.s0at ≤ b.at_ + keep && b.at_ ≤ n.grid.s0at)
    { n with grid := { n.grid with win := if n.grid.s0at < n.grid.since then [] else w, s0at := n.tm.t0 } }

/-- Stage S2: the report whose window ended in the beat before is published (R162). -/
def Node.gridS2 (n : Node) : Node :=
  match n.grid.win.head? with
  | none => n
  | some b =>
    let h : Int := n.gridHalf
    let ended := fun (d : GridDue) => (d.tk : Int) + d.shift + h < (b.at_ + 80000 : Nat)
    let ready := n.grid.due.filter ended
    let n := { n with grid := { n.grid with due := n.grid.due.filter (fun d => !ended d) } }
    ready.foldl (fun n d => if (n.grid.since : Int) + h ≤ (d.tk : Int) + d.shift then n.gridReport d else n) n

/-- A step of node time from `pre` to `post` (R75, R164, R181): what has been sampled keeps its place before the step on the
new scale, so that exactly the windows that hold the step are INVALID. -/
def Node.gridStep (n : Node) (pre post : Nat) : Node :=
  let by_ : Int := (post : Int) - (pre : Int)
  let mv := fun (t : Nat) => ((t : Int) + by_).toNat
  let h : Int := n.gridHalf
  let g := n.grid
  let due := (g.due.filter (fun d => d.tk < pre)).map (fun d =>
    { d with shift := d.shift + by_, broken := d.broken || ((pre : Int) ≤ (d.tk : Int) + d.shift + h) })
  { n with grid := { g with steps := post :: (g.steps.map mv).filter (fun t => post ≤ t + 2 * n.gridHalf), since := mv g.since,
                            win := g.win.map (fun b => { b with at_ := mv b.at_ }), due := due, s0at := mv g.s0at } }

/-- Every window restarts (R180). -/
def Node.gridRestart (n : Node) : Node := { n with grid := { n.grid with since := n.tm.t1, win := [], due := [] } }

/-- An alarm point treats grid quantity `q` as FAULT (Table 6-3). `q`: 0 to 7 MAGn, 8 to 15 ANGn, 16 to 27 the sequence
words in order, 28 FREQ, 29 ROCOF. -/
def Node.gridFault (n : Node) (q : Nat) : Bool :=
  let clip := fun (l : List Nat) => n.on Fd.GRID_RFLAGS_CLIP && l.any (fun i => (n.fd Fd.GRID_RFLAGS_CLIPMASK).testBit i)
  n.on Fd.GRID_RFLAGS_INVALID || n.on Fd.GRID_RFLAGS_STEP || n.on Fd.GRID_RFLAGS_FREQRANGE ||
  (if 28 ≤ q then n.on Fd.GRID_RFLAGS_LOWSIG
   else if q < 16 then clip [q % 8] else if q < 22 then clip [0, 1, 2] else clip [4, 5, 6])
/-- The register of a grid quantity. -/
def gridReg (q : Nat) : Nat :=
  if q < 8 then Ad.GRID_MAG q else if q < 16 then Ad.GRID_ANG (q - 8) else if q < 28 then Ad.GRID_SEQ (q - 16)
  else if q = 28 then Ad.GRID_FREQ else Ad.GRID_ROCOF

/-! ### Keys (Table 6-8) -/

/-- FS: any number has the form; whether Table 6-1 has it for the NOMINAL in force is a conflict of keys (R171). -/
def fsForm : Form := .int (-2147483648) 2147483647

def gridSpecs : List KeySpec := [
  ks "ENABLE" onOff (fun _ => Fd.GRID_CTRL_ENABLE),
  ks "NOMINAL" (.enum [("50", 0), ("60", 1)]) (fun _ => Fd.GRID_CTRL_NOMINAL),
  ks "CLASS" (.enum [("P", 0), ("M", 1)]) (fun _ => Fd.GRID_CTRL_CLASS),
  ks "FREF" (.enum [("V1", 4), ("GV0", 0), ("GV1", 1), ("GV2", 2), ("GV3", 3)]) (fun _ => Fd.GRID_CTRL_FREF),
  ks "FRAMES" (.enum [("NONE", 0), ("A", 1), ("B", 2), ("BOTH", 3)]) (fun _ => Fd.GRID_CTRL_FRAMES),
  ks "RDY" onOff (fun _ => Fd.GRID_CTRL_RDY)]
/-- The keys with FS, which is held as its place in the row of NOMINAL. -/
def gridSpecsFs : List KeySpec := gridSpecs ++ [kk "FS" fsForm (fun _ => 0)]

def gridInSpecs : List KeySpec := [
  ks "ON" onOff Fd.GRID_INCFG_ON,
  ks "RATIO" (.flt (qd 1 3) (q 1000000) []) Fd.GRID_RATIO_RATIO,
  ks "DELAY" (.fix (q (-100000)) (q 100000) (qd 25 2) (q 0)) Fd.GRID_DELAY_DELAY]

/-- The engine's settings with a line's keys; none when FS is not in the row of NOMINAL. -/
def Node.gridApply (n : Node) (keys : Keys) : Option Node :=
  let n' := n.setKeys gridSpecs 0 (keys.filter (fun p => p.1 != "FS"))
  let row := fsRow (n'.fd Fd.GRID_CTRL_NOMINAL)
  match keyNum gridSpecsFs keys "FS" with
  | some fs => match row.idxOf? fs with
    | some k => some (if k = n'.fd Fd.GRID_CTRL_FS then n' else (n'.setFd Fd.GRID_CTRL_FS k).dirty)
    | none => none
  | none =>
    if n'.fd Fd.GRID_CTRL_NOMINAL = n.fd Fd.GRID_CTRL_NOMINAL then some n'
    else some (n'.setFd Fd.GRID_CTRL_FS (if n'.fd Fd.GRID_CTRL_NOMINAL = 0 then 2 else 5))

/-- A change that R171 refuses while ENABLE is ON. -/
def gridLocked (old n : Node) : Bool :=
  old.on Fd.GRID_CTRL_ENABLE && (n.rd Ad.GRID_CTRL &&& 0x776#32) != (old.rd Ad.GRID_CTRL &&& 0x776#32)

def setGridUnit (keys : Keys) (i : Nat) (n : Node) : Except Err (Node × List (List Item)) := do
  checkKeys gridInSpecs [] keys
  pure (n.setKeys gridInSpecs i keys, [])

/-- FRAMES may name only ports that can carry a grid frame (R254). -/
def Node.framesOk (n : Node) (f : Nat) : Bool := [0, 1].all (fun p => !f.testBit p || n.fd (Fd.BUS_CTRL_GENMAX p) != 0)

def execSetGrid (l : Line) (s : State) : Host.Outcome State Fault Refusal :=
  s.lift fun n => match l.idx with
    | some _ => n.runMulti l verbSet .grid 8 (.set .grid l.keys) (fun _ _ => checkKeys gridInSpecs [] l.keys) (setGridUnit l.keys)
    | none => n.runWhole l .grid (fun n => do
          checkKeys gridSpecsFs [] l.keys
          match n.gridApply l.keys with
          | none => refuse 205
          | some n' =>
            if hasKey l.keys "FRAMES" && !n.framesOk (n'.fd Fd.GRID_CTRL_FRAMES) then refuse 205
            if gridLocked n n' then refuse 308)
        (fun n => match n.gridApply l.keys with
          | some n' => .ok (n', [])
          | none => refuse 205)

def gridFlagItems (w : Word) : List Item :=
  let l := (["GAP", "INVALID", "TIMEQ", "FREQRANGE", "LOWSIG", "CLIP", "STEP"].zipIdx).filter (fun p => w.getLsbD p.2)
  [listItem (l.map (·.1))]

def execGetGrid (l : Line) (s : State) : Host.Outcome State Fault Refusal :=
  s.lift fun n => n.runRead l (fun n => do
    l.bare
    onlyKeys [] [] l.keys
    if n.rd Ad.GRID_REPEST = 0xFFFFFFFF#32 && n.rd Ad.GRID_REPSEC = 0#32 && n.rd Ad.GRID_REPQNS = 0#32 then
      pure [[.w "GRID NOREPORT"]]
    else
      let sq := fun (k : Nat) => n.rd (Ad.GRID_SEQ k)
      pure ([[.w "GRID REP SEC", .n n.grid.repSec, .w "QNS", .n (n.rd Ad.GRID_REPQNS).toNat, .w "EST",
          .n (n.rd Ad.GRID_REPEST).toNat, .w "FLAGS"] ++ gridFlagItems (n.rd Ad.GRID_RFLAGS)] ++
        ((List.range 8).filter (fun i => n.on (Fd.GRID_INCFG_ON i))).map (fun i =>
          [.w "GRID", .n i, .w "MAG", .f (n.rd (Ad.GRID_MAG i)), .w "ANG", .f (n.rd (Ad.GRID_ANG i))]) ++
        [.w "GRID SEQ" :: (["V1", "V2", "V0", "I1", "I2", "I0"].zipIdx).flatMap (fun (w, k) =>
            [.w w, .f (sq (2 * k)), .f (sq (2 * k + 1))]),
         [.w "GRID FREQ", .f (n.rd Ad.GRID_FREQ), .w "ROCOF", .f (n.rd Ad.GRID_ROCOF)]]))

def execShowGrid (l : Line) (s : State) : Host.Outcome State Fault Refusal :=
  s.lift fun n => n.runRead l (fun n => do
    onlyKeys [] [] l.keys
    match l.idx with
    | some _ =>
      let is ← l.items 8
      pure (is.map (fun i => [.w "GRID", .n i] ++ n.showKeys gridInSpecs i))
    | none => pure ([[.w "GRID"] ++ n.showKeys gridSpecs 0 ++ [.w "FS", .n n.gridFs]] ++
        (List.range 8).map (fun i => [.w "GRID", .n i] ++ n.showKeys gridInSpecs i)))

/-- A !STREAM line of the grid or of input i, and the count at which it is due (R173). -/
def Node.gridStream (n : Node) (i : Option Nat) : List Item × Nat :=
  let head := [Item.w "SEC", .n n.grid.repSec, .w "QNS", .n (n.rd Ad.GRID_REPQNS).toNat]
  let tail := Item.w "FLAGS" :: gridFlagItems (n.rd Ad.GRID_RFLAGS)
  let g := fun (k : Nat) => Item.f (n.rd (Ad.GRID_SEQ k))
  (match i with
   | none => [.w "GRID"] ++ head ++ [.w "FREQ", .f (n.rd Ad.GRID_FREQ), .w "ROCOF", .f (n.rd Ad.GRID_ROCOF), .w "V1", g 0, g 1,
      .w "I1", g 6, g 7] ++ tail
   | some i => [.w "GRID", .n i] ++ head ++ [.w "MAG", .f (n.rd (Ad.GRID_MAG i)), .w "ANG", .f (n.rd (Ad.GRID_ANG i))] ++ tail,
   n.gridFs)

/-- STREAM GRID: r is a value of Table 6-1 that is at most FS and divides it (R173). -/
def execStreamGrid (l : Line) (s : State) : Host.Outcome State Fault Refusal :=
  s.lift fun n => n.runStream l .grid (l.optItems 8) (fun r =>
    if (fsRow 0 ++ fsRow 1).contains r && r ≤ n.gridFs && n.gridFs % r = 0 then .ok () else refuse 205)

/-- Settings of the grid that the store keeps. -/
def gridStored : List Nat := Ad.GRID_CTRL :: (List.range 8).flatMap (fun i => [Ad.GRID_RATIO i, Ad.GRID_DELAY i, Ad.GRID_INCFG i])

/-- Codes and values a register write may hold (R177). -/
def Node.gridRegOk (n : Node) : Bool :=
  n.fd Fd.GRID_CTRL_FREF ≤ 4 && n.fd Fd.GRID_CTRL_FS < (fsRow (n.fd Fd.GRID_CTRL_NOMINAL)).length &&
  (List.range 8).all (fun i => match f32Val (n.rd (Ad.GRID_RATIO i)) with
    | some x => Q.le (qd 1 3) x && Q.le x (q 1000000)
    | none => false) &&
  (List.range 8).all (fun i => (signed 32 (n.fd (Fd.GRID_DELAY_DELAY i))).natAbs ≤ 400000)
/-- A refused grid write (R177). -/
def Node.gridCfgErr (n : Node) : Node := (n.setOn Fd.GRID_EVT_CFGERR true).ring 60
/-- A register write that changes NOMINAL alone takes the new default FS, as its SET does (R171, R177). -/
def gridChanged (old n : Node) : Node :=
  if n.fd Fd.GRID_CTRL_NOMINAL ≠ old.fd Fd.GRID_CTRL_NOMINAL && n.fd Fd.GRID_CTRL_FS = old.fd Fd.GRID_CTRL_FS then
    n.setFd Fd.GRID_CTRL_FS (if n.fd Fd.GRID_CTRL_NOMINAL = 0 then 2 else 5) else n

/-- The unit of DO GRID REINIT (R180). -/
def Node.gridReinit (n : Node) : Node :=
  let n' := n.reloadRegs gridStored
  (if n'.gridRegOk then n' else (gridStored.foldl (fun n a => n.wr a (resetWord a)) n).gridCfgErr).gridRestart

def execDoGridReinit (l : Line) (s : State) : Host.Outcome State Fault Refusal :=
  s.lift fun n => n.runOpen l (fun n => do
    l.bare
    onlyKeys [] [] l.keys
    n.mayWrite l.port .grid none
    pure (n.startMr l verbDo .grid (.reinit .grid) [0] false))

/-- A read of GRID.REPSEC latches the report block (R177). -/
def Node.readRepSec (n : Node) (rq : Rq) : Node :=
  { (List.range 33).foldl (fun m k => m.setLat rq (Ad.GRID_REPQNS + 4 * k) (n.rd (Ad.GRID_REPQNS + 4 * k))) n with
    rdata := n.rd Ad.GRID_REPSEC }
def execGridRepsecRead (rq : Rq) (s : State) : Host.Outcome State Fault Refusal :=
  s.lift fun n => if n.awake then n.readRepSec rq else n

end Sys2Proof.Machine
end

