-- ==== Sys2Proof/Machine/Lo.lean ====
section
/-! DEFINITION. Loop outputs: levels and ramps, the check converter, headroom, conditions, actions, and the LO commands
and registers (chapter 5). -/
namespace Sys2Proof.Machine

def Node.loop (n : Node) (i : Nat) : LoCh := Bank.get {} n.lo.ch i
def Node.setLoop (n : Node) (i : Nat) (c : LoCh) : Node := { n with lo := { n.lo with ch := Bank.set {} n.lo.ch i c } }

/-- The helper order of Table 1-1 for the loop-output controller. -/
def helpLo : Nat := 6

/-- States of LO.STATn. -/
def loOff : Nat := 0
def loOn : Nat := 1
def loDraining : Nat := 2
def Node.loState (n : Node) (i : Nat) : Nat := n.fd (Fd.LO_STAT_STATE i)

/-! ### Flags, notices and records -/

/-- The flags of GET LO in the order of Table 5-7. -/
def Node.loFlagItems (n : Node) (i : Nat) : List Item :=
  let l := [(Fd.LO_STAT_SHORTFALL i, "SHORTFALL"), (Fd.LO_STAT_OPEN i, "OPEN"), (Fd.LO_STAT_DISAGREE i, "DISAGREE"),
    (Fd.LO_STAT_THERMAL i, "THERMAL"), (Fd.LO_STAT_UNVERIFIED i, "UNVERIFIED"), (Fd.LO_STAT_HELD i, "HELD"),
    (Fd.LO_STAT_ACTION i, "ACTION")].filter (fun p => n.on p.1)
  [listItem (l.map (·.2))]

/-- The bits of LO.STATn that a watch reports: state and flags. -/
def Node.loWatched (n : Node) (i : Nat) : Word := n.rd (Ad.LO_STAT i) &&& 0xEFC0#32

/-- A quantity of a check with the decimals of the transcript of R146; a register that no check has written holds no
number. -/
def checkItem (w : Word) (digits : Nat) : Item :=
  match f32Val w with
  | some x => .d (Q.round (Q.mul x (q (10 ^ digits)))) digits
  | none => .f w

/-- !WATCH LO at a change of flags or state (R147). -/
def Node.loNote (old n : Node) (i : Nat) : Node :=
  if old.loWatched i = n.loWatched i then n
  else n.notifyWatch .lo "" (some i) ([.w "LO", .n i, .w "FLAGS"] ++ n.loFlagItems i ++
    [.w "RB", checkItem (n.rd (Ad.LO_RB i)) 3, .w "PIN", checkItem (n.rd (Ad.LO_PIN i)) 3, .w "BEAT",
     .n (n.fd (Fd.LO_STAT_BEAT i))])

/-- The payload of a loop-output record (R135, Table 8-6). -/
def loPayload (ch cond : Nat) (set : Bool) (rb pin : Int) : List Byte :=
  [BitVec.ofNat 8 ch, BitVec.ofNat 8 cond, if set then 1#8 else 0#8] ++ bytesLE 4 (twos 32 rb) ++ bytesLE 4 (twos 32 pin)

/-- A condition of Table 5-2 sets or clears at a check: source 48 + n, its record, and its event bit when it sets. -/
def Node.loCond (n : Node) (i cond : Nat) (f : Fd) (set : Bool) (rb pin : Int) : Node :=
  if n.on f = set then n
  else
    let n := (n.setOn f set).ring (48 + i)
    let n := if set then n.setBit Ad.LO_EVT0 (8 * cond + i) else n
    n.raise (0x040 + cond) (loPayload i cond set rb pin) 5 helpLo

/-- FLOW of Table 5-3, and the limit of R139. -/
def loFlow : Q := qd 36 1

/-! ### Levels and ramps (R131, R132, R138 to R141) -/

/-- The DAC code of a level (R131). -/
def dacCode (x : Q) : Nat := Nat.min 65535 (Q.round (Q.div (Q.mul x (q 65536)) (q 24))).toNat

def sameQ (a b : Q) : Bool := Q.le a b && Q.le b a

/-- A ramp is in progress: it has not reached its level yet. -/
def LoCh.ramping (c : LoCh) : Bool := c.rate.num > 0 && !sameQ c.level c.goal

/-- Starts a ramp from the level in force; the first update is at stage S5 of the next beat. A ramp that replaces a held one
is held too, until the headroom has come back (R138). -/
def Node.loGo (n : Node) (i : Nat) (goal rate : Q) : Node :=
  let c := n.loop i
  let c := { c with from_ := c.level, goal := goal, rate := rate, start := n.tick }
  (n.setLoop i c).setOn (Fd.LO_STAT_HELD i) (n.on (Fd.LO_STAT_HELD i) && c.ramping)

/-- The level a ramp has reached at tick `t` (R132). -/
def LoCh.levelAt (c : LoCh) (t : Nat) : Q :=
  if c.rate.num ≤ 0 then c.goal
  else
    let d := Q.mul c.rate ⟨((t - c.start : Nat) : Int), 50000⟩
    if Q.le (Q.abs (Q.sub c.goal c.from_)) d then c.goal
    else Q.norm (if Q.lt c.from_ c.goal then Q.add c.from_ d else Q.sub c.from_ d)

/-- What leaves the stage: the DAC level, or the limit of R139. -/
def LoCh.drive (c : LoCh) : Q :=
  match c.limit with
  | some l => Q.min c.level l
  | none => c.level

/-- The drive of channel i at stage S5: the level its ramp has reached, and the limit's return after foldback. -/
def Node.loDrive (n : Node) (i : Nat) : Node :=
  let c := n.loop i
  if c.stage = 0 then n
  else
    let lv := if n.on (Fd.LO_STAT_HELD i) then c.level else c.levelAt n.tick
    let lim := match c.limit with
      | some l =>
        if c.fold then some l
        else
          let r := f32Q (n.rd (Ad.LO_RAMP i))
          if r.num ≤ 0 then none
          else
            let l' := Q.norm (Q.add l (Q.div r (q 50000)))
            if Q.le lv l' then none else some l'
      | none => none
    let n := n.setLoop i { c with level := lv, limit := lim }
    (n.setFd (Fd.LO_DAC_CODE i) (dacCode lv)).setOn (Fd.LO_STAT_RAMPING i) ({ c with level := lv } : LoCh).ramping

/-- R138: headroom below 1.0 V holds a ramp in progress; two consecutive checks of 1.0 V or more let it go on. -/
def Node.loHold (n : Node) (i : Nat) (head : Q) : Node :=
  let c := n.loop i
  let ok := Q.le (q 1) head
  let run := if ok then c.okRun + 1 else 0
  let n := n.setLoop i { c with okRun := run }
  if n.on (Fd.LO_STAT_HELD i) then
    if 2 ≤ run then
      (n.setLoop i { n.loop i with from_ := c.level, start := n.tick }).setOn (Fd.LO_STAT_HELD i) false
    else n
  else if !ok && c.ramping then
    n.setOn (Fd.LO_STAT_HELD i) true
  else n

/-! ### Headroom and checks (R133 to R137, R150) -/

/-- The highest target of a buck: the lower of 30.0 V and VSYS − 1.5 V (R134). -/
def Node.buckTop (n : Node) : Q := Q.min (q 30) (Q.sub ⟨(n.fd Fd.SYS_VSYS_MV : Nat), 1000⟩ (qd 15 1))
/-- The buck after a check: towards its target by at most 0.4 V (R134, R137, R150). -/
def Node.buckNext (n : Node) (i : Nat) (pin : Q) : Q :=
  let b := (n.loop i).buck
  let target := if n.on Fd.LO_CHK_FAILED then n.buckTop
    else if n.on (Fd.LO_STAT_OPEN i) then q 4
    else Q.clamp (q 4) n.buckTop (Q.add pin (q 2))
  if Q.lt b target then Q.norm (Q.min target (Q.add b (qd 4 1))) else Q.norm (Q.max target (Q.sub b (qd 4 1)))

/-- One count of consecutive checks. -/
def run1 (b : Bool) (k : Nat) : Nat := if b then k + 1 else 0

/-- The conditions of channel i at a check, in the order that their suspensions need (R135, R136). -/
def Node.loEval (n : Node) (i : Nat) (rb pin : Int) (head : Q) : Node :=
  let I : Q := ⟨rb, 1000⟩
  let n := n.loCond i 3 (Fd.LO_STAT_THERMAL i) (n.loop i).fold rb pin
  if n.on Fd.LO_CHK_FAILED then n
  else
    let c := n.loop i
    let opBad := Q.lt I (qd 5 1) && Q.le (q 1) c.s0
    let c := { c with opBad := run1 opBad c.opBad, opGood := run1 (!opBad) c.opGood }
    let n := n.setLoop i c
    let n := if 3 ≤ c.opBad then n.loCond i 1 (Fd.LO_STAT_OPEN i) true rb pin
      else if 3 ≤ c.opGood then n.loCond i 1 (Fd.LO_STAT_OPEN i) false rb pin else n
    if n.on (Fd.LO_STAT_OPEN i) then n
    else
      let c := { c with sfBad := run1 (Q.lt head (q 1)) c.sfBad, sfGood := run1 (Q.le (qd 15 1) head) c.sfGood }
      let n := n.setLoop i c
      let n := if 25 ≤ c.sfBad then n.loCond i 0 (Fd.LO_STAT_SHORTFALL i) true rb pin
        else if 5 ≤ c.sfGood then n.loCond i 0 (Fd.LO_STAT_SHORTFALL i) false rb pin else n
      if n.on (Fd.LO_STAT_SHORTFALL i) || Q.lt head (q 1) then n
      else
        let d := Q.lt ⟨48, 1000⟩ (Q.abs (Q.sub I c.s0))
        let c := { c with dsBad := run1 d c.dsBad, dsGood := run1 (!d) c.dsGood }
        let n := n.setLoop i c
        if 3 ≤ c.dsBad then n.loCond i 2 (Fd.LO_STAT_DISAGREE i) true rb pin
        else if 3 ≤ c.dsGood then n.loCond i 2 (Fd.LO_STAT_DISAGREE i) false rb pin else n

/-- The check of channel i at stage S5 of its beat position. -/
def Node.loCheck (n : Node) (i : Nat) (inp : LoIn) : Node :=
  let c := n.loop i
  if c.stage = 0 then n
  else
    let old := n
    let pin : Q := ⟨inp.pin, 1000⟩
    let head := if c.stage = 1 then Q.sub c.buck pin else pin
    let n := (n.wr (Ad.LO_RB i) (f32OfQ ⟨inp.rb, 1000⟩)).wr (Ad.LO_PIN i) (f32OfQ pin)
    let n := (n.wr (Ad.LO_SUP i) (if c.stage = 1 then f32OfQ c.buck else 0#32)).wr (Ad.LO_TEMP i) (f32OfQ ⟨inp.temp, 1000⟩)
    let n := n.setFd (Fd.LO_STAT_BEAT i) n.idx
    let n := (n.loEval i inp.rb inp.pin head).loHold i head
    let n := if c.stage = 1 then n.setLoop i { n.loop i with buck := n.buckNext i pin } else n
    (Node.loNote old n i).published .lo (some i)

/-- UNVERIFIED on or off on every channel, with the eight rings and one record (Table 5-2, R150). -/
def Node.loUnverified (n : Node) (set : Bool) : Node :=
  let n := (List.range 8).foldl (fun n i => Node.loNote n ((n.setOn (Fd.LO_STAT_UNVERIFIED i) set).ring (48 + i)) i) n
  let n := n.setOn Fd.LO_CHK_FAILED set
  let n := if set then n.setOn Fd.LO_EVT1_CHKFAIL true else n
  n.raise (if set then 0x044 else 0x045) (loPayload 0xFF 4 set 0 0) 5 helpLo

/-- The self-check at position 8 (R150). -/
def Node.loSelf (n : Node) (dev : Int) : Node :=
  let bad := 1000 < dev.natAbs
  let n := n.setFd Fd.LO_CHK_PASS (if bad then 0 else satAdd 65535 (n.fd Fd.LO_CHK_PASS) 1)
  let n := { n with lo := { n.lo with selfBad := run1 bad n.lo.selfBad, selfGood := run1 (!bad) n.lo.selfGood } }
  if !n.on Fd.LO_CHK_FAILED && 3 ≤ n.lo.selfBad then n.loUnverified true
  else if n.on Fd.LO_CHK_FAILED && 16 ≤ n.lo.selfGood then n.loUnverified false
  else n

/-- Stage S0: the level in force is the one the beat's check will compare against (R133); in foldback the limited one
(R139). -/
def Node.loS0 (n : Node) : Node :=
  let i := n.idx % 10
  if i < 8 then
    let c := n.loop i
    n.setLoop i { c with s0 := if c.fold then c.drive else c.level }
  else n

/-- Stage S5 of the loop-output controller: the check of the beat's position, then the drive of every output. -/
def Node.loS5 (n : Node) (inp : LoIn) : Node :=
  let p := n.idx % 10
  let n := if p < 8 then n.loCheck p inp else if p = 8 then n.loSelf inp.dev else n
  (List.range 8).foldl (fun n i => n.loDrive i) n

/-! ### Modes and actions (R130, R140, R142, R145, R151) -/

/-- The stage and the buck switch off. Foldback in force goes on limiting the stage (R139). -/
def Node.loStageOff (n : Node) (i : Nat) : Node :=
  let c := n.loop i
  let n := n.setLoop i { c with stage := 0, level := q 0, from_ := q 0, goal := q 0, rate := q 0, buck := q 0, limit := (if c.fold then some loFlow else none) }
  (n.setFd (Fd.LO_DAC_CODE i) 0).setFds [(Fd.LO_STAT_RAMPING i, 0), (Fd.LO_STAT_HELD i, 0)]

/-- The channel is ON in a mode and moves to OUT at a rate; a stage that already drives this wiring keeps its level. -/
def Node.loTurnOn (n : Node) (i m : Nat) (rate : Q) : Node :=
  let n := if (n.loop i).stage = m then n else
    let n := n.loStageOff i
    n.setLoop i { n.loop i with stage := m, buck := if m = 1 then q 4 else q 0 }
  let n := n.setFds [(Fd.LO_STAT_STATE i, loOn), (Fd.LO_STAT_ACTION i, 0)]
  let n := n.setLoop i { n.loop i with doneTold := true }
  n.loGo i (f32Q (n.rd (Ad.LO_OUT i))) rate

/-- MODE=OFF is a request (R151): the channel drains to its DISACT level at SRAMP. -/
def Node.loDrain (n : Node) (i former : Nat) : Node :=
  let goal := if n.on (Fd.LO_CFG_DISACT i) then q 0 else f32Q (n.rd (Ad.LO_SAFE i))
  let n := n.setFds [(Fd.LO_STAT_STATE i, loDraining), (Fd.LO_STAT_ACTION i, 1)]
  let n := n.setLoop i { n.loop i with former := former, doneTold := false }
  n.loGo i goal (f32Q (n.rd (Ad.LO_SRAMP i)))

/-- After a change of channel i's settings; `out` and `mode` say that the line or write named OUT or MODE (R140, R154). -/
def Node.loChanged (old n : Node) (i : Nat) (out mode : Bool) : Node :=
  let m := n.fd (Fd.LO_CFG_MODE i)
  let was := old.fd (Fd.LO_CFG_MODE i)
  let rate := f32Q (n.rd (Ad.LO_RAMP i))
  let n' :=
    if m = 0 then (if was = 0 then n else n.loDrain i was)
    else if was = 0 then n.loTurnOn i m rate
    else if n.loState i = loOn && (out || mode || n.rd (Ad.LO_OUT i) != old.rd (Ad.LO_OUT i)) then
      (n.setOn (Fd.LO_STAT_ACTION i) false).setLoop i { n.loop i with doneTold := true } |>.loGo i (f32Q (n.rd (Ad.LO_OUT i))) rate
    else n
  Node.loNote old n' i

/-- A change of MODE that R145 refuses: between SRC and SNK while the channel is not OFF. -/
def Node.loModeBad (old : Node) (i m : Nat) : Bool :=
  m != 0 && (match old.loState i with
    | 1 => old.fd (Fd.LO_CFG_MODE i) != m
    | 2 => (old.loop i).former != m
    | _ => false)

/-- Each output that is ON applies LOSSACT at SRAMP (R140). -/
def Node.loHostLoss (n : Node) : Node :=
  (List.range 8).foldl (fun n i =>
    if n.loState i != loOn then n
    else
      let old := n
      let c := n.loop i
      let n := n.setOn (Fd.LO_STAT_ACTION i) true
      let n := match n.fd (Fd.LO_CFG_LOSSACT i) with
        | 0 => (n.setLoop i { c with doneTold := true }).loGo i c.level (q 0)
        | 1 => (n.setLoop i { c with doneTold := false }).loGo i (f32Q (n.rd (Ad.LO_SAFE i))) (f32Q (n.rd (Ad.LO_SRAMP i)))
        | _ => (n.setLoop i { c with doneTold := false }).loGo i loFlow (f32Q (n.rd (Ad.LO_SRAMP i)))
      Node.loNote old n i) n

/-- Each driven output applies PFACT at PFRAMP, in at most 500 beats, which no hold delays, for no check is made any more
(R140, R141, R155, R414). -/
def Node.loPowerFail (n : Node) : Node :=
  (List.range 8).foldl (fun n i =>
    let c := n.loop i
    if c.stage = 0 then n
    else
      let goal := match n.fd (Fd.LO_CFG_PFACT i) with
        | 0 => c.level
        | 1 => f32Q (n.rd (Ad.LO_SAFE i))
        | 2 => loFlow
        | _ => q 0
      let d := Q.abs (Q.sub goal c.level)
      let r := f32Q (n.rd (Ad.LO_PFRAMP i))
      let rate := if r.num ≤ 0 then q 0 else if Q.lt (Q.mul r (qd 1 2)) d then Q.mul d (q 100) else r
      let n' := (n.setOn (Fd.LO_STAT_ACTION i) true).setLoop i { c with doneTold := n.fd (Fd.LO_CFG_PFACT i) == 0 }
      Node.loNote n ((n'.loGo i goal rate).setOn (Fd.LO_STAT_HELD i) false) i) n
/-- An output whose PFACT is ZERO switches its stage off once it has reached 0 mA (R140). -/
def Node.loZeroOff (n : Node) (i : Nat) : Node :=
  let c := n.loop i
  if c.stage != 0 && n.fd (Fd.LO_CFG_PFACT i) == 3 && sameQ c.level c.goal && sameQ c.goal (q 0) then n.loStageOff i else n
/-- Every driven output has reached its PFACT level (R417). -/
def Node.loParked (n : Node) : Bool :=
  (List.range 8).all (fun i => (n.loop i).stage == 0 || sameQ (n.loop i).level (n.loop i).goal)
/-- Every stage and buck switches off at the park (R141). -/
def Node.loPark (n : Node) : Node := (List.range 8).foldl (fun n i => n.loStageOff i) n

/-- Once the store has loaded, a channel whose MODE is SRC or SNK loads OUT with SAFE and drives it in one step (R142). -/
def Node.loRestart (n : Node) (i : Nat) : Node :=
  let n := (n.loStageOff i).setFds [(Fd.LO_STAT_STATE i, loOff), (Fd.LO_STAT_ACTION i, 0)]
  let m := n.fd (Fd.LO_CFG_MODE i)
  if m = 0 then n else (n.wr (Ad.LO_OUT i) (n.rd (Ad.LO_SAFE i))).loTurnOn i m (q 0)
def Node.loLoad (n : Node) : Node := (List.range 8).foldl (fun n i => n.loRestart i) n

/-- Step 8 of DORMANT entry: a ramp in progress freezes (R433). -/
def Node.loFreeze (n : Node) : Node :=
  (List.range 8).foldl (fun n i => let c := n.loop i
    if c.stage = 0 then n else n.setLoop i { c with from_ := c.level }) n
/-- The wake from DORMANT: a frozen ramp goes on as a new ramp, at RAMP towards OUT or at SRAMP towards an action level
(R433). -/
def Node.loThaw (n : Node) : Node :=
  (List.range 8).foldl (fun n i =>
    let c := n.loop i
    if c.stage = 0 || sameQ c.level c.goal then n
    else Node.loNote n (n.loGo i c.goal (f32Q (n.rd (if n.on (Fd.LO_STAT_ACTION i) then Ad.LO_SRAMP i else Ad.LO_RAMP i)))) i) n

/-! ### Events -/

/-- A stage reaches 150 °C (R139); the limit acts in hardware, also in DORMANT (R433). -/
def execThermalFoldback (i : Nat) (s : State) : Host.Outcome State Fault Refusal :=
  s.lift fun n =>
    if i < 8 then n.setLoop i { n.loop i with fold := true, limit := some loFlow } else n

/-- A stage falls to 130 °C: the output returns to the DAC level at RAMP, or in one step (R139). -/
def execThermalRelease (i : Nat) (s : State) : Host.Outcome State Fault Refusal :=
  s.lift fun n =>
    let c := n.loop i
    if i < 8 && c.fold then
      n.setLoop i { c with fold := false, limit := if (f32Q (n.rd (Ad.LO_RAMP i))).num ≤ 0 then none else c.limit }
    else n

/-- An action's or a disable's ramp has reached its level and is told once: ACTDONE and source 48 + n. -/
def Node.loTellDone (n : Node) (i : Nat) : Node :=
  let c := n.loop i
  if c.doneTold then n else ((n.setLoop i { c with doneTold := true }).setBit Ad.LO_EVT1 i).ring (48 + i)

def execLoActionEnd (i : Nat) (s : State) : Host.Outcome State Fault Refusal :=
  s.lift fun n =>
    let c := n.loop i
    if n.awake && i < 8 && !c.doneTold && sameQ c.level c.goal then n.loTellDone i else n

/-- A draining channel at its DISACT level becomes OFF (R151): ZERO switches the stage off, SAFE stays driven. -/
def execLoDrainComplete (i : Nat) (s : State) : Host.Outcome State Fault Refusal :=
  s.lift fun n =>
    let c := n.loop i
    if n.awake && i < 8 && n.loState i == loDraining && sameQ c.level c.goal then
      let old := n
      let n := (n.loTellDone i).setFd (Fd.LO_STAT_STATE i) loOff
      let n := if n.on (Fd.LO_CFG_DISACT i) then n.loStageOff i else n
      Node.loNote old n i
    else n

/-! ### Commands -/

def mALimit : Form := .flts (q 0) (q 24) (qd 1 3) 3
def rampForm : Form := .flt (q 0) (q 100000) []

/-- LO keys (Table 5-6). -/
def loSpecs : List KeySpec := [
  ks "MODE" (.enum [("OFF", 0), ("SRC", 1), ("SNK", 2)]) Fd.LO_CFG_MODE,
  ksv "OUT" mALimit Fd.LO_OUT_OUT, ks "RAMP" rampForm Fd.LO_RAMP_RAMP, ks "SAFE" mALimit Fd.LO_SAFE_SAFE,
  ks "SRAMP" rampForm Fd.LO_SRAMP_SRAMP, ks "PFRAMP" rampForm Fd.LO_PFRAMP_PFRAMP,
  ks "LOSSACT" (.enum [("HOLD", 0), ("SAFE", 1), ("FLOW", 2)]) Fd.LO_CFG_LOSSACT,
  ks "DISACT" (.enum [("SAFE", 0), ("ZERO", 1)]) Fd.LO_CFG_DISACT,
  ks "PFACT" (.enum [("HOLD", 0), ("SAFE", 1), ("FLOW", 2), ("ZERO", 3)]) Fd.LO_CFG_PFACT]

/-- The checks of SET LO (R145, R151). -/
def loCheckKeys (keys : Keys) (n : Node) (is : List Nat) : Except Err Unit := do
  checkKeys loSpecs [] keys
  if is.any (fun i => n.loState i == loDraining && keys.any (fun p => p.1 != "MODE")) then refuse 303
  match keyNum loSpecs keys "MODE" with
  | some m => if is.any (fun i => n.loModeBad i m) then refuse 308
  | none => pure ()

/-- One unit of SET LO. -/
def setLoUnit (keys : Keys) (i : Nat) (n : Node) : Except Err (Node × List (List Item)) := do
  loCheckKeys keys n [i]
  pure (Node.loChanged n (n.setKeys loSpecs i keys) i (hasKey keys "OUT") (hasKey keys "MODE"), [])

def execSetLo (l : Line) (s : State) : Host.Outcome State Fault Refusal :=
  s.lift fun n => n.runMulti l verbSet .lo 8 (.set .lo l.keys) (loCheckKeys l.keys) (setLoUnit l.keys)

/-- A !STREAM line of channel i, and its publications in a second (R147). -/
def Node.loStream (n : Node) (i : Nat) : List Item × Nat :=
  ([.w "LO", .n i, .w "RB", checkItem (n.rd (Ad.LO_RB i)) 3, .w "PIN", checkItem (n.rd (Ad.LO_PIN i)) 3, .w "FLAGS"] ++ n.loFlagItems i ++
    [.w "BEAT", .n (n.fd (Fd.LO_STAT_BEAT i))], 5000)

def execGetLo (l : Line) (s : State) : Host.Outcome State Fault Refusal :=
  s.lift fun n => n.runRead l (fun n => do
    let is ← l.items 8
    onlyKeys [] [] l.keys
    pure (is.map (fun i =>
      if n.loState i = loOff && (n.loop i).stage = 0 then [.w "LO", .n i, .w "OFF"]
      else
        let pin := f32Q (n.rd (Ad.LO_PIN i))
        let head := if (n.loop i).stage = 1 then Q.sub (f32Q (n.rd (Ad.LO_SUP i))) pin else pin
        [.w "LO", .n i, .w "OUT", checkItem (n.rd (Ad.LO_OUT i)) 3, .w "RB", checkItem (n.rd (Ad.LO_RB i)) 3,
         .w "PIN", checkItem (n.rd (Ad.LO_PIN i)) 3, .w "SUP", checkItem (n.rd (Ad.LO_SUP i)) 1, .w "HEAD",
         (if f32IsNaN (n.rd (Ad.LO_PIN i)) then .f f32NaN else .d (Q.round (Q.mul head (q 10))) 1),
         .w "TEMP", checkItem (n.rd (Ad.LO_TEMP i)) 1, .w "FLAGS"] ++ n.loFlagItems i ++
        [.w "STATE", .w (match n.loState i with
           | 0 => "OFF" | 1 => "ON" | _ => "DRAINING"),
         .w "BEAT", .n (n.fd (Fd.LO_STAT_BEAT i))])))

def execShowLo (l : Line) (s : State) : Host.Outcome State Fault Refusal :=
  s.lift fun n => n.runRead l (fun n => do
    let is ← l.items 8
    onlyKeys [] [] l.keys
    pure (is.map (fun i => [.w "LO", .n i] ++ n.showKeys loSpecs i)))

def execShowLoCheck (l : Line) (s : State) : Host.Outcome State Fault Refusal :=
  s.lift fun n => n.runRead l (fun n => do
    l.bare
    onlyKeys [] [] l.keys
    pure [[.w "LO CHECK", .w (if n.on Fd.LO_CHK_FAILED then "FAILED" else "OK"), .w "PASS", .n (n.fd Fd.LO_CHK_PASS)]])

def execWatchLo (l : Line) (s : State) : Host.Outcome State Fault Refusal :=
  s.lift fun n => n.runWatch l .lo "" ((l.items 8).map (·.map some))

def execStreamLo (l : Line) (s : State) : Host.Outcome State Fault Refusal :=
  s.lift fun n => n.runStream l .lo ((l.items 8).map (·.map some)) (fun r => if r ≤ 5000 then .ok () else refuse 201)

/-- CLEAR LO (R147). -/
def clearLoUnit (i : Nat) (n : Node) : Except Err (Node × List (List Item)) :=
  .ok ([i, 8 + i, 16 + i, 24 + i].foldl (fun n b => n.clrBit Ad.LO_EVT0 b) (n.clrBit Ad.LO_EVT1 i), [])

def execClearLo (l : Line) (s : State) : Host.Outcome State Fault Refusal :=
  s.lift fun n => n.runMulti l verbClear .lo 8 (.clear .lo) (fun _ _ => onlyKeys [] [] l.keys) clearLoUnit

/-- Codes and ranges a register write to channel i may hold (R148). -/
def Node.loRegOk (old n : Node) (i : Nat) : Bool :=
  let fl := fun (a : Nat) (hi : Q) => match f32Val (n.rd a) with
    | some x => Q.le (q 0) x && Q.le x hi
    | none => false
  n.fd (Fd.LO_CFG_MODE i) ≤ 2 && n.fd (Fd.LO_CFG_LOSSACT i) ≤ 2 && fl (Ad.LO_OUT i) (q 24) && fl (Ad.LO_SAFE i) (q 24) &&
  fl (Ad.LO_RAMP i) (q 100000) && fl (Ad.LO_SRAMP i) (q 100000) && fl (Ad.LO_PFRAMP i) (q 100000) &&
  (n.fd (Fd.LO_CFG_MODE i) == old.fd (Fd.LO_CFG_MODE i) || !old.loModeBad i (n.fd (Fd.LO_CFG_MODE i)))
/-- A refused write to LOn's registers (R148). -/
def Node.loCfgErr (n : Node) (i : Nat) : Node := (n.setOn Fd.LO_EVT1_CFGERR true).ring (48 + i)

/-- One unit of DO LO REINIT; unit 8 restarts the self-check count (R152). -/
def Node.loReinit (n : Node) (i : Nat) : Node :=
  if i = 8 then { n with lo := { n.lo with selfBad := 0, selfGood := 0 } }.setFd Fd.LO_CHK_PASS 0
  else
    let old := n
    let n' := n.reload loSpecs i
    let n' := if Node.loRegOk n' n' i then n' else
      ([Ad.LO_CFG i, Ad.LO_SAFE i, Ad.LO_RAMP i, Ad.LO_SRAMP i, Ad.LO_PFRAMP i].foldl
        (fun n a => n.wr a (resetWord a)) n).loCfgErr i
    let n' := n'.setFds [(Fd.LO_STAT_SHORTFALL i, 0), (Fd.LO_STAT_OPEN i, 0), (Fd.LO_STAT_DISAGREE i, 0),
      (Fd.LO_STAT_THERMAL i, 0), (Fd.LO_STAT_UNVERIFIED i, 0)]
    let c := n'.loop i
    let n' := n'.setLoop i { c with sfBad := 0, sfGood := 0, opBad := 0, opGood := 0, dsBad := 0, dsGood := 0 }
    let n' := if n'.fd (Fd.LO_CFG_MODE i) = old.fd (Fd.LO_CFG_MODE i) then n' else n'.loRestart i
    let cleared := (old.rd (Ad.LO_STAT i) &&& 0x7C0#32) != 0#32
    Node.loNote old (if cleared then n'.ring (48 + i) else n') i

def execDoLoReinit (l : Line) (s : State) : Host.Outcome State Fault Refusal :=
  s.lift fun n => n.runOpen l (fun n => do
    let is ← match l.idx with
      | some _ => l.items 8
      | none => .ok (List.range 9)
    onlyKeys [] [] l.keys
    n.mayWrite l.port .lo l.idx
    pure (n.startMr l verbDo .lo (.reinit .lo) is true))

/-- A read of LO.RBn latches its companions (R149). -/
def Node.readLoRb (n : Node) (rq : Rq) (i : Nat) : Node :=
  { [Ad.LO_PIN i, Ad.LO_SUP i, Ad.LO_TEMP i, Ad.LO_STAT i].foldl (fun m a => m.setLat rq a (n.rd a)) n with
    rdata := n.rd (Ad.LO_RB i) }
def execLoRbRead (rq : Rq) (i : Nat) (s : State) : Host.Outcome State Fault Refusal :=
  s.lift fun n => if n.awake && i < 8 then n.readLoRb rq i else n

end Sys2Proof.Machine
end

