-- ==== Sys2Proof/Machine/Uc.lean ====
section
/-! DEFINITION. Universal channels: placement, conversions, values and flags, outputs, quad migration, and the UC
commands and registers (chapter 4). -/
namespace Sys2Proof.Machine

def Node.chan (n : Node) (i : Nat) : Chan := Bank.get {} n.uc.ch i
def Node.setChan (n : Node) (i : Nat) (c : Chan) : Node := { n with uc := { n.uc with ch := Bank.set {} n.uc.ch i c } }
def Node.quad (n : Node) (k : Nat) : QuadSt := Bank.get {} n.uc.quads k
def Node.setQuad (n : Node) (k : Nat) (x : QuadSt) : Node := { n with uc := { n.uc with quads := Bank.set {} n.uc.quads k x } }

/-- The helper order of Table 1-1 for the sequencer. -/
def helpUc : Nat := 2

/-! ### Modes (Table 4-1) -/

def mVI10 : Nat := 1
def mVI2 : Nat := 2
def mII20 : Nat := 3
def mRT2 : Nat := 4
def mRT3 : Nat := 5
def mRT4 : Nat := 6
def mTC : Nat := 7
def mDI : Nat := 8
def mVO10 : Nat := 9
def mIO20 : Nat := 10

def isRt (m : Nat) : Bool := 4 ≤ m && m ≤ 6
def isScaled (m : Nat) : Bool := 1 ≤ m && m ≤ 3
def isOut (m : Nat) : Bool := m == 9 || m == 10
/-- Modes with conversions of an input. -/
def isConv (m : Nat) : Bool := 1 ≤ m && m ≤ 7
def hasOw (m : Nat) : Bool := m == 1 || m == 2 || isRt m || m == 7

/-- Streams of a mode (R96). -/
def streamsOf (m : Nat) : Nat := if m = 5 ∨ m = 6 then 2 else if isConv m || isOut m then 1 else 0

/-- Samples a second of a RATE code (Table 4-3). -/
def rateOf (c : Nat) : Nat :=
  match c with
  | 0 => 10 | 1 => 50 | 2 => 100 | 3 => 500 | 4 => 1000 | _ => 5000

/-- The effective rate: readbacks run at 100 S/s; in QUIET no input channel runs above 10 S/s (R96, R123). -/
def Node.effRate (n : Node) (i : Nat) : Nat :=
  if isOut (n.chan i).mode then 100
  else
    let r := rateOf (n.chan i).rate
    if n.sys.power = .quiet then Nat.min r 10 else r
/-- The window P, in beats (R95). -/
def Node.window (n : Node) (i : Nat) : Nat := 50000 / n.effRate i
/-- The length of a chunk of raw conversions: windows and rejection windows are whole numbers of chunks. -/
def Node.chunk (n : Node) (i : Nat) : Nat := Nat.min (n.window i) 500
/-- The averaging length L (R100). -/
def Node.avgLen (n : Node) (i : Nat) : Nat :=
  let p := n.window i
  if isOut (n.chan i).mode then p
  else match (n.chan i).rej with
    | 1 => Nat.max p 1000
    | 2 => Nat.max p 2500
    | 3 => Nat.max p 5000
    | _ => p

/-! ### Units and placement (R96 to R98) -/

/-- Units of a channel by mode and RATE code (R98). -/
def unitsOf (mode rate : Nat) : Nat :=
  if isConv mode then streamsOf mode * (if 3 ≤ rate then 2 else 1) else if isOut mode then 1 else 0
/-- The mode whose stream a channel holds by its settings: a DRAINING output keeps its readback stream (R98, R124). -/
def Node.modeHeld (n : Node) (i : Nat) : Nat :=
  if (n.chan i).drain && n.fd (Fd.UC_CFG_MODE i) == 0 then (n.chan i).mode else n.fd (Fd.UC_CFG_MODE i)
/-- Units of quad k by the settings. -/
def Node.load (n : Node) (k : Nat) : Nat :=
  ((List.range 4).map (fun j => unitsOf (n.modeHeld (4 * k + j)) (n.fd (Fd.UC_CFG_RATE (4 * k + j))))).sum

/-- The streams of quad k with stride 5 (`fast`) or 10, in ascending channel order. -/
def Node.streams (n : Node) (k : Nat) (fast : Bool) : List (Nat × Nat) :=
  (List.range 4).flatMap (fun j =>
    let i := 4 * k + j
    let m := (n.chan i).mode
    if (500 ≤ n.effRate i) = fast then (List.range (streamsOf m)).map (fun s => (i, s)) else [])

/-- The stream that owns each position of quad k: stride-5 streams take lanes, stride-10 streams the free positions that
remain, each the lowest (R96). -/
def Node.placement (n : Node) (k : Nat) : List (Nat × Nat × Nat) :=
  let f := (n.streams k true).zipIdx.flatMap (fun ((i, s), lane) => [(lane, i, s), (lane + 5, i, s)])
  let free := (List.range 10).filter (fun p => !f.any (fun x => x.1 == p))
  f ++ ((n.streams k false).zip free).map (fun ((i, s), p) => (p, i, s))
def Node.owner (n : Node) (k p : Nat) : Option (Nat × Nat) :=
  ((n.placement k).find? (fun x => x.1 == p)).map (·.2)
/-- A quad carries at least one stream. -/
def Node.carries (n : Node) (k : Nat) : Bool := (List.range 4).any (fun j => streamsOf (n.chan (4 * k + j)).mode != 0)

/-! ### Flags (Table 4-4) -/

def fSTALE : Nat := 15
def fFAULT : Nat := 14
def fOPEN : Nat := 13
def fOVER : Nat := 12
def fUNDER : Nat := 11
def fOUTHI : Nat := 10
def fOUTLO : Nat := 9
def fCJ : Nat := 8
def fQX : Nat := 7
def fSF : Nat := 6
def fVF : Nat := 5

/-- A flag word with FAULT set exactly when a flag marked "yes" is (R107). -/
def withFault (w : Word) : Word := if w &&& 0x3F60#32 = 0#32 then w &&& 0xBFFF#32 else (w ||| 0x4000#32) &&& 0xFFFF#32
/-- One flag set or cleared. -/
def putFlag (w : Word) (b : Nat) (v : Bool) : Word := if v then w ||| (1#32 <<< b) else w &&& ~~~(1#32 <<< b)

def flagNames : List (Nat × String) := [(15, "STALE"), (14, "FAULT"), (13, "OPEN"), (12, "OVER"), (11, "UNDER"),
  (10, "OUTHI"), (9, "OUTLO"), (8, "CJFAULT"), (7, "QX"), (6, "SFAULT"), (5, "VFAULT")]
/-- The list of a channel's flags, or NONE. -/
def flagItems (w : Word) : List Item :=
  [listItem ((flagNames.filter (fun p => w.getLsbD p.1)).map (·.2))]

/-- Gives a channel its flags: a change sets FLAGCHG, rings the channel's source and is told to watchers (R120,
Table 4-8). -/
def Node.putFlags (n : Node) (i : Nat) (w : Word) : Node :=
  let w := withFault w
  let c := n.chan i
  if w = c.flags then n
  else
    let c := { c with flags := w, staleTick := if w.getLsbD fSTALE && !c.flags.getLsbD fSTALE then n.tick else c.staleTick }
    let n := (n.setChan i c).setBit Ad.UC_FLAGCHG i
    (n.ring (16 + i)).notifyWatch .uc "" (some i)
      ([.w "UC", .n i, .w "FLAGS"] ++ flagItems w ++ [.w "VAL", .f (n.rd (Ad.UC_VAL i)), .w "BEAT", .n c.stamp])

/-! ### From conversion to value (R101 to R104) -/

/-- Hardware limits of a mode and sensor, in its unit (Tables 4-1 and 4-2). -/
def hwLimits (m sensor : Nat) : Q × Q :=
  if m = 1 then (qd (-105) 1, qd 105 1)
  else if m = 2 then (qd (-26) 1, qd 26 1)
  else if m = 3 then (qd (-5) 1, q 25)
  else if m = 7 then (q (-80), q 80)
  else (q 0, match sensor with
    | 0 => q 400 | 1 => q 2000 | 2 => q 4000 | 3 => q 400 | _ => q 4000)

/-- Temperature range of a thermocouple type, °C. -/
def tcRange (t : Nat) : Q × Q :=
  match t with
  | 0 => (q (-210), q 1200) | 1 => (q (-270), q 1372) | 2 => (q (-270), q 1300) | 3 => (q (-270), q 400)
  | 4 => (q (-270), q 1000) | 5 => (q (-50), q 1768) | 6 => (q (-50), q 1768) | _ => (q 0, q 1820)

/-- The points of custom table t. -/
def ctabOhm (t i : Nat) : Nat := 0x40040800 + 0x100 * t + 8 * i
def ctabDeg (t i : Nat) : Nat := 0x40040804 + 0x100 * t + 8 * i
def Node.npt (n : Node) (t : Nat) : Nat := (⟨Ad.UC_CTNPT, 8 * t + 5, 8 * t⟩ : Fd).get (n.rd Ad.UC_CTNPT)
def Node.points (n : Node) (t : Nat) : List (Q × Q) :=
  (List.range (n.npt t)).map (fun i => (f32Q (n.rd (ctabOhm t i)), f32Q (n.rd (ctabDeg t i))))
/-- Strictly ascending in OHM, with at least 2 points. -/
def ascending : List (Q × Q) → Bool
  | (a, _) :: (b, y) :: t => Q.lt a b && (t.isEmpty || ascending ((b, y) :: t))
  | _ => false

/-- Linear interpolation between the points of a custom table (R102). -/
def interp (x : Q) : List (Q × Q) → Q
  | (a, u) :: (b, v) :: t =>
    if Q.le x b || t.isEmpty then Q.add u (Q.div (Q.mul (Q.sub x a) (Q.sub v u)) (Q.sub b a)) else interp x ((b, v) :: t)
  | [(_, u)] => u
  | [] => q 0

/-- A value clamped between limits, with OVER and UNDER. -/
def clampFlags (lo hi x : Q) : Q × Bool × Bool :=
  if Q.lt hi x then (hi, true, false) else if Q.lt x lo then (lo, false, true) else (x, false, false)

/-- A number of 10^-6 units. -/
def micro (z : Int) : Q := ⟨z, 1000000⟩
/-- A number as a count of 10^-6 units. -/
def toMicro (x : Q) : Int := Q.round (Q.mul x (q 1000000))

/-- The cold-junction temperature of channel i, and CJFAULT (R103); none: the other channel has no value since its own
settings changed, and a sum with it is no number (log entry 86). -/
def Node.coldJunction (n : Node) (i : Nat) : Option Q × Bool :=
  match n.fd (Fd.UC_OPT_CJSRC i) with
  | 0 => (some (f32Q (n.rd Ad.UC_CJTEMP)), false)
  | 1 =>
    let j := n.fd (Fd.UC_OPT_CJCH i)
    let c := n.chan j
    let bad := c.flags.getLsbD fFAULT || !isRt c.mode || (c.flags.getLsbD fSTALE && c.staleTick + 500000 ≤ n.tick)
    if bad then (some (n.chan i).cjLast, true) else (f32Val (n.rd (Ad.UC_VAL j)), false)
  | _ => (some (f32Q (n.rd (Ad.UC_CJFIX i))), false)

/-- What a publication computes: the value (none: no number), the physical quantity, OVER, UNDER, CJFAULT and the cold
junction used. -/
structure Reading where
  val : Option Q
  phys : Q
  hi : Bool
  lo : Bool
  cjf : Bool
  cj : Option Q

/-- Channel i's value from the mean physical quantity, in the order of R101. -/
def Node.reading (n : Node) (i : Nat) (mean : Q) : Reading :=
  let m := (n.chan i).mode
  let sensor := (n.chan i).sensor
  let (lo, hi) := hwLimits m sensor
  let (x, ov, un) := clampFlags lo hi mean
  if isScaled m then
    let pl := f32Q (n.rd (Ad.UC_PLO i))
    let ph := f32Q (n.rd (Ad.UC_PHI i))
    let el := f32Q (n.rd (Ad.UC_ELO i))
    let eh := f32Q (n.rd (Ad.UC_EHI i))
    ⟨some (Q.add el (Q.div (Q.mul (Q.sub x pl) (Q.sub eh el)) (Q.sub ph pl))), x, ov, un, false, none⟩
  else if isRt m then
    let r := if m = 4 then Q.sub x (f32Q (n.chan i).lead) else x
    if 4 ≤ sensor then
      let ps := n.points (sensor - 4)
      let first := (ps.head?.map (·.1)).getD (q 0)
      let last := (ps.getLast?.map (·.1)).getD (q 0)
      let (r, ov2, un2) := clampFlags first last r
      ⟨some (interp r ps), x, ov || ov2, un || un2, false, none⟩
    else ⟨some (micro (Config.rtdDegC sensor (toMicro r))), x, ov, un, false, none⟩
  else if m = 7 then
    match n.coldJunction i with
    | (none, cjf) => ⟨none, x, ov, un, cjf, none⟩
    | (some cj, cjf) =>
      let e := toMicro x + Config.tcVolt sensor (toMicro cj)
      let (tl, th) := tcRange sensor
      let (t, ov2, un2) := clampFlags tl th (micro (Config.tcDegC sensor e))
      ⟨some t, x, ov || ov2, un || un2, cjf, some cj⟩
  else ⟨some x, x, false, false, false, none⟩

/-! ### Raw conversions -/

/-- Sum and count of stream s in a list. -/
def sumAt (l : List (Int × Nat)) (s : Nat) : Int × Nat := l.getD s (0, 0)
/-- Adds a raw conversion to stream s (0 or 1). -/
def addSum (l : List (Int × Nat)) (s : Nat) (v : Int) : List (Int × Nat) :=
  let a := sumAt l 0
  let b := sumAt l 1
  if s = 0 then [(a.1 + v, a.2 + 1), b] else [a, (b.1 + v, b.2 + 1)]

/-- An open-wire test is judged (R105): OPEN sets after 2 failed and clears after 2 passed tests in a row. -/
def Node.owTest (n : Node) (i : Nat) (failed : Bool) : Node :=
  let c := n.chan i
  let c := { c with owFail := if failed then c.owFail + 1 else 0, owPass := if failed then 0 else c.owPass + 1 }
  let n := n.setChan i c
  if 2 ≤ c.owFail then n.putFlags i (putFlag c.flags fOPEN true)
  else if 2 ≤ c.owPass then n.putFlags i (putFlag c.flags fOPEN false)
  else n

/-- A raw conversion of a stream is delivered. -/
def Node.rawIn (n : Node) (i s : Nat) (pulse : Bool) (v : Int) (excLow : List Nat) : Node :=
  let c := n.chan i
  if pulse then
    let failed := if isRt c.mode then excLow.contains i
      else
        let d := (v - (Bank.get none c.last s).getD v).natAbs
        if c.mode = 7 then 50000000 < d else 50000 < d
    n.setChan i { c with owDue := some failed }
  else
    n.setChan i { c with sums := addSum c.sums s v, last := Bank.set none c.last s (some v),
                         over1 := c.over1 || (c.mode == 3 && 1000000 ≤ v) }

/-- A chunk ends at the boundary: kept when it was whole; at most 10 are kept. At a window boundary the window ends with
it; the first one after a step only begins the next window (R75). -/
def Node.chunkEnd (n : Node) (i : Nat) : Node :=
  let c := n.chan i
  let ends := n.idx % n.window i == 0
  let ks := if c.whole && !c.skip then (c.sums :: c.chunks).take 10 else c.chunks
  let c' := { c with chunks := ks, sums := [], whole := ends || !c.skip, skip := c.skip && !ends,
                     winCh := if ends then 0 else c.winCh + 1 }
  n.setChan i (if ends then { c' with overWin := c.over1, over1 := false, muteAt := if c.skip then n.tick + 1 else c.muteAt }
    else c')

/-- Discards the window in progress and everything it would average (R110, R114, R123). -/
def Node.dropWindow (n : Node) (i : Nat) : Node :=
  let c := n.chan i
  if c.chunks.isEmpty && c.sums.isEmpty && !c.whole then n
  else n.setChan i { c with chunks := [], sums := [], whole := false, over1 := false }
/-- Discards only the window in progress: what ran before it stays, and the next window begins at its boundary (R75). -/
def Node.breakWindow (n : Node) (i : Nat) : Node :=
  let c := n.chan i
  n.setChan i { c with chunks := c.chunks.drop c.winCh, sums := [], whole := false, winCh := 0, skip := true, over1 := false }

/-- The mean over the averaging length, when it has been converted in full (R99, R100). RT3 subtracts the lead its
second stream measures; RT4 averages the two directions (log entry 23). -/
def Node.meanOf (n : Node) (i : Nat) : Option Q :=
  let c := n.chan i
  let k := n.avgLen i / n.chunk i
  if c.chunks.length < k then none
  else
    let tot := fun s => (c.chunks.take k).foldl (fun (a : Int × Nat) l => (a.1 + (sumAt l s).1, a.2 + (sumAt l s).2)) (0, 0)
    let mean := fun s => (⟨(tot s).1, (tot s).2 * 1000000⟩ : Q)
    if (tot 0).2 = 0 then none
    else if c.mode = 5 then (if (tot 1).2 = 0 then none else some (Q.sub (mean 0) (mean 1)))
    else if c.mode = 6 then (if (tot 1).2 = 0 then none else some (Q.div (Q.add (mean 0) (mean 1)) (q 2)))
    else some (mean 0)

/-! ### Publication (stage S3) -/

/-- The converter serving a quad's channels: QX when the quad is MIGRATED. -/
def qFd (k : Nat) : Fd := ⟨Ad.UC_QSTAT, 2 * k + 1, 2 * k⟩
def Node.migrated (n : Node) (k : Nat) : Bool := n.fd (qFd k) == 1
def Node.noReserve (n : Node) (k : Nat) : Bool := n.fd (qFd k) == 2

/-- Source 40 rings at most once a beat for a channel with RDY=ON. -/
def Node.rdyRing (n : Node) (i : Nat) : Node :=
  if n.on (Fd.UC_OPT_RDY i) && !n.uc.rdyRung then { n.ring 40 with uc := { n.uc with rdyRung := true } } else n

/-- Channel i publishes: value, physical quantity, flags and beat stamp change together (R18). -/
def Node.publish (n : Node) (i : Nat) (val phys : Word) (flags : Word) : Node :=
  let n := (n.wr (Ad.UC_VAL i) val).wr (Ad.UC_PHYS i) phys
  let n := n.setChan i { n.chan i with stamp := n.idx, since := n.tick }
  let n := n.putFlags i (putFlag (putFlag flags fSTALE false) fQX (n.migrated (i / 4) && streamsOf (n.chan i).mode != 0))
  (n.rdyRing i).published .uc (some i)

/-- A readback against the DAC level (R111): VFAULT after 3 disagreements, clear after 3 agreements; source 45. -/
def Node.verify (n : Node) (i : Nat) (rb : Q) (flags : Word) : Word × Node :=
  let c := n.chan i
  let fs := if c.mode = 10 then q 24 else q 10
  let bad := Q.lt (Q.mul fs (qd 2 3)) (Q.abs (Q.sub rb c.level)) ||
    (c.mode == 10 && Q.lt rb (qd 5 1) && Q.le (q 1) c.level)
  let c := { c with vbad := if bad then c.vbad + 1 else 0, vgood := if bad then 0 else c.vgood + 1 }
  let n := n.setChan i c
  let was := flags.getLsbD fVF
  if 3 ≤ c.vbad then (putFlag flags fVF true, if was then n else n.ring 45)
  else if 3 ≤ c.vgood then (putFlag flags fVF false, n)
  else (flags, n)

/-- The window of channel i ends with this beat (R95): its result is published (R101 to R105). -/
def Node.publishInput (n : Node) (i : Nat) (mean : Q) : Node :=
  let c := n.chan i
  let r := n.reading i mean
  let v := match r.val with
    | some x => f32OfQ x
    | none => f32NaN
  let ne := c.mode == 3 && n.on (Fd.UC_OPT_NE43 i)
  let hi := f32Lt (n.rd (Ad.UC_RHI i)) v || (ne && Q.lt (q 21) r.phys)
  let lo := f32Lt v (n.rd (Ad.UC_RLO i)) || (ne && Q.lt r.phys (qd 36 1))
  let w := putFlag (putFlag (putFlag (putFlag (putFlag c.flags fOVER r.hi) fUNDER r.lo) fOUTHI hi) fOUTLO lo) fCJ r.cjf
  let w := if c.mode = 3 then putFlag w fOPEN (n.on (Fd.UC_OPT_LOOPPWR i) && !c.overWin) else w
  let n := n.setChan i { c with cjLast := if r.cjf then c.cjLast else r.cj.getD c.cjLast }
  n.publish i v (f32OfQ r.phys) w

/-- The flags of channel i that stage S3 sets beside those of a result: SFAULT in a quad without reserve (R127), and OPEN
after the open-wire test of the beat (R105). -/
def Node.flagsS3 (n : Node) (i : Nat) : Node :=
  let c := n.chan i
  let n := n.putFlags i (putFlag c.flags fSF (n.noReserve (i / 4) && isConv c.mode))
  match c.owDue with
  | some failed => (n.setChan i { n.chan i with owDue := none }).owTest i failed
  | none => n
/-- One channel at stage S3. -/
def Node.chanS3 (n : Node) (i : Nat) : Node :=
  let n := n.flagsS3 i
  let n := if (n.chan i).staleDue then
      let n := n.setChan i { n.chan i with staleDue := false }
      n.putFlags i (putFlag (n.chan i).flags fSTALE true)
    else n
  let c := n.chan i
  if c.mode = 8 then
    let v := if c.di then 0x3F800000#32 else 0#32
    n.publish i v v (c.flags &&& 0#32)
  else if streamsOf c.mode = 0 || n.noReserve (i / 4) || n.idx % n.window i ≠ 0 || c.muteAt = n.tick + 1 then n
  else match n.meanOf i with
    | none => n
    | some x =>
      if isOut c.mode then
        let (w, n) := n.verify i x c.flags
        n.publish i (f32OfQ x) (f32OfQ x) w
      else n.publishInput i x

/-- The channels the sequencer keeps anything for. -/
def Node.liveChans (n : Node) : List Nat := n.uc.ch.map (·.1)

/-- Stage S3 of the sequencer. -/
def Node.ucS3 (n : Node) : Node := n.liveChans.foldl (fun n i => n.chanS3 i) n

/-! ### Quad failure (R113, R114, R127, R128) -/

/-- Running micro-routines are paused by higher-priority work of the node core (R44). -/
def Node.pauseMrs (n : Node) (bySurvey : Bool) : Node :=
  allPorts.foldl (fun n p =>
    match (n.port p).mr with
    | some m =>
      if m.paused then n
      else
        let n := n.setPort p { n.port p with mr := some { m with paused := true, wasPaused := true, pauseSurvey := bySurvey,
                                                                  since := m.pos } }
        let lines := m.appliedLines.map (fun i => (LineKind.data, i))
        n.send p m.tag (lines ++ [(.partialAt m.pos, [])]) true
    | none => n) n

/-- NORESERVE (R127): input channels publish nothing, and set SFAULT at stage S3. -/
def Node.setNoReserve (n : Node) (k : Nat) : Node :=
  (List.range 4).foldl (fun n j => n.dropWindow (4 * k + j)) (n.setFd (qFd k) 2)

def quadName (k : Nat) : String := if k = 6 then "QX" else "Q" ++ toString k

/-- The payload of QUAD-FAILED (Table 8-6). -/
def quadPayload (k cause : Nat) (noRes : Bool) (dev : Int) : List Byte :=
  [BitVec.ofNat 8 k, BitVec.ofNat 8 (cause + (if noRes then 128 else 0))] ++ bytesLE 4 (twos 32 dev)

/-- A migration begins; one of the same quad that was under way ends. -/
def Node.putMig (n : Node) (m : Mig) : Node :=
  { n with uc := { n.uc with migs := n.uc.migs.filter (fun (g : Mig) => g.quad != m.quad) ++ [m] } }
/-- Quad k is marked FAILED in this beat. With QX idle its streams stop and migration begins; otherwise it has no
reserve. -/
def Node.failQuad (n : Node) (k cause : Nat) (dev : Int) : Node :=
  let n := n.setQuad k { pass := 0, cause := some cause, dev := dev }
  let n := n.setBit Ad.UC_QEVT k
  if n.fd Fd.UC_QSTAT_QX = 0 then
    let n := n.setFds [(Fd.UC_QSTAT_QX, 1), (Fd.UC_QSTAT_QXFOR, k)]
    let n := n.putMig ⟨k, n.tick, false⟩
    let n := (List.range 4).foldl (fun n j =>
      let i := 4 * k + j
      if streamsOf (n.chan i).mode = 0 then n
      else
        let n := n.dropWindow i
        n.setChan i { n.chan i with staleDue := true }) n
    (n.raise 0x030 (quadPayload k cause false dev) 0 helpUc).pauseMrs false
  else
    let n := n.setNoReserve k
    let n := (n.raise 0x030 (quadPayload k cause true dev) 0 helpUc).ring 44
    n.notify .quad [.w "QUAD", .w (quadName k), .w "FAILED NORESERVE"]

/-- QX fails (R128): the quad it served has no reserve. -/
def Node.failQx (n : Node) (dev : Int) : Node :=
  let served := n.fd Fd.UC_QSTAT_QXFOR
  let n := n.setQuad 6 { pass := 0, cause := some 0, dev := dev }
  let n := (n.setBit Ad.UC_QEVT 6).setFds [(Fd.UC_QSTAT_QX, 2), (Fd.UC_QSTAT_QXFOR, 7)]
  let n := n.raise 0x033 ([BitVec.ofNat 8 (if served = 7 then 0xFF else served)] ++ bytesLE 4 (twos 32 dev)) 0 helpUc
  let n := ((n.ring 41).ring 44).notify .quad [.w "QUAD QX FAILED"]
  let n := { n with uc := { n.uc with migs := n.uc.migs.filter Mig.restore } }
  if served = 7 then n
  else
    let c := (n.quad served).cause.getD 0
    let n := n.setNoReserve served
    let n := n.raise 0x030 (quadPayload served c true dev) 0 helpUc
    n.notify .quad [.w "QUAD", .w (quadName served), .w "FAILED NORESERVE"]

/-- One converter's result of the beat before is evaluated (R113). A raw conversion that QX has not delivered discards the
window it belongs to (R114); its quad is FAILED already (log entry 86). -/
def Node.convIn (n : Node) (inp : S0In) (k : Nat) : Node :=
  match Bank.get Task.idle n.uc.tasks k, (inp.conv.find? (fun p => p.1 == k)).map (·.2) with
  | .idle, _ => n
  | .spare, some _ => n
  | .spare, none => if k = 6 || (n.quad k).cause.isSome || !n.carries k then n else n.failQuad k 1 0
  | .check, some d =>
    let x := n.quad k
    if d.natAbs ≤ 2500 then n.setQuad k { x with pass := Nat.min (x.pass + 1) 65535 }
    else if k = 6 then (if n.fd Fd.UC_QSTAT_QX = 2 then n.setQuad k { x with pass := 0 } else n.failQx d)
    else if x.cause.isSome || !n.carries k then n.setQuad k { x with pass := 0 }
    else n.failQuad k 0 d
  | .check, none =>
    let x := n.quad k
    if k = 6 || x.cause.isSome || !n.carries k then n.setQuad k { x with pass := 0 } else n.failQuad k 1 0
  | .raw i s p, some v => n.rawIn i s p v inp.excLow
  | .raw i _ _, none => if k = 6 then n.dropWindow i else if (n.quad k).cause.isSome then n else n.failQuad k 1 0

/-! ### Stage S0 -/

/-- A beat in which every converter converts its check reference (R99, Table 15-1). -/
def Node.checkBeat (n : Node) : Bool := n.idx % 1000 == 0 || n.tick < n.uc.checkTill

/-- What a stream converts in this beat: once per OWPER, counted from second 0, a pulse conversion (R99, log entry 22). -/
def Node.streamTask (n : Node) (i s : Nat) : Node × Task :=
  let c := n.chan i
  let per := n.fd (Fd.UC_OPT_OWPER i) * 5000
  let k := (n.tm.t0 / 80000) / Nat.max per 1 + 1
  if hasOw c.mode && n.on (Fd.UC_OPT_OW i) && Bank.get 0 c.owNext s != k then
    (n.setChan i { c with owNext := Bank.set 0 c.owNext s k }, .raw i s true)
  else (n, .raw i s false)

/-- The quad QX converts for in this beat: from beat f + 2 on. -/
def Node.qxQuad (n : Node) : Option Nat :=
  let k := n.fd Fd.UC_QSTAT_QXFOR
  if n.fd Fd.UC_QSTAT_QX = 1 && !n.uc.migs.any (fun g => g.quad == k && (g.restore || n.tick < g.f + 2)) then some k else none

/-- Converter k starts its conversion of this beat (R17, R95). -/
def Node.startConv (n : Node) (k : Nat) : Node :=
  let pos := n.idx % 10
  let own : Option (Nat × Nat) :=
    if k = 6 then (match n.qxQuad with
      | some q => n.owner q pos
      | none => none)
    else if (n.quad k).cause.isSome || n.uc.migs.any (fun g => g.quad == k) then none
    else n.owner k pos
  let put := fun (n : Node) (t : Task) => { n with uc := { n.uc with tasks := Bank.set Task.idle n.uc.tasks k t } }
  if n.checkBeat then put n .check
  else match own with
    | some (i, s) => let (n, t) := n.streamTask i s
                     put n t
    | none => put n .spare

/-- One beat of an output's ramp towards its level: RAMP units a second (R111). -/
def rampStep (level goal ramp : Q) : Q :=
  if ramp.num ≤ 0 then goal
  else
    let d := Q.div ramp (q 50000)
    if Q.le (Q.abs (Q.sub goal level)) d then goal
    else Q.norm (if Q.lt level goal then Q.add level d else Q.sub level d)

/-- The outputs at stage S0: towards OUT, or towards the level of an action (R111, R112). -/
def Node.rampOut (n : Node) (i : Nat) : Node :=
  let c := n.chan i
  if !isOut c.mode then n
  else
    let goal := match c.goal with
      | some g => g
      | none => if c.drain then c.level else f32Q (n.rd (Ad.UC_OUT i))
    n.setChan i { c with level := rampStep c.level goal (if c.drain then c.rampOff else f32Q (n.rd (Ad.UC_RAMP i))) }

/-- Changed settings take effect (R110, R124): the window is discarded, value and PHYS are NaN, STALE sets. -/
def Node.restartChan (n : Node) (i : Nat) : Node :=
  let c := n.chan i
  if !c.restart then n
  else
    let m := n.fd (Fd.UC_CFG_MODE i)
    if m = 0 && isOut c.mode then n.setChan i { c with restart := false }
    else
      let keep := isOut m && isOut c.mode
      let c' : Chan := { mode := m, rate := n.fd (Fd.UC_CFG_RATE i), rej := n.fd (Fd.UC_CFG_REJ i),
                         sensor := n.fd (Fd.UC_CFG_SENSOR i), lead := n.rd (Ad.UC_LEAD i), staleTick := c.staleTick,
                         cjLast := c.cjLast, level := if keep then c.level else q 0, since := n.tick, stamp := c.stamp,
                         flags := if m = 0 then 0#32 else c.flags &&& 0x8000#32 }
      let n := (n.wr (Ad.UC_VAL i) f32NaN).wr (Ad.UC_PHYS i) f32NaN
      let n := n.setChan i { c' with flags := c.flags }
      n.putFlags i (if m = 0 then 0#32
        else putFlag (if n.noReserve (i / 4) && isConv m then 0x40#32 else 0#32) fSTALE true)

/-- A DI channel samples its comparator (R106). -/
def Node.sampleDi (n : Node) (high : List Nat) (i : Nat) : Node :=
  let c := n.chan i
  if c.mode ≠ 8 then n
  else
    let v := high.contains i
    n.setChan i { c with diIn := v, diCnt := if v = c.di then 0 else if v = c.diIn then c.diCnt + 1 else 1 }

/-- Stage S0 of the sequencer (R17, R113). -/
def Node.ucS0 (n : Node) (inp : S0In) : Node :=
  let n := { n with uc := { n.uc with rdyRung := false } }
  let n := n.wr Ad.UC_CJTEMP (f32OfQ (micro inp.cj))
  let n := (List.range 7).foldl (fun n k => n.convIn inp k) n
  let n := match n.uc.forced with
    | some k => { n with uc := { n.uc with forced := none } }.failQuad k 2 0
    | none => n
  let live := n.liveChans
  let n := if n.tm.watchStep then live.foldl (fun n i => n.breakWindow i) n else n
  let n := live.foldl (fun n i => n.restartChan i) n
  let n := n.liveChans.foldl (fun n i =>
    let c := n.chan i
    let n := if streamsOf c.mode ≠ 0 && n.idx % n.chunk i = 0 then n.chunkEnd i else n
    (n.rampOut i).sampleDi inp.high i) n
  (List.range 7).foldl (fun n k => n.startConv k) n

/-! ### Keys (Table 4-5) -/

def enumOf (l : List String) : Form := .enum (l.zipIdx)
def modeWords : List String := ["OFF", "VI10", "VI2", "II20", "RT2", "RT3", "RT4", "TC", "DI", "VO10", "IO20"]
def rtWords : List String := ["PT100", "PT500", "PT1000", "NI120", "CT0", "CT1", "CT2", "CT3"]
def tcWords : List String := ["J", "K", "N", "T", "E", "R", "S", "B"]
def holdSafe : Form := .enum [("HOLD", 0), ("SAFE", 1)]
def engLo : Q := q (-1000000)
def engHi : Q := q 1000000

/-- The keys with the forms they take in a mode. -/
def ucSpecs (m : Nat) : List KeySpec :=
  let (pl, ph) := if isScaled m then hwLimits m 0 else (engLo, engHi)
  let top := if m = 10 then q 24 else q 10
  [ks "MODE" (enumOf modeWords) Fd.UC_CFG_MODE,
   ks "RATE" (.enum [("10", 0), ("50", 1), ("100", 2), ("500", 3), ("1000", 4), ("5000", 5)]) Fd.UC_CFG_RATE,
   ks "REJ" (.enum [("NONE", 0), ("50", 1), ("60", 2), ("BOTH", 3)]) Fd.UC_CFG_REJ,
   ks "SENSOR" (if m = 7 then enumOf tcWords else if m = 8 then enumOf ["TYPE1", "TYPE3"] else enumOf rtWords)
     Fd.UC_CFG_SENSOR,
   ks "LEAD" (.flts (q 0) (q 50) (qd 1 3) 0) Fd.UC_LEAD_LEAD,
   ks "CJ" (.enum ([("ONCHIP", 0), ("FIXED", 64)] ++ (List.range 24).map (fun j => ("UC" ++ toString j, 32 + j))))
     (fun i => ⟨Ad.UC_OPT i, 31, 25⟩),
   ks "CJFIX" (.flt (q (-50)) (q 150) []) Fd.UC_CJFIX_CJFIX,
   ks "LOOPPWR" onOff Fd.UC_OPT_LOOPPWR, ks "NE43" onOff Fd.UC_OPT_NE43,
   ks "PLO" (.flt pl ph []) Fd.UC_PLO_PLO, ks "PHI" (.flt pl ph []) Fd.UC_PHI_PHI,
   ks "ELO" (.flt engLo engHi []) Fd.UC_ELO_ELO, ks "EHI" (.flt engLo engHi []) Fd.UC_EHI_EHI,
   ks "RLO" (.flt engLo engHi [("NONE", 0x7FC00000)]) Fd.UC_RLO_RLO,
   ks "RHI" (.flt engLo engHi [("NONE", 0x7FC00000)]) Fd.UC_RHI_RHI,
   ks "OW" onOff Fd.UC_OPT_OW, ks "OWPER" (.fix (qd 1 1) (q 60) (qd 1 1) (q 0)) Fd.UC_OPT_OWPER,
   ks "DEB" (.int 0 1000) Fd.UC_OPT_DEB,
   ks "OUT" (.flt (q 0) top []) Fd.UC_OUT_OUT, ks "SAFE" (.flt (q 0) top []) Fd.UC_SAFE_SAFE,
   ks "RAMP" (.flt (q 0) (q 100000) []) Fd.UC_RAMP_RAMP,
   ks "LOSSACT" holdSafe Fd.UC_CFG_LOSSACT, ks "DISACT" holdSafe Fd.UC_CFG_DISACT, ks "PFACT" holdSafe Fd.UC_CFG_PFACT,
   ks "RDY" onOff Fd.UC_OPT_RDY]

/-- The modes to which a key applies (Table 4-5). -/
def keyFits (k : String) (m : Nat) : Bool :=
  if k = "MODE" ∨ k = "RDY" then true
  else if k = "RATE" ∨ k = "REJ" ∨ k = "RLO" ∨ k = "RHI" then isConv m
  else if k = "SENSOR" then isRt m || m == 7 || m == 8
  else if k = "LEAD" then m == 4
  else if k = "CJ" ∨ k = "CJFIX" then m == 7
  else if k = "LOOPPWR" ∨ k = "NE43" then m == 3
  else if k = "PLO" ∨ k = "PHI" ∨ k = "ELO" ∨ k = "EHI" then isScaled m
  else if k = "OW" ∨ k = "OWPER" then hasOw m
  else if k = "DEB" then m == 8
  else isOut m

/-- The mode a line leaves channel i with; a DRAINING output still has the mode it drains from. -/
def Node.modeAfter (n : Node) (keys : Keys) (i : Nat) : Nat :=
  match keyNum (ucSpecs 0) keys "MODE" with
  | some m => m
  | none => n.modeHeld i

/-- The mode defaults of Table 4-5 (R110): every other setting of the channel at the value it takes in the mode. -/
def Node.modeDefaults (n : Node) (i m : Nat) : Node :=
  let n := [Ad.UC_OPT i, Ad.UC_PLO i, Ad.UC_PHI i, Ad.UC_ELO i, Ad.UC_EHI i, Ad.UC_RLO i, Ad.UC_RHI i, Ad.UC_CJFIX i,
    Ad.UC_LEAD i, Ad.UC_OUT i, Ad.UC_SAFE i, Ad.UC_RAMP i].foldl (fun n a => n.wr a (resetWord a)) n
  let n := n.wr (Ad.UC_CFG i) ((Fd.UC_CFG_MODE i).put ((Fd.UC_CFG_SENSOR i).put (resetWord (Ad.UC_CFG i)) (if m = 7 then 1 else 0)) m)
  let pr : Option (Q × Q) := if m = 1 then some (q (-10), q 10) else if m = 2 then some (qd (-25) 1, qd 25 1)
    else if m = 3 then some (q 4, q 20) else none
  match pr with
  | some (a, b) => (((n.wr (Ad.UC_PLO i) (f32OfQ a)).wr (Ad.UC_PHI i) (f32OfQ b)).wr (Ad.UC_ELO i) (f32OfQ a)).wr
      (Ad.UC_EHI i) (f32OfQ b)
  | none => n

/-- Channel i with a line's keys applied: a change of MODE first loads the mode's defaults, of which ELO and EHI are
PLO and PHI. -/
def Node.ucApply (n : Node) (keys : Keys) (i : Nat) : Node :=
  let m := n.modeAfter keys i
  let new := m != n.fd (Fd.UC_CFG_MODE i)
  let n := if new then (n.modeDefaults i m).dirty else n
  let n := n.setKeys (ucSpecs m) i keys
  let follow := fun (n : Node) (a b : String) (x y : Nat) =>
    if new && hasKey keys a && !hasKey keys b then n.wr y (n.rd x) else n
  follow (follow n "PLO" "ELO" (Ad.UC_PLO i) (Ad.UC_ELO i)) "PHI" "EHI" (Ad.UC_PHI i) (Ad.UC_EHI i)

/-- A quantity lies within limits. -/
def within (lo hi : Q) (w : Word) : Bool :=
  match f32Val w with
  | some x => Q.le lo x && Q.le x hi
  | none => false
def nanOr (lo hi : Q) (w : Word) : Bool := f32IsNaN w || within lo hi w

/-- The combinations of a channel's settings that a SET refuses with `?E205` (R100, R115). -/
def Node.combos (n : Node) (i : Nat) : Bool :=
  let m := n.fd (Fd.UC_CFG_MODE i)
  (n.fd (Fd.UC_CFG_REJ i) == 0 || n.fd (Fd.UC_CFG_RATE i) ≤ 2 || !isConv m) &&
  (!isScaled m || n.rd (Ad.UC_PLO i) != n.rd (Ad.UC_PHI i)) &&
  (!isConv m || f32IsNaN (n.rd (Ad.UC_RLO i)) || f32IsNaN (n.rd (Ad.UC_RHI i)) ||
    f32Lt (n.rd (Ad.UC_RLO i)) (n.rd (Ad.UC_RHI i))) &&
  !(m == 7 && n.fd (Fd.UC_OPT_CJSRC i) == 1 && n.fd (Fd.UC_OPT_CJCH i) == i)

/-- A channel uses custom table t. -/
def Node.usesTable (n : Node) (i t : Nat) : Bool :=
  isRt (n.fd (Fd.UC_CFG_MODE i)) && n.fd (Fd.UC_CFG_SENSOR i) == 4 + t

/-- The first quad that would carry more than 10 units (R98). -/
def Node.overload (n : Node) : Option Nat := (List.range 6).find? (fun k => 10 < n.load k)

/-- The code of a value that its key refuses in a mode; of a key that does not apply there only the form counts. -/
def ucValErr (x : String × Val) (m : Nat) : Option Nat :=
  match valErr (ucSpecs m) [x] with
  | some c => if keyFits x.1 m || c = 203 then some c else none
  | none => none

/-- The checks of SET UC (R115, R124, R127; steps 10 to 12 of R470). -/
def ucCheck (keys : Keys) (n : Node) (is : List Nat) : Except Err Unit := do
  match stepTen (fun k => (specOf (ucSpecs 0) k).isSome) [] keys with
    | some c => refuse c
    | none => .ok ()
  match keys.findSome? (fun x => is.findSome? (fun i => ucValErr x (n.modeAfter keys i))) with
    | some c => refuse c
    | none => .ok ()
  if is.any (fun i => keys.any (fun (k, _) => !keyFits k (n.modeAfter keys i))) then refuse 205
  let n' := is.foldl (fun n i => n.ucApply keys i) n
  if is.any (fun i => !n'.combos i) then refuse 205
  match n'.overload with
  | some k => if n'.load k ≤ n.load k then pure () else .error ⟨205, [.w "LOAD", .w (quadName k), .n (n'.load k)]⟩
  | none => pure ()
  if is.any (fun i => (List.range 4).any (fun t => hasKey keys "SENSOR" && n'.usesTable i t && !ascending (n'.points t))) then
    refuse 206
  let onlyOff := keyNum (ucSpecs 0) keys "MODE" == some 0
  if is.any (fun i => (n.chan i).drain && keys.any (fun (k, _) => k != "MODE")) then refuse 303
  if is.any (fun i => n.noReserve (i / 4) && !onlyOff) then refuse 502

/-- After a change of channel i's settings (R110, R112, R124): a change of MODE, RATE, REJ, SENSOR or LEAD restarts it at
the next stage S0; MODE=OFF on an output applies DISACT first. A setting of OUT ends a host-loss action. -/
def Node.ucChanged (old n : Node) (i : Nat) : Node :=
  let c := n.chan i
  let f := fun (x : Fd) => n.fd x != old.fd x
  let n := n.setFd ⟨Ad.UC_RDYMASK, i, i⟩ (n.fd (Fd.UC_OPT_RDY i))
  let c' := if f (Fd.UC_CFG_MODE i) || f (Fd.UC_CFG_RATE i) || f (Fd.UC_CFG_REJ i) || f (Fd.UC_CFG_SENSOR i) ||
      n.rd (Ad.UC_LEAD i) != old.rd (Ad.UC_LEAD i) then
      if n.fd (Fd.UC_CFG_MODE i) = 0 && isOut c.mode then
        { c with drain := true, rampOff := f32Q (old.rd (Ad.UC_RAMP i)),
                 goal := if old.on (Fd.UC_CFG_DISACT i) then some (f32Q (old.rd (Ad.UC_SAFE i))) else none }
      else { c with restart := true, drain := false, goal := none }
    else c
  let c' := if n.rd (Ad.UC_OUT i) != old.rd (Ad.UC_OUT i) && !c'.drain then { c' with goal := none } else c'
  if c' = c then n else n.setChan i c'

/-- One unit of SET UC. -/
def setUcUnit (keys : Keys) (i : Nat) (n : Node) : Except Err (Node × List (List Item)) := do
  ucCheck keys n [i]
  let n' := n.ucApply keys i
  let n' := if hasKey keys "OUT" then n'.setChan i { n'.chan i with goal := if (n'.chan i).drain then (n'.chan i).goal else none }
    else n'
  pure (Node.ucChanged n n' i, [])

/-- Codes and ranges a register write to channel i may hold (R121). -/
def Node.ucRegOk (n : Node) (i : Nat) : Bool :=
  let m := n.fd (Fd.UC_CFG_MODE i)
  let (pl, ph) := hwLimits m 0
  let top := if m = 10 then q 24 else q 10
  m ≤ 10 && n.fd (Fd.UC_CFG_RATE i) ≤ 5 &&
  (n.fd (Fd.UC_CFG_SENSOR i) ≤ (if m = 8 then 1 else 7)) &&
  n.fd (Fd.UC_OPT_CJSRC i) ≤ 2 && n.fd (Fd.UC_OPT_CJCH i) ≤ 23 && 1 ≤ n.fd (Fd.UC_OPT_OWPER i) &&
  n.fd (Fd.UC_OPT_OWPER i) ≤ 600 && n.fd (Fd.UC_OPT_DEB i) ≤ 1000 && n.combos i &&
  (!isScaled m || (within pl ph (n.rd (Ad.UC_PLO i)) && within pl ph (n.rd (Ad.UC_PHI i)))) &&
  within engLo engHi (n.rd (Ad.UC_ELO i)) && within engLo engHi (n.rd (Ad.UC_EHI i)) &&
  nanOr engLo engHi (n.rd (Ad.UC_RLO i)) && nanOr engLo engHi (n.rd (Ad.UC_RHI i)) &&
  within (q (-50)) (q 150) (n.rd (Ad.UC_CJFIX i)) && within (q 0) (q 50) (n.rd (Ad.UC_LEAD i)) &&
  (!isOut m || (within (q 0) top (n.rd (Ad.UC_OUT i)) && within (q 0) top (n.rd (Ad.UC_SAFE i)) &&
    within (q 0) (q 100000) (n.rd (Ad.UC_RAMP i)))) &&
  (n.load (i / 4) ≤ 10) && !(List.range 4).any (fun t => n.usesTable i t && !ascending (n.points t))

/-- Does Table 4-5 allow in the mode what a write to a channel's register gives? A register of one key gives that key; of
UC.CFG and UC.OPT, whose write carries every field, a field counts as given when it changes to a value other than the
mode's default (log entry 86). `d`: the settings a change of MODE loads. -/
def Node.ucRegFits (n d g : Node) (a i : Nat) : Bool :=
  let m := g.fd (Fd.UC_CFG_MODE i)
  (ucSpecs m).all (fun k => match k.loc i with
    | .fd f => f.addr != a || keyFits k.key m ||
        ((a == Ad.UC_CFG i || a == Ad.UC_OPT i) && (g.fd f == n.fd f || g.fd f == d.fd f))
    | .kid _ => true)

/-- A refused write to a UC register: UC.QEVT.CFGERR and source 42 (R121). -/
def Node.ucCfgErr (n : Node) : Node := (n.setOn Fd.UC_QEVT_CFGERR true).ring 42

/-! ### Register views -/

/-- UC.VSTAT as a read of UC.VALn latches it (R122). -/
def Node.vstatOf (n : Node) (i : Nat) : Word :=
  BitVec.ofNat 32 ((n.chan i).stamp * 65536 + (n.chan i).flags.toNat % 65536)
/-- UC.QLOAD as it reads: the units of Q0 to Q5, and of QX the units of the quad it serves. -/
def Node.qload (n : Node) : Word :=
  BitVec.ofNat 32 ((List.range 6).foldl (fun a k => a + n.load k * 16 ^ k) 0 +
    (if n.fd Fd.UC_QSTAT_QX = 1 then n.load (n.fd Fd.UC_QSTAT_QXFOR) * 16 ^ 6 else 0))

def Node.readUcVal (n : Node) (rq : Rq) (i : Nat) : Node :=
  { n.setLat rq Ad.UC_VSTAT (n.vstatOf i) with rdata := n.rd (Ad.UC_VAL i) }

/-! ### Events -/

/-- Beat f + 1: the crossbar switches the front ends (R114). The event has no effect of its own on the channels: the
migration's beat f decides when QX converts. -/
def execCrossbarSwitch (s : State) : Host.Outcome State Fault Refusal :=
  s.lift fun n =>
    if n.awake then
      (n.uc.migs.filter (fun g => g.f + 1 ≤ n.tick)).foldl (fun n g =>
        (List.range 4).foldl (fun n j => n.dropWindow (4 * g.quad + j)) n) n
    else n

/-- Beat f + 2: QX converts its first raw; source 44, QUAD-MIGRATED and the notice (R114). -/
def execQuadMigrated (s : State) : Host.Outcome State Fault Refusal :=
  s.lift fun n =>
    match n.uc.migs.find? (fun g => !g.restore && g.f + 2 ≤ n.tick) with
    | some g =>
      if n.awake then
        let n := { n with uc := { n.uc with migs := n.uc.migs.erase g } }
        let n := ((n.setFd (qFd g.quad) 1).setBit Ad.UC_QEVT (8 + g.quad)).ring 44
        let n := n.raise 0x031 [BitVec.ofNat 8 g.quad] 0 helpUc
        n.notify .quad [.w "QUAD", .w (quadName g.quad), .w "MIGRATED"]
      else n
    | none => n

/-- The reverse migration completes (R118); SFAULT clears at stage S3. -/
def execQuadRestored (s : State) : Host.Outcome State Fault Refusal :=
  s.lift fun n =>
    match n.uc.migs.find? (fun g => g.restore && g.f + 2 ≤ n.tick) with
    | some g =>
      if n.awake then
        let was := n.fd (qFd g.quad)
        let n := { n with uc := { n.uc with migs := n.uc.migs.erase g } }
        let n := n.setQuad g.quad { n.quad g.quad with cause := none, dev := 0 }
        let n := ((n.setFd (qFd g.quad) 0).setBit Ad.UC_QEVT (16 + g.quad)).ring 43
        let n := if was = 1 then n.setFds [(Fd.UC_QSTAT_QX, 0), (Fd.UC_QSTAT_QXFOR, 7)] else n
        let n := n.raise 0x032 [BitVec.ofNat 8 g.quad] 0 helpUc
        n.notify .quad [.w "QUAD", .w (quadName g.quad), .w "RESTORED"]
      else n
    | none => n

/-- STALE sets when 4P beats have run since the last publication (R108, R123). -/
def execChannelStale (i : Nat) (s : State) : Host.Outcome State Fault Refusal :=
  s.lift fun n =>
    let c := n.chan i
    if n.working && i < 24 && isConv c.mode && !c.flags.getLsbD fSTALE && c.since + 4 * n.window i ≤ n.tick then
      n.putFlags i (putFlag c.flags fSTALE true)
    else n

/-- A sampled level that has held for DEB ms becomes the published level (R106); each change rings the channel. -/
def execDiDebounce (i : Nat) (s : State) : Host.Outcome State Fault Refusal :=
  s.lift fun n =>
    let c := n.chan i
    if n.working && i < 24 && c.mode == 8 && c.diIn != c.di && Nat.max 1 (n.fd (Fd.UC_OPT_DEB i) * 50) ≤ c.diCnt then
      (n.setChan i { c with di := c.diIn, diCnt := 0 }).ring (16 + i)
    else n

/-- A channel set to OFF reaches OFF once its disable action has ended (R124). -/
def execUcDrainComplete (i : Nat) (s : State) : Host.Outcome State Fault Refusal :=
  s.lift fun n =>
    let c := n.chan i
    if n.awake && i < 24 && c.drain && (match c.goal with
        | some g => Q.le c.level g && Q.le g c.level
        | none => true) then
      let n := (n.wr (Ad.UC_VAL i) f32NaN).wr (Ad.UC_PHYS i) f32NaN
      (n.putFlags i 0#32).setChan i { stamp := c.stamp }
    else n

/-! ### Commands -/

/-- A unit on a channel of a quad in beats f and f + 1 of a migration waits for stage S7 of beat f + 2 (R129). -/
def Node.deferTicks (n : Node) (i : Nat) : Nat :=
  match n.uc.migs.find? (fun g => g.quad == i / 4) with
  | some g => g.f + 2 - n.tick
  | none => 0

/-- A UC line with index units: one unit on a migrating quad's channel is applied when the migration allows it. -/
def Node.runUc (n : Node) (l : Line) (verb : Nat) (op : UnitOp) (check : Node → List Nat → Except Err Unit)
    (unit : Nat → Node → Except Err (Node × List (List Item))) : Node :=
  match l.items 24 with
  | .ok [i] =>
    if 0 < n.deferTicks i then
      n.runOpen l (fun n => do
        check n [i]
        n.mayWrite l.port .uc l.idx
        let n' := n.startMr l verb .uc op [i] true
        pure (match (n'.port l.port).mr with
          | some m =>
            let n'' := n.setPort l.port { n.port l.port with mr := some { m with paused := false, wasPaused := false,
                                                                                 pauseSurvey := false, from_ := n.tick + n.deferTicks i }, replyOpen := true }
            n''
          | none => n'))
    else n.runMulti l verb .uc 24 op check unit
  | _ => n.runMulti l verb .uc 24 op check unit

def execSetUc (l : Line) (s : State) : Host.Outcome State Fault Refusal :=
  s.lift fun n => n.runUc l verbSet (.set .uc l.keys) (ucCheck l.keys) (setUcUnit l.keys)

/-- The publications of channel i in a second: a DI channel publishes in every beat (R106, R120). -/
def Node.pubRate (n : Node) (i : Nat) : Nat := if n.fd (Fd.UC_CFG_MODE i) = 8 then 50000 else n.effRate i

/-- A !STREAM line of channel i, and its publications in a second (R120). -/
def Node.ucStream (n : Node) (i : Nat) : List Item × Nat :=
  ([.w "UC", .n i, .w "VAL", .f (n.rd (Ad.UC_VAL i)), .w "FLAGS"] ++ flagItems (n.chan i).flags ++
    [.w "BEAT", .n (n.chan i).stamp], n.pubRate i)

def execGetUc (l : Line) (s : State) : Host.Outcome State Fault Refusal :=
  s.lift fun n => n.runRead l (fun n => do
    let is ← l.items 24
    onlyKeys [] [] l.keys
    pure (is.map (fun i =>
      let c := n.chan i
      if c.mode = 0 then [.w "UC", .n i, .w "OFF"]
      else [.w "UC", .n i, .w "VAL", .f (n.rd (Ad.UC_VAL i)), .w "PHYS", .f (n.rd (Ad.UC_PHYS i)), .w "FLAGS"] ++
        flagItems c.flags ++ [.w "BEAT", .n c.stamp])))

def execShowUc (l : Line) (s : State) : Host.Outcome State Fault Refusal :=
  s.lift fun n => n.runRead l (fun n => do
    let is ← l.items 24
    onlyKeys [] [] l.keys
    pure (is.map (fun i =>
      let m := n.fd (Fd.UC_CFG_MODE i)
      [.w "UC", .n i] ++ n.showKeys ((ucSpecs m).filter (fun k => keyFits k.key m)) i)))

def causeName (c : Nat) : String :=
  match c with
  | 0 => "CHECK" | 1 => "TIMEOUT" | _ => "FORCED"

def execShowUcQuad (l : Line) (s : State) : Host.Outcome State Fault Refusal :=
  s.lift fun n => n.runRead l (fun n => do
    l.bare
    onlyKeys [] [] l.keys
    let line := fun (k : Nat) => [.w "UC QUAD", .w (quadName k)] ++
      (match n.fd (qFd k) with
       | 0 => [.w "OK"]
       | 1 => [.w "MIGRATED CAUSE", .w (causeName ((n.quad k).cause.getD 0))]
       | _ => [.w "NORESERVE CAUSE", .w (causeName ((n.quad k).cause.getD 0))]) ++
      [.w "LOAD", .n (n.load k), .w "PASS", .n (n.quad k).pass]
    let qx := [.w "UC QUAD QX"] ++
      (match n.fd Fd.UC_QSTAT_QX with
       | 0 => [.w "IDLE"]
       | 1 => [.w "SERVING", .w (quadName (n.fd Fd.UC_QSTAT_QXFOR))]
       | _ => [.w "FAILED"]) ++
      [.w "LOAD", .n (if n.fd Fd.UC_QSTAT_QX = 1 then n.load (n.fd Fd.UC_QSTAT_QXFOR) else 0), .w "PASS", .n (n.quad 6).pass]
    pure ((List.range 6).map line ++ [qx]))

def quadSpecs : List KeySpec := [kk "QUAD" (.int 0 5) (fun _ => 0)]

def execDoUcQuadFail (l : Line) (s : State) : Host.Outcome State Fault Refusal :=
  s.lift fun n => n.runWhole l .uc (fun n => do
      checkKeys quadSpecs ["QUAD"] l.keys
      if n.fd Fd.UC_QSTAT_QX != 0 || n.uc.forced.isSome then refuse 502)
    (fun n => .ok ({ n with uc := { n.uc with forced := keyNum quadSpecs l.keys "QUAD" } }, []))

def execDoUcQuadRestore (l : Line) (s : State) : Host.Outcome State Fault Refusal :=
  s.lift fun n => n.runWhole l .uc (fun n => do
      checkKeys quadSpecs ["QUAD"] l.keys
      let k := (keyNum quadSpecs l.keys "QUAD").getD 0
      if n.fd (qFd k) == 0 || (n.quad k).pass < 16 then refuse 308)
    (fun n =>
      let k := (keyNum quadSpecs l.keys "QUAD").getD 0
      let n := n.putMig ⟨k, n.tick + 1, true⟩
      let n := (List.range 4).foldl (fun n j =>
        let i := 4 * k + j
        if streamsOf (n.chan i).mode = 0 then n
        else n.setChan i { (n.dropWindow i).chan i with staleDue := true }) n
      .ok (n.pauseMrs false, []))

/-- Keys of SET UC CTAB (R119). -/
def ctabSpecs : List KeySpec := [
  kk "CTAB" (.int 0 3) (fun _ => 0), kk "NPT" (.int 2 32) (fun _ => 0), kk "POINT" (.int 0 31) (fun _ => 0),
  kk "OHM" (.flt (q 0) (q 4000) []) (fun _ => 0), kk "DEGC" (.flt (q (-273)) (q 1000) []) (fun _ => 0)]

def execSetUcCtab (l : Line) (s : State) : Host.Outcome State Fault Refusal :=
  s.lift fun n =>
    let num := fun k => keyNum ctabSpecs l.keys k
    let t := (num "CTAB").getD 0
    let apply := fun (n : Node) =>
      let n := match num "NPT" with
        | some k => n.setFd ⟨Ad.UC_CTNPT, 8 * t + 5, 8 * t⟩ k
        | none => n
      match num "POINT", num "OHM", num "DEGC" with
      | some i, some r, some c => (n.wr (ctabOhm t i) (BitVec.ofNat 32 r)).wr (ctabDeg t i) (BitVec.ofNat 32 c)
      | _, _, _ => n
    n.runWhole l .uc (fun n => do
        checkKeys ctabSpecs ["CTAB"] l.keys
        if (num "POINT").isSome && ((num "OHM").isNone || (num "DEGC").isNone) then refuse 112
        if (num "POINT").isNone && ((num "OHM").isSome || (num "DEGC").isSome || (num "NPT").isNone) then refuse 112
        if (List.range 24).any (fun i => n.usesTable i t) && !ascending ((apply n).points t) then refuse 308)
      (fun n => .ok ((apply n).dirty, []))

def execWatchUc (l : Line) (s : State) : Host.Outcome State Fault Refusal :=
  s.lift fun n => n.runWatch l .uc "" ((l.items 24).map (·.map some))

/-- STREAM UC: n from 1 to the channel's rate (R120). -/
def execStreamUc (l : Line) (s : State) : Host.Outcome State Fault Refusal :=
  s.lift fun n => n.runStream l .uc ((l.items 24).map (·.map some)) (fun r =>
    match l.items 24 with
    | .ok is => if is.all (fun i => r ≤ n.pubRate i) then .ok () else refuse 201
    | .error e => .error e)

/-- One unit of DO UC REINIT: channel i reloads and restarts; unit 24 reloads the custom tables (R125, R473). -/
def Node.ucReinit (n : Node) (i : Nat) : Node :=
  if i = 24 then
    n.reloadRegs (Ad.UC_CTNPT :: (List.range 4).flatMap (fun t => (List.range 32).flatMap (fun p => [ctabOhm t p, ctabDeg t p])))
  else
    let m := (Fd.UC_CFG_MODE i).get (Bank.get (resetWord (Ad.UC_CFG i)) n.image (Ad.UC_CFG i))
    let n' := n.reload (ucSpecs m) i
    let n' := if n'.ucRegOk i then n' else ((n.wr (Ad.UC_CFG i) (resetWord (Ad.UC_CFG i))).modeDefaults i 0).ucCfgErr
    let n' := Node.ucChanged n n' i
    if (n'.chan i).drain then n' else n'.setChan i { n'.chan i with restart := true }

def execDoUcReinit (l : Line) (s : State) : Host.Outcome State Fault Refusal :=
  s.lift fun n =>
    let chk := fun (n : Node) (is : List Nat) => (do
      onlyKeys [] [] l.keys
      if is.any (fun i => n.noReserve (i / 4)) then refuse 502 : Except Err Unit)
    match l.idx with
    | some _ => n.runOpen l (fun n => do
        let is ← l.items 24
        chk n is
        n.mayWrite l.port .uc l.idx
        pure (n.startMr l verbDo .uc (.reinit .uc) is true))
    | none => n.runOpen l (fun n => do
        chk n (List.range 24)
        n.mayWrite l.port .uc none
        pure (n.startMr l verbDo .uc (.reinit .uc) (List.range 25) true))

def execUcValRead (rq : Rq) (i : Nat) (s : State) : Host.Outcome State Fault Refusal :=
  s.lift fun n => if n.awake && i < 24 then n.readUcVal rq i else n

/-! ### Host loss and power fail (R112) -/

/-- Every output channel applies LOSSACT. -/
def Node.ucHostLoss (n : Node) : Node :=
  n.liveChans.foldl (fun n i =>
    let c := n.chan i
    if isOut c.mode && !c.drain then
      n.setChan i { c with goal := some (if n.on (Fd.UC_CFG_LOSSACT i) then f32Q (n.rd (Ad.UC_SAFE i)) else c.level) }
    else n) n
/-- Every output channel applies PFACT, in one step. -/
def Node.ucPowerFail (n : Node) : Node :=
  n.liveChans.foldl (fun n i =>
    let c := n.chan i
    if isOut c.mode && n.on (Fd.UC_CFG_PFACT i) then
      n.setChan i { c with goal := some (f32Q (n.rd (Ad.UC_SAFE i))), level := f32Q (n.rd (Ad.UC_SAFE i)) }
    else if isOut c.mode then n.setChan i { c with goal := some c.level } else n) n
/-- Entry to and exit from QUIET discard the windows in progress of the channels it caps (R123). -/
def Node.ucQuietEdge (n : Node) : Node :=
  n.liveChans.foldl (fun n i => if isConv (n.chan i).mode && n.fd (Fd.UC_CFG_RATE i) != 0 then n.dropWindow i else n) n
/-- The wake from DORMANT: windows are discarded, inputs set STALE at the first stage S3, debounce restarts (R432). -/
def Node.ucWake (n : Node) : Node :=
  n.liveChans.foldl (fun n i =>
    let c := (n.dropWindow i).chan i
    n.setChan i { c with staleDue := isConv c.mode, diCnt := 0 }) { n with uc := { n.uc with tasks := [] } }

end Sys2Proof.Machine
end

