-- ==== Sys2Proof/Machine/Alarm.lean ====
section
/-! DEFINITION. The alarm engine: sources, levels, delays, point states, groups, acknowledgement, calling, and the AP, AG
and CALL commands and registers (chapter 7). -/
namespace Sys2Proof.Machine

/-- The helper order of Table 1-1 for the alarm engine. -/
def helpAlm : Nat := 5

def Node.pt (n : Node) (i : Nat) : Pt := Bank.get {} n.alm.pts i
def Node.grp (n : Node) (g : Nat) : Grp := Bank.get {} n.alm.grps g
def Node.setGrp (n : Node) (g : Nat) (x : Grp) : Node := { n with alm := { n.alm with grps := Bank.set {} n.alm.grps g x } }

/-! ### States and levels (Tables 7-2 and 7-3) -/

/-- The state a point shows: BLOCKED, SHELVED and SENSOR-FAULT in that order over the underlying state (R190). -/
def Pt.shown (p : Pt) : Nat :=
  if p.blocked then 6 else if p.shelf.isSome then 5 else if p.fault then 7 else p.under
def Pt.shownLvl (p : Pt) : Nat := if p.shown = 2 ∨ p.shown = 3 then p.lvl else 0
/-- A point counted as unacknowledged. -/
def Pt.isUnack (p : Pt) : Bool := p.shown == 2 || p.shown == 4 || (p.shown == 7 && p.unack)

def ptStateName (k : Nat) : String :=
  match k with
  | 0 => "NORMAL" | 1 => "PENDING" | 2 => "ACTIVE-UNACK" | 3 => "ACTIVE-ACK" | 4 => "RETURNED-UNACK" | 5 => "SHELVED"
  | 6 => "BLOCKED" | _ => "SENSOR-FAULT"
def lvlName (k : Nat) : String :=
  match k with
  | 1 => "H" | 2 => "HH" | 3 => "L" | 4 => "LL" | 5 => "DIG" | _ => "NONE"
def lvlRank (k : Nat) : Nat := if k = 0 then 0 else if k = 2 ∨ k = 4 then 2 else 1
def stageName (k : Nat) : String :=
  match k with
  | 1 => "DUTY" | 2 => "ALL" | 3 => "BRIDGE" | _ => "NONE"

/-- Rings an alarm source, at most once in a beat (Table 7-9). -/
def Node.almRing (n : Node) (s : Nat) : Node :=
  if n.alm.rung.contains s then n else { n.ring s with alm := { n.alm with rung := s :: n.alm.rung } }

/-- Where a record is raised: stage S4 or S5, stage S7 by the engine, or by a command. -/
inductive Wh
  | s4 | s5 | s7 | cmd
deriving DecidableEq, Repr

/-- A record of the engine raised before stage S6 of the beat waits for it; an engine that finishes after S6 raises its
records in the window in which it does (R20, R27). -/
def Node.almStage (n : Node) (c : Nat) (pl : List Byte) (k : Nat) : Node × Raised :=
  let j := n.tm.lateWin.getD k
  if 6 ≤ j then n.raiseAt c pl j helpAlm (n.stageAt j) else (n.stageRecord c pl j helpAlm (n.stageAt j), .queued)
/-- A record of the engine at its place in the order of R27. -/
def Node.almRaise (n : Node) (c : Nat) (pl : List Byte) (w : Wh) : Node × Raised :=
  match w with
  | .s4 => n.almStage c pl 4
  | .s5 => n.almStage c pl 5
  | .s7 => n.raiseAt c pl 7 helpAlm (n.stageAt 7)
  | .cmd => n.raiseAt c pl 8 0 (n.stageAt 7)

/-- The point's state in its register and in the counts of unacknowledged points. -/
def Node.putPt (n : Node) (i : Nat) (p : Pt) : Node :=
  let o := n.pt i
  let n := { n with alm := { n.alm with pts := Bank.set {} n.alm.pts i p } }
  let n := n.setFds [(Fd.ALM_PSTAT_STATE i, p.shown), (Fd.ALM_PSTAT_LEVEL i, p.shownLvl),
    (Fd.ALM_PSTAT_UNDER i, if 5 ≤ p.shown then p.under else 0), (Fd.ALM_PSTAT_UNACK i, if p.unack then 1 else 0),
    (Fd.ALM_PSTAT_FROZEN i, if p.frozen then 1 else 0)]
  let n := if o.isUnack then
      n.setFds [(Fd.ALM_STAT_UNACK, n.fd Fd.ALM_STAT_UNACK - 1), (Fd.ALM_AGSTAT_UNACK o.grp, n.fd (Fd.ALM_AGSTAT_UNACK o.grp) - 1)]
    else n
  if p.isUnack then
    n.setFds [(Fd.ALM_STAT_UNACK, n.fd Fd.ALM_STAT_UNACK + 1), (Fd.ALM_AGSTAT_UNACK p.grp, n.fd (Fd.ALM_AGSTAT_UNACK p.grp) + 1)]
  else n

/-- An ALM-GROUP record (Table 7-3). -/
def Node.grpRecord (n : Node) (g ev cause fo : Nat) (w : Wh) : Node :=
  (n.almRaise 0x061 (bytesLE 2 g ++ [BitVec.ofNat 8 ev, BitVec.ofNat 8 (n.fd (Fd.ALM_AGSTAT_STAGE g))] ++ bytesLE 2 fo ++
    [0#8, 0#8, 0#8, BitVec.ofNat 8 cause]) w).1
/-- The group's first-out point, 0xFFFF if none. -/
def Node.foOf (n : Node) (g : Nat) : Nat := if n.on (Fd.ALM_AGSTAT_FOVALID g) then n.fd (Fd.ALM_AGSTAT_FOPOINT g) else 0xFFFF

/-- Point i has entered ACTIVE-UNACK: it becomes the first-out of a group that holds none, or in place of a point with a
higher index that became it in the same beat (R197). -/
def Node.firstOut (n : Node) (i g : Nat) : Node :=
  let held := n.on (Fd.ALM_AGSTAT_FOVALID g)
  let fo := n.fd (Fd.ALM_AGSTAT_FOPOINT g)
  if held && !((n.grp g).foTick == n.tick + 1 && i < fo) then n
  else
    let n := if held then n.setFd (Fd.ALM_PSTAT_FO fo) 0 else n
    let n := n.setGrp g { n.grp g with foTick := n.tick + 1 }
    (n.setFds [(Fd.ALM_AGSTAT_FOVALID g, 1), (Fd.ALM_AGSTAT_FOPOINT g, i), (Fd.ALM_PSTAT_FO i, 1), (Fd.ALM_EVT_FIRSTOUT, 1)]).almRing 79
/-- The group holds no first-out. -/
def Node.dropFo (n : Node) (g : Nat) : Node :=
  if n.on (Fd.ALM_AGSTAT_FOVALID g) then
    n.setFds [(Fd.ALM_PSTAT_FO (n.fd (Fd.ALM_AGSTAT_FOPOINT g)), 0), (Fd.ALM_AGSTAT_FOVALID g, 0), (Fd.ALM_AGSTAT_FOPOINT g, 0)]
  else n
/-- The first-out is cleared, with its record (R197). -/
def Node.clearFo (n : Node) (g cause : Nat) (w : Wh) : Node :=
  if n.on (Fd.ALM_AGSTAT_FOVALID g) then
    let fo := n.foOf g
    (((n.dropFo g).setOn Fd.ALM_EVT_FIRSTOUT true).almRing 79).grpRecord g 3 cause fo w
  else n

/-! ### Replies and notices -/

def Node.apFlags (n : Node) (i : Nat) : List Item :=
  let p := n.pt i
  let l := (if p.frozen then ["STALE"] else []) ++ (if p.fault then ["FAULT"] else []) ++ (if p.unack then ["UNACK"] else []) ++
    (if 5 ≤ p.shown then ["UNDER-" ++ ptStateName p.under] else [])
  [listItem l]

/-- The line of GET AP and of !WATCH AP (R207). -/
def Node.apLine (n : Node) (i : Nat) : List Item :=
  let p := n.pt i
  [.w "AP", .n i, .w (ptStateName p.shown), .w "LEVEL", .w (lvlName p.shownLvl), .w "VAL", .f p.val, .w "FLAGS"] ++ n.apFlags i ++
  [.w "FO", .n (n.fd (Fd.ALM_PSTAT_FO i)), .w "BEAT", .n (n.fd (Fd.ALM_PSTAT_BEAT i))]

/-- A point takes a new value; what of it is seen is recorded, rung and notified (R192). `code`: the state code of the
record where it is not the shown state; `force`: recorded whatever the change; `quiet`: without the notice. -/
def Node.ptMove (n : Node) (i : Nat) (p : Pt) (cause : Nat) (w : Wh) (force : Bool) (code : Option Nat) (quiet : Bool) : Node :=
  let o := n.pt i
  let s0 := o.shown
  let s1 := p.shown
  let same := s0 = s1 && o.shownLvl = p.shownLvl
  let n := n.putPt i p
  if same && !force && code.isNone then n
  else
    let n := if same then n else n.setFd (Fd.ALM_PSTAT_BEAT i) n.idx
    let n := if s0 = s1 then n else n.setBit (Ad.ALM_CHG (i / 32)) (i % 32)
    let n := if s1 = 2 && s0 ≠ 2 then n.firstOut i p.grp else n
    let n := if s1 = 2 && s0 ≠ 2 then (n.setOn Fd.ALM_EVT_ACTIVE true).almRing 72 else n
    let n := if (s1 = 0 || s1 = 4) && s0 ≠ s1 then (n.setOn Fd.ALM_EVT_RETURN true).almRing 73 else n
    let n := if (s0 = 7) ≠ (s1 = 7) then (n.setOn Fd.ALM_EVT_FAULT true).almRing 75 else n
    let recorded := force || code.isSome || !(s1 == 1 || s1 == 6 || (s0 == 1 && s1 == 0))
    let n :=
      if !recorded then n
      else
        let st := code.getD s1
        let v := if p.fault then f32NaN else p.val
        let pl := bytesLE 2 i ++ [BitVec.ofNat 8 st, BitVec.ofNat 8 p.shownLvl] ++ bytesLE 4 v.toNat ++
          [BitVec.ofNat 8 p.grp, BitVec.ofNat 8 cause]
        let entry := (st = 2 || st = 7) && (s0 ≠ s1 || (o.shownLvl ≠ p.shownLvl && lvlRank o.shownLvl ≤ lvlRank p.shownLvl))
        let n := if entry then
            { n with alm := { n.alm with pts := Bank.set {} n.alm.pts i { n.pt i with acc := 0, entryRec := pl, entry := n.tick } } }
          else n
        let (n, r) := n.almRaise 0x060 pl w
        let n := if r = .queued then n
          else { n with alm := { n.alm with stateOut := n.alm.stateOut ++ [(i, st, p.shownLvl, 0)] } }
        if quiet then n
        else n.notify .alm ([.w "ALM", .w ("AP" ++ toString i), .w (ptStateName s1)] ++
          (if p.shownLvl = 0 then [] else [.w (lvlName p.shownLvl)]) ++ (if n.on (Fd.ALM_PSTAT_FO i) then [.w "FO"] else []))
    if same then n else n.notifyWatch .ap "" (some i) (n.apLine i)

/-- An evaluation's change (cause 0). -/
def Node.ptEval (n : Node) (i : Nat) (p : Pt) (cause : Nat) : Node := n.ptMove i p cause .s4 false none false

/-! ### Sources (R184, R185) -/

/-- A source as an evaluation finds it. -/
structure Src where
  val : Word
  fault : Bool
  stale : Bool
  aged : Bool

/-- A filtered pad level (R311). -/
def Node.pad (n : Node) (i : Nat) : Bool := if i < 32 then n.bit Ad.GP_GPIN0 i else n.bit Ad.GP_GPIN1 (i - 32)

/-- The inputs a grid quantity needs. -/
def gridNeeds (k : Nat) : List Nat :=
  if k < 16 then [k % 8] else if k < 22 then [0, 1, 2] else if k < 28 then [4, 5, 6] else []

/-- One source of point i (Table 7-1). -/
def Node.readSrc (n : Node) (i kind k : Nat) : Src :=
  match kind with
  | 0 =>
    let c := n.chan k
    ⟨n.rd (Ad.UC_VAL k), c.flags.getLsbD fFAULT || c.mode == 0 || c.drain, c.flags.getLsbD fSTALE, false⟩
  | 1 => ⟨n.rd (Ad.LO_RB k), n.on (Fd.LO_STAT_OPEN k) || n.on (Fd.LO_STAT_DISAGREE k) || n.on (Fd.LO_STAT_UNVERIFIED k) ||
      n.loState k == loOff, false, false⟩
  | 2 => ⟨n.rd (gridReg k), n.gridFault k || !n.on Fd.GRID_CTRL_ENABLE ||
      (gridNeeds k).any (fun j => !n.on (Fd.GRID_INCFG_ON j)), false, false⟩
  | 3 => ⟨if n.pad k then 0x3F800000#32 else 0#32, false, false, false⟩
  | _ =>
    let age := n.fd (Fd.ALM_PSRC2_AGE i) * 500
    match n.alm.peers.find? (fun x => x.1 == k) with
    | some (_, v) => if v.at_ + age < n.tick then ⟨f32NaN, true, false, true⟩ else ⟨v.val, v.fault, v.stale, false⟩
    | none => if (n.pt i).enabledAt + age < n.tick then ⟨f32NaN, true, false, true⟩ else ⟨f32NaN, false, true, false⟩

/-- The source of point i, or the difference A − B; FAULT takes precedence over STALE, and a good source that holds no
number is held as STALE. -/
def Node.pointSrc (n : Node) (i : Nat) : Src :=
  let a := n.readSrc i (n.fd (Fd.ALM_PCFG_KINDA i)) (n.fd (Fd.ALM_PCFG_SRCA i))
  let s : Src := if n.on (Fd.ALM_PCFG_DIFF i) then
      let b := n.readSrc i (n.fd (Fd.ALM_PSRC2_KINDB i)) (n.fd (Fd.ALM_PSRC2_SRCB i))
      let v := match f32Val a.val, f32Val b.val with
        | some x, some y => f32OfQ (Q.sub x y)
        | _, _ => f32NaN
      ⟨v, a.fault || b.fault, a.stale || b.stale, a.aged || b.aged⟩
    else a
  { s with stale := !s.fault && (s.stale || (f32Val s.val).isNone) }

/-! ### Level and delays (R186 to R189) -/

/-- Does a level's condition hold after this evaluation? -/
def condHolds (held : Bool) (high : Bool) (lim hys v : Q) : Bool :=
  if high then (if held then Q.lt (Q.sub lim hys) v else Q.lt lim v)
  else (if held then Q.lt v (Q.add lim hys) else Q.lt v lim)

/-- The levels whose condition holds, most severe first. -/
def Node.condsOf (n : Node) (i : Nat) (p : Pt) (v : Word) : List Nat :=
  if n.fd (Fd.ALM_PCFG_KINDA i) = 3 && !n.on (Fd.ALM_PCFG_DIFF i) then
    if (v != 0#32) = (n.fd (Fd.ALM_PCFG_ALMLVL i) == 1) then [5] else []
  else
    [(2, Ad.ALM_HH i, true), (4, Ad.ALM_LL i, false), (1, Ad.ALM_H i, true), (3, Ad.ALM_L i, false)].filterMap
      (fun (k, a, high) => match f32Val (n.rd a) with
        | some lim => if condHolds (p.conds.contains k) high lim (f32Q (n.rd (Ad.ALM_HYS i))) (f32Q v) then some k else none
        | none => none)

/-- The delay that runs after this evaluation, and whether it expires: kind 1 on, 2 off. -/
def runDelay (p : Pt) (kind add limit : Nat) : Pt × Bool :=
  let c := if p.dly = kind then p.count + add else 0
  if limit * 50 ≤ c then ({ p with dly := 0, count := 0 }, true) else ({ p with dly := kind, count := c }, false)

/-- One evaluation of the underlying state with level `lv` found, `add` beats after the previous one (Table 7-2). -/
def ptStep (p : Pt) (lv add onMs offMs : Nat) : Pt :=
  if p.under ≤ 1 then
    if lv = 0 then { p with under := 0, dly := 0, count := 0 }
    else
      let (p, e) := runDelay p 1 add onMs
      if e then { p with under := 2, lvl := lv } else { p with under := 1 }
  else if lvlRank p.lvl < lvlRank lv || (lv ≠ 0 && lv ≠ p.lvl && lvlRank lv = lvlRank p.lvl) then
    let (p, e) := runDelay p 1 add onMs
    if e then { p with under := 2, lvl := lv } else p
  else if lvlRank lv < lvlRank p.lvl then
    let (p, e) := runDelay p 2 add offMs
    if !e then p
    else if lv ≠ 0 then { p with lvl := lv }
    else { p with lvl := 0, under := if p.under = 2 then 4 else 0 }
  else { p with dly := 0, count := 0 }

/-! ### One evaluation -/

/-- The group blocks point i (R194 to R196): blocked or releasing, with BLK ON, and not by the point itself. -/
def Node.blocks (n : Node) (i g : Nat) : Bool :=
  (n.on (Fd.ALM_AGSTAT_BLOCKED g) || n.on (Fd.ALM_AGSTAT_RELEASING g)) && n.on (Fd.ALM_PCFG_BLK i) &&
  !(n.on (Fd.ALM_AGCFG_BLKKIND g) && n.fd (Fd.ALM_AGCFG_BLKSRC g) == i)

/-- ACTIVE is taken as ACTIVE-UNACK on release. -/
def Pt.released (p : Pt) : Pt := if p.shown = 3 then { p with under := 2 } else p

/-- A point returns to NORMAL before this evaluation: a changed source or group, ENABLE=OFF, REINIT (R204, R210, R211). -/
def Node.reconfigure (n : Node) (i : Nat) : Node :=
  let p := n.pt i
  match p.reconf with
  | none => n
  | some c =>
    let n := if n.foOf p.grp = i && p.grp ≠ n.fd (Fd.ALM_PCFG_GRP i) then n.clearFo p.grp c .s4 else n
    let on := n.on (Fd.ALM_PCFG_ENABLE i)
    let q : Pt := if on then { enabledAt := p.enabledAt, val := p.val, lastEval := n.tick } else {}
    let n := n.ptMove i { q with grp := p.grp } c .s4 (p.shown != 0) none false
    n.putPt i (if on then { n.pt i with grp := n.fd (Fd.ALM_PCFG_GRP i) } else {})

/-- The evaluation of point i at stage S4. -/
def Node.evalPoint (n : Node) (i : Nat) : Node :=
  let n := n.reconfigure i
  if !n.on (Fd.ALM_PCFG_ENABLE i) then n
  else
    let p := n.pt i
    let s := n.pointSrc i
    let n := if s.aged && !p.aged then n.almRing 80 else n
    let add := n.tick - p.lastEval
    let p := { p with aged := s.aged, lastEval := n.tick }
    if s.stale then n.putPt i { p with frozen := true }
    else
      let p := { p with frozen := false }
      let (n, p) :=
        if s.fault then
          (n, { p with fault := true, val := f32NaN, dly := 0, count := 0,
                       unack := p.unack || (!p.fault && !p.blocked && p.shelf.isNone) })
        else
          let (n, p) := if p.fault then
              let p' : Pt := { p with fault := false, unack := false, under := 0, lvl := 0, conds := [], dly := 0, count := 0,
                                      val := s.val }
              (n.ptEval i p' 0, p')
            else (n, p)
          let cs := n.condsOf i p s.val
          let p := { p with conds := cs, val := s.val }
          -- the accession and entry fields may have moved with the record above
          let p := { p with acc := (n.pt i).acc, entryRec := (n.pt i).entryRec, entry := (n.pt i).entry }
          (n, ptStep p (cs.headD 0) add (n.fd (Fd.ALM_ONDLY_ON i)) (n.fd (Fd.ALM_OFFDLY_OFF i)))
      let b := n.blocks i p.grp
      if b = p.blocked then n.ptEval i p 0
      else if b then n.ptEval i { p with blocked := true } 0
      else
        let p := { p with blocked := false, unack := p.unack || (p.fault && p.shelf.isNone) }
        n.ptMove i p.released 6 .s4 false none p.shelf.isSome

/-! ### Groups (R194 to R197) -/

/-- Points the engine keeps anything for. -/
def Node.livePts (n : Node) : List (Nat × Pt) := n.alm.pts

/-- The block source reads true. -/
def Node.blkTrue (n : Node) (g : Nat) : Bool :=
  n.on (Fd.ALM_AGCFG_BLKEN g) &&
  (let k := n.fd (Fd.ALM_AGCFG_BLKSRC g)
   if n.on (Fd.ALM_AGCFG_BLKKIND g) then ((n.pt k).under == 2 || (n.pt k).under == 3)
   else n.pad k == n.on (Fd.ALM_AGCFG_BLKLVL g))

/-- The end of RELEASING (R196). -/
def Node.blkRelease (n : Node) (g : Nat) : Node :=
  if n.on (Fd.ALM_AGSTAT_RELEASING g) && !n.blkTrue g &&
      (n.grp g).relAt + n.fd (Fd.ALM_AGREL_BLKREL g) * 50 ≤ n.tick then
    ((n.setOn (Fd.ALM_AGSTAT_RELEASING g) false).almRing 77).grpRecord g 1 0 (n.foOf g) .s4
  else n

/-- The block state of a group at stage S4. -/
def Node.blockLogic (n : Node) (g : Nat) : Node :=
  if n.blkTrue g then
    if n.on (Fd.ALM_AGSTAT_BLOCKED g) then n
    else if n.on (Fd.ALM_AGSTAT_RELEASING g) then n.setFds [(Fd.ALM_AGSTAT_RELEASING g, 0), (Fd.ALM_AGSTAT_BLOCKED g, 1)]
    else ((n.setOn (Fd.ALM_AGSTAT_BLOCKED g) true).almRing 77).grpRecord g 0 0 (n.foOf g) .s4
  else
    let n := if n.on (Fd.ALM_AGSTAT_BLOCKED g) then
        (n.setFds [(Fd.ALM_AGSTAT_RELEASING g, 1), (Fd.ALM_AGSTAT_BLOCKED g, 0)]).setGrp g { n.grp g with relAt := n.tick }
      else n
    n.blkRelease g

/-- FOMODE=AUTO: every point of the group is NORMAL, SHELVED or BLOCKED (R197). -/
def Node.foLogic (n : Node) (g : Nat) : Node :=
  if n.on (Fd.ALM_AGSTAT_FOVALID g) && n.k (Kid.fomode g) = 0#32 &&
      n.livePts.all (fun x => x.2.grp != g || x.2.shown == 0 || x.2.shown == 5 || x.2.shown == 6) then n.clearFo g 0 .s4
  else n

/-! ### Calling (R201 to R203) -/

/-- The group is calling. -/
def Node.calling (n : Node) (g : Nat) : Bool :=
  n.on (Fd.ALM_AGCFG_CALL g) &&
  n.livePts.any (fun x => x.2.grp == g && (x.2.shown == 2 || (n.on (Fd.ALM_AGCFG_FAULTCALL g) && x.2.shown == 7 && x.2.unack)))

/-- The station of a stage. -/
def Node.callStation (n : Node) (st : Nat) : Nat :=
  if st = 1 then n.fd Fd.CALL_TO_DUTYTO else if st = 2 then n.fd Fd.CALL_TO_ALLTO else n.fd Fd.CALL_TO_BRIDGETO

/-- Queues the call frame of the group's stage; station 0 receives none. -/
def Node.callFrame (n : Node) (g st : Nat) : Node :=
  let dst := n.callStation st
  let n := n.setGrp g { n.grp g with sentAt := n.tick }
  if dst = 0 then n
  else
    let n := n.setGrp g { n.grp g with sentTo := if (n.grp g).sentTo.contains dst then (n.grp g).sentTo else (n.grp g).sentTo ++ [dst] }
    { n with alm := { n.alm with calls := n.alm.calls ++ [⟨dst, g, st⟩] } }
/-- One cancel frame to every station that received a call. -/
def Node.callCancel (n : Node) (g : Nat) : Node :=
  let outs := (n.grp g).sentTo.map (fun dst => (⟨dst, g, 0⟩ : CallOut))
  { n.setGrp g { n.grp g with sentTo := [] } with alm := { (n.setGrp g { n.grp g with sentTo := [] }).alm with calls := n.alm.calls ++ outs } }

/-- The group's stage changes: record, source 78, notice and frames. -/
def Node.callStage (n : Node) (g st cause : Nat) (w : Wh) : Node :=
  if n.fd (Fd.ALM_AGSTAT_STAGE g) = st then n
  else
    let n := ((n.setFds [(Fd.ALM_AGSTAT_STAGE g, st), (Fd.ALM_EVT_STAGE, 1)]).almRing 78).grpRecord g 2 cause (n.foOf g) w
    let n := n.notify .alm [.w "ALM CALL", .w ("AG" ++ toString g), .w (stageName st)]
    if st = 0 then n.callCancel g else n.callFrame g st

/-- The stage a calling group has reached (R201): a stage once reached is kept while the group calls. -/
def Node.stageNow (n : Node) (g : Nat) : Nat :=
  let el := n.tick - (n.grp g).callAt
  let t := fun (k : Nat) => k ≠ 0 && k * 50000 ≤ el
  let st := if t (n.fd Fd.CALL_T_T2) then 3 else if t (n.fd Fd.CALL_T_T1) then 2 else 1
  Nat.max st (n.fd (Fd.ALM_AGSTAT_STAGE g))

/-- The entry to DORMANT has released the call lines (R209): until the wake the call logic stands. -/
def Node.callsHeld (n : Node) : Bool :=
  match n.sys.sleep with
  | some z => 5 ≤ z.step
  | none => false

/-- The call logic of a group at stage S4. A group that was calling when the node entered DORMANT restarts at DUTY, and
its frame, cancelled at the entry, is sent again (R209, R203). -/
def Node.callLogic (n : Node) (g : Nat) : Node :=
  let again := (n.grp g).again
  let n := if again then n.setGrp g { n.grp g with again := false } else n
  if n.callsHeld then n
  else if n.calling g then
    if n.fd (Fd.ALM_AGSTAT_STAGE g) = 0 || again then
      let same := n.fd (Fd.ALM_AGSTAT_STAGE g) == 1
      let n := n.setGrp g { n.grp g with callAt := n.tick }
      if same then n.callFrame g 1 else n.callStage g 1 0 .s4
    else n.callStage g (n.stageNow g) 0 .s4
  else n.callStage g 0 0 .s4

/-- The acknowledgement pin of a group: how long it has been high since it rose (R200). -/
def Node.pinTrack (n : Node) (g : Nat) : Node :=
  let k := n.fd (Fd.ALM_AGCFG_ACKPIN g)
  if 48 ≤ k then n
  else
    let x := n.grp g
    n.setGrp g (if !n.pad k then { x with pinCnt := 0, pinWas := false }
      else if !x.pinWas then { x with pinCnt := 1, pinWas := true }
      else if x.pinCnt = 0 then x else { x with pinCnt := x.pinCnt + 1 })

/-- The groups whose logic can act. -/
def Node.liveGroups (n : Node) : List Nat :=
  (List.range 64).filter (fun g => n.on (Fd.ALM_AGCFG_BLKEN g) || n.rd (Ad.ALM_AGSTAT g) != 0#32 ||
    n.fd (Fd.ALM_AGCFG_ACKPIN g) < 48 || n.livePts.any (fun x => x.2.grp == g))

/-! ### Stages -/

/-- The engine's state: 0 OFF, 1 ON, 2 DRAINING. -/
def Node.almOn (n : Node) : Bool := n.fd Fd.ALM_STAT_STATE == 1

/-- ALM.SWEEP counts every beat (R183). -/
def Node.almBeat (n : Node) : Node :=
  let n := { n with alm := { n.alm with rung := [] } }
  if n.sys.phase = .loaded then n.setFd Fd.ALM_SWEEP_COUNT ((n.fd Fd.ALM_SWEEP_COUNT + 1) % 64) else n

/-- The engine evaluates in this beat: it is ON, or ENGINE=OFF was taken in the beat, whose slice completes (R210). -/
def Node.almWorks (n : Node) : Bool := n.almOn || (n.fd Fd.ALM_STAT_STATE == 2 && n.alm.drainTick == n.tick)

/-- Stage S4 (R183): the 16 points of the slot in ascending order, then the group and call logic of every group. The
acknowledgement pins are followed whatever the engine's state: a press that no engine takes counts as ignored (R199). -/
def Node.almS4 (n : Node) : Node :=
  let n :=
    if n.almWorks then
      let s := n.fd Fd.ALM_SWEEP_COUNT
      let n := (List.range 16).foldl (fun n j => n.evalPoint (16 * s + j)) n
      n.liveGroups.foldl (fun n g => ((n.blockLogic g).foLogic g).callLogic g) n
    else n
  (List.range 64).foldl Node.pinTrack n

/-- The registers of other helpers that an evaluation reads (Table 7-1). -/
def seenRegs : List Nat :=
  (List.range 24).map Ad.UC_VAL ++ (List.range 8).map Ad.LO_RB ++ (List.range 8).map Ad.LO_STAT ++ (List.range 30).map gridReg ++
  [Fd.GRID_RFLAGS_CLIP.addr, Ad.GP_GPIN0, Ad.GP_GPIN1]
/-- What the alarm engine finds now. -/
def Node.seeing (n : Node) : Seen := ⟨seenRegs.map (fun a => (a, n.rd a)), n.uc.ch, n.alm.peers⟩
/-- The node with what an evaluation reads as it stood. -/
def Node.asSeen (n : Node) (z : Seen) : Node :=
  let n := z.regs.foldl (fun (n : Node) (x : Nat × Word) => n.wr x.1 x.2) n
  { n with uc := { n.uc with ch := z.chans }, alm := { n.alm with peers := z.peers } }
/-- The work of an engine that is late: it uses what stood at stage S4, not what has been published since (R19, R59). -/
def Node.almLate (n : Node) : Node :=
  match n.alm.late with
  | none => n.almS4
  | some z =>
    let now := n.seeing
    let n := (n.asSeen z).almS4
    let n := n.asSeen now
    { n with alm := { n.alm with late := none } }

/-- Every call is withdrawn, with its record, notice and cancel frames (R201, R203, R210). -/
def Node.callsOff (n : Node) : Node := (List.range 64).foldl (fun n g => n.callStage g 0 8 .s5) n

/-- The lines asserted: the masks of the stages reached are cumulative (R202); none once the entry to DORMANT has released
them (R209). -/
def Node.linesNow (n : Node) : Nat :=
  if n.callsHeld then 0 else (List.range 64).foldl (fun a g =>
    let st := n.fd (Fd.ALM_AGSTAT_STAGE g)
    let a := if 1 ≤ st then a ||| n.fd Fd.CALL_MASK_DUTY else a
    let a := if 2 ≤ st then a ||| n.fd Fd.CALL_MASK_ALL else a
    if 3 ≤ st then a ||| n.fd Fd.CALL_MASK_BRIDGE else a) 0

/-- Stage S5: the end of a drain (R210). -/
def Node.almS5 (n : Node) : Node :=
  let n := { n with alm := { n.alm with pulse := qnsOf n.tm.t0 < 2000000000 } }
  if n.fd Fd.ALM_STAT_STATE = 2 && n.alm.drainTick < n.tick then (n.callsOff.setFd Fd.ALM_STAT_STATE 0).almRing 82 else n

/-- Stage S6 takes the records that the engine raised in the beat into the intake queue (R20); a point record that is lost
there has its alarm-state frame queued now, with accession 0 (R259). -/
def Node.intakeStaged (n : Node) : Node :=
  let es := n.arc.staged
  let n := { n with arc := { n.arc with staged := [] } }
  es.foldl (fun (n : Node) (e : Entry) =>
    let r := n.offer e
    if r.2 = .queued || e.code != 0x060 then r.1
    else
      let st : Nat × Nat × Nat × Nat := (natLE (e.payload.take 2), (e.payload.getD 2 0#8).toNat, (e.payload.getD 3 0#8).toNat, 0)
      { r.1 with alm := { r.1.alm with stateOut := r.1.alm.stateOut ++ [st] } }) n

/-- The level that line k drives: in PULSE mode only in the first 500 ms of the second, inverted as POL sets (R202). -/
def Node.callLevel (n : Node) (k : Nat) : Bool :=
  let on := (n.fd Fd.CALL_LINES_LINES).testBit k && (!(n.fd Fd.CALL_MODE_PULSE).testBit k || n.alm.pulse)
  on != (n.fd Fd.CALL_MODE_INVERT).testBit k

/-! ### Acknowledgement (R199, R200, R212) -/

/-- 0 when the point can be acknowledged, 1 wrong state, 2 accession mismatch, 3 engine off. -/
def Node.ackTest (n : Node) (i : Nat) (acc : Option Nat) : Nat :=
  let p := n.pt i
  if !n.almOn then 3
  else if !p.isUnack then 1
  else match acc with
    | some a => if a = p.acc && p.acc ≠ 0 then 0 else 2
    | none => 0

/-- The acknowledgement of a point that can be. -/
def Node.ack (n : Node) (i cause : Nat) (w : Wh) : Node :=
  let p := n.pt i
  let n := if p.shown = 7 then n.ptMove i { p with unack := false } cause w true (some 8) false
    else if p.shown = 4 then n.ptMove i { p with under := 0, lvl := 0 } cause w false none false
    else n.ptMove i { p with under := 3 } cause w false none false
  n.almRing 74

/-- The points of a group that qualify for a group acknowledgement. -/
def Node.ackable (n : Node) (g : Nat) : List Nat :=
  ((n.livePts.filter (fun x => x.2.grp == g && x.2.isUnack &&
    x.2.entry + n.fd (Fd.ALM_AGCFG_ACKAGE g) * 5000 ≤ n.tick)).map (·.1))
def Node.ackGroup (n : Node) (g cause : Nat) (w : Wh) : Node := (n.ackable g).foldl (fun n i => n.ack i cause w) n

/-- The result of an Annex or POKE acknowledgement. -/
def Node.ackRes (n : Node) (r : Nat) : Node := n.setFd Fd.ALM_ACKRES_RES r

/-- Applies one waiting acknowledgement. -/
def Node.applyAck (n : Node) (a : AckReq) : Node :=
  let cause := if a.path = 1 then 2 else if a.path = 2 then 3 else 4
  let fail := fun (n : Node) (r : Nat) => if a.path = 3 then n.ackRes r else n.setOn Fd.ALM_EVT_IGNORED true
  if a.group then
    if !n.almOn then fail n 3
    else if 64 ≤ a.index then fail n 1
    else if (n.ackable a.index).isEmpty then (if a.path = 3 then n.ackRes 0 else fail n 1)
    else
      let n := n.ackGroup a.index cause .s7
      if a.path = 3 then n.ackRes 0 else n
  else match n.ackTest a.index a.acc with
    | 0 =>
      let n := n.ack a.index cause .s7
      if a.path = 3 then n.ackRes 0 else n
    | r => fail n r

/-- Stage S7: acknowledgements in the order pin, frame, Annex (R212). -/
def Node.almS7 (n : Node) : Node :=
  let as := n.alm.acks
  let n := { n with alm := { n.alm with acks := [] } }
  [1, 2, 3].foldl (fun n k => (as.filter (fun a => a.path == k)).foldl (fun n a => n.applyAck a) n) n

/-- An acknowledgement that waits for stage S7. -/
def Node.queueAck (n : Node) (a : AckReq) : Node := { n with alm := { n.alm with acks := n.alm.acks ++ [a] } }
/-- A write to ALM.ACK (Table 7-4). -/
def Node.ackWrite (n : Node) (v : Word) : Node :=
  let acc := if v.getLsbD 17 then some (n.rd Ad.ALM_ACKACC).toNat else none
  n.queueAck ⟨3, v.getLsbD 16, v.toNat % 1024, acc⟩

/-! ### Shelving (R198) -/

def Node.shelve (n : Node) (i secs cause : Nat) (w : Wh) : Node :=
  n.ptMove i { n.pt i with shelf := some (n.tick + secs * 50000), shelfLen := secs * 50000 } cause w true none false
/-- The release of a shelved point into its underlying state. -/
def Node.unshelve (n : Node) (i cause : Nat) (w : Wh) : Node :=
  let p := { n.pt i with shelf := none }
  let p := { p with unack := p.unack || (p.fault && !p.blocked) }
  n.ptMove i p.released cause w true none false

/-! ### Events -/

/-- A running delay of the kind has reached its delay: the evaluation at which it expires (R188). -/
def Node.delayDue (n : Node) (i kind : Nat) : Bool :=
  let p := n.pt i
  let lim := if kind = 1 then n.fd (Fd.ALM_ONDLY_ON i) else n.fd (Fd.ALM_OFFDLY_OFF i)
  n.working && n.almOn && i < 1024 && p.dly == kind && lim * 50 ≤ p.count + (n.tick - p.lastEval) && p.lastEval < n.tick &&
    n.fd Fd.ALM_SWEEP_COUNT == i / 16

def execOnDelayExpiry (i : Nat) (s : State) : Host.Outcome State Fault Refusal :=
  s.lift fun n => if n.delayDue i 1 then n.evalPoint i else n
def execOffDelayExpiry (i : Nat) (s : State) : Host.Outcome State Fault Refusal :=
  s.lift fun n => if n.delayDue i 2 then n.evalPoint i else n
def execBlockRelease (g : Nat) (s : State) : Host.Outcome State Fault Refusal :=
  s.lift fun n => if n.working && n.almOn && g < 64 then n.blkRelease g else n
def execShelvingExpiry (i : Nat) (s : State) : Host.Outcome State Fault Refusal :=
  s.lift fun n => match (n.pt i).shelf with
    | some t => if n.working && n.almOn && i < 1024 && t ≤ n.tick then (n.unshelve i 5 .s4).almRing 76 else n
    | none => n
/-- ACKPIN has been high for 20 ms since it rose (R200). -/
def execAckPin (g : Nat) (s : State) : Host.Outcome State Fault Refusal :=
  s.lift fun n =>
    if n.working && g < 64 && 1000 ≤ (n.grp g).pinCnt then
      (n.setGrp g { n.grp g with pinCnt := 0 }).queueAck ⟨1, true, g, none⟩
    else n
def execCallEscalation (g : Nat) (s : State) : Host.Outcome State Fault Refusal :=
  s.lift fun n =>
    if n.working && n.almOn && g < 64 && n.fd (Fd.ALM_AGSTAT_STAGE g) ≠ 0 && n.calling g && !n.callsHeld && !(n.grp g).again then n.callStage g (n.stageNow g) 0 .s4 else n
def execCallPulseEnd (m : Moment) (s : State) : Host.Outcome State Fault Refusal :=
  s.lift fun n =>
    if n.working && 2000000000 ≤ qnsOf (n.now m) then { n with alm := { n.alm with pulse := false } } else n
def execCallFrameRepeat (g : Nat) (s : State) : Host.Outcome State Fault Refusal :=
  s.lift fun n =>
    let st := n.fd (Fd.ALM_AGSTAT_STAGE g)
    if n.working && n.almOn && g < 64 && st ≠ 0 && !n.callsHeld && (n.grp g).sentAt + n.fd Fd.CALL_TO_CALLREP * 50000 ≤ n.tick then n.callFrame g st
    else n
/-- A peer value that point i watches is older than AGE (Table 7-9); the point's next evaluation finds it FAULT. -/
def execPeerValueAge (i : Nat) (s : State) : Host.Outcome State Fault Refusal :=
  s.lift fun n =>
    let p := n.pt i
    if n.working && n.almOn && i < 1024 && n.on (Fd.ALM_PCFG_ENABLE i) && !p.aged && (n.pointSrc i).aged then
      (n.putPt i { p with aged := true }).almRing 80
    else n

/-! ### Keys of AP (R204, Table 7-6) -/

def limForm : Form := .flt (q (-1000000)) (q 1000000) [("NONE", 0x7FC00000)]
/-- The keys held in registers as they stand. -/
def apSpecs : List KeySpec := [
  ks "ENABLE" onOff Fd.ALM_PCFG_ENABLE, ks "AGE" (.fix (q 10) (q 60000) (q 10) (q 0)) Fd.ALM_PSRC2_AGE,
  ks "HH" limForm Fd.ALM_HH_HH, ks "H" limForm Fd.ALM_H_H, ks "L" limForm Fd.ALM_L_L, ks "LL" limForm Fd.ALM_LL_LL,
  ks "HYS" (.flt (q 0) (q 1000000) []) Fd.ALM_HYS_HYS, ks "ON" (.int 0 600000) Fd.ALM_ONDLY_ON,
  ks "OFF" (.int 0 600000) Fd.ALM_OFFDLY_OFF, ks "ALMLVL" (.int 0 1) Fd.ALM_PCFG_ALMLVL, ks "GRP" (.int 0 63) Fd.ALM_PCFG_GRP,
  ks "BLK" onOff Fd.ALM_PCFG_BLK]
def apAll : List KeySpec := apSpecs ++ [kk "SRC" (.src true) (fun _ => 0), kk "MINUS" (.src false) (fun _ => 0)]
def apSrcKeys : List String := ["SRC", "MINUS"]

/-- Point i with a line's keys. -/
def Node.apApply (n : Node) (keys : Keys) (i : Nat) : Node :=
  let n' := n.setKeys apSpecs i (keys.filter (fun p => !apSrcKeys.contains p.1))
  let n' := match keyNum apAll keys "SRC" with
    | some 0 => (n'.setFds [(Fd.ALM_PCFG_KINDA i, 0), (Fd.ALM_PCFG_SRCA i, 0)]).setK (Kid.apSrc i) 0#32
    | some c => (n'.setFds [(Fd.ALM_PCFG_KINDA i, (c - 1) / 65536), (Fd.ALM_PCFG_SRCA i, (c - 1) % 65536)]).setK (Kid.apSrc i) 1#32
    | none => n'
  let n' := match keyNum apAll keys "MINUS" with
    | some 0 => n'.setFd (Fd.ALM_PCFG_DIFF i) 0
    | some c => n'.setFds [(Fd.ALM_PCFG_DIFF i, 1), (Fd.ALM_PSRC2_KINDB i, (c - 1) / 65536), (Fd.ALM_PSRC2_SRCB i, (c - 1) % 65536)]
    | none => n'
  if n'.rd (Ad.ALM_PCFG i) = n.rd (Ad.ALM_PCFG i) && n'.rd (Ad.ALM_PSRC2 i) = n.rd (Ad.ALM_PSRC2 i) &&
    n'.k (Kid.apSrc i) = n.k (Kid.apSrc i) then n' else n'.dirty

/-- The limits set satisfy LL < L < H < HH. -/
def Node.limitsOk (n : Node) (i : Nat) : Bool :=
  let l := ([Ad.ALM_LL i, Ad.ALM_L i, Ad.ALM_H i, Ad.ALM_HH i].map (fun a => f32Val (n.rd a))).filterMap id
  (l.zip (l.drop 1)).all (fun (a, b) => Q.lt a b)
/-- The combinations that R204 refuses. -/
def Node.apCombos (n : Node) (i : Nat) : Bool :=
  n.limitsOk i && !(n.fd (Fd.ALM_PCFG_KINDA i) == 3 && n.on (Fd.ALM_PCFG_DIFF i) && n.k (Kid.apSrc i) != 0#32) &&
  !(n.on (Fd.ALM_PCFG_ENABLE i) && n.k (Kid.apSrc i) == 0#32)

def apCheck (keys : Keys) (n : Node) (is : List Nat) : Except Err Unit := do
  checkKeys apAll [] keys
  if is.any (fun i => !(n.apApply keys i).apCombos i) then refuse 205
  if n.fd Fd.ALM_STAT_STATE = 0 then refuse 303

/-- After a change of point i's settings: ENABLE, SRC, MINUS or GRP returns it to NORMAL at its next evaluation (R204). -/
def Node.apChanged (old n : Node) (i : Nat) : Node :=
  let src := fun (m : Node) => (m.rd (Ad.ALM_PCFG i) &&& 0xFFE0FFFF#32, m.rd (Ad.ALM_PSRC2 i) &&& 0x7FFFF#32, m.k (Kid.apSrc i))
  let en := n.on (Fd.ALM_PCFG_ENABLE i)
  let was := old.on (Fd.ALM_PCFG_ENABLE i)
  let p := n.pt i
  if !en && !was then n
  else if src n = src old then n
  else if en && !was then n.putPt i { p with reconf := some 7, enabledAt := n.tick }
  else n.putPt i { p with reconf := some (if en then 7 else 8) }

def setApUnit (keys : Keys) (i : Nat) (n : Node) : Except Err (Node × List (List Item)) := do
  apCheck keys n [i]
  pure (Node.apChanged n (n.apApply keys i) i, [])

def execSetAp (l : Line) (s : State) : Host.Outcome State Fault Refusal :=
  s.lift fun n => n.runMulti l verbSet .ap 1024 (.set .ap l.keys) (apCheck l.keys) (setApUnit l.keys)

/-! ### The engine (R210) -/

/-- ENGINE=ON: every enabled point returns to NORMAL at its first evaluation, and first-outs are cleared, each with its record
(R197; the cause is log entry 84's); ENGINE=OFF drains. -/
def Node.engineSet (n : Node) (on : Bool) : Node :=
  if on then
    if n.almOn then n
    else
      let n := n.setFd Fd.ALM_STAT_STATE 1
      let n := (List.range 64).foldl (fun n g => n.clearFo g 7 .cmd) n
      n.livePts.foldl (fun n x => if n.on (Fd.ALM_PCFG_ENABLE x.1) then n.putPt x.1 { n.pt x.1 with reconf := some 7, dly := 0, count := 0 } else n) n
  else if n.almOn then { n.setFd Fd.ALM_STAT_STATE 2 with alm := { n.alm with drainTick := n.tick } }
  else n

def engineSpecs : List KeySpec := [ks "ENGINE" onOff (fun _ => Fd.ALM_CTRL_ENGINE)]

def execSetApEngine (l : Line) (s : State) : Host.Outcome State Fault Refusal :=
  s.lift fun n => n.runWhole l .ap (fun n => do
      checkKeys engineSpecs ["ENGINE"] l.keys
      if n.fd Fd.ALM_STAT_STATE = 0 && keyNum engineSpecs l.keys "ENGINE" = some 0 then refuse 303)
    (fun n =>
      let n := n.setKeys engineSpecs 0 l.keys
      .ok (n.engineSet (n.on Fd.ALM_CTRL_ENGINE), []))

/-! ### Keys of AG and CALL (R205, R206) -/

def agSpecs : List KeySpec := [
  ks "CALL" onOff Fd.ALM_AGCFG_CALL, ks "FAULTCALL" onOff Fd.ALM_AGCFG_FAULTCALL,
  kk "FOMODE" (.enum [("AUTO", 0), ("MANUAL", 1)]) Kid.fomode,
  ks "ACKAGE" (.fix (q 0) (q 10) (qd 1 1) (q 0)) Fd.ALM_AGCFG_ACKAGE,
  ks "ACKPIN" (.enum ((List.range 48).map (fun i => (srcName 3 i, i)) ++ [("NONE", 63)])) Fd.ALM_AGCFG_ACKPIN,
  ks "BLKLVL" (.int 0 1) Fd.ALM_AGCFG_BLKLVL, ks "BLKREL" (.int 0 600000) Fd.ALM_AGREL_BLKREL]
def agAll : List KeySpec := agSpecs ++ [kk "BLKSRC" .blk (fun _ => 0)]

def Node.agApply (n : Node) (keys : Keys) (g : Nat) : Node :=
  let n' := n.setKeys agSpecs g (keys.filter (fun p => p.1 != "BLKSRC"))
  match keyNum agAll keys "BLKSRC" with
  | some 0 => (n'.setFd (Fd.ALM_AGCFG_BLKEN g) 0).dirty
  | some c => (n'.setFds [(Fd.ALM_AGCFG_BLKEN g, 1), (Fd.ALM_AGCFG_BLKKIND g, (c - 1) / 65536),
      (Fd.ALM_AGCFG_BLKSRC g, (c - 1) % 65536)]).dirty
  | none => n'

/-- The checks of the AG and CALL lines: an engine that is OFF refuses them (R210). -/
def engineNeeded (n : Node) : Except Err Unit := if n.fd Fd.ALM_STAT_STATE = 0 then refuse 303 else .ok ()

def agCheck (keys : Keys) (n : Node) (_ : List Nat) : Except Err Unit := do
  checkKeys agAll [] keys
  engineNeeded n
def setAgUnit (keys : Keys) (g : Nat) (n : Node) : Except Err (Node × List (List Item)) := do
  agCheck keys n [g]
  pure (n.agApply keys g, [])
def execSetAg (l : Line) (s : State) : Host.Outcome State Fault Refusal :=
  s.lift fun n => n.runMulti l verbSet .ag 64 (.set .ag l.keys) (agCheck l.keys) (setAgUnit l.keys)

def clForm : Form := .flags ((List.range 8).map (fun k => ("CL" ++ toString k, k))) 0
def callSpecs : List KeySpec := [
  ks "DUTY" clForm (fun _ => Fd.CALL_MASK_DUTY), ks "ALL" clForm (fun _ => Fd.CALL_MASK_ALL),
  ks "BRIDGE" clForm (fun _ => Fd.CALL_MASK_BRIDGE), ks "T1" (.int 0 3600) (fun _ => Fd.CALL_T_T1),
  ks "T2" (.int 0 3600) (fun _ => Fd.CALL_T_T2), ks "DUTYTO" (.int 0 255) (fun _ => Fd.CALL_TO_DUTYTO),
  ks "ALLTO" (.int 0 255) (fun _ => Fd.CALL_TO_ALLTO), ks "BRIDGETO" (.int 0 255) (fun _ => Fd.CALL_TO_BRIDGETO),
  ks "CALLREP" (.int 1 255) (fun _ => Fd.CALL_TO_CALLREP)]
def callLineSpecs : List KeySpec := [
  ks "MODE" (.enum [("STEADY", 0), ("PULSE", 1)]) (fun k => ⟨Ad.CALL_MODE, k, k⟩),
  ks "POL" (.enum [("HIGH", 0), ("LOW", 1)]) (fun k => ⟨Ad.CALL_MODE, 8 + k, 8 + k⟩)]

/-- With both times non-zero, T2 exceeds T1 (R206). -/
def Node.callTimesOk (n : Node) : Bool :=
  n.fd Fd.CALL_T_T1 == 0 || n.fd Fd.CALL_T_T2 == 0 || n.fd Fd.CALL_T_T1 < n.fd Fd.CALL_T_T2

def execSetCall (l : Line) (s : State) : Host.Outcome State Fault Refusal :=
  s.lift fun n => n.runWhole l .call (fun n => do
      checkKeys callSpecs [] l.keys
      if !(n.setKeys callSpecs 0 l.keys).callTimesOk then refuse 205
      engineNeeded n)
    (fun n => .ok (n.setKeys callSpecs 0 l.keys, []))

def setCallUnit (keys : Keys) (k : Nat) (n : Node) : Except Err (Node × List (List Item)) := do
  checkKeys callLineSpecs [] keys
  engineNeeded n
  pure (n.setKeys callLineSpecs k keys, [])
def execSetCallLine (l : Line) (s : State) : Host.Outcome State Fault Refusal :=
  s.lift fun n => n.runMulti l verbSet .call 8 (.set .call l.keys) (fun n _ => do
      checkKeys callLineSpecs [] l.keys
      engineNeeded n) (setCallUnit l.keys)

/-! ### Queries (R207) -/

def execGetAp (l : Line) (s : State) : Host.Outcome State Fault Refusal :=
  s.lift fun n => n.runRead l (fun n => do
    let is ← l.items 1024
    onlyKeys [] [] l.keys
    pure (is.map n.apLine))

def execGetAg (l : Line) (s : State) : Host.Outcome State Fault Refusal :=
  s.lift fun n => n.runRead l (fun n => do
    let gs ← l.items 64
    onlyKeys [] [] l.keys
    pure (gs.map (fun g => [.w "AG", .n g, .w "STAGE", .w (stageName (n.fd (Fd.ALM_AGSTAT_STAGE g))), .w "BLOCK",
      .w (if n.on (Fd.ALM_AGSTAT_BLOCKED g) then "BLOCKED" else if n.on (Fd.ALM_AGSTAT_RELEASING g) then "RELEASING" else "NONE"),
      .w "FO", .w (if n.on (Fd.ALM_AGSTAT_FOVALID g) then "AP" ++ toString (n.fd (Fd.ALM_AGSTAT_FOPOINT g)) else "NONE"),
      .w "UNACK", .n (n.fd (Fd.ALM_AGSTAT_UNACK g))])))

def execGetCall (l : Line) (s : State) : Host.Outcome State Fault Refusal :=
  s.lift fun n => n.runRead l (fun n => do
    l.bare
    onlyKeys [] [] l.keys
    let ks := (List.range 8).filter (fun k => (n.fd Fd.CALL_LINES_LINES).testBit k)
    pure [[.w "CALL LINES", listItem (ks.map (fun k => "CL" ++ toString k))]])

def execShowAp (l : Line) (s : State) : Host.Outcome State Fault Refusal :=
  s.lift fun n => n.runRead l (fun n => do
    onlyKeys [] [] l.keys
    match l.idx with
    | none => pure [.w "AP" :: n.showKeys engineSpecs 0]
    | some _ =>
      let is ← l.items 1024
      pure (is.map (fun i => [.w "AP", .n i] ++ n.showKeys apSpecs i ++
        [.w "SRC", .w (if n.k (Kid.apSrc i) = 0#32 then "NONE" else srcName (n.fd (Fd.ALM_PCFG_KINDA i)) (n.fd (Fd.ALM_PCFG_SRCA i))),
         .w "MINUS", .w (if n.on (Fd.ALM_PCFG_DIFF i) then srcName (n.fd (Fd.ALM_PSRC2_KINDB i)) (n.fd (Fd.ALM_PSRC2_SRCB i)) else "NONE")])))

def execShowAg (l : Line) (s : State) : Host.Outcome State Fault Refusal :=
  s.lift fun n => n.runRead l (fun n => do
    let gs ← l.items 64
    onlyKeys [] [] l.keys
    pure (gs.map (fun g => [.w "AG", .n g] ++ n.showKeys agSpecs g ++ [.w "BLKSRC"] ++
      Form.blk.shows (if n.on (Fd.ALM_AGCFG_BLKEN g) then
        1 + n.fd (Fd.ALM_AGCFG_BLKKIND g) * 65536 + n.fd (Fd.ALM_AGCFG_BLKSRC g) else 0))))

def execShowCall (l : Line) (s : State) : Host.Outcome State Fault Refusal :=
  s.lift fun n => n.runRead l (fun n => do
    onlyKeys [] [] l.keys
    match l.idx with
    | none => pure ([.w "CALL" :: n.showKeys callSpecs 0] ++
        (List.range 8).map (fun k => [.w "CALL", .n k] ++ n.showKeys callLineSpecs k))
    | some _ =>
      let is ← l.items 8
      pure (is.map (fun k => [.w "CALL", .n k] ++ n.showKeys callLineSpecs k)))

def execWatchAp (l : Line) (s : State) : Host.Outcome State Fault Refusal :=
  s.lift fun n => n.runWatch l .ap "" ((l.items 1024).map (·.map some))

/-! ### Actions -/

def apAckSpecs : List KeySpec := [kk "ACC" (.big 0 0xFFFFFFFF) (fun _ => 0)]
def apShelveSpecs : List KeySpec := [kk "TIME" (.big 1 0xFFFFFFFF) (fun _ => 0)]

def ackErr (r : Nat) : Except Err Unit :=
  match r with
  | 0 => .ok ()
  | 2 => .error ⟨308, [.w "ACCESSION"]⟩
  | 3 => refuse 303
  | _ => refuse 308

def apAckCheck (keys : Keys) (n : Node) (is : List Nat) : Except Err Unit := do
  checkKeys apAckSpecs [] keys
  engineNeeded n
  is.forM (fun i => ackErr (n.ackTest i (keyNum apAckSpecs keys "ACC")))
def apAckUnit (keys : Keys) (i : Nat) (n : Node) : Except Err (Node × List (List Item)) := do
  apAckCheck keys n [i]
  pure (n.ack i 1 .cmd, [])
def execDoApAck (l : Line) (s : State) : Host.Outcome State Fault Refusal :=
  s.lift fun n => n.runMulti l verbDo .ap 1024 (.act .ap "ACK" l.keys) (apAckCheck l.keys) (apAckUnit l.keys)

def agActCheck (keys : Keys) (n : Node) (_ : List Nat) : Except Err Unit := do
  onlyKeys [] [] keys
  engineNeeded n
def agAckUnit (keys : Keys) (g : Nat) (n : Node) : Except Err (Node × List (List Item)) := do
  agActCheck keys n [g]
  let k := (n.ackable g).length
  pure (n.ackGroup g 1 .cmd, [[.w "ACKED", .w ("AG" ++ toString g), .n k]])
def execDoAgAck (l : Line) (s : State) : Host.Outcome State Fault Refusal :=
  s.lift fun n => n.runMulti l verbDo .ag 64 (.act .ag "ACK" l.keys) (agActCheck l.keys) (agAckUnit l.keys)

def execAlmAckWrite (v : Word) (s : State) : Host.Outcome State Fault Refusal :=
  s.lift fun n => if n.working then n.ackWrite v else n

def apShelveCheck (keys : Keys) (n : Node) (_ : List Nat) : Except Err Unit := do
  checkKeys apShelveSpecs ["TIME"] keys
  engineNeeded n
def apShelveUnit (keys : Keys) (i : Nat) (n : Node) : Except Err (Node × List (List Item)) := do
  apShelveCheck keys n [i]
  pure (n.shelve i ((keyNum apShelveSpecs keys "TIME").getD 0) 1 .cmd, [])
def execDoApShelve (l : Line) (s : State) : Host.Outcome State Fault Refusal :=
  s.lift fun n => n.runMulti l verbDo .ap 1024 (.act .ap "SHELVE" l.keys) (apShelveCheck l.keys) (apShelveUnit l.keys)

/-- UNSHELVE of a point that is not shelved changes nothing (the spec names no refusal). -/
def apUnshelveUnit (keys : Keys) (i : Nat) (n : Node) : Except Err (Node × List (List Item)) := do
  agActCheck keys n [i]
  pure (if (n.pt i).shelf.isSome then n.unshelve i 1 .cmd else n, [])
def execDoApUnshelve (l : Line) (s : State) : Host.Outcome State Fault Refusal :=
  s.lift fun n => n.runMulti l verbDo .ap 1024 (.act .ap "UNSHELVE" l.keys) (agActCheck l.keys) (apUnshelveUnit l.keys)

def agForesetUnit (keys : Keys) (g : Nat) (n : Node) : Except Err (Node × List (List Item)) := do
  agActCheck keys n [g]
  pure (n.clearFo g 1 .cmd, [])
def execDoAgForeset (l : Line) (s : State) : Host.Outcome State Fault Refusal :=
  s.lift fun n => n.runMulti l verbDo .ag 64 (.act .ag "FORESET" l.keys) (agActCheck l.keys) (agForesetUnit l.keys)

/-! ### Register writes (R208) -/

def srcOk (kind k : Nat) (gp : Bool) : Bool :=
  match kind with
  | 0 => k < 24 | 1 => k < 8 | 2 => k < 30 | 3 => gp && k < 48 | 4 => 1 ≤ k / 256 && k / 256 ≤ 254 | _ => false
def limOk (w : Word) : Bool := nanOr (q (-1000000)) (q 1000000) w

def Node.apRegOk (n : Node) (i : Nat) : Bool :=
  srcOk (n.fd (Fd.ALM_PCFG_KINDA i)) (n.fd (Fd.ALM_PCFG_SRCA i)) true &&
  (!n.on (Fd.ALM_PCFG_DIFF i) || srcOk (n.fd (Fd.ALM_PSRC2_KINDB i)) (n.fd (Fd.ALM_PSRC2_SRCB i)) false) &&
  n.fd (Fd.ALM_PSRC2_KINDB i) ≤ 4 && n.fd (Fd.ALM_PSRC2_KINDB i) ≠ 3 && 1 ≤ n.fd (Fd.ALM_PSRC2_AGE i) && n.fd (Fd.ALM_PSRC2_AGE i) ≤ 6000 &&
  limOk (n.rd (Ad.ALM_HH i)) && limOk (n.rd (Ad.ALM_H i)) && limOk (n.rd (Ad.ALM_L i)) && limOk (n.rd (Ad.ALM_LL i)) &&
  within (q 0) (q 1000000) (n.rd (Ad.ALM_HYS i)) && n.fd (Fd.ALM_ONDLY_ON i) ≤ 600000 && n.fd (Fd.ALM_OFFDLY_OFF i) ≤ 600000 &&
  n.apCombos i
def Node.agRegOk (n : Node) (g : Nat) : Bool :=
  n.fd (Fd.ALM_AGCFG_ACKAGE g) ≤ 100 && n.fd (Fd.ALM_AGREL_BLKREL g) ≤ 600000 &&
  (!n.on (Fd.ALM_AGCFG_BLKEN g) || n.on (Fd.ALM_AGCFG_BLKKIND g) || n.fd (Fd.ALM_AGCFG_BLKSRC g) < 48)
def Node.callRegOk (n : Node) : Bool :=
  n.callTimesOk && n.fd Fd.CALL_T_T1 ≤ 3600 && n.fd Fd.CALL_T_T2 ≤ 3600 && 1 ≤ n.fd Fd.CALL_TO_CALLREP
/-- A refused write (R208). -/
def Node.almCfgErr (n : Node) : Node := (n.setOn Fd.ALM_EVT_CFGERR true).almRing 81

/-! ### REINIT (R211) -/

def apStored (i : Nat) : List Nat := [Ad.ALM_PCFG i, Ad.ALM_PSRC2 i, Ad.ALM_HH i, Ad.ALM_H i, Ad.ALM_L i, Ad.ALM_LL i, Ad.ALM_HYS i,
  Ad.ALM_ONDLY i, Ad.ALM_OFFDLY i]
/-- Reloads a setting without a register. -/
def Node.reloadKid (n : Node) (k : Nat) : Node := n.setK k (Bank.get (keyDefault k) n.image (kidAddr k))

/-- A point's settings as stored; limits out of order, or another combination a SET refuses, take reset values (R473). -/
def Node.apLoad (n : Node) (i : Nat) : Node :=
  let n' := (n.reloadRegs (apStored i)).reloadKid (Kid.apSrc i)
  if n'.apRegOk i then n'
  else
    let m := if n'.limitsOk i then n' else [Ad.ALM_HH i, Ad.ALM_H i, Ad.ALM_L i, Ad.ALM_LL i].foldl (fun m a => m.wr a (resetWord a)) n'
    (if m.apRegOk i then m else ((apStored i).foldl (fun m a => m.wr a (resetWord a)) m).setK (Kid.apSrc i) 0#32).almCfgErr

def Node.apReinit (n : Node) (i : Nat) : Node :=
  let old := n
  let n := n.apLoad i
  if n.on (Fd.ALM_PCFG_ENABLE i) || old.on (Fd.ALM_PCFG_ENABLE i) then
    let en := n.on (Fd.ALM_PCFG_ENABLE i)
    n.putPt i { n.pt i with reconf := some (if en then 7 else 8),
                            enabledAt := if old.on (Fd.ALM_PCFG_ENABLE i) then (n.pt i).enabledAt else n.tick }
  else n

def Node.agLoad (n : Node) (g : Nat) : Node :=
  let n' := (n.reloadRegs [Ad.ALM_AGCFG g, Ad.ALM_AGREL g]).reloadKid (Kid.fomode g)
  if n'.agRegOk g then n' else ([Ad.ALM_AGCFG g, Ad.ALM_AGREL g].foldl (fun m a => m.wr a (resetWord a)) n').almCfgErr
/-- Group g reloads; its block ends at once and its first-out is cleared. -/
def Node.agReinit (n : Node) (g : Nat) : Node :=
  let n := n.agLoad g
  let n := if n.on (Fd.ALM_AGSTAT_BLOCKED g) || n.on (Fd.ALM_AGSTAT_RELEASING g) then
      ((n.setFds [(Fd.ALM_AGSTAT_BLOCKED g, 0), (Fd.ALM_AGSTAT_RELEASING g, 0)]).almRing 77).grpRecord g 1 1 (n.foOf g) .cmd
    else n
  n.clearFo g 1 .cmd

def callStored : List Nat := [Ad.CALL_MASK, Ad.CALL_T, Ad.CALL_MODE, Ad.CALL_TO]
def Node.callLoad (n : Node) : Node :=
  let n' := n.reloadRegs callStored
  if n'.callRegOk then n' else (callStored.foldl (fun m a => m.wr a (resetWord a)) n').almCfgErr
/-- The call keys reload; each calling group restarts at DUTY. -/
def Node.callRestart (n : Node) (w : Wh) : Node :=
  (List.range 64).foldl (fun n g =>
    if n.fd (Fd.ALM_AGSTAT_STAGE g) = 0 then n
    else (n.setGrp g { n.grp g with callAt := n.tick }).callStage g 1 1 w) n
def Node.callReinit (n : Node) : Node := n.callLoad.callRestart .cmd

def execDoApReinit (l : Line) (s : State) : Host.Outcome State Fault Refusal :=
  s.lift fun n => n.runOpen l (fun n => do
    let is ← l.items 1024
    agActCheck l.keys n is
    n.mayWrite l.port .ap l.idx
    pure (n.startMr l verbDo .ap (.reinit .ap) is true))
def execDoAgReinit (l : Line) (s : State) : Host.Outcome State Fault Refusal :=
  s.lift fun n => n.runOpen l (fun n => do
    let is ← l.items 64
    agActCheck l.keys n is
    n.mayWrite l.port .ag l.idx
    pure (n.startMr l verbDo .ag (.reinit .ag) is true))
def execDoCallReinit (l : Line) (s : State) : Host.Outcome State Fault Refusal :=
  s.lift fun n => n.runOpen l (fun n => do
    l.bare
    agActCheck l.keys n []
    n.mayWrite l.port .call none
    pure (n.startMr l verbDo .call (.reinit .call) [0] false))

/-! ### Start-up, DORMANT and wake -/

/-- The store has loaded: the engine is ON as ENGINE says, points that are enabled start NORMAL, and the sweep counts
from 0 at the next beat (R183). -/
def Node.almLoad (n : Node) : Node :=
  let n := n.setFds [(Fd.ALM_STAT_STATE, n.fd Fd.ALM_CTRL_ENGINE), (Fd.ALM_SWEEP_COUNT, 63)]
  (List.range 1024).foldl (fun n i =>
    if n.on (Fd.ALM_PCFG_ENABLE i) then
      n.putPt i { enabledAt := n.tick, lastEval := n.tick, grp := n.fd (Fd.ALM_PCFG_GRP i) } else n) n
/-- The wake (R209): delay counts and shelving times restart; calling groups restart at DUTY at their next stage S4. -/
def Node.almWake (n : Node) : Node :=
  let n := (List.range 64).foldl (fun (n : Node) (g : Nat) =>
    if n.fd (Fd.ALM_AGSTAT_STAGE g) = 0 then n else n.setGrp g { n.grp g with again := true }) n
  n.livePts.foldl (fun n x =>
    let p := x.2
    n.putPt x.1 { p with count := 0, lastEval := n.tick, shelf := p.shelf.map (fun _ => n.tick + p.shelfLen) }) n

end Sys2Proof.Machine
end

