-- ==== Sys2Proof/Machine/Recv.lean ====
section
/-! DEFINITION. Lines as characters: the checks of steps 1 to 8 of R470, the checksum, the queue of waiting lines and
repeats (R31, R34 to R37, R41, R50, R51), and the characters of the lines the node sends. -/
namespace Sys2Proof.Machine

/-! ### Characters -/

def isHexDigit (c : Nat) : Bool := (48 ≤ c && c ≤ 57) || (65 ≤ c && c ≤ 70) || (97 ≤ c && c ≤ 102)
def isDigit (c : Nat) : Bool := 48 ≤ c && c ≤ 57
def upperC (c : Nat) : Nat := if 97 ≤ c ∧ c ≤ 122 then c - 32 else c
def hexVal (c : Nat) : Nat := if c ≤ 57 then c - 48 else if c ≤ 70 then c - 55 else c - 87
def codesOf (s : String) : List Nat := s.toList.map Char.toNat

/-- One shift of the CRC-8 with polynomial 0x07 (R34). -/
def crc8Shift (v : Nat) : Nat := if 128 ≤ v then Nat.xor ((v * 2) % 256) 7 else v * 2
def crc8Byte (v c : Nat) : Nat :=
  crc8Shift (crc8Shift (crc8Shift (crc8Shift (crc8Shift (crc8Shift (crc8Shift (crc8Shift (Nat.xor v c))))))))
/-- The CRC-8 of R34. -/
def crc8 (l : List Nat) : Nat := l.foldl crc8Byte 0

/-- The last three characters are * and two hex digits. -/
def endsSum (cs : List Nat) : Bool :=
  match cs.reverse with
  | b :: a :: 42 :: _ => isHexDigit a && isHexDigit b
  | _ => false
def sumOf (cs : List Nat) : Nat :=
  match cs.reverse with
  | b :: a :: _ => hexVal a * 16 + hexVal b
  | _ => 0

/-- Is the line of the generated form? -/
def isGen (cs : List Nat) : Bool := cs.head? == some 35
/-- Between the # and the *. -/
def genBody (cs : List Nat) : List Nat := (cs.drop 1).take (cs.length - 4)
/-- The tag's digits. -/
def tagDigits (cs : List Nat) : List Nat := (genBody cs).takeWhile isDigit
def tagText (cs : List Nat) : String := String.ofList ((tagDigits cs).map Char.ofNat)
/-- The text after the tag, or the whole typed line. -/
def lineText (cs : List Nat) : List Nat := if isGen cs then (genBody cs).dropWhile isDigit else cs

/-- Empty or only spaces (R31). -/
def blank (cs : List Nat) : Bool := cs.all (· == 32)

/-- Steps 1 to 5 of R470. -/
def lineErr5 (p : Port) (cs : List Nat) : Option Nat :=
  if 240 < cs.length then some 106
  else if cs.any (fun c => c < 32 || 126 < c) then some 105
  else if isGen cs then
    if !endsSum cs || crc8 (genBody cs) != sumOf cs then some 107
    else
      let d := tagDigits cs
      if d.isEmpty || 4 < d.length || d.all (· == 48) then some 108
      else if (lineText cs).head? != some 32 then some 105
      else none
  else if endsSum cs then some 108
  else if p = .bus then some 109
  else none

/-- Items of a line: cut at spaces outside quoted strings, letters in upper case outside them. -/
def itemsOf : Bool → List Nat → List Nat → List (List Nat)
  | _, cur, [] => if cur.isEmpty then [] else [cur.reverse]
  | true, cur, c :: t => itemsOf (c != 34) (c :: cur) t
  | false, cur, c :: t =>
    if c = 32 then (if cur.isEmpty then itemsOf false [] t else cur.reverse :: itemsOf false [] t)
    else itemsOf (c == 34) (upperC c :: cur) t

def verbs : List String := ["SET", "GET", "SHOW", "DO", "CLEAR", "WATCH", "STREAM", "HOLD", "FREE", "REG", "PEEK", "POKE", "HELP"]
def objects : List String :=
  ["UC", "LO", "GRID", "TRANS", "AP", "AG", "CALL", "ARC", "BUS", "SURVEY", "GP", "TW", "DISP", "TIME", "BEAT", "DIC",
   "SYS", "NODE"]

/-- The objects a verb is defined for, with the sequences of bare words its lines may carry. -/
def verbForms : String → List (String × List (List String))
  | "SET" => ["UC", "LO", "GRID", "TRANS", "AP", "AG", "CALL", "ARC", "BUS", "SURVEY", "GP", "TW", "TIME", "DIC", "SYS",
      "NODE"].map (fun o => (o, [[]])) ++ [("DISP", [[], ["WAVE"]])]
  | "GET" => ["UC", "LO", "GRID", "TRANS", "AP", "AG", "CALL", "ARC", "TW", "DISP", "TIME", "DIC"].map (fun o => (o, [[]])) ++
      [("BUS", [[], ["LINK"]]), ("GP", [[], ["BANK"]]),
       ("SYS", [[], ["DEVID"], ["UID"], ["ROMVER"], ["POWER"], ["RSTCAUSE"], ["HPHY"], ["HBAUD"], ["HAUTO"], ["HPAR"],
         ["HSTOP"], ["HECHO"], ["HTURN"], ["HBEAT"], ["SBAUD"], ["BNOTE"], ["BPOKE"], ["NOTE"]])]
  | "SHOW" => ["GRID", "TRANS", "AP", "AG", "CALL", "ARC", "GP", "BEAT", "DIC"].map (fun o => (o, [[]])) ++
      [("UC", [[], ["QUAD"]]), ("LO", [[], ["CHECK"]]), ("BUS", [[], ["TRIM"], ["MARK"], ["DELAY"]]),
       ("SURVEY", [[], ["MAP"]]), ("DISP", [[], ["WAVE"]]), ("SYS", [["LEASE"], ["MR"], ["PORT"], ["STORE"]]),
       ("NODE", [[], ["ANNEX"], ["MODES"]])]
  | "DO" => [("UC", [["FAIL"], ["RESTORE"], ["REINIT"]]), ("LO", [["REINIT"]]), ("GRID", [["REINIT"]]),
      ("TRANS", [["ARM"], ["DISARM"], ["DUMP"], ["REINIT"]]), ("AP", [["ACK"], ["SHELVE"], ["UNSHELVE"], ["REINIT"]]),
      ("AG", [["ACK"], ["FORESET"], ["REINIT"]]), ("CALL", [["REINIT"]]), ("ARC", [["LOG"], ["RESEAL"], ["REINIT"]]),
      ("BUS", [["SEND"], ["ABORT"], ["TUNNEL"], ["GATE", "RESET"], ["TRIMCLR"], ["REINIT"], ["SLEEP"], ["WAKE"], ["WAKEUP"]]),
      ("SURVEY", [["START"], ["ABORT"]]), ("GP", [["TOGGLE"], ["LOCK"], ["REINIT"]]),
      ("TW", [["WRITE"], ["READ"], ["CLEAR"], ["REINIT"]]), ("DISP", [["UPDATE"], ["LOAD"], [], ["REINIT"]]),
      ("TIME", [["SET"], ["TAKE"], ["REINIT"]]), ("DIC", [["RING"], ["CLEAR"], ["DONE"], ["TAKE"], ["REINIT"]]),
      ("SYS", [["REINIT"], ["COMMIT"], ["FACTORY"]]),
      ("NODE", [["LOAD"], ["START"], ["STOP"], ["QUIET"], ["FULL"], ["DORMANT"], ["RESET"], ["PWRCYC"]])]
  | "CLEAR" => [("LO", [[]]), ("BEAT", [[]]), ("DIC", [[]]), ("TW", [[]]), ("ARC", [["GALLERY"]])]
  | "WATCH" => [("UC", [[]]), ("LO", [[]]), ("TRANS", [[]]), ("AP", [[]]), ("ARC", [[]]), ("BUS", [[]]),
      ("GP", [[], ["BANK"]]), ("DISP", [[]]), ("TIME", [[]]), ("BEAT", [[]]), ("NODE", [[]])]
  | "STREAM" => [("UC", [[]]), ("LO", [[]]), ("GRID", [[]])]
  | "HOLD" => objects.map (fun o => (o, [[]]))
  | "FREE" => objects.map (fun o => (o, [[]]))
  | _ => []

/-- Is the item key=value, with something on both sides (step 8)? -/
def isPair (i : List Nat) : Bool :=
  match i.dropWhile (· != 61) with
  | 61 :: v => i.head? != some 61 && !v.isEmpty
  | _ => false
/-- Characters an item may hold outside a quoted string. -/
def itemOk (i : List Nat) : Bool :=
  !((i.takeWhile (· != 34)).contains 42) &&
  ((i.filter (· == 34)).length == 0 || ((i.filter (· == 34)).length == 2 && i.getLast? == some 34))
/-- An index item begins with a digit. -/
def isIndex (i : List Nat) : Bool := (i.head?.map isDigit).getD false
/-- A bare word. -/
def isWord (i : List Nat) : Bool := i.all (fun c => isDigit c || (65 ≤ c && c ≤ 90) || c == 45)

/-- Step 8 of R470 for the items after the object and its index, from left to right. `act`: a DO whose action has not come
yet; the list: what bare words may still follow. -/
def restErr (act : Bool) : List (List (List Nat)) → List (List Nat) → Option Nat
  | forms, [] => if forms.contains [] then none else some (if act then 103 else 105)
  | forms, i :: t =>
    if !itemOk i then some 105
    else if isPair i then restErr act forms t
    else if i.contains 61 then some 105
    else
      let next := forms.filterMap (fun f => match f with
        | w :: r => if w = i then some r else none
        | [] => none)
      if next.isEmpty then some (if act then 103 else 105) else restErr false next t

/-- Steps 6 to 8 of R470 for the items of a line; `bpoke`: a BUS port may write registers. -/
def lineErr8 (p : Port) (bpoke : Bool) (items : List (List Nat)) : Option Nat :=
  match items with
  | [] => some 101
  | v :: rest =>
    match verbs.find? (fun x => codesOf x == v) with
    | none => some 101
    | some verb =>
      if verb = "HELP" then (if rest.all isWord then none else some 105)
      else match rest with
        | [] => some 102
        | o :: rest =>
          let keys := rest.filter isPair
          if verb = "REG" ∨ verb = "PEEK" ∨ verb = "POKE" then
            if verb != "REG" && !isIndex o then some 102
            else if !itemOk o then some 105
            else if p = .bus && !bpoke && (verb == "POKE" || (verb == "REG" && !keys.isEmpty)) then some 110
            else if rest.any (fun i => !isPair i || !itemOk i) then some 105
            else none
          else match objects.find? (fun x => codesOf x == o) with
            | none => some 102
            | some obj => match (verbForms verb).find? (fun x => x.1 == obj) with
              | none => some 103
              | some (_, forms) =>
                let known := forms.map (fun f => f.map codesOf)
                match rest with
                | i :: t =>
                  if isIndex i then (if itemOk i then restErr (verb == "DO") known t else some 105)
                  else restErr (verb == "DO") known rest
                | [] => restErr (verb == "DO") known []

/-- A typed line whose last item is ? (R37). -/
def isHelpQuery (cs : List Nat) : Bool := !isGen cs && (itemsOf false [] cs).getLast? == some [63]

/-- Steps 1 to 8 of R470. -/
def lineErr (p : Port) (bpoke : Bool) (cs : List Nat) : Option Nat :=
  match lineErr5 p cs with
  | some c => some c
  | none => if isHelpQuery cs then none else lineErr8 p bpoke (itemsOf false [] (lineText cs))

/-! ### The queue of lines -/

/-- The place in the order of R27 of a record that the node core or the Annex core raises outside a command (HOST-LOST,
HOST-BACK, ANNEX-FAULT, POWER-STATE, CONFIG-LOAD ...): Table 1-1 numbers neither core, and the model puts their records behind
those of every helper of the same stage window (DESIGN CHOICE, log entry 85). -/
def helpCore : Nat := 15

/-- The line's tag in its reply; empty for the typed form. -/
def replyTag (cs : List Nat) : String := if isGen cs then tagText cs else ""

/-- Counts a generated line refused with ?E107 (Table 2-11, R469). -/
def Node.countCrc (n : Node) (p : Port) (c : Nat) : Node :=
  if c = 107 then
    (n.setPort p { n.port p with err := satAdd 65535 (n.port p).err 1 }).bump Fd.CMD_ERRCNT_CRCERR 1
  else n

/-- Answers the lines at the head of the queue that fail a step up to 8, while the port can execute (R41). -/
def Node.serve (n : Node) (p : Port) : Nat → Node
  | 0 => n
  | k + 1 =>
    if !n.portReady p then n
    else match (n.port p).waiting with
      | [] => n
      | w :: rest => match lineErr p (n.k Kid.bpoke != 0#32) w.chars with
        | none => n
        | some c =>
          let n := n.setPort p { n.port p with waiting := rest, confirm := none, station := w.station, via := w.via }
          let n := n.countCrc p c
          (n.send p w.tag [(.error c, [.w (errText c)])] true).serve p k

/-- The node leaves autonomous watch (R51). -/
def Node.hostBack (n : Node) (m : Moment) : Node :=
  let n := n.setOn Fd.CMD_HBCFG_AUTONOMOUS false
  let n := n.raiseM 0x00D [] m helpCore
  n.notify .host [.w "HOST BACK"]

/-- How many further lines a port holds: 4 behind the line it executes (R41). -/
def Node.lineRoom (n : Node) (p : Port) : Nat := if n.portFree p then 5 else 4

/-- A complete line reaches a port (R31, R36, R41, R50, R51). `bulk`: a further line of one caravan, which is not
counted against the places (log entry 31). A repeat that R36 answers is taken as no "other line" of R47: it leaves a pending
confirmation of the port as it stands (DESIGN CHOICE, log entry 85). -/
def Node.lineIn (n : Node) (p : Port) (cs : List Nat) (station via : Nat) (bulk : Bool) (m : Moment) : Node :=
  if !n.lively || blank cs then n
  else
    let gen := isGen cs
    let ok5 := (lineErr5 p cs).isNone
    let s := n.port p
    let n := n.setPort p { s with lastLine := n.cmd.clock, genForm := gen }
    let n := if p = .bus then { n with cmd := { n.cmd with heard := Bank.set 0 n.cmd.heard station n.cmd.clock } } else n
    let n := if p = .host && n.on Fd.CMD_HBCFG_AUTONOMOUS && ok5 then n.hostBack m else n
    let tag := replyTag cs
    let crc := sumOf cs
    let repeatOf := gen && ok5 && s.prev == some (tag, crc) && (match s.stored with
      | some r => r.tag == tag && r.crc == crc
      | none => false)
    if repeatOf then
      n.setPort p { n.port p with stored := s.stored.map (fun r => { r with again := true }) }
    else
      let s := n.port p
      let s := { s with prev := if gen && ok5 then some (tag, crc) else none }
      if !bulk && n.lineRoom p ≤ s.waiting.length then
        let line : OutLine := ⟨tag, .error 404, [.w (errText 404)]⟩
        if s.replyOpen then n.setPort p { s with refusals := s.refusals ++ [line] }
        else n.setPort p { s with reply := s.reply ++ [line] }
      else
        let st : Option Stored := if gen && ok5 then some ⟨tag, crc, [], 0, none, false⟩ else s.stored
        (n.setPort p { s with waiting := s.waiting ++ [⟨cs, tag, crc, station, via, n.tick, bulk⟩], stored := st }).serve p 6

/-! ### The characters of a line the node sends (R34, R35, R39) -/

/-- Decimal digits of a number. -/
def decCodes (k : Nat) : List Nat := codesOf (toString k)
def intCodes (z : Int) : List Nat := if z < 0 then 45 :: decCodes z.natAbs else decCodes z.toNat
def hexC (v : Nat) : Nat := if v < 10 then 48 + v else 55 + v
/-- Upper-case hex digits, most significant first. -/
def hexCodes : Nat → Nat → List Nat
  | 0, _ => []
  | k + 1, v => hexC (v / 16 ^ k % 16) :: hexCodes k v
/-- An underscore every four digits from the right. -/
def groupHex : List Nat → List Nat
  | [] => []
  | d :: t => d :: ((if t.length % 4 = 0 && !t.isEmpty then [95] else []) ++ groupHex t)

/-- Index items in range and list form. -/
def rangeCodes : List (Nat × Nat) → List Nat
  | [] => []
  | (a, b) :: t => decCodes a ++ (if a = b then [] else 45 :: decCodes b) ++ (if t.isEmpty then [] else 44 :: rangeCodes t)

def Item.codes : Item → List Nat
  | .w s => codesOf s
  | .n k => decCodes k
  | .i v => intCodes v
  | .h v k => codesOf "0x" ++ groupHex (hexCodes k v)
  | .f v => Config.floatText v
  | .d z s =>
    let u := 10 ^ s
    (if z < 0 then [45] else []) ++ decCodes (z.natAbs / u) ++ 46 :: (List.replicate (s - (decCodes (z.natAbs % u)).length) 48 ++
      decCodes (z.natAbs % u))
  | .b l => l.flatMap (fun y => hexCodes 2 y.toNat)
  | .x l => rangeCodes l
  | .q l => 34 :: l ++ [34]
  | .c l => l

/-- Items separated by single spaces. -/
def spaced : List (List Nat) → List Nat
  | [] => []
  | [a] => a
  | a :: t => a ++ 32 :: spaced t

/-- The text of a line without tag and checksum (Table 2-4). -/
def OutLine.text (o : OutLine) : List Nat :=
  let body := spaced (o.items.map Item.codes)
  match o.kind with
  | .data => 61 :: body
  | .done => [46]
  | .error c => codesOf "?E" ++ decCodes c ++ 32 :: body
  | .partialAt k => codesOf "+PARTIAL " ++ decCodes k
  | .resume k => codesOf "+RESUME " ++ decCodes k
  | .notice => 33 :: body
  | .raw => body

/-- The line as the port sends it now: a notice carries tag 0 on a port whose most recent line was generated (R35). -/
def OutLine.tagged (o : OutLine) (gen : Bool) : OutLine :=
  match o.kind with
  | .notice => { o with tag := if gen then "0" else "" }
  | _ => o

/-- The characters of the line, without its CR LF: tag, text and checksum in the generated form. -/
def OutLine.codes (o : OutLine) : List Nat :=
  if o.tag = "" then o.text
  else
    let body := codesOf o.tag ++ 32 :: o.text
    35 :: body ++ 42 :: hexCodes 2 (crc8 body)

end Sys2Proof.Machine
end

