-- ==== Sys2Proof/Machine/Bus.lean ====
section
/-! DEFINITION. Allieno: messages of the node, mailboxes, transmission and error confinement, filters and the FIFO,
caravans, early view and pre-arm gates, the trimmer, the pair and the waystation (chapter 9, R297, R298). Ports are
numbered 0 (A) and 1 (B). -/
namespace Sys2Proof.Machine

def Node.bp (n : Node) (p : Nat) : BusPort := Bank.get {} n.bus.ports p
def Node.setBp (n : Node) (p : Nat) (x : BusPort) : Node := { n with bus := { n.bus with ports := Bank.set {} n.bus.ports p x } }
def helpBus (p : Nat) : Nat := 9 + p
def busName (p : Nat) : String := if p = 0 then "A" else "B"
/-- Rings offset `o` of a port (Tables 9-13 and 10-9). -/
def Node.busRing (n : Node) (p o : Nat) : Node := n.ring (112 + 16 * p + o)
/-- Queues a record of a port at a moment of the beat. -/
def Node.busRec (n : Node) (c : Nat) (pl : List Nat) (p : Nat) (m : Moment) : Node :=
  n.raiseM c (pl.map (BitVec.ofNat 8)) m (helpBus p)
def Node.busEvt (n : Node) (f : Nat → Fd) (p : Nat) : Node := n.setOn (f p) true
/-- !WATCH BUS <p> <what> <value> (R275). -/
def Node.busWatch (n : Node) (p : Nat) (what val : String) : Node :=
  n.notifyWatch .bus "" (some p) [.w "BUS", .w (busName p), .w what, .w val]

/-- Base of a port's caravanserai (R260). -/
def carBase (p : Nat) : Nat := 0x20200000 + 0x20000 * p
def mbAddr (p m : Nat) : Nat := carBase p + 64 * m
def txCarAddr (p b : Nat) : Nat := carBase p + 0x1000 + 4096 * b
def fifoAddr (p k : Nat) : Nat := carBase p + 0x9000 + 80 * k
def rxCarAddr (p b : Nat) : Nat := carBase p + 0x13000 + 4096 * b
def evAddr (p e : Nat) : Nat := carBase p + 0x1B000 + 80 * e

/-- LINK in force: 0 SEPARATE, 1 PAIR, 2 WAY. -/
def Node.pairOn (n : Node) : Bool := n.bus.linkF == 1
def Node.wayOn (n : Node) : Bool := n.bus.linkF == 2
/-- The port whose user mailboxes, filters, FIFO, buffers and gates serve port p (R297). -/
def Node.home (n : Node) (p : Nat) : Nat := if n.pairOn then 0 else p

def Node.busState (n : Node) (p : Nat) : Nat := n.fd (Fd.BUS_STAT_STATE p)
def Node.busOff (n : Node) (p : Nat) : Bool := n.fd (Fd.BUS_STAT_ERR p) == 2
def Node.genMax (n : Node) (p : Nat) : Nat := n.fd (Fd.BUS_CTRL_GENMAX p)
def Node.station (n : Node) : Nat := n.fd Fd.BUS_STATION_STATION
/-- The port neither sends nor receives by its own state: OFF, bus-off or asleep (R297). -/
def Node.busMute (n : Node) (p : Nat) : Bool := n.busState p == 0 || n.busOff p || (n.bp p).sleep == 2

/-! ### Identifiers (R256) -/

def ident (cls typ src dst : Nat) : Nat := cls * 2 ^ 26 + typ % 1024 * 2 ^ 16 + src % 256 * 256 + dst % 256
def idClass (id : Nat) : Nat := id / 2 ^ 26 % 8
def idType (id : Nat) : Nat := id / 2 ^ 16 % 1024
def idSrc (id : Nat) : Nat := id / 256 % 256
def idDst (id : Nat) : Nat := id % 256
/-- A survey frame (R282). -/
def isSurveyId (id : Nat) : Bool := idClass id == 0 && (0x380 ≤ idType id || (0x300 ≤ idType id && idType id ≤ 0x30F))
/-- A frame of Allieno's own time, survey and wake protocol, which each port handles for itself. -/
def isProtoId (id : Nat) : Bool := idClass id == 0 && (idType id < 0x10 || 0x300 ≤ idType id)

/-- The next FD length (R254). -/
def fdLen (k : Nat) : Nat :=
  if k ≤ 8 then k else if k ≤ 12 then 12 else if k ≤ 16 then 16 else if k ≤ 20 then 20 else if k ≤ 24 then 24
  else if k ≤ 32 then 32 else if k ≤ 48 then 48 else 64
def padTo (l : List Byte) (k : Nat) : List Byte := l ++ List.replicate (k - l.length) 0#8

/-! ### Mailboxes -/

def Node.mbStatus (n : Node) (p m : Nat) : Nat := n.fd (Fd.BUS_MBCTL_STATUS p m)
/-- Waiters of DO BUS SEND WAIT=ON for a mailbox get the line that ends their reply (R275). -/
def Node.endSendWait (n : Node) (p m : Nat) (sent : Bool) : Node :=
  allPorts.foldl (fun n c => match (n.port c).await with
    | some a =>
      if a.what == .busSend p m then
        let n := n.setPort c { n.port c with await := none }
        if sent then n.send c a.tag [(.data, [.w "BUS SEND MB", .n m, .w "SENT"]), (.done, [])] true
        else n.send c a.tag [(.error 603, [.w (errText 603)])] true
      else n
    | none => n) n

/-- A mailbox leaves PENDING: its status, the ring of RING, its caravan and its waiters. -/
def Node.mbEnd (n : Node) (p m : Nat) (sent : Bool) : Node :=
  let n := n.setFd (Fd.BUS_MBCTL_STATUS p m) (if sent then 2 else 3)
  let b := n.bp p
  let n := n.setBp p { b with sent := Bank.set 0 b.sent m 0, held := b.held.filter (fun x => x.1 != m) }
  let n := if n.on (Fd.BUS_MBCTL_RING p m) then n.busRing p 0 else n
  n.endSendWait p m sent

/-- The places a message of the node may take: mailboxes 0 to 3 for class 0, 4 to 15 for the others (log entry 32). -/
def nodePlaces (id : Nat) : List Nat := if idClass id = 0 then [0, 1, 2, 3] else [4, 5, 6, 7, 8, 9, 10, 11, 12, 13, 14, 15]

/-- Loads the message into a free node mailbox, and its bytes into the slot or into a caravan buffer 0 to 3 (R262). -/
def Node.loadMsg (n : Node) (p : Nat) (o : OutMsg) : Option Node :=
  let b := n.bp p
  if b.held.any (fun x => x.2.id == o.id) then none         -- messages of one identifier leave in the order queued
  else match (nodePlaces o.id).find? (fun m => n.mbStatus p m != 1) with
    | none => none
    | some m =>
      let ctl := fun (n : Node) (len car buf : Nat) =>
        n.setFds [(Fd.BUS_MBCTL_LEN p m, len), (Fd.BUS_MBCTL_GEN p m, if o.genA then 0 else 3), (Fd.BUS_MBCTL_CARBUF p m, buf),
          (Fd.BUS_MBCTL_CARAVAN p m, car), (Fd.BUS_MBCTL_RING p m, 0), (Fd.BUS_MBCTL_STATUS p m, 1),
          (Fd.BUS_MBID_IDE p m, 1), (Fd.BUS_MBID_ID p m, o.id)]
      let n' := n.setBp p { b with held := b.held ++ [(m, o)] }
      match o.car with
      | none => some ((ctl n' o.data.length 0 0).setBytes (mbAddr p m) o.data)
      | some k =>
        let taken := b.held.filterMap (fun x => if x.2.car.isSome then some (n.fd (Fd.BUS_MBCTL_CARBUF p x.1)) else none)
        match (List.range 4).find? (fun c => !taken.contains c) with
        | none => none
        | some c =>
          let n' := (ctl n' 0 1 c).setBytes (txCarAddr p c)
            ((bytesLE 2 o.data.length ++ [BitVec.ofNat 8 n.bus.carNum, BitVec.ofNat 8 k] ++ o.data).take 4096)
          some (if o.data.length ≤ 60 then n' else { n' with bus := { n'.bus with carNum := (n'.bus.carNum + 1) % 256 } })

/-- Moves waiting messages into node mailboxes, in the order queued. -/
def Node.pump (n : Node) (p : Nat) : Node :=
  (n.bp p).queue.foldl (fun n o =>
    match n.loadMsg p o with
    | some n' => n'
    | none => n.setBp p { n.bp p with queue := (n.bp p).queue ++ [o] }) (n.setBp p { n.bp p with queue := [] })

/-- A port begins to wake (R300): a condition that comes before sleep is reached cancels the entry (R301). -/
def Node.wakeBegin (n : Node) (p cause : Nat) : Node :=
  let b := n.bp p
  if b.sleep = 1 then n.setBp p { b with sleep := 0 }
  else if b.sleep = 2 then n.setBp p { b with sleep := 3, wakeCause := cause }
  else n

/-- A wake condition; in a pair both ports wake (R300). -/
def Node.wakeBoth (n : Node) (p cause : Nat) : Node :=
  if n.pairOn then (n.wakeBegin 0 cause).wakeBegin 1 cause else n.wakeBegin p cause

/-- May the node send this message on the port (R254, R281)? -/
def Node.msgOk (n : Node) (p : Nat) (o : OutMsg) : Bool :=
  n.busState p == 1 && (o.genA || n.genMax p != 0 || (o.data.length ≤ 8 && o.car.isNone && !(idClass o.id == 0 && idType o.id < 0x10))) &&
  (n.station != 0 || isSurveyId o.id)

/-- A message of the node is queued for a port; with LWAKE it wakes a sleeping port (R300). A caravan whose message has
60 bytes or fewer is sent as one frame without a header (R264). -/
def Node.queueMsg (n : Node) (p : Nat) (o : OutMsg) : Node :=
  if !n.msgOk p o then n
  else
    let n := n.setBp p { n.bp p with queue := (n.bp p).queue ++ [o] }
    let n := n.pump p
    if (n.bp p).sleep != 0 && n.on (Fd.BUS_SLEEP_LWAKE p) then n.wakeBoth p 2 else n

/-- A message without a caravan. -/
def msg (id : Nat) (data : List Byte) : OutMsg := ⟨id, data, false, none⟩
/-- A message of the node goes to both ports: LINK=PAIR and WAY say so; under SEPARATE the spec names no port (log
entry 33). -/
def Node.sendBoth (n : Node) (o : OutMsg) : Node := (n.queueMsg 0 o).queueMsg 1 o
/-- A message for a port: in a pair, and on a waystation, it goes to both (R297, R298). -/
def Node.sendLink (n : Node) (p : Nat) (o : OutMsg) : Node := if n.bus.linkF = 0 then n.queueMsg p o else n.sendBoth o

/-! ### Frames of a mailbox -/

/-- The generation a mailbox sends in: GEN, 3 for GENMAX, never above GENMAX (R254, R255). -/
def Node.mbGen (n : Node) (own p m : Nat) : Nat :=
  let g := n.fd (Fd.BUS_MBCTL_GEN own m)
  if g = 3 then n.genMax p else Nat.min g (n.genMax p)

/-- The caravan of a mailbox: header and message in its buffer. The last bytes of a message of more than 4092 find no place
there: the node has its own message, and those of a user's are open (log entry 34). -/
def Node.mbCar (n : Node) (own m : Nat) : List Byte :=
  let c := n.fd (Fd.BUS_MBCTL_CARBUF own m)
  let a := txCarAddr own c
  let len := Nat.min 4100 (n.num a 2 + 4)
  let tail := match (n.bp own).held.find? (fun x => x.1 == m) with
    | some (_, o) => o.data.drop 4092
    | none => (List.range 4).map (Config.carTail own c)
  n.bytes a (Nat.min 4096 len) ++ tail.take (len - 4096)

/-- The next frame of a mailbox, and whether it is the last; none when its generation cannot carry it. -/
def Node.mbFrame (n : Node) (own p m : Nat) : Option (Frame × Bool) :=
  let g := n.mbGen own p m
  let ext := n.on (Fd.BUS_MBID_IDE own m)
  let id := n.fd (Fd.BUS_MBID_ID own m)
  if n.on (Fd.BUS_MBCTL_CARAVAN own m) then
    let c := n.mbCar own m
    let k := Bank.get 0 (n.bp p).sent m
    let chunk := if g = 2 then 64 else 62
    let single := c.length ≤ 64
    let part := if single then c.drop 4 else (c.drop (k * chunk)).take chunk
    let final := single || c.length ≤ (k + 1) * chunk
    let train := if single then 0 else if k = 0 then 1 else if final then 3 else 2
    if g = 0 then none
    else if g = 2 then some (⟨ext, id, 2, train, k, part⟩, final)
    else
      let d := [BitVec.ofNat 8 train, BitVec.ofNat 8 k] ++ part
      some (⟨ext, id, 1, 0, 0, padTo d (fdLen d.length)⟩, final)
  else
    let len := n.fd (Fd.BUS_MBCTL_LEN own m)
    let d := n.bytes (mbAddr own m) len
    if g = 0 then (if len ≤ 8 then some (⟨ext, id, 0, 0, 0, d⟩, true) else none)
    else if g = 1 then some (⟨ext, id, 1, 0, 0, padTo d (fdLen len)⟩, true)
    else some (⟨ext, id, 2, 0, 0, d⟩, true)

/-- The pending mailboxes a port may send: its own, and under PAIR the user mailboxes of port A it has not yet sent. -/
def Node.mbPending (n : Node) (p : Nat) : List (Nat × Nat) :=
  let nodeMbs := (List.range 16).map (fun m => (p, m))
  let h := n.home p
  let userMbs := ((List.range 64).drop 16).map (fun m => (h, m))
  (nodeMbs ++ userMbs).filter (fun (o, m) => n.mbStatus o m == 1 && !(n.pairOn && 16 ≤ m && (n.bp p).done.contains m) &&
    (n.mbFrame o p m).isSome)

/-- The survey holds a port's traffic to survey frames, from the confirmation of BEGIN (R283). -/
def Node.held (n : Node) (p : Nat) : Bool :=
  let v := Bank.get ({} : SvPort) n.srv.ports (n.home p)
  v.role != 0 && v.step != .begin_

/-- A port may start an attempt: ON, not bus-off, awake, not in LISTEN, the wire idle; from the power-fail warning none starts
(R278, R290, R300, R414). -/
def Node.mayStart (n : Node) (p : Nat) : Bool :=
  n.working && n.busState p == 1 && !n.busOff p && (n.bp p).sleep == 0 && (n.bp p).listen == 0 && (n.bp p).tx.isNone &&
    (n.bp p).rx.isNone

/-- The lowest identifier, the lowest mailbox on a tie (R262). -/
def lowestId : List (Nat × Nat × Nat) → Option (Nat × Nat × Nat)
  | [] => none
  | x :: t => match lowestId t with
    | none => some x
    | some y => if y.1 < x.1 then some y else some x

/-- Changed bit timing takes effect when the bus is idle (R274). -/
def Node.busIdle (n : Node) (p : Nat) : Node :=
  let b := n.bp p
  if b.tx.isNone && b.rx.isNone then n.setBp p { b with nomF := n.rd (Ad.BUS_BITNOM p), dataF := n.rd (Ad.BUS_BITDATA p) } else n

/-- A frame the far port cannot take is counted, recorded and told at most once per beat (R298). -/
def Node.wayDrop (n : Node) (p : Nat) (m : Moment) : Node :=
  let n := n.bump (if p = 0 then Fd.BUS_WAYCNT_DROPAB else Fd.BUS_WAYCNT_DROPBA) 1
  let k := Bank.get 0 n.bus.wayLost p + 1
  if Bank.get 0 n.bus.wayTick p = n.tick + 1 then { n with bus := { n.bus with wayLost := Bank.set 0 n.bus.wayLost p k } }
  else
    let n := { n with bus := { n.bus with wayLost := Bank.set 0 n.bus.wayLost p 0,
                                          wayTick := Bank.set 0 n.bus.wayTick p (n.tick + 1) } }
    (n.raiseM 0x07E (BitVec.ofNat 8 p :: bytesLE 4 k) m (helpBus p)).busRing p 15
/-- Frames that wait for a port whose GENMAX has fallen below their generation are dropped (R298). -/
def Node.wayPrune (n : Node) (p : Nat) (m : Moment) : Node :=
  let qd := Bank.get [] n.bus.way p
  let n := { n with bus := { n.bus with way := Bank.set [] n.bus.way p (qd.filter (fun f => f.gen ≤ n.genMax p)) } }
  (qd.filter (fun f => n.genMax p < f.gen)).foldl (fun (n : Node) _ => n.wayDrop (1 - p) m) n

/-- At bus idle the port starts an attempt; the waystation's queue stands behind the mailboxes on a tie. -/
def Node.txStart (n : Node) (p : Nat) (m : Moment) : Node :=
  if !n.mayStart p then n
  else
    let n := (n.busIdle p).wayPrune p m
    let hold := n.held p
    let mbs := (n.mbPending p).map (fun (o, k) => (n.fd (Fd.BUS_MBID_ID o k), o, k))
    let way := match Bank.get [] n.bus.way p with
      | f :: _ => [(f.id, p, 64)]
      | [] => []
    let all := (mbs ++ way).filter (fun x => !hold || (isSurveyId x.1 && x.2.2 < 16))
    match lowestId all with
    | none => n
    | some (_, o, k) =>
      let fr := if k = 64 then (Bank.get [] n.bus.way p).head?.map (fun f => (f, true)) else n.mbFrame o p k
      match fr with
      | none => n
      | some (f, fin) => n.setBp p { n.bp p with tx := some ⟨o, k, f, n.now m / 2 * 2, fin⟩ }

/-! ### Error confinement (R267) -/

/-- ERR by the counters of ISO 11898-1. -/
def Node.errState (n : Node) (p : Nat) : Node :=
  if n.busOff p then n
  else
    let e := if 127 < n.fd (Fd.BUS_ERRCNT_TEC p) ∨ 127 < n.fd (Fd.BUS_ERRCNT_REC p) then 1 else 0
    if e = n.fd (Fd.BUS_STAT_ERR p) then n
    else (n.setFd (Fd.BUS_STAT_ERR p) e).busWatch p "ERR" (if e = 1 then "PASSIVE" else "ACTIVE")
/-- A successful transmission. -/
def Node.txGood (n : Node) (p : Nat) : Node := (n.setFd (Fd.BUS_ERRCNT_TEC p) (n.fd (Fd.BUS_ERRCNT_TEC p) - 1)).errState p
/-- A successful reception; above 127, ISO 11898-1 sets the count to a value from 119 to 127 and names none. -/
def Node.rxGood (n : Node) (p : Nat) : Node :=
  let r := n.fd (Fd.BUS_ERRCNT_REC p)
  if r ≤ 127 then (n.setFd (Fd.BUS_ERRCNT_REC p) (r - 1)).errState p
  else
    let (w, n) := n.fresh
    (n.setFd (Fd.BUS_ERRCNT_REC p) (119 + w.toNat % 9)).errState p

/-! ### Early view and gates (R270 to R273, R280) -/

/-- The filters a frame matches, lowest first (R263). -/
def Node.matching (n : Node) (q : Nat) (f : Frame) : List Nat :=
  (List.range 128).filter (fun k =>
    let mk := n.fd (Fd.BUS_FMASK_MASK q k)
    n.on (Fd.BUS_FMASK_ENABLE q k) && n.on (Fd.BUS_FILT_IDE q k) == f.ext &&
    Nat.land f.id mk == Nat.land (n.fd (Fd.BUS_FILT_ID q k)) mk)

/-- The first 4 bytes of a record's header (R261). -/
def Frame.idWord (f : Frame) : Nat := f.id % 2 ^ 29 + (if f.ext then 2 ^ 29 else 0)
/-- A receive record's header after its first word. -/
def Frame.head (f : Frame) (filt sof : Nat) (fromB : Bool) : List Byte :=
  [BitVec.ofNat 8 f.data.length, BitVec.ofNat 8 (f.gen + (if fromB then 128 else 0))] ++ bytesLE 2 filt ++
  bytesLE 4 (qnsOf sof) ++ bytesLE 4 (secOf sof % 2 ^ 32)

/-- The state word of a buffer (Table 9-9), in its register and in the buffer's header. -/
def Node.setEv (n : Node) (q e w : Nat) : Node := (n.wr (Ad.BUS_EVSTAT q e) (BitVec.ofNat 32 w)).setBytes (evAddr q e) (bytesLE 4 w)
def Node.evWord (n : Node) (q e : Nat) : Nat := (n.rd (Ad.BUS_EVSTAT q e)).toNat
def Node.evState (n : Node) (q e : Nat) : Nat := n.evWord q e % 4

/-- A gate's settings in force: those with which it armed, or the registers. -/
def Node.gateCfg (n : Node) (q g : Nat) : Word × Word :=
  match (n.bp q).gateF.find? (fun x => x.1 == g) with
  | some (_, c) => c
  | none => (n.rd (Ad.BUS_GATECFG q g), n.rd (Ad.BUS_GATEW q g))

/-- DUPWIN in quarter-nanoseconds. -/
def Node.dupWin (n : Node) : Nat := n.fd Fd.BUS_LINK_DUPWIN * 4000000
/-- In a pair, the other port's copy of a frame does not arm a gate again (R297): a frame of `len` bytes that begins like
`f` was confirmed there within DUPWIN of `t`, or is in reception there. -/
def Node.otherCopy (n : Node) (p : Nat) (f : Frame) (len t : Nat) : Bool :=
  let same := fun (g : Frame) => g.id == f.id && g.ext == f.ext && g.data.take 1 == f.data.take 1
  n.pairOn && (n.bus.recent.any (fun (o, g, u) => o != p && t ≤ u + n.dupWin && same g && g.data.length == len) ||
    (match (n.bp (1 - p)).rx with
    | some r => same r.frame && (n.byte (evAddr (n.home p) r.buf + 4)).toNat == len
    | none => false))

/-- Gates bound to a matching filter arm on the first data byte (R273, R280). -/
def Node.armGates (n : Node) (p : Nat) (r : RxA) (m : Moment) : Node :=
  let q := n.home p
  match r.frame.data with
  | [] => n
  | b0 :: _ =>
    if n.otherCopy p r.frame (n.byte (evAddr q r.buf + 4)).toNat (n.now m) then n
    else (List.range 4).foldl (fun n g =>
      if n.on (Fd.BUS_GATECFG_ENABLE q g) && !n.on (Fd.BUS_GATECFG_ARMED q g) && !n.on (Fd.BUS_GATECFG_ACTIVE q g) &&
         r.filts.contains (n.fd (Fd.BUS_GATECFG_FILT q g)) &&
         Nat.land b0.toNat (n.fd (Fd.BUS_GATECFG_BMASK q g)) == Nat.land (n.fd (Fd.BUS_GATECFG_BYTE q g)) (n.fd (Fd.BUS_GATECFG_BMASK q g))
      then
        let c := (n.rd (Ad.BUS_GATECFG q g), n.rd (Ad.BUS_GATEW q g))
        (n.setBp q { n.bp q with gateF := (n.bp q).gateF ++ [(g, c)] }).setOn (Fd.BUS_GATECFG_ARMED q g) true
      else n) n

/-- The settings a gate armed with are let go once it is neither armed nor active. -/
def Node.freeGate (n : Node) (q g : Nat) : Node := n.setBp q { n.bp q with gateF := (n.bp q).gateF.filter (fun x => x.1 != g) }
/-- Ends a gate's output. -/
def Node.gateOff (n : Node) (q g : Nat) : Node :=
  let n := (n.setOn (Fd.BUS_GATECFG_ACTIVE q g) false).freeGate q g
  n.setBp q { n.bp q with gateEnd := (n.bp q).gateEnd.filter (fun x => x.1 != g) }

/-- The armed gates bound to the frame's filters fire at confirmation, or disarm at retraction. -/
def Node.gatesDone (n : Node) (q : Nat) (filts : List Nat) (fire : Bool) (m : Moment) : Node :=
  (List.range 4).foldl (fun n g =>
    let (c, w) := n.gateCfg q g
    if n.on (Fd.BUS_GATECFG_ARMED q g) && filts.contains ((Fd.BUS_GATECFG_FILT q g).get c) then
      let n := n.setOn (Fd.BUS_GATECFG_ARMED q g) false
      if fire then
        let n := (n.setOn (Fd.BUS_GATECFG_ACTIVE q g) true).busRing q 7
        if (Fd.BUS_GATECFG_LATCH q g).get c = 1 then n
        else n.setBp q { n.bp q with gateEnd := (n.bp q).gateEnd ++ [(g, n.now m + (Fd.BUS_GATEW_WIDTH q g).get w * 4000)] }
      else n.freeGate q g
    else n) n

/-- The level a gate output drives: POL while the gate is active (R273). -/
def Node.gateLevel (n : Node) (q g : Nat) : Bool :=
  let (c, _) := n.gateCfg q g
  n.on (Fd.BUS_GATECFG_ACTIVE q g) == ((Fd.BUS_GATECFG_POL q g).get c == 1)

/-! ### Pins owned by hardware (R308, R309, R314) -/

/-- The GP.FN word whose functions are in force at a pin. -/
def Node.fnWord (n : Node) (i : Nat) : Word := Bank.get 0x8000#32 n.gp.fnF i
/-- FSEL and ALT in force, each with its sub-index. -/
def Node.fns (n : Node) (i : Nat) : List (Nat × Nat) :=
  let w := n.fnWord i
  [((Fd.GP_FN_FSEL i).get w, (Fd.GP_FN_SUB i).get w), ((Fd.GP_FN_ALT i).get w, (Fd.GP_FN_ALTSUB i).get w)]
/-- A latch function (R308). -/
def isLatch (c : Nat) : Bool := 1 ≤ c && c ≤ 3
/-- The hardware owns the pin's GPOUT bit (R309). -/
def Node.owned (n : Node) (i : Nat) : Bool := (n.fns i).any (fun x => isLatch x.1)
/-- The level of a latch function. -/
def Node.latchLevel (n : Node) (x : Nat × Nat) : Bool :=
  match x.1 with
  | 1 => n.callLevel x.2
  | 2 => n.gateLevel 0 x.2
  | 3 => n.gateLevel 1 x.2
  | _ => false
/-- The level the hardware writes into a bit it owns: the OR of the latch functions (R309). -/
def Node.hwLevel (n : Node) (i : Nat) : Bool := (n.fns i).any (fun x => isLatch x.1 && n.latchLevel x)
/-- The GPOUT bit of a pin. -/
def outFd (i : Nat) : Fd := if i < 32 then ⟨Ad.GP_GPOUT0, i, i⟩ else ⟨Ad.GP_GPOUT1, i - 32, i - 32⟩
/-- One hardware write of a GPOUT register: the bits of the pins named, and HWSEQ (R314). -/
def Node.hwWrite (n : Node) (pins : List Nat) (level : Node → Nat → Bool) : Node :=
  if pins.isEmpty then n
  else
    let n' := pins.foldl (fun m i => m.setOn (outFd i) (level n i)) n
    n'.setFd Fd.GP_HWSEQ_SEQ (n.fd Fd.GP_HWSEQ_SEQ + 1)
/-- Pins of a GPOUT register. -/
def outPins (j : Nat) : List Nat := if j = 0 then List.range 32 else (List.range 16).map (· + 32)
/-- Writes the hardware-owned bits among the pins picked: one hardware write for each register that has any. -/
def Node.hwWriteIf (n : Node) (pick : Nat → Bool) : Node :=
  [0, 1].foldl (fun m j => m.hwWrite ((outPins j).filter (fun i => n.owned i && pick i)) Node.hwLevel) n
/-- The hardware-owned bits that differ from their functions' level are written (R314). -/
def Node.hwSync (n : Node) : Node := n.hwWriteIf (fun i => n.on (outFd i) != n.hwLevel i)
/-- The bits of pins that show a gate of port `q` are written when it fires or ends (R314). -/
def Node.hwGates (n : Node) (q : Nat) : Node :=
  n.hwWriteIf (fun i => (n.fns i).any (fun x => x.1 == 2 + q) && n.on (outFd i) != n.hwLevel i)

/-- Early match (R270), once for each frame: the lowest free buffer is taken by the lowest matching filter with EARLY
set. -/
def Node.earlyMatch (n : Node) (p : Nat) (f : Frame) (len sof : Nat) : Node :=
  if (n.bp p).passed then n
  else
  let q := n.home p
  let fs := n.matching q f
  match fs.filter (fun k => n.on (Fd.BUS_FMASK_EARLY q k)) with
  | [] => n.setBp p { n.bp p with passed := true }
  | filt :: _ =>
    match (List.range 4).find? (fun e => n.evState q e == 0) with
    | none => (n.setBp p { n.bp p with passed := true }).bump (Fd.BUS_EVMISS_MISS q) 1
    | some e =>
      let sq := (n.evWord q e / 65536 + 1) % 65536
      let n := n.setEv q e (sq * 65536 + 1)
      let hd := [BitVec.ofNat 8 len] ++ (f.head filt sof false).drop 1
      let n := (n.setBytes (evAddr q e + 4) hd).setFd (Fd.BUS_EVID_ID q e) f.idWord
      let n := n.setBp p { n.bp p with rx := some ⟨e, fs, { f with data := [] }⟩ }
      n.busRing q 4

/-- Data bytes of the provisional frame arrive (R270); gates arm on the first. -/
def Node.earlyBytes (n : Node) (p : Nat) (bytes : List Byte) (m : Moment) : Node :=
  match (n.bp p).rx with
  | none => n
  | some r =>
    let q := n.home p
    let had := r.frame.data.length
    let all := (r.frame.data ++ bytes).take 64
    let r' : RxA := { r with frame := { r.frame with data := all } }
    let w := n.evWord q r.buf
    let n := (n.setBytes (evAddr q r.buf + 16 + had) (all.drop had)).setEv q r.buf (w / 65536 * 65536 + all.length * 256 + 1)
    let n := n.setBp p { n.bp p with rx := some r' }
    if had = 0 && !all.isEmpty then n.armGates p r' m else n

/-- A frame ends, and a provisional buffer ends CONFIRMED or RETRACTED (Table 9-8). -/
def Node.earlyEnd (n : Node) (p : Nat) (ok : Bool) (m : Moment) : Node :=
  match (n.bp p).rx with
  | none => n.setBp p { n.bp p with passed := false }
  | some r =>
    let q := n.home p
    let w := n.evWord q r.buf
    let n := n.setEv q r.buf (w / 4 * 4 + (if ok then 2 else 3))
    let n := n.setBp p { n.bp p with rx := none }
    ((n.busRing q (if ok then 5 else 6)).gatesDone q r.filts ok m).hwGates q

/-! ### FIFO (R263) -/

def Node.fifoPush (n : Node) (p : Nat) (f : Frame) (filt sof : Nat) : Node :=
  let q := n.home p
  let c := n.fd (Fd.BUS_FIFO_COUNT q)
  if 512 ≤ c then (n.bump (Fd.BUS_RXLOST_LOST q) 1).busEvt Fd.BUS_EVT_RXOVF q
  else
    let a := fifoAddr q ((n.fd (Fd.BUS_FIFO_HEAD q) + c) % 512)
    let n := n.setBytes a (bytesLE 4 f.idWord ++ f.head filt sof (n.pairOn && p == 1) ++ padTo f.data 64)
    let n := n.setFd (Fd.BUS_FIFO_COUNT q) (c + 1)
    if n.on (Fd.BUS_CTRL_RDY q) && (n.bp q).rdyTick != n.tick + 1 then
      (n.setBp q { n.bp q with rdyTick := n.tick + 1 }).busRing q 1
    else n

def Node.fifoPop (n : Node) (p : Nat) : Node :=
  let c := n.fd (Fd.BUS_FIFO_COUNT p)
  if c = 0 then n
  else n.setFds [(Fd.BUS_FIFO_COUNT p, c - 1), (Fd.BUS_FIFO_HEAD p, (n.fd (Fd.BUS_FIFO_HEAD p) + 1) % 512)]

/-! ### Caravans (R264 to R266) -/

/-- TRAIN, SEQ and the caravan bytes of a frame (R264); a Gen A frame is a message of its own. -/
def Frame.carPart (f : Frame) : Nat × Nat × List Byte :=
  if f.gen = 2 then (f.train, f.seq, f.data)
  else if f.gen = 1 then
    match f.data with
    | a :: b :: t => (a.toNat % 4, b.toNat % 128, t)
    | _ => (0, 0, [])
  else (0, 0, f.data)

/-- A caravan is discarded: cause 0 full, 1 order, 2 gap, 3 bus-off (Table 9-14). -/
def Node.carDiscard (n : Node) (p cause src num : Nat) (m : Moment) : Node :=
  ((n.busEvt Fd.BUS_EVT_CARDISC p).busRec 0x073 [p, cause, src, num, 0] p m).busRing p 3

/-- One frame of a caravan against the caravans in reception: the list after it, the discards (cause, number), and the
caravan it completes. `place`: the buffer a first frame takes, none when there is none free. -/
def carStep (l : List CarRx) (place : Option Nat) (f : Frame) (filt tick : Nat) : List CarRx × List (Nat × Nat) × Option CarRx :=
  let (train, seq, part) := f.carPart
  let mine := l.find? (fun c => c.id == f.id)
  let rest := l.filter (fun c => c.id != f.id)
  if train = 1 then
    let lost := match mine with
      | some c => [(1, c.num)]
      | none => []
    let num := (part.getD 2 0#8).toNat
    match (if mine.isSome then mine.map (·.buf) else place) with
    | none => (rest, lost ++ [(0, num)], none)
    | some b => (rest ++ [⟨f.id, filt, b, num, natLE (part.take 2), 1, part.drop 4, tick⟩], lost, none)
  else if train = 0 then
    match place with
    | none => (l, [(0, 0)], none)
    | some b => (l, [], some ⟨f.id, filt, b, 0, part.length, 0, part, tick⟩)
  else match mine with
    | none => (l, [], none)
    | some c =>
      let c' := { c with next := c.next + 1, data := c.data ++ part, last := tick }
      if seq != c.next then (rest, [(1, c.num)], none)
      else if train = 3 then
        if c'.data.length < c.total ∨ c.total = 0 ∨ 4096 < c.total then (rest, [(1, c.num)], none)
        else (rest, [], some { c' with data := c'.data.take c.total })
      else (rest ++ [c'], [], none)

/-- Frees and buffers of the user caravans of a port. -/
def Node.freeCarBuf (n : Node) (q : Nat) : Option Nat :=
  (List.range 8).find? (fun b => !(n.fd (Fd.BUS_CARDONE_DONE q)).testBit b && !(n.bp q).cars.any (fun c => c.buf == b))

/-- A frame that matches a filter with CARAVAN set (R265, R266). -/
def Node.userCaravan (n : Node) (p : Nat) (f : Frame) (filt : Nat) (m : Moment) : Node :=
  let q := n.home p
  let (l, lost, full) := carStep (n.bp q).cars (n.freeCarBuf q) f filt n.tick
  let n := n.setBp q { n.bp q with cars := l }
  let n := lost.foldl (fun n (c, k) => n.carDiscard q c (idSrc f.id) k m) n
  let n := match l.find? (fun c => c.id == f.id) with
    | some c => n.setBytes (rxCarAddr q c.buf) (c.data.take 4096)
    | none => n
  match full with
  | none => n
  | some c =>
    let n := n.setBytes (rxCarAddr q c.buf) c.data
    let n := n.setFds [(Fd.BUS_CARLEN_FILT q c.buf, c.filt), (Fd.BUS_CARLEN_LEN q c.buf, c.data.length),
      (Fd.BUS_CARSRC_NUMBER q c.buf, c.num), (Fd.BUS_CARSRC_STATION q c.buf, idSrc f.id),
      (Fd.BUS_CARDONE_DONE q, n.fd (Fd.BUS_CARDONE_DONE q) ||| 2 ^ c.buf)]
    n.busRing q 2

/-- Cuts a caravan's text into lines at LF; a CR before it belongs to the terminator. -/
def linesOf : List Nat → List Nat → List (List Nat)
  | cur, [] => if cur.isEmpty then [] else [cur.reverse]
  | cur, c :: t => if c = 10 ∨ c = 13 then (if cur.isEmpty then linesOf [] t else cur.reverse :: linesOf [] t) else linesOf (c :: cur) t

/-- A complete command caravan or single-frame command (R265, R436): its lines go to the BUS command port. -/
def Node.busCommand (n : Node) (p src : Nat) (text : List Byte) (m : Moment) : Node :=
  if n.genMax p = 0 then n
  else
    let ls := (linesOf [] (text.map BitVec.toNat)).map (fun l => l.filter (· != 0)) |>.filter (fun l => !blank l)
    (ls.foldl (fun (a : Node × Bool) l => (a.1.lineIn .bus l src p a.2 m, true)) (n, false)).1

/-- A line that ends a reply: a completion or an error line, after its tag. -/
def endsReply (l : List Nat) : Bool :=
  let body := if l.head? = some 35 then ((l.drop 1).dropWhile isDigit).drop 1 else l
  body.head? == some 46 || body.head? == some 63
/-- A notice in a reply caravan carries tag 0. -/
def isNoticeLine (l : List Nat) : Bool := l.take 3 == [35, 48, 32]

/-- A reply caravan from a station: its lines are relayed to the line that tunnels to it (R275). -/
def Node.busReply (n : Node) (p src : Nat) (text : List Byte) : Node :=
  let ls := (linesOf [] (text.map BitVec.toNat)).map (fun l => l.filter (· != 0)) |>.filter (fun l => !blank l && !isNoticeLine l)
  if ls.isEmpty then n
  else match allPorts.find? (fun c => match (n.port c).await with
      | some a => a.what == .tunnel p src || (n.bus.linkF != 0 && a.what == .tunnel (1 - p) src)
      | none => false) with
    | none => n
    | some c => match (n.port c).await with
      | none => n
      | some a =>
        let out := ls.map (fun l => (LineKind.data, [Item.w "BUS REPLY", Item.c l]))
        if ls.any endsReply then
          (n.setPort c { n.port c with await := none }).send c a.tag (out ++ [(.done, [])]) true
        else (n.setPort c { n.port c with await := some { a with since := n.tick } }).send c a.tag out false

/-- A command or reply frame addressed to the node: reassembled in node-core memory, 4 at once (R265). In a pair its frames may
come from either port (R297). -/
def Node.nodeCaravan (n : Node) (p : Nat) (f : Frame) (m : Moment) : Node :=
  let q := n.home p
  let b := n.bp q
  let (l, lost, full) := carStep b.cmds (if b.cmds.length < 4 then some 0 else none) f 0 n.tick
  let n := n.setBp q { b with cmds := l }
  let n := lost.foldl (fun n (c, k) => n.carDiscard q c (idSrc f.id) k m) n
  match full with
  | none => n
  | some c => if idType f.id = 0 then n.busCommand p (idSrc f.id) c.data m else n.busReply p (idSrc f.id) c.data

/-- All caravans in reception are discarded (bus-off, DRAINING). -/
def Node.dropCaravans (n : Node) (p cause : Nat) (m : Moment) : Node :=
  let b := n.bp p
  let n := n.setBp p { b with cars := [], cmds := [] }
  (b.cars ++ b.cmds).foldl (fun n c => n.carDiscard p cause (idSrc c.id) c.num m) n

/-! ### The bit-time trimmer (R268, R269) -/

/-- tq per data bit of a generation (Table 9-1), at the rates in force. -/
def Node.dataTq (n : Node) (p gen : Nat) : Nat :=
  let w := (n.bp p).dataF
  if gen = 2 then [120, 60, 48, 30, 24, 20].getD ((Fd.BUS_BITDATA_CRATE p).get w) 20
  else [240, 120, 60, 48].getD ((Fd.BUS_BITDATA_BRATE p).get w) 48

/-- The entry for a station: its own, or the unlocked one with the oldest update, one never updated first (R268). -/
def Node.trimEntry (n : Node) (p st : Nat) : Option Nat :=
  match (List.range 64).find? (fun k => n.on (Fd.BUS_TRIM_VALID p k) && n.fd (Fd.BUS_TRIM_STATION p k) == st) with
  | some k => some k
  | none => match (List.range 64).find? (fun k => !n.on (Fd.BUS_TRIM_VALID p k) && !n.on (Fd.BUS_TRIM_LOCK p k)) with
    | some k => some k
    | none => ((n.bp p).trimAge.reverse).find? (fun k => !n.on (Fd.BUS_TRIM_LOCK p k))

/-- After a confirmed frame: `edges` counts the recessive-to-dominant edges of its data phase, with the sum of their
phase errors in quarter-tq. -/
def Node.trim (n : Node) (p : Nat) (f : Frame) (edges : Nat × Int) : Node :=
  if !n.on (Fd.BUS_CTRL_TRIM p) || f.gen = 0 || edges.1 < 8 || !f.ext || 5 ≤ idClass f.id ||
     n.held p || (n.bp p).listen == 2 then n
  else match n.trimEntry p (idSrc f.id) with
    | none => n
    | some k =>
      let mine := n.on (Fd.BUS_TRIM_VALID p k) && n.fd (Fd.BUS_TRIM_STATION p k) == idSrc f.id
      if mine && n.on (Fd.BUS_TRIM_LOCK p k) then n
      else
        let off0 : Int := if mine then signed 8 (n.fd (Fd.BUS_TRIM_OFFSET p k)) else 0
        let lim : Int := (n.dataTq p f.gen / 2 : Nat)
        let o := off0 + Q.round ⟨edges.2, 4 * edges.1⟩
        let o := if o < -lim then -lim else if lim < o then lim else o
        let fr := if mine then satAdd 255 (n.fd (Fd.BUS_TRIM_FRAMES p k)) 1 else 1
        let n := n.setFds [(Fd.BUS_TRIM_VALID p k, 1), (Fd.BUS_TRIM_FRAMES p k, fr), (Fd.BUS_TRIM_STATION p k, idSrc f.id),
          (Fd.BUS_TRIM_OFFSET p k, twos 8 o)]
        n.setBp p { n.bp p with trimAge := k :: (n.bp p).trimAge.filter (· != k) }

/-- The sample-point offset the receiver uses for a station's data phase, in quarter-tq (R268, R269). -/
def Node.sampleOffset (n : Node) (p st : Nat) : Int :=
  if !n.on (Fd.BUS_CTRL_TRIM p) then 0
  else match (List.range 64).find? (fun k => n.on (Fd.BUS_TRIM_VALID p k) && n.fd (Fd.BUS_TRIM_STATION p k) == st) with
    | some k => signed 8 (n.fd (Fd.BUS_TRIM_OFFSET p k))
    | none => 0

/-! ### Waystation (R298) -/

/-- Forwards a confirmed frame to the far segment. -/
def Node.forward (n : Node) (p : Nat) (f : Frame) (m : Moment) : Node :=
  if !n.wayOn then n
  else
    let far := 1 - p
    let bits := n.fd Fd.BUS_LINK_WAYFWD
    let c := idClass f.id
    let foreign := !f.ext || 5 ≤ c
    let dst := idDst f.id
    let wanted :=
      if foreign then bits.testBit 4
      else if c = 0 then false
      else bits.testBit (c - 1) && dst != n.station &&
        (dst == 255 || n.srv.map.any (fun e => e.station == dst && e.seg == far) || !n.srv.map.any (fun e => e.station == dst))
    if !wanted then n
    else
      let qd := Bank.get [] n.bus.way far
      if n.genMax far < f.gen || 32 ≤ qd.length || n.busState far != 1 then n.wayDrop p m
      else { n with bus := { n.bus with way := Bank.set [] n.bus.way far (qd ++ [f]) } }

/-! ### Pair (R297) -/

/-- Is the frame the copy of one confirmed on the other port within DUPWIN? It is dropped and counted. -/
def Node.duplicate (n : Node) (p : Nat) (f : Frame) (t : Nat) : Node × Bool :=
  if !n.pairOn then (n, false)
  else
    let live := n.bus.recent.filter (fun (_, _, u) => t ≤ u + n.dupWin)
    match live.find? (fun (o, g, _) => o != p && g.id == f.id && g.ext == f.ext && g.data == f.data) with
    | some x =>
      let n := { n with bus := { n.bus with recent := live.erase x } }
      (n.setFd Fd.BUS_DUPCNT_DUP (n.fd Fd.BUS_DUPCNT_DUP + 1), true)
    | none => ({ n with bus := { n.bus with recent := live ++ [(p, f, t)] } }, false)

/-- Under PAIR a user mailbox reads SENT once each port has sent it or cannot send: bus-off, OFF or asleep (R297), or of a
generation that cannot carry the frame (R437). -/
def Node.pairSettle (n : Node) : Node :=
  if !n.pairOn then n
  else ((List.range 64).drop 16).foldl (fun n m =>
    let d := fun p => (n.bp p).done.contains m
    let off := fun p => n.busMute p || (n.mbFrame 0 p m).isNone
    if n.mbStatus 0 m == 1 && (d 0 || d 1) && (d 0 || off 0) && (d 1 || off 1) then
      let n := n.mbEnd 0 m true
      (n.setBp 0 { n.bp 0 with done := (n.bp 0).done.filter (· != m) }).setBp 1 { n.bp 1 with done := (n.bp 1).done.filter (· != m) }
    else n) n

/-! ### Bus-off -/

/-- The port goes bus-off (R267, R265, R271). -/
def Node.goBusOff (n : Node) (p : Nat) (m : Moment) : Node :=
  let n := n.earlyEnd p false m
  let n := n.setFd (Fd.BUS_STAT_ERR p) 2
  let n := (n.bump (Fd.BUS_ERRCNT_BUSOFF p) 1).busEvt Fd.BUS_EVT_BUSOFF p
  let n := n.busRec 0x070 [p, n.fd (Fd.BUS_ERRCNT_TEC p), n.fd (Fd.BUS_ERRCNT_REC p)] p m
  let n := (n.busRing p 8).busWatch p "ERR" "BUSOFF"
  let n := n.dropCaravans p 3 m
  (n.setBp p { n.bp p with sent := [], tx := none }).pairSettle

/-- GENMAX falls back to B (R255). -/
def Node.genFallback (n : Node) (p : Nat) (m : Moment) : Node :=
  let n := n.setFds [(Fd.BUS_CTRL_GENMAX p, 1), (Fd.BUS_STAT_FALLBACK p, 1), (Fd.BUS_EVT_FALLBACK p, 1)]
  ((n.busRec 0x072 [p] p m).busRing p 10).busWatch p "FALLBACK" "YES"

/-! ### Replies, notices and messages that wait for the bus -/

/-- Cuts lines into messages of at most 4096 bytes (R264, log entry 35). -/
def packLines : List Nat → List (List Nat) → List (List Nat)
  | cur, [] => if cur.isEmpty then [] else [cur]
  | cur, l :: t => if cur.length + l.length ≤ 4096 then packLines (cur ++ l) t else cur :: packLines l t

/-- A reply caravan to a station; a message of 60 bytes or fewer goes as one frame (R264). -/
def Node.sendReply (n : Node) (p dst : Nat) (lines : List OutLine) : Node :=
  let msgs := packLines [] (lines.map (fun o => o.codes ++ [13, 10]))
  msgs.foldl (fun n t => n.sendLink p ⟨ident 3 1 n.station dst, t.map (BitVec.ofNat 8), false, some 1⟩) n

/-- The BUS port's replies go to the station their lines came from, once the lines of the caravan are answered; its
notices go to BNOTE (R266). Notices wait while a reply is open (R40). -/
def Node.flushBusPort (n : Node) : Node :=
  let s := n.port .bus
  let more := match s.waiting with
    | w :: _ => w.bulk
    | [] => false
  if s.replyOpen || more || s.mr.isSome || s.await.isSome then n
  else
    let n := if s.reply.isEmpty then n else (n.setPort .bus { s with reply := [] }).sendReply s.via s.station s.reply
    let s := n.port .bus
    if s.notices.isEmpty then n
    else
      let dst := (n.k Kid.bnote).toNat
      let n := n.setPort .bus { s with notices := [] }
      let ls := s.notices.map (fun o => { o with tag := "0" })
      if n.bus.linkF = 0 then (n.sendReply 0 dst ls).sendReply 1 dst ls else n.sendReply 0 dst ls

/-- Points of a group that are unacknowledged. -/
def Node.unackCount (n : Node) (g : Nat) : Nat := (n.livePts.filter (fun x => x.2.grp == g && x.2.isUnack)).length

/-- Call, cancel and alarm-state frames that wait (R203, R259, Table 9-5). -/
def Node.flushAlarms (n : Node) : Node :=
  let cs := n.alm.calls
  let ss := n.alm.stateOut
  let n := { n with alm := { n.alm with calls := [], stateOut := [] } }
  let n : Node := cs.foldl (fun (n : Node) (c : CallOut) =>
    if c.stage = 0 then n.sendBoth (msg (ident 1 1 n.station c.station) (BitVec.ofNat 8 c.group :: List.replicate 7 0#8))
    else n.sendBoth (msg (ident 1 0 n.station c.station)
      ([BitVec.ofNat 8 c.group, BitVec.ofNat 8 c.stage] ++ bytesLE 2 (n.foOf c.group) ++ bytesLE 2 (n.unackCount c.group) ++
        [0#8, 0#8]))) n
  let dst : Nat := (n.k Kid.almTo).toNat
  if dst = 0 then n
  else ss.foldl (fun (n : Node) (pt, st, lv, acc) =>
    n.sendBoth (msg (ident 1 5 n.station dst) (bytesLE 2 pt ++ [BitVec.ofNat 8 st, BitVec.ofNat 8 lv] ++ bytesLE 4 acc))) n

/-- The three frames of a grid report (Table 9-6), on the ports FRAMES names; in a pair, and on a waystation, on both. -/
def Node.flushGrid (n : Node) : Node :=
  if !n.grid.frames then n
  else
    let n := { n with grid := { n.grid with frames := false } }
    let w := fun a => bytesLE 4 (n.rd a).toNat
    let sec := n.grid.repSec
    let sq := fun k => w (Ad.GRID_SEQ k)
    let s := n.fd Fd.GRID_CTRL_FRAMES
    let f0 := bytesLE 6 sec ++ w Ad.GRID_REPQNS ++ bytesLE 2 ((n.rd Ad.GRID_RFLAGS).toNat % 65536) ++ w Ad.GRID_FREQ ++ w Ad.GRID_ROCOF ++
      sq 0 ++ sq 1 ++ sq 6 ++ sq 7 ++ w Ad.GRID_REPEST
    let inp : (Nat → Nat) → List Byte := fun a => (List.range 8).flatMap (fun i => w (a i))
    let f1 := inp (fun i => Ad.GRID_MAG i) ++ inp (fun i => Ad.GRID_ANG i)
    let f2 := w Ad.GRID_REPQNS ++ sq 2 ++ sq 3 ++ sq 4 ++ sq 5 ++ sq 8 ++ sq 9 ++ sq 10 ++ sq 11 ++ bytesLE 4 0
    let go := fun (n : Node) (p : Nat) =>
      if s.testBit p || (s != 0 && n.bus.linkF != 0) then
        ((n.queueMsg p (msg (ident 2 0x100 n.station 255) f0)).queueMsg p (msg (ident 2 0x101 n.station 255) f1)).queueMsg p
          (msg (ident 2 0x102 n.station 255) f2)
      else n
    go (go n 0) 1

/-- Everything of the node that waits for the bus is queued on its ports. -/
def Node.busFlush (n : Node) : Node := n.flushAlarms.flushGrid.flushBusPort

end Sys2Proof.Machine
end

