-- ==== Sys2Proof/Machine/Time.lean ====
section
/-! DEFINITION. The beat, node time, the servo, time sources, edge capture and the TIME and BEAT commands (chapter 3). -/
namespace Sys2Proof.Machine

/-! ### Keys -/

/-- TIME keys (Table 3-5). -/
def timeSpecs : List KeySpec := [
  ks "SOURCE" (.enum [("AUTO", 0), ("PPS", 1), ("FINUT", 2), ("LOCAL", 3)]) (fun _ => Fd.TIME_CTRL_SRCSEL),
  ks "ROLE" (.enum [("FOLLOW", 0), ("REF", 1)]) (fun _ => Fd.TIME_CTRL_ROLE),
  ks "PPSEDGE" (.enum [("RISE", 0), ("FALL", 1)]) (fun _ => Fd.TIME_CTRL_PPSEDGE),
  ks "PPSDELAY" (.fix (q (-100000)) (q 100000) (qd 25 2) (q 0)) (fun _ => Fd.TIME_PPSDLY_PPSDLY),
  ks "PPSWIN" (.int 100 50000) (fun _ => Fd.TIME_PPSCFG_PPSWIN),
  ks "IRIG" onOff (fun _ => Fd.TIME_CTRL_IRIGEN),
  ks "IRIGCODE" (.enum [("B000", 0), ("B001", 1), ("B002", 2), ("B003", 3), ("B004", 4), ("B005", 5), ("B006", 6),
    ("B007", 7)]) (fun _ => Fd.TIME_IRIGCFG_CODE),
  ks "YEAR" (.fix (q 2000) (q 2255) (q 1) (q 2000)) (fun _ => Fd.TIME_IRIGCFG_YEAR),
  ks "TAIUTC" (.int 0 255) (fun _ => Fd.TIME_IRIGCFG_TAIUTC),
  ks "LEAP" (.enum [("NONE", 0), ("ADD", 1), ("DEL", 2)]) (fun _ => Fd.TIME_CTRL_LEAP),
  ks "STEPLIM" (.int 1 1000) (fun _ => Fd.TIME_SERVO_STEPLIM),
  ks "SLEWMAX" (.int 1 500) (fun _ => Fd.TIME_SERVO_SLEWMAX),
  ks "PULSEW" (.int 1 500) (fun _ => Fd.TIME_PPSCFG_PULSEW)]

/-- The name of a pin. -/
def pinName (i : Nat) : String := "GP" ++ toString (i / 10) ++ toString (i % 10)
def pinWords : List (String × Nat) := (List.range 48).map (fun i => (pinName i, i))

/-- Capture keys (R82). A channel whose PIN is NONE has ENABLE at 0. -/
def captureSpecs : List KeySpec := [
  ks "PIN" (.enum (pinWords ++ [("PPS", 48), ("IRIG", 49), ("NONE", 63)])) Fd.TIME_CAPCFG_SEL,
  ks "EDGE" (.enum [("NONE", 0), ("RISE", 1), ("FALL", 2), ("BOTH", 3)]) Fd.TIME_CAPCFG_EDGE]

/-! ### Servo states and their names (Tables 3-3 and 3-7) -/

def stUnset : Nat := 0
def stAcquiring : Nat := 1
def stLocked : Nat := 2
def stHoldover : Nat := 3
def stCoarse : Nat := 4

def stateName (s : Nat) : String :=
  match s with
  | 0 => "UNSET" | 1 => "ACQUIRING" | 2 => "LOCKED" | 3 => "HOLDOVER" | _ => "COARSE"
def sourceName (s : Nat) : String :=
  match s with
  | 1 => "PPS" | 2 => "FINUT" | _ => "HOLDOVER"

/-- The helper order of Table 1-1 for the time service. -/
def helpTime : Nat := 1

/-- A pending DO TIME SET is discarded (R80, R90). -/
def Node.discardSet (n : Node) : Node :=
  match n.tm.setPend with
  | some (_, a) =>
    let n := { n with tm := { n.tm with setPend := none } }
    (n.setOn Fd.TIME_STATUS_SETPEND false).notifyWatch .time "" none [.w "TIME SET DISCARDED AT", .n a]
  | none => n

/-- TIME.EST and the value HOLDOVER counts from. -/
def Node.setEst (n : Node) (e : Nat) : Node :=
  { (n.setFd Fd.TIME_EST_EST e) with tm := { n.tm with estBase := e } }
/-- TIME.EST in HOLDOVER at a moment (Table 3-3): the value on entry plus 17 ns per second since the last valid offset, to the
nearest ns (log entry 83). With no offset ever measured the value on entry stands. -/
def Node.heldEst (n : Node) (m : Moment) : Nat :=
  match n.tm.offAt with
  | some t => Nat.min (n.tm.estBase + (17 * (n.now m - t) + qnsSec / 2) / qnsSec) 0xFFFFFFFF
  | none => n.tm.estBase

/-- A change of STATE or SOURCE: source 209, a TIME-SOURCE record, the notice, and the discard of a commanded step
when a source is selected (R70, R80, R84; Tables 3-11 and 8-6). A source is selected when SOURCE names one: the ACQUIRING of
DO TIME REINIT without a source leaves a commanded step pending (log entry 83). -/
def Node.servoTo (n : Node) (st src : Nat) (m : Moment) : Node :=
  let st0 := n.fd Fd.TIME_STATUS_STATE
  let src0 := n.fd Fd.TIME_STATUS_SOURCE
  if st = st0 ∧ src = src0 then n
  else
    let n := (n.setFd Fd.TIME_STATUS_STATE st).setFd Fd.TIME_STATUS_SOURCE src
    let n := if st = stAcquiring then
        match n.tm.offs with
        | o :: _ => n.setFd Fd.TIME_EST_EST (Nat.min ((o + 3) / 4) 0xFFFFFFFF)
        | [] => n
      else if st = stHoldover then
        let n := (n.setEst (n.fd Fd.TIME_EST_EST)).setFd Fd.TIME_FREQ_FREQ n.tm.lockFreq.toNat
        n.setFd Fd.TIME_EST_EST (n.heldEst m)
      else n
    let n := if st = stAcquiring ∨ st = stHoldover then { n with tm := { n.tm with good := 0, badRun := 0 } } else n
    let n := n.ring 209
    let n := n.raiseM 0x020 [BitVec.ofNat 8 st, BitVec.ofNat 8 src, BitVec.ofNat 8 st0, BitVec.ofNat 8 src0] m helpTime
    let n := n.notifyWatch .time "" none
      [.w "TIME STATE", .w (stateName st), .w "SOURCE", .w (sourceName src), .w "EST", .n (n.fd Fd.TIME_EST_EST)]
    if st = stAcquiring ∧ src ≠ 0 then n.discardSet else n

/-- A step of the servo that has not been applied is dropped. -/
def Node.dropServoStep (n : Node) : Node := { n with tm := { n.tm with stepPend := none } }

/-- The latest second boundary that the present beat, or a beat before it, holds. -/
def Node.lastBoundary (n : Node) : Nat := (n.tm.t1 - 1) / qnsSec * qnsSec
/-- Where in the present beat the second boundary lies whose work is due: at its start, but in an adjusted beat that meets one
on its way (R73). -/
def Node.secMoment (n : Node) : Moment :=
  if n.tm.secDue = 1 ∧ n.tm.t0 < n.lastBoundary then n.lastBoundary - n.tm.t0 else 0

/-- The source R63 selects: 0 HOLDOVER, 1 PPS, 2 FINUT. On the internal oscillator none is taken (R91). -/
def Node.selected (n : Node) : Nat :=
  let pps := n.tm.ppsQual
  let fin := n.on Fd.TIME_STATUS_FINUTOK
  if n.sys.oscInt then 0
  else match Fd.TIME_CTRL_SRCSEL.get n.tm.ctrlF with
    | 0 =>
      if fin && pps && n.fd Fd.TIME_STATUS_SOURCE == 2 && n.lastBoundary < n.tm.ppsSince + 10 * qnsSec then 2
      else if pps then 1 else if fin then 2 else 0
    | 1 => if pps then 1 else 0
    | 2 => if fin then 2 else 0
    | _ => 0

/-- The first second boundary that begins at least 100 ms after a time (R72). -/
def boundaryAfter (t : Nat) : Nat := (t + 400000000 + qnsSec - 1) / qnsSec

/-- A signed number saturated to 32 bits. -/
def sat32 (z : Int) : Int := if z < -2147483648 then -2147483648 else if 2147483647 < z then 2147483647 else z

/-- A frequency correction: how the loop turns offsets into one is not in the spec, so it is a free value within the
largest change of rate, SLEWMAX (R72, log entry 21). -/
def Node.newFreq (n : Node) : Node :=
  let (w, n) := n.fresh
  let lim := n.fd Fd.TIME_SERVO_SLEWMAX * 65536
  n.setFd Fd.TIME_FREQ_FREQ (twos 32 (((w.toNat % (2 * lim + 1) : Nat) : Int) - (lim : Int)))

/-- An offset above STEPLIM asks for a step at the next boundary; a smaller one, in ACQUIRING or LOCKED, corrects the rate (R71,
R72). -/
def Node.stepOrSlew (n : Node) (off : Int) (m : Moment) : Node :=
  if n.fd Fd.TIME_SERVO_STEPLIM * 4000 < off.natAbs then
    if n.tm.stepPend.isSome then n
    else { n with tm := { n.tm with stepPend := some (off, boundaryAfter (n.now m)) } }
  else if n.tm.stepPend.isSome ∨ (n.fd Fd.TIME_STATUS_STATE ≠ stAcquiring ∧ n.fd Fd.TIME_STATUS_STATE ≠ stLocked) then n
  else n.newFreq
/-- LOCKED holds, or begins, with the mean of the last offsets in EST and the rate correction of now kept (Table 3-3). -/
def Node.lockNow (n : Node) : Node :=
  let n := n.setFd Fd.TIME_EST_EST ((n.tm.offs.sum + 39) / 40)
  { n with tm := { n.tm with lockFreq := n.rd Ad.TIME_FREQ } }

/-- The servo takes an offset (reference time minus node time, quarter-ns) measured at a moment (R70 to R72). Only in ACQUIRING and
LOCKED does it correct the rate: HOLDOVER keeps its correction (R71), and UNSET keeps 0 (R80). While ACQUIRING the magnitude in
TIME.EST is rounded up to whole ns, as Table 3-3 has it for LOCKED (log entry 83). -/
def Node.servoOffset (n : Node) (off : Int) (m : Moment) : Node :=
  let a := off.natAbs
  let n := n.setFd Fd.TIME_OFFSET_OFFSET (twos 32 (sat32 off))
  let good := if a ≤ 160 then n.tm.good + 1 else 0
  let bad := if 800 < a then n.tm.badRun + 1 else 0
  let st := n.fd Fd.TIME_STATUS_STATE
  let n := { n with tm := { n.tm with offs := (a :: n.tm.offs).take 10, good := good, badRun := bad, offAt := some (n.now m) } }
  let n := n.stepOrSlew off m
  let src := n.fd Fd.TIME_STATUS_SOURCE
  if st = stAcquiring then
    let n := n.setFd Fd.TIME_EST_EST (Nat.min ((a + 3) / 4) 0xFFFFFFFF)
    if 10 ≤ good then n.lockNow.servoTo stLocked src m else n
  else if st = stLocked then
    if 3 < bad then n.servoTo stAcquiring src m
    else n.lockNow
  else n

/-! ### PPS and IRIG-B -/

/-- PPSDELAY in force, in quarter-nanoseconds. -/
def Node.ppsDelay (n : Node) : Int := signed 32 n.tm.dlyF.toNat

/-- PPS stops being qualified. -/
def Node.unqualify (n : Node) : Node :=
  { n with tm := { n.tm with ppsQual := false, ppsRun := 0, ppsSince := 0, ppsMiss := 0, nextSec := none } }

/-- A qualified edge: the offset it gives goes to the servo. -/
def Node.ppsHeld (n : Node) (t : Nat) (m : Moment) : Node :=
  let ref := n.tm.nextSec.getD ((t + qnsSec / 2) / qnsSec)
  let n := { n with tm := { n.tm with ppsLast := some t, ppsMiss := 0, nextSec := some (ref + 1) } }
  let n := n.setOn Fd.TIME_STATUS_PPSOK true
  if n.fd Fd.TIME_STATUS_SOURCE = 1 ∨ n.selected = 1 then n.servoOffset ((ref * qnsSec : Nat) - (t : Int)) m else n

/-- The edge that qualifies the pulse. -/
def Node.ppsQualify (n : Node) (t : Nat) (irig : Bool) (m : Moment) : Node :=
  let ref := match irig, n.tm.irigLast with
    | true, some l => l + 1
    | _, _ => (t + qnsSec / 2) / qnsSec
  let n := { n with tm := { n.tm with ppsQual := true, ppsMiss := 0, ppsSince := t, nextSec := some (ref + 1) } }
  let n := n.setOn Fd.TIME_STATUS_PPSOK true
  if n.selected = 1 then n.servoOffset ((ref * qnsSec : Nat) - (t : Int)) m else n

/-- A PPS edge of the chosen polarity and of a pulse of 1 µs to 500 ms (R64): stamped, corrected by PPSDELAY. -/
def Node.ppsEdge (n : Node) (m : Moment) : Node :=
  let t : Nat := ((n.now m : Int) - n.ppsDelay).toNat
  let win := n.fd Fd.TIME_PPSCFG_PPSWIN * 4
  let near := match n.tm.ppsLast with
    | some p => p + qnsSec ≤ t + win && t ≤ p + qnsSec + win
    | none => false
  if n.tm.ppsQual then
    if near then n.ppsHeld t m else n
  else
    let run := if near then n.tm.ppsRun + 1 else 1
    let n := { n with tm := { n.tm with ppsLast := some t, ppsRun := run } }
    let irig := Fd.TIME_CTRL_IRIGEN.get n.tm.ctrlF == 1
    if 3 ≤ run ∧ (irig = true → n.on Fd.TIME_STATUS_IRIGOK) then n.ppsQualify t irig m else n

/-- A PPS edge is missing (R64): PPSOK clears and source 211 rings; the third in a row unqualifies PPS. -/
def Node.ppsMissing (n : Node) : Node :=
  if !n.tm.ppsQual then n
  else
    let n := (n.setOn Fd.TIME_STATUS_PPSOK false).ring 211
    let n := { n with tm := { n.tm with ppsMiss := n.tm.ppsMiss + 1, ppsLast := n.tm.ppsLast.map (· + qnsSec),
                                        nextSec := n.tm.nextSec.map (· + 1) } }
    if 3 ≤ n.tm.ppsMiss then n.unqualify else n

/-- Days from 1970-01-01 to the first day of a year. -/
def daysToYear (y : Nat) : Nat := (y - 1970) * 365 + ((y - 1969) / 4 - (y - 1901) / 100 + (y - 1601) / 400)
/-- The TAI second of a label (R67): its UTC seconds plus TAIUTC. -/
def Node.labelTai (n : Node) (l : IrigLabel) : Nat :=
  let code := Fd.TIME_IRIGCFG_CODE.get n.tm.irigF
  let y := if 4 ≤ code then l.year else 2000 + Fd.TIME_IRIGCFG_YEAR.get n.tm.irigF
  (daysToYear y + l.day - 1) * 86400 + l.hour * 3600 + l.minute * 60 + l.second + n.fd Fd.TIME_IRIGCFG_TAIUTC

/-- A label no clock shows, or 23:59:60 without LEAP=ADD, is no label (R65, R67). -/
def Node.labelOk (n : Node) (l : IrigLabel) : Bool :=
  1 ≤ l.day && l.day ≤ 366 && l.hour < 24 && l.minute < 60 &&
  (l.second < 60 || (l.second == 60 && l.hour == 23 && l.minute == 59 && n.fd Fd.TIME_CTRL_LEAP == 1))

/-- A decoded IRIG-B frame (R65, R67, R68). A rejected frame clears IRIGOK at once (log entry 83), and PPS is qualified only while
IRIGOK is 1. -/
def Node.irigFrame (n : Node) (l : IrigLabel) (dist : Int) (cellsOk : Bool) (m : Moment) : Node :=
  if Fd.TIME_CTRL_IRIGEN.get n.tm.ctrlF = 0 then n
  else if !cellsOk || !n.labelOk l || 40000 < dist.natAbs || n.tm.ppsLast.isNone then
    let n := { n with tm := { n.tm with irigRun := 0, irigLast := none, irigDis := 0, irigDisBy := 0 } }
    let n := (n.setOn Fd.TIME_STATUS_IRIGOK false).ring 212
    if n.tm.ppsQual then n.unqualify else n
  else
    let tai := n.labelTai l
    if n.tm.ppsQual then
      -- R68: the label against node time
      let here : Int := ((n.tm.ppsLast.getD 0 + qnsSec / 2) / qnsSec : Nat)
      let d : Int := (tai : Int) - here
      if d = 0 then { n with tm := { n.tm with irigDis := 0, irigDisBy := 0, irigLast := some tai } }
      else if n.tm.irigDis = 0 then
        ({ n with tm := { n.tm with irigDis := 1, irigDisBy := d, irigLast := some tai } }).ring 212
      else if d = n.tm.irigDisBy then
        let k := n.tm.irigDis + 1
        let n := ({ n with tm := { n.tm with irigDis := k, irigLast := some tai } }).ring 212
        if 5 ≤ k then
          { n with tm := { n.tm with irigDis := 0, irigDisBy := 0,
                                     stepPend := some (d * (qnsSec : Int), n.now m / qnsSec + 1),
                                     nextSec := n.tm.nextSec.map (fun s => ((s : Int) + d).toNat) } }
        else n
      else
        let n := { n with tm := { n.tm with irigDis := 1, irigDisBy := d, irigLast := some tai, irigRun := 1 } }
        ((n.setOn Fd.TIME_STATUS_IRIGOK false).ring 212).unqualify
    else
      let run := match n.tm.irigLast with
        | some p => if p + 1 = tai then n.tm.irigRun + 1 else 1
        | none => 1
      let n := { n with tm := { n.tm with irigRun := run, irigLast := some tai, irigDis := 0 } }
      if 2 ≤ run then n.setOn Fd.TIME_STATUS_IRIGOK true
      else if n.on Fd.TIME_STATUS_IRIGOK then (n.setOn Fd.TIME_STATUS_IRIGOK false).ring 212 else n

/-- A leap second at this second boundary (R67): TAIUTC is adjusted, LEAP returns to NONE, LEAP-APPLIED is recorded
and source 215 rings. While STATE is UNSET no second of node time is known to be one, and none is applied (log entry 83). -/
def Node.leapBoundary (n : Node) (m : Moment) : Node :=
  let utc : Int := ((n.tm.t1 - 1) / qnsSec : Nat) - (n.fd Fd.TIME_IRIGCFG_TAIUTC : Int)
  let apply (n : Node) (z : Nat) (kind : Nat) : Node :=
    let n := (n.setFd Fd.TIME_IRIGCFG_TAIUTC z).setFd Fd.TIME_CTRL_LEAP 0
    (n.raiseM 0x022 [BitVec.ofNat 8 z, BitVec.ofNat 8 kind] m helpTime).ring 215
  if n.fd Fd.TIME_STATUS_STATE = stUnset then n
  else match n.fd Fd.TIME_CTRL_LEAP with
    | 1 => if utc % 86400 = 1 then apply n (n.fd Fd.TIME_IRIGCFG_TAIUTC + 1) 1 else n
    | 2 => if utc % 86400 = 86399 then apply n (n.fd Fd.TIME_IRIGCFG_TAIUTC - 1) 2 else n
    | _ => n

/-! ### Second boundary and steps -/

/-- The settings of R79 that changed take effect at the boundary, the source R63 selects is taken, and the servo state
follows (R63, R70, R79). IRIG-B that comes into force without valid labels leaves PPS unqualified (R65). -/
def Node.sourceBoundary (n : Node) (m : Moment) : Node :=
  let chg := n.tm.change
  let n := { n with tm := { n.tm with ctrlF := n.rd Ad.TIME_CTRL, dlyF := n.rd Ad.TIME_PPSDLY, irigF := n.rd Ad.TIME_IRIGCFG,
                                      change := false } }
  let n := if n.tm.ppsQual && Fd.TIME_CTRL_IRIGEN.get n.tm.ctrlF == 1 && !n.on Fd.TIME_STATUS_IRIGOK then n.unqualify else n
  let sel := n.selected
  let st := n.fd Fd.TIME_STATUS_STATE
  let src := n.fd Fd.TIME_STATUS_SOURCE
  if sel ≠ 0 then
    if sel ≠ src ∨ chg ∨ st = stUnset ∨ st = stHoldover ∨ st = stCoarse then n.servoTo stAcquiring sel m else n
  else if Fd.TIME_CTRL_SRCSEL.get n.tm.ctrlF = 3 ∨ chg then (n.servoTo stHoldover 0 m).dropServoStep
  else if st = stUnset ∨ st = stCoarse then n
  else if src ≠ 0 then (n.servoTo stHoldover 0 m).dropServoStep else n

/-- TIME.EST in HOLDOVER is brought up to date at each second boundary (Table 3-3, log entry 83). -/
def Node.holdoverEst (n : Node) (m : Moment) : Node :=
  if n.fd Fd.TIME_STATUS_STATE = stHoldover then n.setFd Fd.TIME_EST_EST (n.heldEst m) else n

/-- The index and the two instants of the beat that begins at a step to time `p` (R73). -/
def stepBeat (p : Nat) : Nat × Nat :=
  let e := p % 80000
  if e = 0 then (p, p + 80000) else if e ≤ 10000 then (p, p - e + 80000) else (p, p - e + 160000)

/-- A signed time of `size` quarter-ns in ns, its sign always written (R84, the transcript of chapter 3). -/
def signedNs (size : Int) : Item :=
  let a := size.natAbs * 25
  .w ((if size < 0 then "-" else "+") ++ toString (a / 100) ++ "." ++ toString (a / 10 % 10) ++ toString (a % 10))

/-- Instants that State keeps in node time move with a step, so that what was measured from them stays as long as it is. -/
def Node.shiftTimes (n : Node) (size : Int) : Node :=
  let f : Nat → Nat := fun t => ((t : Int) + size).toNat
  { n with
    tm := { n.tm with ppsLast := n.tm.ppsLast.map f, ppsSince := f n.tm.ppsSince, markAt := f n.tm.markAt, majorAt := f n.tm.majorAt,
                      offAt := n.tm.offAt.map f, capLast := n.tm.capLast.map (fun x => (x.1, 1 + f (x.2 - 1))) }
    bus := { n.bus with ports := n.bus.ports.map (fun x => (x.1,
      { x.2 with gateEnd := x.2.gateEnd.map (fun y => (y.1, f y.2)), markReq := x.2.markReq.map f, markOk := f x.2.markOk })) }
    gp := { n.gp with lockAt := f n.gp.lockAt } }

/-- Node time jumps by `size` at the start of the present beat (R73, R74): the beat is adjusted, the step is counted,
recorded and told, source 210 rings. -/
def Node.applyStep (n : Node) (size : Int) : Node :=
  let pre := n.tm.t0
  let p : Nat := ((pre : Int) + size).toNat
  let (a, b) := stepBeat p
  let len := b - a
  let n := n.shiftTimes size
  let n := { n with tm := { n.tm with t0 := a, t1 := b,
                                      watchStep := n.tm.watchStep || size % (qnsSec : Int) != 0,
                                      secDue := n.tm.secDue + (if a % qnsSec != 0 && (b - 1) / qnsSec != a / qnsSec then 1 else 0) } }
  let n := n.setFd Fd.TIME_STATUS_STEPSEQ (n.fd Fd.TIME_STATUS_STEPSEQ + 1)
  let n := if p % 80000 = 0 then n
    else n.setFds [(Fd.BEAT_STATUS_STEPSEQ, n.fd Fd.TIME_STATUS_STEPSEQ), (Fd.BEAT_STATUS_ADJNOW, 1),
      (Fd.BEAT_STATUS_SHORT, if len < 80000 then 1 else 0), (Fd.BEAT_STATUS_STRETCH, if 80000 < len then 1 else 0),
      (Fd.BEAT_ADJ_NUMBER, n.idx), (Fd.BEAT_ADJ_LEN, (len + 2) / 4), (Fd.BEAT_ADJSEC_SEC, n.idxSec)]
  let n := n.ring 210
  let n := n.raise 0x021 (bytesLE 8 (twos 64 size) ++ bytesLE 6 (secOf pre)) 0 helpTime
  n.notifyWatch .time "" none
    [.w "TIME STEP", signedNs size, .w "AT", .n (secOf a), .w "BEAT", .n n.idx,
     .w (if len < 80000 then "SHORTENED" else if 80000 < len then "STRETCHED" else "UNCHANGED"), .n ((len + 2) / 4)]

/-- A pending step whose pre-step second begins with the present beat is applied (R72, R80, R90); answers whether one
was. -/
def Node.timeStep (n : Node) : Node × Bool :=
  let here := n.tm.t0 / qnsSec
  let atBoundary := n.tm.t0 % qnsSec = 0
  match n.tm.setPend with
  | some (t, a) =>
    if atBoundary ∧ a = here then
      let n := { n with tm := { n.tm with setPend := none, stepPend := none, nextSec := none } }
      let n := (n.setOn Fd.TIME_STATUS_SETPEND false).applyStep ((t : Int) - (n.tm.t0 : Int))
      let n := (n.setEst 0xFFFFFFFF).servoTo stHoldover 0 0
      (n, true)
    else match n.tm.stepPend with
      | some (d, b) =>
        if atBoundary ∧ b = here then
          (({ n with tm := { n.tm with stepPend := none } }).applyStep d |>.discardSet, true)
        else (n, false)
      | none => (n, false)
  | none => match n.tm.stepPend with
    | some (d, b) =>
      if atBoundary ∧ b = here then (({ n with tm := { n.tm with stepPend := none } }).applyStep d, true) else (n, false)
    | none => (n, false)

/-! ### Beats -/

/-- The overrun counter of a slot (Table 3-10). -/
def ovrFd (k : Nat) : Fd :=
  match k with
  | 0 => Fd.BEAT_OVR0_SEQ | 1 => Fd.BEAT_OVR0_GRID | 2 => Fd.BEAT_OVR1_ALM | 3 => Fd.BEAT_OVR1_LO
  | 4 => Fd.BEAT_OVR2_GPIO | 5 => Fd.BEAT_OVR2_ARC | _ => Fd.BEAT_OVR3_NODE

/-- Overruns of the slots whose work is still unpublished at the boundary (R60): counted, source 3 rings once. -/
def Node.overruns (n : Node) : Node :=
  let ls := (List.range 7).filter (fun k => n.tm.lateWork.contains k)
  let n := ls.foldl (fun n k =>
    let n := n.bump (ovrFd k) 1
    { n with tm := { n.tm with ovrSec := Bank.set 0 n.tm.ovrSec k (satAdd 0xFFFF (Bank.get 0 n.tm.ovrSec k) 1) } }) n
  let n := if ls.isEmpty then n else n.ring 3
  { n with tm := { n.tm with lateWork := [] } }

/-- The next beat begins (R16): the counts kept in beats advance by one. -/
def Node.beatAdvance (n : Node) : Node :=
  let ob := n.arc.opBeat + 1
  { n with
    tm := { n.tm with t0 := n.tm.t1, t1 := n.tm.t1 + 80000, secDue := if n.tm.t1 % qnsSec = 0 then 1 else 0 }
    tick := n.tick + 1
    cmd := { n.cmd with clock := if n.sys.sleep.isSome then n.cmd.clock else n.cmd.clock + 1 }
    arc := { n.arc with opBeat := ob % 50, opMs := n.arc.opMs + ob / 50, rdyRung := false } }

/-- A helper is not finished by its stage's end: its work of the beat waits (R59). -/
def Node.markLate (n : Node) (k : Nat) : Node := { n with tm := { n.tm with lateWork := n.tm.lateWork ++ [k] } }
/-- A late helper has finished: BEAT.LATE records it (R59). -/
def Node.latePublished (n : Node) (k : Nat) : Node :=
  let n := { n with tm := { n.tm with lateWork := n.tm.lateWork.filter (· != k) } }
  n.setBit Ad.BEAT_LATE k

/-- The items of BEAT OVR (R83). -/
def ovrItems (f : Nat → Nat) : List Item :=
  [.w "SEQ", .n (f 0), .w "GRID", .n (f 1), .w "ALM", .n (f 2), .w "LO", .n (f 3), .w "GPIO", .n (f 4), .w "ARC", .n (f 5),
   .w "NODE", .n (f 6)]

/-- The record and the notice of a second with overruns (R61, R84). The notice carries the counts of that second, as the record
does (log entry 83). -/
def Node.overrunRecord (n : Node) (m : Moment) : Node :=
  if n.tm.ovrSec.isEmpty then n
  else
    let c := fun k => Bank.get 0 n.tm.ovrSec k
    let n := n.raiseM 0x024 ((List.range 7).flatMap (fun k => bytesLE 2 (c k))) m helpTime
    let n := n.notifyWatch .beat "" none (.w "BEAT OVR" :: ovrItems c)
    { n with tm := { n.tm with ovrSec := [] } }

/-! ### Edge capture (R77) -/

def ovfFd (c : Nat) : Fd := ⟨Ad.TIME_CAPSTAT, 4 * c + 3, 4 * c + 3⟩
def countFd (c : Nat) : Fd := ⟨Ad.TIME_CAPSTAT, 4 * c + 2, 4 * c⟩

/-- The stamps a channel holds, with the registers that show the oldest (Table 3-9). -/
def Node.setCap (n : Node) (c : Nat) (l : List Nat) : Node :=
  let n := { n with tm := { n.tm with caps := Bank.set [] n.tm.caps c l } }
  let n := n.setFd (countFd c) l.length
  match l with
  | [] => n.setFds [(Fd.TIME_CAPSEC_SEC c, 0), (Fd.TIME_CAPQNS_QNS c, 0)]
  | t :: _ => n.setFds [(Fd.TIME_CAPSEC_SEC c, secOf t), (Fd.TIME_CAPQNS_QNS c, qnsOf t)]

/-- One channel meets an edge of its pad: a stamp at 0.5 ns resolution, or OVF when it is full or the edge comes less
than 10 ns after the one before. `capLast` moves with a step of node time, so the 10 ns are as long across one. -/
def Node.capEdge (n : Node) (c : Nat) (t : Nat) : Node :=
  let last := Bank.get 0 n.tm.capLast c
  let held := Bank.get [] n.tm.caps c
  let tooSoon := last != 0 && t < last - 1 + 40 && last - 1 ≤ t
  let n := { n with tm := { n.tm with capLast := Bank.set 0 n.tm.capLast c (t + 1) } }
  if 4 ≤ held.length || tooSoon then (n.setOn (ovfFd c) true).ring 214
  else
    let s := t - t % 2
    let n := (n.setCap c (held ++ [s])).ring 213
    n.notifyWatch .time "" (some c) [.w "TIME", .n c, .w "SEC", .n (secOf s), .w "QNS", .n (qnsOf s)]

/-- An edge of a pad: each channel on that pad that has chosen its polarity meets it. The 10 ns of R77 count between edges a channel
has chosen (log entry 83). -/
def Node.edgeCapture (n : Node) (sel : Nat) (rise : Bool) (m : Moment) : Node :=
  (List.range 8).foldl (fun n c =>
    let e := n.fd (Fd.TIME_CAPCFG_EDGE c)
    if n.on (Fd.TIME_CAPCFG_ENABLE c) && n.fd (Fd.TIME_CAPCFG_SEL c) == sel && (if rise then e % 2 == 1 else 2 ≤ e)
    then n.capEdge c (n.now m) else n) n

/-- Removes the oldest stamp of each channel whose bit is 1 (R82). -/
def Node.capPop (n : Node) (v : Word) : Node :=
  (List.range 8).foldl (fun n c => if v.getLsbD c then n.setCap c ((Bank.get [] n.tm.caps c).drop 1) else n) n

/-- Sets overrun counters to 0 (R83). -/
def Node.ovrClear (n : Node) (v : Word) : Node :=
  (List.range 7).foldl (fun n k => if v.getLsbD k then n.setFd (ovrFd k) 0 else n) n

/-! ### What a change of a TIME setting does -/

/-- After a change of settings, by SET, by register or by a load: the settings of R79 wait for the boundary. -/
def Node.timeChanged (old n : Node) : Node :=
  let f := fun (x : Fd) => n.fd x != old.fd x
  if f Fd.TIME_CTRL_SRCSEL || f Fd.TIME_CTRL_PPSEDGE || f Fd.TIME_PPSDLY_PPSDLY || f Fd.TIME_CTRL_IRIGEN ||
     f Fd.TIME_IRIGCFG_CODE || f Fd.TIME_IRIGCFG_YEAR then
    { n with tm := { n.tm with change := true } }
  else n

/-- A value written to a TIME register outside its range is taken as the nearest limit (Table 3-8). -/
def clampReg (a : Nat) (v : Word) : Word :=
  let cl (w : Word) (f : Fd) (lo hi : Nat) : Word := f.put w (Nat.max lo (Nat.min hi (f.get w)))
  if a = Ad.TIME_SERVO then cl (cl v Fd.TIME_SERVO_SLEWMAX 1 500) Fd.TIME_SERVO_STEPLIM 1 1000
  else if a = Ad.TIME_PPSCFG then cl (cl v Fd.TIME_PPSCFG_PULSEW 1 500) Fd.TIME_PPSCFG_PPSWIN 100 50000
  else if a = Ad.TIME_PPSDLY then
    let z := signed 32 v.toNat
    BitVec.ofNat 32 (twos 32 (if z < -400000 then -400000 else if 400000 < z then 400000 else z))
  else if a = Ad.TIME_CTRL then (if Fd.TIME_CTRL_LEAP.get v = 3 then Fd.TIME_CTRL_LEAP.put v 0 else v)
  else v

/-! ### Commands and events -/

def execPpsEdge (rise : Bool) (widthNs : Nat) (m : Moment) (s : State) : Host.Outcome State Fault Refusal :=
  s.lift fun n =>
    let want := Fd.TIME_CTRL_PPSEDGE.get n.tm.ctrlF = 0
    if n.working && n.padOn 48 && rise == want && 1000 ≤ widthNs && widthNs ≤ 500000000 then n.ppsEdge m else n

def execPpsEdgeMissing (_m : Moment) (s : State) : Host.Outcome State Fault Refusal :=
  s.lift fun n => if n.working then n.ppsMissing else n

def execIrigFrame (label : IrigLabel) (dist : Int) (cellsOk : Bool) (m : Moment) (s : State) :
    Host.Outcome State Fault Refusal :=
  s.lift fun n => if n.working && n.padOn 49 then n.irigFrame label dist cellsOk m else n

/-- FINUT stops being valid once 30 ms have passed without an accepted mark (R69). -/
def execFinutInvalid (m : Moment) (s : State) : Host.Outcome State Fault Refusal :=
  s.lift fun n =>
    if n.awake && n.on Fd.TIME_STATUS_FINUTOK && n.tm.markAt + 120000000 ≤ n.now m then
      { (n.setOn Fd.TIME_STATUS_FINUTOK false) with tm := { n.tm with majorRun := 0 } }
    else n

/-- No source within 2 s of entering COARSE (R70). -/
def execCoarseTimeout (m : Moment) (s : State) : Host.Outcome State Fault Refusal :=
  s.lift fun n =>
    if n.awake && n.fd Fd.TIME_STATUS_STATE == stCoarse && n.tm.coarseTick + 100000 ≤ n.tick && n.selected == 0 then
      n.servoTo stHoldover 0 m
    else n

/-- The 25 MHz reference stops (R91). -/
def execReferenceLoss (m : Moment) (s : State) : Host.Outcome State Fault Refusal :=
  s.lift fun n =>
    if !n.awake || n.sys.oscInt then n
    else
      let n := { n with sys := { n.sys with oscInt := true } }.dropServoStep
      let st0 := n.fd Fd.TIME_STATUS_STATE
      let n := n.setEst 0xFFFFFFFF
      let n := if st0 = stHoldover ∧ n.fd Fd.TIME_STATUS_SOURCE = 0 then n.ring 209 else n.servoTo stHoldover 0 m
      (n.raiseM 0x023 [] m helpTime).ring 1

def execEdgeCapture (sel : Nat) (rise : Bool) (m : Moment) (s : State) : Host.Outcome State Fault Refusal :=
  s.lift fun n => if n.awake && n.padOn sel then n.edgeCapture sel rise m else n

/-- SET TIME (R79). -/
def execSetTime (l : Line) (s : State) : Host.Outcome State Fault Refusal :=
  s.lift fun n => n.runWhole l .time (fun _ => checkKeys timeSpecs [] l.keys)
    (fun n => .ok (Node.timeChanged n (n.setKeys timeSpecs 0 l.keys), []))

/-- The keys of DO TIME SET (R80). -/
def timeSetSpecs : List KeySpec := [
  kk "SEC" (.big 0 281474976710655) (fun _ => 0), kk "QNS" (.big 0 3999999999) (fun _ => 0),
  kk "AT" (.big 0 281474976710655) (fun _ => 0)]

/-- DO TIME SET (R80). -/
def execDoTimeSet (l : Line) (s : State) : Host.Outcome State Fault Refusal :=
  s.lift fun n => n.runWhole l .time (fun _ => checkKeys timeSetSpecs ["SEC", "QNS", "AT"] l.keys)
    (fun n =>
      let num := fun k => (keyNum timeSetSpecs l.keys k).getD 0
      let t := n.stageAt 7
      let b := num "AT" * qnsSec
      let st := n.fd Fd.TIME_STATUS_STATE
      if b < t + 40000000 ∨ t + 60 * qnsSec < b then refuse 201
      else if st ≠ stUnset ∧ st ≠ stHoldover then refuse 308
      else .ok (({ n with tm := { n.tm with setPend := some (num "SEC" * qnsSec + num "QNS", num "AT") } }).setOn
        Fd.TIME_STATUS_SETPEND true, []))

/-- GET TIME (R81): node time at the start of S7 of the beat in which the line executes. -/
def execGetTime (l : Line) (s : State) : Host.Outcome State Fault Refusal :=
  s.lift fun n => n.runRead l (fun n => do
    l.bare
    onlyKeys [] [] l.keys
    let t := n.stageAt 7
    pure [[.w "TIME NOW SEC", .n (secOf t), .w "QNS", .n (qnsOf t), .w "BEAT", .n n.idx,
      .w "STATE", .w (stateName (n.fd Fd.TIME_STATUS_STATE)), .w "SOURCE", .w (sourceName (n.fd Fd.TIME_STATUS_SOURCE)),
      .w "EST", .n (n.fd Fd.TIME_EST_EST)]])

/-- One unit of SET TIME n (R82): a channel is on while it has a pin. -/
def setCaptureUnit (keys : Keys) (i : Nat) (n : Node) : Except Err (Node × List (List Item)) :=
  let n' := n.setKeys captureSpecs i keys
  .ok (if hasKey keys "PIN" then n'.setOn (Fd.TIME_CAPCFG_ENABLE i) (n'.fd (Fd.TIME_CAPCFG_SEL i) != 63) else n', [])

def execSetTimeCapture (l : Line) (s : State) : Host.Outcome State Fault Refusal :=
  s.lift fun n => n.runMulti l verbSet .time 8 (.set .time l.keys) (fun _ _ => checkKeys captureSpecs [] l.keys)
    (setCaptureUnit l.keys)

/-- One unit of DO TIME n TAKE (R82): the stamps held, oldest first, then OVF; both are cleared. -/
def takeUnit (i : Nat) (n : Node) : Except Err (Node × List (List Item)) :=
  let held := Bank.get [] n.tm.caps i
  let ovf := n.fd (ovfFd i)
  .ok ((n.setCap i []).setOn (ovfFd i) false,
    held.map (fun t => [.w "TIME", .n i, .w "SEC", .n (secOf t), .w "QNS", .n (qnsOf t)]) ++
    [[.w "TIME", .n i, .w "OVF", .n ovf]])

def execDoTimeTake (l : Line) (s : State) : Host.Outcome State Fault Refusal :=
  s.lift fun n => n.runMulti l verbDo .time 8 (.act .time "TAKE" []) (fun _ _ => onlyKeys [] [] l.keys) takeUnit

def execCapturePop (_rq : Rq) (v : Word) (s : State) : Host.Outcome State Fault Refusal :=
  s.lift fun n => if n.awake then n.capPop v else n

def slotName (k : Nat) : String :=
  match k with
  | 0 => "SEQ" | 1 => "GRID" | 2 => "ALM" | 3 => "LO" | 4 => "GPIO" | 5 => "ARC" | _ => "NODE"

/-- SHOW BEAT (R83). STEPSEQ is that of TIME.STATUS, the steps since reset, and slots late are listed by the names of the OVR line
(log entry 83). -/
def execShowBeat (l : Line) (s : State) : Host.Outcome State Fault Refusal :=
  s.lift fun n => n.runRead l (fun n => do
    l.bare
    onlyKeys [] [] l.keys
    let late := (List.range 7).filter (fun k => n.bit Ad.BEAT_LATE k)
    let last := if n.on Fd.BEAT_STATUS_STRETCH then "STRETCHED" else if n.on Fd.BEAT_STATUS_SHORT then "SHORTENED" else "NONE"
    pure [[.w "BEAT INDEX", .n n.idx, .w "STEPSEQ", .n (n.fd Fd.TIME_STATUS_STEPSEQ), .w "LAST", .w last,
        .n (n.fd Fd.BEAT_ADJ_LEN), .w "NUMBER", .n (n.fd Fd.BEAT_ADJ_NUMBER), .w "SEC", .n (n.fd Fd.BEAT_ADJSEC_SEC)],
      .w "BEAT OVR" :: ovrItems (fun k => n.fd (ovrFd k)),
      [.w "BEAT LATE", listItem (late.map slotName)]])

/-- CLEAR BEAT (R83). -/
def execClearBeat (l : Line) (s : State) : Host.Outcome State Fault Refusal :=
  s.lift fun n => n.runWhole l .beat (fun _ => onlyKeys [] [] l.keys)
    (fun n => .ok ((n.ovrClear 0x7F#32).setFd Fd.BEAT_LATE_LATE 0, []))

def execOverrunClear (_rq : Rq) (v : Word) (s : State) : Host.Outcome State Fault Refusal :=
  s.lift fun n => if n.awake then n.ovrClear v else n

def execWatchTime (l : Line) (s : State) : Host.Outcome State Fault Refusal :=
  s.lift fun n => n.runWatch l .time "" (l.optItems 8)

def execWatchBeat (l : Line) (s : State) : Host.Outcome State Fault Refusal :=
  s.lift fun n => n.runWatch l .beat "" (l.bare.map (fun _ => [none]))

/-- The reload of DO TIME REINIT (R88): the keys, the capture settings, empty channels, and the servo to ACQUIRING. Without a
source it stays there, SOURCE HOLDOVER, until one is selected (log entry 83). The condition of R91 ends by rung 3 only. -/
def Node.timeReinit (n : Node) : Node :=
  let n' := n.reload timeSpecs 0
  let n' := (List.range 8).foldl (fun m i =>
    let m := m.reload captureSpecs i
    (m.putLoc (.fd (Fd.TIME_CAPCFG_ENABLE i)) (n.storeLoc (.fd (Fd.TIME_CAPCFG_ENABLE i)))).setCap i []) n'
  let n' := Node.timeChanged n n'
  if n'.sys.oscInt then n' else n'.servoTo stAcquiring (n'.fd Fd.TIME_STATUS_SOURCE) 70000

/-- DO TIME REINIT is a micro-routine of one unit (Table 2-5). -/
def execDoTimeReinit (l : Line) (s : State) : Host.Outcome State Fault Refusal :=
  s.lift fun n => n.runOpen l (fun n => do
    l.bare
    onlyKeys [] [] l.keys
    n.mayWrite l.port .time none
    pure (n.startMr l verbDo .time (.reinit .time) [0] false))

/-- A read of TIME.QNS latches the seconds for its requester (R85). -/
def Node.readQns (n : Node) (rq : Rq) (m : Moment) : Node :=
  let t := n.now m
  let n := (n.setLat rq Ad.TIME_SECLO (BitVec.ofNat 32 (secOf t))).setLat rq Ad.TIME_SECHI
    (BitVec.ofNat 32 (secOf t / 2 ^ 32))
  { n with rdata := BitVec.ofNat 32 (qnsOf t) }

def execTimeQnsRead (rq : Rq) (m : Moment) (s : State) : Host.Outcome State Fault Refusal :=
  s.lift fun n => if n.awake then n.readQns rq m else n

end Sys2Proof.Machine
end

