-- ==== Sys2Proof/Machine/Survey.lean ====
section
/-! DEFINITION. The survey, joining and announcing, and Finut time marks (chapter 10). -/
namespace Sys2Proof.Machine

def Node.sv (n : Node) (p : Nat) : SvPort := Bank.get {} n.srv.ports p
def Node.setSv (n : Node) (p : Nat) (x : SvPort) : Node :=
  let ps := Bank.set {} n.srv.ports p x
  { n with srv := { n.srv with ports := ps, running := ps.any (fun y => y.2.role != 0) } }
def uidNat : Nat := Node.uid
/-- REF and WAY of this node, as ASSIGNED carries them (Table 10-1). -/
def Node.ownFlags (n : Node) : Nat := n.fd Fd.TIME_CTRL_ROLE + (if n.wayOn then 2 else 0)
def Node.svSend (n : Node) (q typ dst : Nat) (data : List Byte) : Node :=
  n.queueMsg q ⟨ident 0 typ n.station dst, data, true, none⟩
/-- SVSTAT: the state and the port of the survey. A survey that begins pauses the micro-routines (Table 2-5). -/
def Node.svShow (n : Node) (p st : Nat) : Node :=
  let n := n.setFds [(Fd.BUS_SVSTAT_STATE, st), (Fd.BUS_SVSTAT_PORT, p)]
  if st = 1 ∨ st = 2 then n.pauseMrs true else n

/-! ### The station and delay tables (R281, R466) -/

def slotBase (k : Nat) : Nat := 0x300FF800 + 0x380 * k
/-- Bytes 0x008 to 0x04F of a slot: the held station and the delay entries. -/
def Node.slotBody (n : Node) : List Byte :=
  let ent := fun (p : Nat) => (List.range 4).flatMap (fun k =>
    [BitVec.ofNat 8 (n.fd (Fd.BUS_DLYSTA_STATION p k)), BitVec.ofNat 8 (n.fd (Fd.BUS_DLYSTA_VALID p k))] ++
    bytesLE 2 (n.fd (Fd.BUS_DLY_SPREAD p k)) ++ bytesLE 4 (n.fd (Fd.BUS_DLY_DELAY p k)))
  BitVec.ofNat 8 n.station :: List.replicate 7 0#8 ++ ent 0 ++ ent 1
def slotHead (seq : Nat) : List Byte := bytesLE 4 0x4C535457 ++ bytesLE 4 seq
/-- A slot is valid when its MAGIC and its CHECK match. -/
def Node.slotValid (n : Node) (k : Nat) : Bool :=
  n.num (slotBase k) 4 == 0x4C535457 && n.num (slotBase k + 0x50) 4 == crc32 (n.bytes (slotBase k) 0x50)
/-- The slot that stands: the valid one with the larger SEQ, slot 0 when they are equal. -/
def Node.slotStands (n : Node) : Option Nat :=
  let sq := fun k => n.num (slotBase k + 4) 4
  if n.slotValid 0 && n.slotValid 1 then (if sq 0 < sq 1 then some 1 else some 0)
  else if n.slotValid 0 then some 0 else if n.slotValid 1 then some 1 else none
/-- The tables are written when they differ from those that stand; with no valid slot station 0 and empty tables stand. -/
def Node.saveStations (n : Node) : Node :=
  let body := n.slotBody
  let (k, seq, same) := match n.slotStands with
    | some k => (1 - k, n.num (slotBase k + 4) 4 + 1, n.bytes (slotBase k + 8) 0x48 == body)
    | none => (0, 1, body.all (· == 0#8))
  if same then n
  else
    let all := slotHead seq ++ body
    n.setBytes (slotBase k) (all ++ bytesLE 4 (crc32 all) ++ List.replicate 0x32C 0#8)
/-- At start-up the tables that stand are loaded; with no valid slot the station is 0 and the tables are empty. -/
def Node.loadStations (n : Node) : Node :=
  let b := match n.slotStands with
    | some k => n.bytes (slotBase k + 8) 0x48
    | none => List.replicate 0x48 0#8
  let n := n.setFd Fd.BUS_STATION_STATION (natLE (b.take 1))
  [0, 1].foldl (fun n p => (List.range 4).foldl (fun n k =>
    let e := (b.drop (8 + 32 * p + 8 * k)).take 8
    n.setFds [(Fd.BUS_DLYSTA_STATION p k, natLE (e.take 1)), (Fd.BUS_DLYSTA_VALID p k, natLE ((e.drop 1).take 1)),
      (Fd.BUS_DLY_SPREAD p k, natLE ((e.drop 2).take 2)), (Fd.BUS_DLY_DELAY p k, Nat.min 65535 (natLE ((e.drop 4).take 4)))]) n) n

/-- The delay for a sender in a port's table. -/
def Node.delayOf (n : Node) (p st : Nat) : Option Nat :=
  ((List.range 4).find? (fun k => n.on (Fd.BUS_DLYSTA_VALID p k) && n.fd (Fd.BUS_DLYSTA_STATION p k) == st)).map
    (fun k => n.fd (Fd.BUS_DLY_DELAY p k))
/-- Stores the delay measured with a sender: in its entry, in the lowest free one, or, in a survey, in the lowest one that the
survey has not measured (R288). `h`: the port of the survey. -/
def Node.putDelay (n : Node) (h p st dly spread : Nat) : Node :=
  let s := n.sv h
  let mine := (List.range 4).find? (fun k => n.on (Fd.BUS_DLYSTA_VALID p k) && n.fd (Fd.BUS_DLYSTA_STATION p k) == st)
  let free := (List.range 4).find? (fun k => !n.on (Fd.BUS_DLYSTA_VALID p k))
  let old := (List.range 4).find? (fun k => s.role != 0 && !s.fold && !s.got.contains (p, k))
  match (mine.orElse (fun _ => free)).orElse (fun _ => old) with
  | none => n
  | some k => (if s.role = 0 then n else n.setSv h { s with got := s.got ++ [(p, k)] }).setFds [
      (Fd.BUS_DLYSTA_VALID p k, 1), (Fd.BUS_DLYSTA_STATION p k, st), (Fd.BUS_DLY_DELAY p k, Nat.min 65535 dly),
      (Fd.BUS_DLY_SPREAD p k, Nat.min 65535 spread)]
/-- The ports that a survey on port p measures (R288). -/
def Node.svPorts (n : Node) (p : Nat) : List Nat := if n.pairOn then [0, 1] else [p]
/-- Delays of an earlier survey that this one has not measured again are let go (log entry 37). -/
def Node.dropDelays (n : Node) (p : Nat) : Node :=
  let got := (n.sv p).got
  (n.svPorts p).foldl (fun (n : Node) (q : Nat) => (List.range 4).foldl (fun (n : Node) (k : Nat) =>
    if got.contains (q, k) then n else (n.wr (Ad.BUS_DLYSTA q k) 0#32).wr (Ad.BUS_DLY q k) 0#32) n) n

/-- The registers a survey may change, as they were before it (R289). -/
def Node.svKeep (n : Node) : List (Nat × Word) :=
  ([Ad.BUS_STATION] ++ [0, 1].flatMap (fun p => (List.range 4).flatMap (fun k => [Ad.BUS_DLYSTA p k, Ad.BUS_DLY p k]))).map
    (fun a => (a, n.rd a))
def Node.svRestore (n : Node) (l : List (Nat × Word)) : Node := l.foldl (fun n (a, v) => n.wr a v) n

/-! ### Stations -/

/-- The node takes a station (R286): record, source and notice. -/
def Node.takeStation (n : Node) (p st : Nat) (m : Moment) : Node :=
  let old := n.station
  let n := n.setFd Fd.BUS_STATION_STATION st
  let n := (n.busRec 0x077 [old, st] p m).busRing p 14
  n.notify .survey [.w "SURVEY STATION", .n st]

/-- The station asked for if it is from 1 to 254 and not yet given; otherwise the lowest free one (R286). -/
def giveStation (used : List Nat) (want : Nat) : Option Nat :=
  if 1 ≤ want ∧ want ≤ 254 ∧ !used.contains want then some want
  else ((List.range 255).drop 1).find? (fun s => !used.contains s)

def Node.usedStations (n : Node) (p : Nat) : List Nat := (n.sv p).known.map (·.station) ++ n.srv.used

/-- The UID a branch has decided, undecided bits at 0 (R287). -/
def decided (bits : List Nat) : Nat := bits.getD 0 0 * 2 ^ 41 + bits.getD 1 0 * 2 ^ 18 + bits.getD 2 0

/-- A node counts as vanished (R287, R288). -/
def Node.vanish (n : Node) (p st uid : Nat) (m : Moment) : Node :=
  let s := n.sv p
  let n := n.setSv p { s with vanished := satAdd 255 s.vanished 1, short := true }
  let n := n.raiseM 0x079 (BitVec.ofNat 8 st :: bytesLE 8 uid) m (helpBus p)
  n.notify .survey [.w "SURVEY VANISHED", .h uid 16]

/-! ### The walk (R283 to R287) -/

def Node.sendQuery (n : Node) (p r : Nat) : Node :=
  let s := n.sv p
  let n := n.setSv p { s with step := .query, round := r, window := false, bits := s.bits.take r }
  n.svSend p 0x301 255 ([BitVec.ofNat 8 r] ++ bytesLE 3 (s.bits.take r |>.getD 0 0) ++ bytesLE 3 (s.bits.take r |>.getD 1 0) ++ [0#8])

def Node.sendAssign (n : Node) (p : Nat) : Node :=
  let s := n.sv p
  let n := n.setSv p { s with step := .assign, window := false }
  n.svSend p 0x302 s.give (bytesLE 8 (if s.fold then s.foldUid else decided s.bits))

/-- The master's next QUERY of round 0 starts a new node. -/
def Node.nextNode (n : Node) (p : Nat) : Node :=
  (n.setSv p { n.sv p with bits := [], again := false, errs := 0 }).sendQuery p 0

/-! ### The end of a survey (R289) -/

def resultName (r : Nat) : String :=
  match r with
  | 0 => "NONE" | 1 => "OK" | 2 => "INCOMPLETE" | 3 => "CONFLICT" | _ => "ABORTED"

/-- The result at the end of the delay round. -/
def SvPort.result (s : SvPort) : Nat :=
  if 1 < (s.known.filter (fun e => 2 ≤ e.flags)).length then 3
  else if s.vanished = 0 ∧ s.measured = s.expected ∧ !s.short then 1 else 2

/-- The master queues END. -/
def Node.svEnd (n : Node) (p res : Nat) : Node :=
  let s := n.sv p
  let n := n.setSv p { s with step := .last, res := res, window := false }
  n.svSend p 0x30F 255 ([BitVec.ofNat 8 res, BitVec.ofNat 8 s.assigned, BitVec.ofNat 8 s.vanished, BitVec.ofNat 8 s.joined] ++
    bytesLE 2 s.measured ++ bytesLE 2 s.expected)

/-- The survey is over on this node: registers, record, source and notice; the tables are written. An ABORTED one
leaves the previous station and delays (R289). A node that the walk gave no station has station 0 (R286). -/
def Node.svOver (n : Node) (p res assigned vanished joined measured expected : Nat) (m : Moment) : Node :=
  let s := n.sv p
  let n := if res = 4 then n.svRestore s.prev
    else
      let n := if s.free_ then n.setFd Fd.BUS_STATION_STATION 0 else n
      let n := { n with srv := { n.srv with heard := n.srv.heard.filter (fun e => e.seg != p) ++ s.known } }
      if s.fold then n else n.dropDelays p
  let n := n.setFds [(Fd.BUS_SVSTAT_RESULT, res), (Fd.BUS_SVCNT_ASSIGNED, assigned), (Fd.BUS_SVCNT_VANISHED, vanished),
    (Fd.BUS_SVCNT_JOINED, joined), (Fd.BUS_SVDLY_MEASURED, measured), (Fd.BUS_SVDLY_EXPECTED, expected)]
  let n := n.svShow p 0
  let n := n.raiseM 0x076 ([p, res, assigned, vanished, joined].map (BitVec.ofNat 8) ++ bytesLE 2 measured ++ bytesLE 2 expected) m
    (helpBus p)
  let n := (n.busRing p 14).notify .survey
    [.w "SURVEY END", .w (busName p), .w (resultName res), .w "ASSIGNED", .n assigned, .w "VANISHED", .n vanished, .w "JOINED",
     .n joined, .w "DELAYS", .n measured, .w "OF", .n expected]
  let n := if res = 4 then n else n.setBp p { n.bp p with count := assigned }
  (n.setSv p {}).saveStations

/-! ### The delay round (R288) -/

def insNat (x : Nat × Nat) : List (Nat × Nat) → List (Nat × Nat)
  | [] => [x]
  | y :: t => if x.1 < y.1 then x :: y :: t else y :: insNat x t
/-- The pairs of one port: each sender with each other station, once per pair, lowest senders first. -/
def pairsOf (q mst : Nat) (known : List MapEnt) : List (Nat × Nat × Nat) :=
  let all := known.foldl (fun l e => insNat (e.station, if e.station = mst then 1 else e.flags % 4) l) []
  let senders := ((all.filter (fun x => x.2 != 0)).map (·.1)).take 4
  let rec go : List Nat → List Nat → List (Nat × Nat × Nat)
    | _, [] => []
    | doneS, a :: t => ((all.map (·.1)).filter (fun b => b != a && !doneS.contains b)).map (fun b => (q, a, b)) ++ go (a :: doneS) t
  go [] senders

/-- The pair at the head is measured by its sender; with none left the master ends the survey. -/
def Node.svAdvance (n : Node) (p : Nat) : Node :=
  let s := n.sv p
  match s.pairs with
  | [] => if s.role = 1 then n.svEnd p s.result else n.setSv p { s with step := .rest, again := false, window := false }
  | (q, a, b) :: _ =>
    if a = n.station then
      (n.setSv p { s with step := .ping, diffs := [], again := false, window := false }).svSend q 0x304 b []
    else n.setSv p { s with step := .rest, again := false, window := false }

/-- The walk has ended: the schedule of the delay round is fixed. In PAIR mode port B follows port A (R288). -/
def Node.delayRound (n : Node) (p : Nat) : Node :=
  let s := n.sv p
  let ps := (n.svPorts p).flatMap (fun q => pairsOf q s.mst s.known)
  (n.setSv p { s with pairs := ps, expected := s.expected + ps.length }).svAdvance p

/-- Pairs up to and including one that another station is seen to measure are behind. -/
def passPair (q a b : Nat) : List (Nat × Nat × Nat) → List (Nat × Nat × Nat)
  | [] => []
  | x :: t => if x = (q, a, b) then t else passPair q a b t
def Node.seePair (n : Node) (p q a b : Nat) : Node :=
  let s := n.sv p
  if s.pairs.contains (q, a, b) && a != n.station then
    (n.setSv p { s with pairs := passPair q a b s.pairs, measured := s.measured + 1 }).svAdvance p
  else n

/-- Modulo-second difference of two quarter-ns fields (R292). -/
def qnsDiff (a b : Nat) : Int := ((a + qnsSec - b) % qnsSec : Nat)
/-- Delay and spread of eight exchanges: the largest and the smallest are discarded, the mean of the other six is
taken (R288, R292). The exchanges are given as (t4 − t1) − (t3 − t2), twice the delay. -/
def delayMean (l : List Int) : Int × Int :=
  let mx := l.foldl max (l.headD 0)
  let mn := l.foldl min (l.headD 0)
  (Q.round ⟨l.sum - mx - mn, 12⟩, (mx - mn) / 2)

/-- The follow-up of an exchange is in: after eight, DELAY is sent. -/
def Node.exchangeDone (n : Node) (p q b t2 t3 : Nat) : Node :=
  let s := n.sv p
  let ds := s.diffs ++ [qnsDiff s.t4 s.t1 - qnsDiff t3 t2]
  let n := n.setSv p { s with diffs := ds, again := false, window := false }
  if ds.length < 8 then n.svSend q 0x304 b []
  else
    let (d, sp) := delayMean ds
    n.svSend q 0x307 b ([BitVec.ofNat 8 n.station, BitVec.ofNat 8 q] ++ bytesLE 4 d.toNat ++ bytesLE 2 sp.toNat)

/-- Own DELAY is sent: the pair is measured. A sender keeps the delay to another sender as well (log entry 37). -/
def Node.delaySent (n : Node) (p q b : Nat) : Node :=
  let s := n.sv p
  let (d, sp) := delayMean s.diffs
  let n := if s.known.any (fun e => e.station == b && e.flags % 4 != 0) then n.putDelay p q b d.toNat sp.toNat else n
  let s := n.sv p
  (n.setSv p { s with pairs := passPair q n.station b s.pairs, measured := s.measured + 1 }).svAdvance p

/-! ### Starting and taking part -/

/-- The master's BEGIN is out: it takes its own station and sends the first QUERY (R283, R286). -/
def Node.svBegun (n : Node) (p : Nat) (m : Moment) : Node :=
  let s := n.sv p
  let want := if n.fd Fd.BUS_STATION_REQUEST ≠ 0 ∧ !s.renumber then n.fd Fd.BUS_STATION_REQUEST else n.station
  let n := (n.raiseM 0x075 (BitVec.ofNat 8 p :: bytesLE 8 uidNat) m (helpBus p)).busRing p 14
  let n := n.notify .survey [.w "SURVEY BEGIN", .w (busName p), .w "MASTER", .n n.station]
  let st := if !n.srv.used.isEmpty && n.srv.used.contains n.station then n.station else (giveStation n.srv.used want).getD 0
  let n := if st = n.station ∧ !n.srv.used.isEmpty then n else n.takeStation p st m
  let s := n.sv p
  (n.setSv p { s with known := [⟨st, uidNat, p, n.ownFlags⟩], mst := st, assigned := 1 }).nextNode p

/-- DO SURVEY START on a port: the node is master and queues BEGIN (R303). -/
def Node.svStart (n : Node) (p : Nat) (renumber : Bool) : Node :=
  let s : SvPort := { role := 1, step := .begin_, master := uidNat, renumber := renumber, lastAt := n.tick, prev := n.svKeep }
  let n := ((n.setSv p s).svShow p 1).setFd Fd.BUS_SVSTAT_RESULT 0
  (n.svSend p 0x300 255 (bytesLE 8 uidNat))

/-- The node is a member of another node's survey (R283, R306): it is no longer the master of the last one. No frame says
whether the survey renumbers; it may (R284, log entry 38). -/
def Node.svJoin (n : Node) (p src uid : Nat) (m : Moment) : Node :=
  let keep := if (n.sv p).role = 0 then n.svKeep else (n.sv p).prev
  let (w, n) := n.fresh
  let s : SvPort := { role := 2, master := uid, mst := src, free_ := true, renumber := w.getLsbD 0,
                      known := [⟨src, uid, p, 0⟩], lastAt := n.tick, prev := keep }
  let n := (n.setSv p s).svShow p 2
  let n := { n with srv := { n.srv with map := n.srv.map.filter (fun e => n.wayOn && e.seg != p) } }
  let n := n.setBp p { n.bp p with listen := 0 }
  let n := (n.raiseM 0x075 (BitVec.ofNat 8 p :: bytesLE 8 uid) m (helpBus p)).busRing p 14
  n.notify .survey [.w "SURVEY BEGIN", .w (busName p), .w "MASTER", .n src]

/-- The BEGIN that waits in a node mailbox is withdrawn (R306). -/
def Node.withdraw (n : Node) (p : Nat) : Node :=
  let b := n.bp p
  b.held.foldl (fun n (k, o) => if isSurveyId o.id && !(match b.tx with
      | some t => t.mb == k
      | none => false) then n.mbEnd p k false else n) (n.setBp p { b with queue := b.queue.filter (fun o => !isSurveyId o.id) })

/-- BEGIN from another node. -/
def Node.onBegin (n : Node) (p : Nat) (f : Frame) (m : Moment) : Node :=
  let uid := natLE (f.data.take 8)
  let s := n.sv p
  let src := idSrc f.id
  if s.role = 1 then
    if s.step = .begin_ then (n.withdraw p).svJoin p src uid m
    else if uid < uidNat then (n.withdraw p).svJoin p src uid m      -- the higher UID yields
    else n
  else n.svJoin p src uid m

/-- QUERY: an unassigned node that matches the prefix bids (R284). -/
def Node.onQuery (n : Node) (p : Nat) (f : Frame) : Node :=
  let s := n.sv p
  let r := natLE (f.data.take 1)
  let hi := natLE ((f.data.drop 1).take 3)
  let mid := natLE ((f.data.drop 4).take 3)
  let n := n.setSv p { s with lastQ := r == 0, mst := idSrc f.id, fold := s.fold && s.role != 0,
                              known := s.known.map (fun e => if e.uid = s.master ∧ e.station = s.mst then { e with station := idSrc f.id } else e) }
  if s.role != 2 || !s.free_ then n
  else
    let uHi := uidNat / 2 ^ 41
    let uMid := uidNat / 2 ^ 18 % 2 ^ 23
    let uLo := uidNat % 2 ^ 18
    let ask := if n.fd Fd.BUS_STATION_REQUEST ≠ 0 then n.fd Fd.BUS_STATION_REQUEST else n.station
    let bid := fun (n : Node) (bits : Nat) (d : List Byte) => n.queueMsg p ⟨7 * 2 ^ 23 + bits, d, true, none⟩
    if r = 0 then bid n uHi []
    else if r = 1 then (if hi = uHi then bid n uMid [] else n)
    else if hi = uHi ∧ mid = uMid then bid n (uLo * 32) [BitVec.ofNat 8 (if s.renumber then 0 else ask)]
    else n

/-- A bid confirmed at the master: the next round, or ASSIGN (R284, R286). -/
def Node.onBid (n : Node) (p : Nat) (f : Frame) (_m : Moment) : Node :=
  let s := n.sv p
  if s.role != 1 || s.step != .query || !s.window then n
  else
    let bits := f.id % 2 ^ 23
    if s.round < 2 then
      (n.setSv p { s with bits := s.bits.take s.round ++ [bits], again := false, errs := 0 }).sendQuery p (s.round + 1)
    else
      let want := if s.renumber then 0 else natLE (f.data.take 1)
      match giveStation (n.usedStations p) want with
      | none => (n.setSv p { s with short := true, window := false }).delayRound p
      | some st => (n.setSv p { s with bits := s.bits.take 2 ++ [bits / 32], give := st, again := false, errs := 0 }).sendAssign p

/-- ASSIGN that names this node's UID (R286): in a survey while unassigned, or in a follow-up round (R291). ASSIGNED carries
the station held before the survey (Table 10-1). One that names another node, heard outside a survey, begins a follow-up
round. -/
def Node.onAssign (n : Node) (p : Nat) (f : Frame) (m : Moment) : Node :=
  let s := n.sv p
  let uid := natLE (f.data.take 8)
  if uid != uidNat then
    if s.role = 0 && (n.bp p).listen = 0 then n.setSv p { s with fold := true, foldUid := uid, give := idDst f.id } else n
  else if s.role == 1 || (s.role == 2 && !s.free_ && n.station != idDst f.id) then n
  else
    let n := if s.role = 0 then
        (n.setSv p { role := 2, mst := idSrc f.id, lastAt := n.tick, prev := n.svKeep, fold := true }).svShow p 2
      else n
    let old := match (n.sv p).prev.find? (fun x => x.1 == Ad.BUS_STATION) with
      | some (_, w) => Fd.BUS_STATION_STATION.get w
      | none => n.station
    let n := if n.station = idDst f.id ∧ s.role = 2 ∧ !s.free_ then n else n.takeStation p (idDst f.id) m
    let n := n.setBp p { n.bp p with listen := 0 }
    let s := n.sv p
    let n := n.setSv p { s with free_ := false, known := s.known.filter (fun e => e.uid != uidNat) ++ [⟨idDst f.id, uidNat, p, n.ownFlags⟩] }
    n.svSend p 0x303 (idSrc f.id) [BitVec.ofNat 8 n.ownFlags, BitVec.ofNat 8 old]

/-- The pairs of a follow-up round: those of each sender with the station that joins (R291). -/
def Node.foldPairs (n : Node) (p mst st : Nat) (known : List MapEnt) : List (Nat × Nat × Nat) :=
  (n.svPorts p).flatMap (fun q => (pairsOf q mst known).filter (fun (_, a, b) => a == st || b == st))
/-- A station that is a sender makes its exchanges in a follow-up round of the last survey's master (R291). -/
def Node.foldJoin (n : Node) (p st mst fl : Nat) : Node :=
  let s := n.sv p
  let known := n.srv.heard.filter (fun e => e.seg == p && e.station != st && e.uid != s.foldUid) ++ [⟨st, s.foldUid, p, fl⟩]
  let s' : SvPort := { role := 2, step := .rest, mst := mst, known := known, pairs := n.foldPairs p mst st known,
                       lastAt := n.tick, prev := n.svKeep, fold := true }
  let n := (n.setSv p s').svShow p 2
  (n.setBp p { n.bp p with listen := 0 }).svAdvance p

/-- ASSIGNED: the master records the station and goes on; others note the station (R286, R291). -/
def Node.onAssigned (n : Node) (p : Nat) (f : Frame) (m : Moment) : Node :=
  let s := n.sv p
  let st := idSrc f.id
  let fl := natLE (f.data.take 1) % 4
  if s.role = 1 then
    if s.step != .assign || st != s.give then n
    else
      let uid := if s.fold then s.foldUid else decided s.bits
      let known := s.known.filter (fun e => e.station != st && e.uid != uid) ++ [⟨st, uid, p, fl⟩]
      let s' := { s with known := known, assigned := satAdd 255 s.assigned 1 }
      if s.fold then
        let n := n.setSv p { s' with joined := satAdd 255 s.joined 1 }
        let n := n.raiseM 0x078 (BitVec.ofNat 8 st :: bytesLE 8 uid) m (helpBus p)
        let n := n.notify .survey [.w "SURVEY JOINED", .h uid 16, .w "STATION", .n st]
        let ps := n.foldPairs p s.mst st known
        (n.setSv p { n.sv p with pairs := ps, expected := s.expected + ps.length }).svAdvance p
      else (n.setSv p s').nextNode p
  else if s.role = 2 then n.setSv p { s with known := s.known.filter (fun e => e.station != st) ++ [⟨st, 0, p, fl⟩] }
  else if s.fold && st = s.give && n.ownFlags != 0 && n.station != 0 && n.station != st then n.foldJoin p st (idDst f.id) fl
  else n

/-- An exchange with no PONG is repeated once; then the station counts as vanished (R288). Every node that follows the round
sees both windows pass: its sender repeats the PING, the master counts the station, and all of them leave its pairs. -/
def Node.pingOver (n : Node) (p : Nat) (m : Moment) : Node :=
  let s := n.sv p
  match s.pairs with
  | [] => n
  | (q, _, b) :: _ =>
    if !s.again then
      let n := n.setSv p { s with again := true, window := false }
      if s.step = .ping then n.svSend q 0x304 b [] else n
    else
      let uid := ((s.known.find? (fun e => e.station == b)).map (·.uid)).getD 0
      let n := if s.role = 1 then n.vanish p b uid m else n
      let s := n.sv p
      (n.setSv p { s with pairs := s.pairs.filter (fun x => x.2.2 != b && x.2.1 != b) }).svAdvance p
/-- A PING or a PONG of the pair that another station measures is seen: the window after a PING runs here too. -/
def Node.pingSeen (n : Node) (h p src dst : Nat) (pong : Bool) : Node :=
  let s := n.sv h
  match s.step, s.pairs with
  | .rest, (q, a, b) :: _ =>
    if q != p then n
    else if pong then (if src = b && dst = a then n.setSv h { s with window := false, again := false } else n)
    else if src = a && dst = b && b != n.station then n.setSv h { s with window := true } else n
  | _, _ => n

/-- A bid window with no frame in it (R285 to R288). A member that bids no more sees the walk end by the window after a
QUERY of round 0 (log entry 37). -/
def Node.windowOver (n : Node) (p : Nat) (m : Moment) : Node :=
  let s := n.sv p
  if s.role = 2 then
    if s.lastQ && !s.free_ && s.step == .off then (n.setSv p { s with lastQ := false }).delayRound p
    else if (s.step = .ping || s.step = .rest) && s.window then n.pingOver p m
    else n
  else if s.role != 1 || !s.window then n
  else match s.step with
    | .query =>
      if s.round = 0 then n.delayRound p
      else if !s.again then (n.setSv p { s with again := true }).sendQuery p s.round
      else (n.vanish p 0 (decided (s.bits.take s.round)) m).nextNode p
    | .assign =>
      if !s.again then (n.setSv p { s with again := true }).sendAssign p
      else
        let n := n.vanish p s.give (if s.fold then s.foldUid else decided s.bits) m
        if s.fold then n.svEnd p (n.sv p).result else n.nextNode p
    | .ping => n.pingOver p m
    | .rest => n.pingOver p m
    | _ => n

/-- An error frame in a window: the master repeats the QUERY up to 3 times (R285). -/
def Node.windowError (n : Node) (p : Nat) : Node :=
  let s := n.sv p
  if s.role != 1 || s.step != .query || !s.window then n
  else if s.errs < 3 then (n.setSv p { s with errs := s.errs + 1 }).sendQuery p s.round
  else (n.setSv p { s with short := true, window := false }).delayRound p

/-- ANNOUNCE (R291). -/
def Node.onAnnounce (n : Node) (p : Nat) (f : Frame) : Node :=
  let uid := natLE (f.data.take 8)
  let src := idSrc f.id
  if n.srv.map.isEmpty || !n.on Fd.BUS_LINK_FOLD || (n.sv p).role != 0 || n.srv.map.any (fun e => e.uid == uid && e.station == src) then n
  else
    let known := n.srv.map.filter (fun e => e.seg == p && e.uid != uid)
    match giveStation ((n.srv.map.filter (fun e => e.uid != uid)).map (·.station)) src with
    | none => n
    | some st =>
      let s : SvPort := { role := 1, step := .assign, master := uidNat, mst := n.station, fold := true, foldUid := uid, give := st, known := known, assigned := n.fd Fd.BUS_SVCNT_ASSIGNED, vanished := n.fd Fd.BUS_SVCNT_VANISHED, joined := n.fd Fd.BUS_SVCNT_JOINED, measured := n.fd Fd.BUS_SVDLY_MEASURED, expected := n.fd Fd.BUS_SVDLY_EXPECTED, lastAt := n.tick, prev := n.svKeep }
      ((n.setSv p s).svShow p 1).sendAssign p

/-- The map of the master of the last survey. -/
def Node.keepMap (n : Node) (p : Nat) : Node :=
  let s := n.sv p
  if s.role != 1 || s.res == 4 then n
  else { n with srv := { n.srv with map := n.srv.map.filter (fun e => n.wayOn && e.seg != p) ++ s.known } }

/-- The master's END is out; on a waystation segment B follows segment A with one set of stations (R299). -/
def Node.masterDone (n : Node) (p : Nat) (m : Moment) : Node :=
  let s := n.sv p
  let used := s.known.map (·.station)
  let n := (n.keepMap p).svOver p s.res s.assigned s.vanished s.joined s.measured s.expected m
  if n.srv.wayNext && p = 0 && s.res != 4 && !s.fold then
    { n with srv := { n.srv with wayNext := false, used := used } }.svStart 1 s.renumber
  else { n with srv := { n.srv with wayNext := false, used := [] } }

/-- END received (R289). A node that took no part has stored what a follow-up round changed in its delays (R281). -/
def Node.onEnd (n : Node) (p : Nat) (f : Frame) (m : Moment) : Node :=
  if (n.sv p).role = 0 then (n.setSv p {}).saveStations
  else if (n.sv p).role != 2 then n
  else
    let g := fun i => (f.data.getD i 0#8).toNat
    n.svOver p (g 0) (g 1) (g 2) (g 3) (g 4 + 256 * g 5) (g 6 + 256 * g 7) m

/-- The survey ends on this node as ABORTED, without END (R283, R304, R305). -/
def Node.svAbort (n : Node) (p : Nat) (m : Moment) : Node :=
  let s := n.sv p
  if s.role = 0 then n else (n.withdraw p).svOver p 4 s.assigned s.vanished s.joined s.measured s.expected m

/-! ### LISTEN (R290) -/

def Node.listenOn (n : Node) (p kind : Nat) : Node :=
  let n := n.setBp p { n.bp p with listen := kind, listenAt := n.tick }
  if n.srv.running then n else n.svShow p 3
/-- LISTEN ends: ANNOUNCE once, and the port resumes. -/
def Node.listenOff (n : Node) (p : Nat) : Node :=
  let n := n.setBp p { n.bp p with listen := 0 }
  let n := if n.fd Fd.BUS_SVSTAT_STATE = 3 ∧ (n.bp (1 - p)).listen = 0 then n.setFd Fd.BUS_SVSTAT_STATE 0 else n
  n.svSend p 0x308 255 (bytesLE 8 uidNat)

/-- A survey frame heard on a port that takes no part: LISTEN, or LISTEN prolonged; END ends it (R290). -/
def Node.listenHear (n : Node) (p : Nat) (isEnd : Bool) : Node :=
  let b := n.bp p
  if isEnd then (if b.listen = 0 then n.listenOn p 2 else n).listenOff p
  else if b.listen = 0 then n.listenOn p 2
  else n.setBp p { b with listen := 2, listenAt := n.tick }

/-! ### Finut time marks (R293 to R295) -/

/-- The grade of Table 10-3. -/
def Node.grade (n : Node) : Nat :=
  let st := n.fd Fd.TIME_STATUS_STATE
  let src := n.fd Fd.TIME_STATUS_SOURCE
  if st = stLocked then (if src = 1 then 0 else 1)
  else if st = stAcquiring then 2
  else if st = stHoldover ∧ n.fd Fd.TIME_EST_EST ≤ 1000 then 3
  else 4
def pairLt (a b : Nat × Nat) : Bool := a.1 < b.1 || (a.1 == b.1 && a.2 < b.2)

/-- The port's selected sender with its pair. -/
def Node.selPair (n : Node) (p : Nat) : Option (Nat × Nat) :=
  if n.on (Fd.BUS_MARK_SELECTED p) then some (n.fd (Fd.BUS_MARK_GRADE p), n.fd (Fd.BUS_MARK_SENDER p)) else none
/-- The port whose marks the servo takes: TPORT's in a pair (R297); otherwise the port whose selected sender has the
lower pair (R299; log entry 39). -/
def Node.feedPort (n : Node) : Nat :=
  if n.pairOn then n.bus.tport
  else match n.selPair 0, n.selPair 1 with
    | some a, some b => if pairLt b a then 1 else 0
    | none, some _ => 1
    | _, _ => 0

/-- Does the node send marks on the port (R293)? -/
def Node.sendsMarks (n : Node) (p : Nat) : Bool :=
  let ref := n.on Fd.TIME_CTRL_ROLE
  let way := n.wayOn && !ref && (n.selPair n.feedPort).isSome && p != n.feedPort
  let own := (n.grade, n.station)
  let recent := (n.bp p).senders.filter (fun s => n.tick ≤ s.at_ + 150000)
  let newest := recent.foldl (fun (a : Option Sender) s => match a with
    | some x => if x.at_ < s.at_ then some s else a
    | none => some s) none
  let beaten := match newest with
    | some s => pairLt (s.grade, s.station) own
    | none => false
  (ref || way) && n.fd Fd.TIME_STATUS_STATE != stUnset && n.station != 0 && n.genMax p != 0 && n.busState p == 1 &&
    (n.bp p).sleep == 0 && !beaten

def Node.estNs (n : Node) : Nat := Nat.min 65535 (n.fd Fd.TIME_EST_EST)

/-- A mark is requested at a second boundary or 10 ms boundary (R294). -/
def Node.markRequest (n : Node) (p : Nat) (m : Moment) : Node :=
  let t := n.now m
  let on := n.sendsMarks p
  let n := n.setOn (Fd.BUS_MARK_SENDING p) on
  if !on || t % 40000000 != 0 || (n.bp p).markReq.isSome then n
  else
    let b := n.bp p
    let n := n.setBp p { b with markReq := some t, markSeq := (b.markSeq + 1) % 256 }
    n.queueMsg p ⟨ident 0 (if t % qnsSec = 0 then 0 else 1) n.station 255,
      [BitVec.ofNat 8 b.markSeq, BitVec.ofNat 8 n.grade] ++ bytesLE 2 n.estNs ++ List.replicate 4 0#8, false, none⟩

/-- A mark that has not started 1 ms after its request is abandoned (R294). -/
def Node.markAbandon (n : Node) (p : Nat) (m : Moment) : Node :=
  let b := n.bp p
  match b.markReq with
  | none => n
  | some t =>
    let isMark := fun (o : OutMsg) => idClass o.id == 0 && idType o.id < 2
    let onWire := match b.tx with
      | some x => idClass x.frame.id == 0 && idType x.frame.id < 2 && x.mb < 16
      | none => false
    if onWire || n.now m < t + 4000000 then n
    else
      let n := n.setBp p { b with markReq := none, queue := b.queue.filter (fun o => !isMark o) }
      (b.held.filter (fun x => isMark x.2)).foldl (fun n x => n.mbEnd p x.1 false) n

/-- The follow-up of an own mark that was sent: its sequence and its SOF stamp (Table 10-4). -/
def Node.sendFollowUp (n : Node) (p : Nat) (f : Frame) (sof : Nat) : Node :=
  let n := n.setBp p { n.bp p with markReq := none }
  n.queueMsg p ⟨ident 0 2 n.station 255, f.data.take 4 ++ bytesLE 6 (secOf sof) ++ bytesLE 4 (qnsOf sof) ++
    [BitVec.ofNat 8 (n.fd Fd.TIME_IRIGCFG_TAIUTC), BitVec.ofNat 8 (n.fd Fd.TIME_CTRL_LEAP)], false, none⟩

def Node.markReject (n : Node) (p : Nat) (fromSel : Bool) (major : Bool) : Node :=
  let n := n.setFd (Fd.BUS_MARKCNT_REJECTED p) (n.fd (Fd.BUS_MARKCNT_REJECTED p) + 1)
  let n := if fromSel then n.setOn (Fd.BUS_MARK_ACCEPTED p) false else n
  if fromSel && major && p == n.feedPort then { n with tm := { n.tm with majorRun := 0 } } else n

/-- A mark is confirmed: stamped, and a major mark counts towards the selection of its sender (R295). -/
def Node.onMark (n : Node) (p : Nat) (f : Frame) (sof : Nat) : Node :=
  let src := idSrc f.id
  let major := idType f.id == 0
  let seq := (f.data.getD 0 0#8).toNat
  let gr := (f.data.getD 1 0#8).toNat
  let b := n.bp p
  let b := if major then { b with senders := b.senders.filter (fun s => s.station != src) ++ [⟨src, gr, n.tick⟩] } else b
  let sel := n.on (Fd.BUS_MARK_SELECTED p) && n.fd (Fd.BUS_MARK_SENDER p) == src
  if sel then
    (n.setBp p { b with marks := b.marks ++ [⟨src, seq, gr, major, sof⟩] }).setFd (Fd.BUS_MARK_GRADE p) gr
  else (n.setBp p b).markReject p false major

/-- A mark the feed port accepted: the run of major marks, and the offset for the servo when FINUT is the source.
Major marks are consecutive when the second comes within 1.5 s of the first, so that none was lost between them (log entry 83). -/
def Node.markFeed (n : Node) (major : Bool) (off : Int) (m : Moment) : Node :=
  let t := n.now m
  let next := n.tm.majorRun != 0 && t < n.tm.majorAt + 6000000000
  let run := if !major then n.tm.majorRun else if next then n.tm.majorRun + 1 else 1
  let n := { n with tm := { n.tm with markAt := t, majorRun := run, majorAt := if major then t else n.tm.majorAt } }
  let n := if 2 ≤ run then n.setOn Fd.TIME_STATUS_FINUTOK true else n
  if n.fd Fd.TIME_STATUS_SOURCE = 2 ∨ n.selected = 2 then n.servoOffset off m else n

/-- A mark is accepted (R295, R69): the servo takes its offset when the node's time comes from this port. -/
def Node.markAccept (n : Node) (p : Nat) (k : MarkRx) (tSend dly : Nat) (m : Moment) : Node :=
  let n := n.setFds [(Fd.BUS_MARKCNT_ACCEPTED p, n.fd (Fd.BUS_MARKCNT_ACCEPTED p) + 1), (Fd.BUS_MARK_SEQ p, k.seq), (Fd.BUS_MARK_ACCEPTED p, 1)]
  let n := n.setBp p { n.bp p with markOk := n.now m }
  if p != n.feedPort then n else n.markFeed k.major (((tSend + dly : Nat) : Int) - (k.sof : Int)) m

/-- A follow-up: with the same sequence within 5 ms of its mark's SOF it makes the mark accepted. -/
def Node.onFollowUp (n : Node) (p : Nat) (f : Frame) (m : Moment) : Node :=
  let src := idSrc f.id
  let seq := (f.data.getD 0 0#8).toNat
  let t := n.now m
  let b := n.bp p
  match b.marks.find? (fun k => k.src == src && k.seq == seq && t ≤ k.sof + 20000000) with
  | none => n
  | some k =>
    let n := n.setBp p { b with marks := b.marks.erase k }
    let sel := n.on (Fd.BUS_MARK_SELECTED p) && n.fd (Fd.BUS_MARK_SENDER p) == src
    match sel, n.delayOf p src with
    | true, some d => n.markAccept p k (natLE ((f.data.drop 4).take 6) * qnsSec + natLE ((f.data.drop 10).take 4)) d m
    | _, _ => n.markReject p sel k.major

/-- Marks whose follow-up did not come within 5 ms count as rejected. -/
def Node.followUpsLate (n : Node) (p : Nat) (m : Moment) : Node :=
  let b := n.bp p
  let old := b.marks.filter (fun k => k.sof + 20000000 < n.now m)
  let n := n.setBp p { b with marks := b.marks.filter (fun k => !(k.sof + 20000000 < n.now m)) }
  old.foldl (fun n k => n.markReject p (n.on (Fd.BUS_MARK_SELECTED p) && n.fd (Fd.BUS_MARK_SENDER p) == k.src) k.major) n

/-- Selection of the sender at a second boundary (R295). -/
def Node.markSelect (n : Node) (p : Nat) (m : Moment) : Node :=
  let ok := (n.bp p).senders.filter (fun s => n.tick ≤ s.at_ + 150000 && (n.delayOf p s.station).isSome)
  let best := ok.foldl (fun (a : Option Sender) s => match a with
    | some x => if pairLt (s.grade, s.station) (x.grade, x.station) then some s else a
    | none => some s) none
  let old := if n.on (Fd.BUS_MARK_SELECTED p) then n.fd (Fd.BUS_MARK_SENDER p) else 0
  let (new, gr) := match best with
    | some s => (s.station, s.grade)
    | none => (0, 0)
  if new = old then n
  else
    let n := n.setFds [(Fd.BUS_MARK_SELECTED p, if new = 0 then 0 else 1), (Fd.BUS_MARK_SENDER p, new), (Fd.BUS_MARK_GRADE p, gr)]
    let n := if p = n.feedPort then { n with tm := { n.tm with majorRun := 0 } } else n
    (n.busRec 0x07A [p, new, gr, old] p m).busRing p 15

/-- What the second boundary does for marks: selection, and the return to TPORT once it accepts again (R297). -/
def Node.markSecond (n : Node) (m : Moment) : Node :=
  let n := (n.markSelect 0 m).markSelect 1 m
  let t := n.fd Fd.BUS_LINK_TPORT
  if n.bus.tport != t && n.tm.t0 < (n.bp t).markOk + 120000000 then { n with bus := { n.bus with tport := t } } else n

/-! ### Frames of the time and survey protocol -/

/-- A confirmed class 0 frame of the protocol (Table 10-1). -/
def Node.protoFrame (n : Node) (p : Nat) (f : Frame) (sof : Nat) (m : Moment) : Node :=
  let h := if n.pairOn then 0 else p            -- in a pair one survey drives both ports (R288)
  let ty := idType f.id
  let survey := isSurveyId f.id && ty != 0x308
  let n := if survey && (n.sv h).role != 0 then n.setSv h { n.sv h with lastAt := n.tick, lastQ := false } else n
  let outside := survey && (n.sv h).role == 0
  let n :=
    if ty < 2 then n.onMark p f sof
    else if ty = 2 then n.onFollowUp p f m
    else if ty = 0x300 then n.onBegin h f m
    else if ty = 0x301 then n.onQuery h f
    else if 0x380 ≤ ty then n.onBid h f m
    else if ty = 0x302 then n.onAssign h f m
    else if ty = 0x303 then n.onAssigned h f m
    else if ty = 0x304 then
      let n := n.pingSeen h p (idSrc f.id) (idDst f.id) false
      if idDst f.id = n.station ∧ n.station ≠ 0 ∧ !(n.sv h).free_ then
        (n.setSv h { n.sv h with t2 := qnsOf sof, asked := idSrc f.id }).svSend p 0x305 (idSrc f.id) []
      else n
    else if ty = 0x305 then
      let n := n.pingSeen h p (idSrc f.id) (idDst f.id) true
      let s := n.sv h
      match s.step, s.pairs with
      | .ping, (_, _, b) :: _ => if idSrc f.id = b ∧ idDst f.id = n.station then n.setSv h { s with t4 := qnsOf sof, window := false } else n
      | _, _ => n
    else if ty = 0x306 then
      let s := n.sv h
      match s.step, s.pairs with
      | .ping, (_, _, b) :: _ =>
        if idSrc f.id = b ∧ idDst f.id = n.station then n.exchangeDone h p b (natLE (f.data.take 4)) (natLE ((f.data.drop 4).take 4)) else n
      | _, _ => n
    else if ty = 0x307 then
      let a := (f.data.getD 0 0#8).toNat
      let n := if idDst f.id = n.station then n.putDelay h p a (natLE ((f.data.drop 2).take 4)) (natLE ((f.data.drop 6).take 2)) else n
      n.seePair h p a (idDst f.id)
    else if ty = 0x308 then n.onAnnounce h f
    else if ty = 0x30F then n.onEnd h f m
    else n
  if outside && (n.sv h).role = 0 then n.listenHear p (ty == 0x30F) else n

/-- An own frame of the protocol has been sent. -/
def Node.protoSent (n : Node) (p : Nat) (f : Frame) (sof : Nat) (m : Moment) : Node :=
  let h := if n.pairOn then 0 else p
  let ty := idType f.id
  let s := n.sv h
  let n := if isSurveyId f.id && s.role != 0 then n.setSv h { s with lastAt := n.tick } else n
  let s := n.sv h
  if ty < 2 then n.sendFollowUp p f sof
  else if ty = 0x300 then (if s.role = 1 ∧ s.step = .begin_ then n.svBegun h m else n)
  else if ty = 0x301 ∨ ty = 0x302 then n.setSv h { s with window := true }
  else if ty = 0x304 then n.setSv h { s with t1 := qnsOf sof, window := true }
  else if ty = 0x305 then
    n.svSend p 0x306 s.asked (bytesLE 4 s.t2 ++ bytesLE 4 (qnsOf sof))
  else if ty = 0x307 then n.delaySent h p (idDst f.id)
  else if ty = 0x30F then n.masterDone h m
  else n

end Sys2Proof.Machine
end

