-- ==== Sys2Proof/Machine/BusCmd.lean ====
section
/-! DEFINITION. The frames and events of the Allieno ports, the BUS and SURVEY commands and what a change of a BUS
setting does (chapters 9 and 10). -/
namespace Sys2Proof.Machine

/-! ### Reception -/

/-- A port receives: ON or completing a frame while DRAINING, not bus-off, not asleep (R278, R300). -/
def Node.mayHear (n : Node) (p : Nat) : Bool :=
  n.working && p < 2 && n.busState p != 0 && !n.busOff p && (n.bp p).sleep != 2 && (n.bp p).sleep != 3

/-- Acknowledgement frames (Table 9-5): applied as Table 7-4 states. -/
def Node.ackFrame (n : Node) (f : Frame) : Node :=
  let d := f.data
  let ty := idType f.id
  if ty = 2 ∧ 2 ≤ d.length then n.queueAck ⟨2, false, natLE (d.take 2), none⟩
  else if ty = 3 ∧ 6 ≤ d.length then n.queueAck ⟨2, false, natLE (d.take 2), some (natLE ((d.drop 2).take 4))⟩
  else if ty = 4 ∧ 1 ≤ d.length then n.queueAck ⟨2, true, natLE (d.take 1), none⟩
  else n
/-- A doorbell frame rings its source; one below 224 is ignored and noted (R257). -/
def Node.doorbellFrame (n : Node) (p : Nat) (f : Frame) : Node :=
  let s := (f.data.getD 0 0#8).toNat
  if s < 224 then n.busEvt Fd.BUS_EVT_DOORBAD p else n.ring s
/-- A value frame of a peer (R185, Table 9-5). -/
def Node.valueFrame (n : Node) (f : Frame) : Node :=
  if f.data.length < 8 then n
  else
    let k := idSrc f.id * 256 + idType f.id % 256
    let mk := (f.data.getD 4 0#8)
    let v : Peer := ⟨BitVec.ofNat 32 (natLE (f.data.take 4)), mk.getLsbD 1, mk.getLsbD 0, n.tick⟩
    { n with alm := { n.alm with peers := n.alm.peers.filter (fun x => x.1 != k) ++ [(k, v)] } }

/-- Is the frame addressed to this node (R257)? -/
def Node.toMe (n : Node) (f : Frame) : Bool := idDst f.id == 255 || (idDst f.id == n.station && n.station != 0)

/-- The node's own reception of a confirmed Allieno message (R257, R263). -/
def Node.nodeFrame (n : Node) (p : Nat) (f : Frame) (m : Moment) : Node :=
  if !f.ext || !n.toMe f then n
  else match idClass f.id with
    | 1 => if idType f.id = 8 then n.doorbellFrame p f else n.ackFrame f
    | 2 => if idType f.id < 256 then n.valueFrame f else n
    | 3 => if idType f.id < 2 then n.nodeCaravan p f m else n
    | _ => n

/-- FIFO and user caravans by the matching filters (R263, R265). -/
def Node.filterFrame (n : Node) (p : Nat) (f : Frame) (sof : Nat) (m : Moment) : Node :=
  let q := n.home p
  let fs := n.matching q f
  match fs with
  | [] => n
  | lo :: _ =>
    let n := if n.on (Fd.BUS_FMASK_CARAVAN q lo) then n else n.fifoPush p f lo sof
    -- command and reply caravans addressed to the node take no receive buffer (R265)
    if f.ext && idClass f.id == 3 && idType f.id < 2 && n.toMe f then n
    else match fs.find? (fun k => n.on (Fd.BUS_FMASK_CARAVAN q k)) with
      | some k => n.userCaravan p f k m
      | none => n

/-- A frame is confirmed (R252): early view and gates, the pair, filters, the trimmer, the waystation, the node. -/
def Node.confirmed (n : Node) (p : Nat) (f : Frame) (sof : Nat) (edges : Nat × Int) (m : Moment) : Node :=
  let n := n.rxGood p
  let b := n.bp p
  let n := n.setBp p { b with seen := n.tick, silent := false, sleep := if b.sleep = 1 then b.sleep else 0 }
  let n := if b.silent then n.busRec 0x07D [p, 0] p m else n
  let n := if (n.bp p).rx.isSome then n else n.earlyMatch p f f.data.length sof
  let n := match (n.bp p).rx with
    | some r => n.earlyBytes p (f.data.drop r.frame.data.length) m
    | none => n
  let n := n.earlyEnd p true m
  let n := n.trim p f edges
  let n := n.busIdle p
  if f.ext && isProtoId f.id then (n.filterFrame p f sof m).protoFrame p f sof m
  else
    let (n, dup) := n.duplicate p f (n.now m)
    if dup then n else ((n.filterFrame p f sof m).forward p f m).nodeFrame p f m

def execFrameConfirmed (p : Nat) (f : Frame) (sofQ : Nat) (edges : Nat × Int) (m : Moment) (s : State) :
    Host.Outcome State Fault Refusal :=
  s.lift fun n => if n.mayHear p then n.confirmed p f ((n.now m - sofQ) / 2 * 2) edges m else n

def execAckFrame (f : Frame) (s : State) : Host.Outcome State Fault Refusal :=
  s.lift fun n => if n.working && f.ext && n.toMe f && idClass f.id == 1 then n.ackFrame f else n
def execDoorbellFrame (p : Nat) (f : Frame) (s : State) : Host.Outcome State Fault Refusal :=
  s.lift fun n => if n.mayHear p && f.ext && n.toMe f && idClass f.id == 1 && idType f.id == 8 then n.doorbellFrame p f else n
def execValueFrame (f : Frame) (s : State) : Host.Outcome State Fault Refusal :=
  s.lift fun n => if n.working && f.ext && n.toMe f && idClass f.id == 2 && idType f.id < 256 then n.valueFrame f else n

/-- Early match, or further bytes of the frame that is in an early-view buffer (R270). -/
def execEarlyMatch (p : Nat) (f : Frame) (len : Nat) (bytes : List Byte) (sofQ : Nat) (m : Moment) (s : State) :
    Host.Outcome State Fault Refusal :=
  s.lift fun n =>
    if !n.mayHear p then n
    else
      let n := if (n.bp p).rx.isSome then n else n.earlyMatch p f len ((n.now m - sofQ) / 2 * 2)
      n.earlyBytes p bytes m

/-! ### Transmission -/

def execTransmissionStart (p : Nat) (m : Moment) (s : State) : Host.Outcome State Fault Refusal :=
  s.lift fun n => if p < 2 then n.txStart p m else n

/-- The attempt is over and its frame was sent (R262, R264, R275, R297). -/
def Node.txDone (n : Node) (p : Nat) (t : TxA) (m : Moment) : Node :=
  let n := n.txGood p
  let b := n.bp p
  let ab := b.aborting
  let n := (n.setBp p { b with tx := none, aborting := none, guard := if t.frame.gen = 2 then 0 else b.guard }).busIdle p
  if t.mb = 64 then { n with bus := { n.bus with way := Bank.set [] n.bus.way p ((Bank.get [] n.bus.way p).drop 1) } }
  else if !t.last then
    if ab = some t.mb then n.mbEnd t.own t.mb false
    else n.setBp p { n.bp p with sent := Bank.set 0 (n.bp p).sent t.mb (Bank.get 0 (n.bp p).sent t.mb + 1) }
  else
    let n := n.setBp p { n.bp p with sent := Bank.set 0 (n.bp p).sent t.mb 0 }
    let n := if n.pairOn && 16 ≤ t.mb then (n.setBp p { n.bp p with done := t.mb :: (n.bp p).done }).pairSettle
      else n.mbEnd t.own t.mb true
    let n := if t.mb < 16 && isProtoId t.frame.id then n.protoSent p t.frame t.sof m else n
    n.pump p

def execFrameSent (p : Nat) (m : Moment) (s : State) : Host.Outcome State Fault Refusal :=
  s.lift fun n => match (n.bp p).tx with
    | some t => if n.awake && p < 2 then n.txDone p t m else n
    | none => n

/-- What an attempt that did not succeed leaves: the mailbox stays pending (R267), unless an abort waits for the outcome
or the frame is a bid (R285). -/
def Node.txUndone (n : Node) (p : Nat) (t : TxA) : Node :=
  let ab := (n.bp p).aborting
  let n := (n.setBp p { n.bp p with tx := none, aborting := none }).busIdle p
  if ab = some t.mb then n.mbEnd t.own t.mb false
  else if t.mb < 16 && idClass t.frame.id == 0 && 0x380 ≤ idType t.frame.id then (n.mbEnd t.own t.mb false).pump p
  else n

/-- R255: 16 Gen C attempts in a row destroyed by an error flag that begins after BRS. -/
def Node.guardStep (n : Node) (p : Nat) (gen : Nat) (afterBrs : Bool) (m : Moment) : Node :=
  if gen != 2 then n
  else
    let k := if afterBrs then (n.bp p).guard + 1 else 0
    let n := n.setBp p { n.bp p with guard := k }
    if 16 ≤ k && n.on (Fd.BUS_CTRL_GCGUARD p) && n.genMax p == 2 then (n.setBp p { n.bp p with guard := 0 }).genFallback p m else n

def execFrameError (p : Nat) (afterBrs special : Bool) (m : Moment) (s : State) : Host.Outcome State Fault Refusal :=
  s.lift fun n =>
    if !n.awake || 2 ≤ p || n.busState p == 0 || n.busOff p then n
    else
      let n := n.earlyEnd p false m
      let n := if n.home p = p then n.windowError p else n
      match (n.bp p).tx with
      | some t =>
        let tec := n.fd (Fd.BUS_ERRCNT_TEC p)
        let n := n.txUndone p t
        let n := n.guardStep p t.frame.gen afterBrs m
        if special then n
        else
          let n := (n.setFd (Fd.BUS_ERRCNT_TEC p) (Nat.min 255 (tec + 8))).errState p
          if 256 ≤ tec + 8 then n.goBusOff p m else n
      | none =>
        let rec_ := n.fd (Fd.BUS_ERRCNT_REC p) + (if special then 8 else 1)
        ((n.setFd (Fd.BUS_ERRCNT_REC p) (Nat.min 255 rec_)).errState p).busIdle p

/-- A port that loses arbitration while it also receives: its provisional buffer retracts (R271), its frame is sent
again (R267). -/
def execArbitrationLost (p : Nat) (m : Moment) (s : State) : Host.Outcome State Fault Refusal :=
  s.lift fun n => match (n.bp p).tx with
    | some t =>
      if n.awake && p < 2 then
        ((n.earlyEnd p false m).txUndone p t).guardStep p t.frame.gen false m
      else n
    | none => n

def execBusOffRecovery (p : Nat) (m : Moment) (s : State) : Host.Outcome State Fault Refusal :=
  s.lift fun n =>
    if !n.awake || 2 ≤ p || !n.busOff p then n
    else
      let n := n.setFds [(Fd.BUS_STAT_ERR p, 0), (Fd.BUS_ERRCNT_TEC p, 0), (Fd.BUS_ERRCNT_REC p, 0)]
      let n := (n.busEvt Fd.BUS_EVT_RECOVER p).busRec 0x071 [p, 0, 0] p m
      (n.busRing p 9).busWatch p "ERR" "ACTIVE"

def execGatePulseEnd (p g : Nat) (m : Moment) (s : State) : Host.Outcome State Fault Refusal :=
  s.lift fun n => match (n.bp p).gateEnd.find? (fun x => x.1 == g) with
    | some (_, t) => if t ≤ n.now m then (n.gateOff p g).hwGates p else n
    | none => n

/-- Caravans whose last frame is more than 100 ms old are discarded (R265). -/
def execCaravanGapTimeout (p : Nat) (m : Moment) (s : State) : Host.Outcome State Fault Refusal :=
  s.lift fun n =>
    if !n.awake || 2 ≤ p then n
    else
      let b := n.bp p
      let old := fun (c : CarRx) => c.last + 5000 < n.tick
      let n := n.setBp p { b with cars := b.cars.filter (fun c => !old c), cmds := b.cmds.filter (fun c => !old c) }
      ((b.cars ++ b.cmds).filter old).foldl (fun n c => n.carDiscard p 2 (idSrc c.id) c.num m) n

/-! ### Values (R258) -/

/-- The beat index of the value's stamp. -/
def Node.srcStamp (n : Node) (kind k : Nat) : Nat :=
  if kind = 0 then (n.chan k).stamp else if kind = 1 then n.fd (Fd.LO_STAT_BEAT k) else if kind = 2 then (n.rd Ad.GRID_REPQNS).toNat / 80000 else n.idx

def Node.valuePublish (n : Node) (v : Nat) : Node :=
  let src := (n.k (Kid.valSrc v)).toNat
  match n.bus.vals.find? (fun x => x.1 == v) with
  | none => n
  | some (_, pb) =>
    if src = 0 then n
    else
      let kind := (src - 1) / 65536
      let i := (src - 1) % 65536
      let r := n.readSrc 0 kind i
      let marks := (if r.fault then 1 else 0) + (if r.stale && !r.fault then 2 else 0)
      let due := pb.next ≤ n.tick
      if !due && marks == pb.marks then n
      else
        let per := (n.k (Kid.valPeriod v)).toNat * 50
        let pb' : ValPub := ⟨if due then n.tick + per else pb.next, marks⟩
        let n := { n with bus := { n.bus with vals := n.bus.vals.map (fun (x : Nat × ValPub) => if x.1 = v then (v, pb') else x) } }
        n.sendBoth (msg (ident 2 v n.station (n.k (Kid.valTo v)).toNat)
          (bytesLE 4 r.val.toNat ++ [BitVec.ofNat 8 marks, 0#8] ++ bytesLE 2 (n.srcStamp kind i)))

def execValuePublish (v : Nat) (s : State) : Host.Outcome State Fault Refusal :=
  s.lift fun n => if n.working then n.valuePublish v else n

/-! ### DRAINING, OFF and the way back (R278, R279, R302, R305) -/

def stateWord (k : Nat) : String := if k = 0 then "OFF" else if k = 1 then "ON" else "DRAINING"
def Node.setBusState (n : Node) (p st : Nat) : Node := (n.setFd (Fd.BUS_STAT_STATE p) st).busWatch p "STATE" (stateWord st)

/-- ENABLE=OFF is a request: the port drains; a survey this node masters on it ends as ABORTED without END. -/
def Node.drainPort (n : Node) (p : Nat) (m : Moment) : Node :=
  if n.busState p != 1 then n
  else
    let n := n.setBusState p 2
    let n := n.setBp p { n.bp p with queue := (n.bp p).queue.filter (fun o => idClass o.id == 0 && idType o.id == 2) }
    if (n.sv p).role = 1 then n.svAbort p m else n

/-- The port is ON and listens (R290). -/
def Node.enablePort (n : Node) (p : Nat) : Node := ((n.setBusState p 1).setBp p { n.bp p with then_ := 0 }).listenOn p 1

/-- A LINK change takes effect once both ports are OFF; both are enabled under the new mode as one unit (R302). -/
def Node.linkSettle (n : Node) : Node :=
  let mode := n.fd Fd.BUS_LINK_MODE
  let n := if mode != n.bus.linkF && n.busState 0 == 0 && n.busState 1 == 0 then
      { n with bus := { n.bus with linkF := mode, recent := [], way := [], tport := n.fd Fd.BUS_LINK_TPORT } }
    else n
  if mode != n.bus.linkF then n
  else [0, 1].foldl (fun n p => if (n.bp p).then_ = 2 && n.busState p == 0 then n.enablePort p else n) n

/-- The drain is over: pending mailboxes are aborted, caravans discarded (with a cause that Table 9-14 does not give), and
the port is OFF. -/
def Node.portOff (n : Node) (p : Nat) (m : Moment) : Node :=
  let pend := (List.range 64).filter (fun k => n.mbStatus p k == 1)
  let n := pend.foldl (fun n k => n.mbEnd p k false) n
  let n := n.setBp p { n.bp p with queue := [], held := [], markReq := none }
  let n := { n with bus := { n.bus with way := Bank.set [] n.bus.way p [] } }
  let n := (if ((n.bp p).cars ++ (n.bp p).cmds).isEmpty then n else n.fresh.2.dropCaravans p n.fresh.1.toNat m).setBusState p 0
  let n := (n.busEvt Fd.BUS_EVT_OFF p).raiseM 0x074 (BitVec.ofNat 8 p :: bytesLE 2 pend.length) m (helpBus p)
  ((n.busRing p 12).pairSettle).linkSettle

def execBusPortOff (p : Nat) (m : Moment) (s : State) : Host.Outcome State Fault Refusal :=
  s.lift fun n =>
    if n.awake && p < 2 && n.busState p == 2 && (n.bp p).tx.isNone && (n.bp p).rx.isNone then n.portOff p m else n

/-- Notices for BNOTE are blocked while every port has GENMAX=A (R436). -/
def Node.noteBlock (n : Node) : Node := { n with bus := { n.bus with noteBlocked := n.genMax 0 == 0 && n.genMax 1 == 0 } }

/-- After a change of BUS settings, by SET, by register or by a load. -/
def Node.busChanged (old n : Node) (m : Moment) : Node :=
  let n := n.noteBlock
  let n := if n.fd Fd.BUS_LINK_TPORT != old.fd Fd.BUS_LINK_TPORT then
      { n with bus := { n.bus with tport := n.fd Fd.BUS_LINK_TPORT } } else n
  let n := [0, 1].foldl (fun n p =>
    let n := n.busIdle p
    let a := old.on (Fd.BUS_CTRL_ENABLE p)
    let b := n.on (Fd.BUS_CTRL_ENABLE p)
    if a && !b then (n.setBp p { n.bp p with then_ := 0 }).drainPort p m
    else if !a && b then (if n.busState p = 0 then n.enablePort p else n.setBp p { n.bp p with then_ := 2 })
    else n) n
  if n.fd Fd.BUS_LINK_MODE != n.bus.linkF && n.fd Fd.BUS_LINK_MODE != old.fd Fd.BUS_LINK_MODE then
    let n := [0, 1].foldl (fun n p =>
      if n.on (Fd.BUS_CTRL_ENABLE p) then (n.setBp p { n.bp p with then_ := 2 }).drainPort p m else n) n
    n.linkSettle
  else n

/-! ### Keys (Tables 9-11 and 10-6) -/

def abForm : Form := .enum [("A", 0), ("B", 1)]
def portKey : KeySpec := kk "PORT" abForm (fun _ => 0)
def busPortSpecs : List KeySpec := [
  ks "ENABLE" onOff Fd.BUS_CTRL_ENABLE, ks "GENMAX" (.enum [("A", 0), ("B", 1), ("C", 2)]) Fd.BUS_CTRL_GENMAX,
  ks "NRATE" (.enum [("125", 0), ("250", 1), ("500", 2), ("1000", 3)]) Fd.BUS_BITNOM_NRATE,
  ks "BRATE" (.enum [("1", 0), ("2", 1), ("4", 2), ("5", 3)]) Fd.BUS_BITDATA_BRATE,
  ks "CRATE" (.enum [("2", 0), ("4", 1), ("5", 2), ("8", 3), ("10", 4), ("12", 5)]) Fd.BUS_BITDATA_CRATE,
  ks "NSP" (.fix (q 60) (q 90) (qd 5 1) (q 0)) Fd.BUS_BITNOM_NSP, ks "DSP" (.fix (q 50) (q 85) (qd 5 1) (q 0)) Fd.BUS_BITDATA_DSP,
  ks "TRIM" onOff Fd.BUS_CTRL_TRIM, ks "GCGUARD" onOff Fd.BUS_CTRL_GCGUARD, ks "RDY" onOff Fd.BUS_CTRL_RDY,
  ks "WAKE" (.enum [("PATTERN", 0), ("FRAME", 1)]) Fd.BUS_SLEEP_WMODE, ks "WID" (.big 0 0x1FFFFFFF) Fd.BUS_WID_ID,
  ks "WMASK" (.big 0 0x1FFFFFFF) Fd.BUS_WMASK_MASK, ks "LWAKE" onOff Fd.BUS_SLEEP_LWAKE]
def wideForm : Form := .big 0 (2 ^ 64 - 1)
/-- Every key of SET BUS PORT=p; WDATA and WDMASK have 16 hex digits. -/
def busPortAll : List KeySpec := portKey :: busPortSpecs ++ [kk "WDATA" wideForm (fun _ => 0), kk "WDMASK" wideForm (fun _ => 0)]
def wakeKeys : List String := ["WAKE", "WID", "WMASK", "WDATA", "WDMASK", "LWAKE"]
def filterSpecs (p : Nat) : List KeySpec := [
  ks "ID" (.big 0 0x1FFFFFFF) (Fd.BUS_FILT_ID p), ks "MASK" (.big 0 0x1FFFFFFF) (Fd.BUS_FMASK_MASK p),
  ks "IDE" (.enum [("STD", 0), ("EXT", 1)]) (Fd.BUS_FILT_IDE p), ks "ENABLE" onOff (Fd.BUS_FMASK_ENABLE p),
  ks "EARLY" onOff (Fd.BUS_FMASK_EARLY p), ks "CARAVAN" onOff (Fd.BUS_FMASK_CARAVAN p)]
def gateSpecs (p : Nat) : List KeySpec := [
  ks "FILT" (.int 0 127) (Fd.BUS_GATECFG_FILT p), ks "BYTE" (.int 0 255) (Fd.BUS_GATECFG_BYTE p),
  ks "BMASK" (.int 0 255) (Fd.BUS_GATECFG_BMASK p), ks "ACTION" (.enum [("PULSE", 0), ("LATCH", 1)]) (Fd.BUS_GATECFG_LATCH p),
  ks "POL" (.enum [("LOW", 0), ("HIGH", 1)]) (Fd.BUS_GATECFG_POL p), ks "WIDTH" (.int 1 65535) (Fd.BUS_GATEW_WIDTH p),
  ks "ENABLE" onOff (Fd.BUS_GATECFG_ENABLE p)]
def valSpecs : List KeySpec := [
  kk "SRC" (.src true) Kid.valSrc, kk "PERIOD" (.int 10 60000) Kid.valPeriod, kk "TO" (.int 1 255) Kid.valTo]
def almToSpecs : List KeySpec := [kk "ALMTO" (.int 0 255) (fun _ => Kid.almTo)]
def linkSpecs : List KeySpec := [
  ks "LINK" (.enum [("SEPARATE", 0), ("PAIR", 1), ("WAY", 2)]) (fun _ => Fd.BUS_LINK_MODE), ks "TPORT" abForm (fun _ => Fd.BUS_LINK_TPORT),
  ks "DUPWIN" (.int 1 50) (fun _ => Fd.BUS_LINK_DUPWIN),
  ks "WAYFWD" (.flags [("C1", 0), ("C2", 1), ("C3", 2), ("C4", 3), ("FOREIGN", 4)] 0) (fun _ => Fd.BUS_LINK_WAYFWD)]
def surveySpecs : List KeySpec := [
  ks "STATION" (.int 0 254) (fun _ => Fd.BUS_STATION_REQUEST), ks "FOLD" onOff (fun _ => Fd.BUS_LINK_FOLD)]

/-- The keys without those that only name the item. -/
def Keys.without (ks : Keys) (names : List String) : Keys := ks.filter (fun x => !names.contains x.1)
/-- The port a line names. -/
def keyPort (ks : Keys) : Nat := (keyNum [portKey] ks "PORT").getD 0
/-- Checks of a line whose only fixed key is PORT. -/
def portOnly (known : List KeySpec) (required : List String) (keys : Keys) : Except Err Unit :=
  checkKeys (portKey :: known) ("PORT" :: required) keys

/-- The node limit of a data rate (Table 9-2). -/
def crateLimit (c : Nat) : Nat := if 4 ≤ c then 32 else if 2 ≤ c then 64 else 128
def brateLimit (c : Nat) : Nat := if 2 ≤ c then 64 else 128

/-- 64-bit keys: 16 hex digits, byte 0 first. -/
def wideBad (keys : Keys) : Bool :=
  keys.any (fun (k, v) => (k == "WDATA" || k == "WDMASK") && (match v with
    | .hex _ d => d != 16
    | _ => true))
/-- The two words of a 64-bit key: the digits name byte 0 first. -/
def wideWords (v : Nat) : Word × Word :=
  let bs := (bytesLE 8 v).reverse
  (BitVec.ofNat 32 (natLE (bs.take 4)), BitVec.ofNat 32 (natLE (bs.drop 4)))
def Node.putWide (n : Node) (keys : Keys) (k : String) (a : Nat → Nat) : Node :=
  match keyVal keys k with
  | some (.hex v _) => (n.wr (a 0) (wideWords v).1).wr (a 1) (wideWords v).2
  | _ => n

/-- A survey runs on the port (R302). -/
def Node.surveyOn (n : Node) (p : Nat) : Bool := (n.sv p).role != 0 || (n.pairOn && (n.sv 0).role != 0)

/-- SET BUS PORT=p (R274, R302, R248). -/
def execSetBusPort (l : Line) (s : State) : Host.Outcome State Fault Refusal :=
  s.lift fun n => n.runWhole l .bus (fun n => do
      checkKeys busPortAll ["PORT"] l.keys
      if wideBad l.keys then refuse 203
      let p := keyPort l.keys
      let cnt := (n.bp p).count
      match keyNum busPortAll l.keys "CRATE" with
      | some c => need (cnt ≤ crateLimit c) 205
      | none => pure ()
      match keyNum busPortAll l.keys "BRATE" with
      | some c => need (cnt ≤ brateLimit c) 205
      | none => pure ()
      if l.keys.any (fun x => wakeKeys.contains x.1) && n.surveyOn p then refuse 306)
    (fun n =>
      let p := keyPort l.keys
      let ks := Keys.without l.keys ["PORT", "WDATA", "WDMASK"]
      let n' := ((n.setKeys busPortSpecs p ks).putWide l.keys "WDATA" (Ad.BUS_WDATA p)).putWide l.keys "WDMASK" (Ad.BUS_WDMASK p)
      let n' := if hasKey l.keys "WDATA" || hasKey l.keys "WDMASK" then n'.dirty else n'
      .ok (Node.busChanged n n' 70000, []))

/-- One unit of SET BUS f PORT=p. -/
def setFilterUnit (keys : Keys) (i : Nat) (n : Node) : Except Err (Node × List (List Item)) :=
  .ok (n.setKeys (filterSpecs (keyPort keys)) i (Keys.without keys ["PORT"]), [])
def execSetBusFilter (l : Line) (s : State) : Host.Outcome State Fault Refusal :=
  s.lift fun n => n.runMulti l verbSet .bus 128 (.set .bus l.keys)
    (fun _ _ => portOnly (filterSpecs (keyPort l.keys)) [] l.keys) (setFilterUnit l.keys)

def gateKey : KeySpec := kk "GATE" (.int 0 3) (fun _ => 0)
/-- SET BUS PORT=p GATE=g. -/
def execSetBusGate (l : Line) (s : State) : Host.Outcome State Fault Refusal :=
  s.lift fun n => n.runWhole l .bus (fun _ => portOnly (gateKey :: gateSpecs (keyPort l.keys)) ["GATE"] l.keys)
    (fun n =>
      let g := (keyNum [gateKey] l.keys "GATE").getD 0
      .ok (n.setKeys (gateSpecs (keyPort l.keys)) g (Keys.without l.keys ["PORT", "GATE"]), []))

def valKey : KeySpec := kk "VAL" (.int 0 255) (fun _ => 0)
/-- SET BUS VAL=v: publication begins anew (log entry 36). -/
def execSetBusVal (l : Line) (s : State) : Host.Outcome State Fault Refusal :=
  s.lift fun n => n.runWhole l .bus (fun _ => do
      checkKeys (valKey :: valSpecs) ["VAL"] l.keys
      match keyNum valSpecs l.keys "SRC" with
      | some c => need (!(c != 0 && (c - 1) / 65536 == 4)) 201
      | none => pure ()
      match keyNum valSpecs l.keys "PERIOD" with
      | some c => need (c % 10 == 0) 204
      | none => pure ())
    (fun n =>
      let v := (keyNum [valKey] l.keys "VAL").getD 0
      let n := n.setKeys valSpecs v (Keys.without l.keys ["VAL"])
      let rest := n.bus.vals.filter (fun x => x.1 != v)
      let vals := if n.k (Kid.valSrc v) = 0#32 then rest else rest ++ [(v, ⟨n.tick, 4⟩)]
      .ok ({ n with bus := { n.bus with vals := vals } }, []))

def execSetBusAlmto (l : Line) (s : State) : Host.Outcome State Fault Refusal :=
  s.lift fun n => n.runWhole l .bus (fun _ => checkKeys almToSpecs ["ALMTO"] l.keys) (fun n => .ok (n.setKeys almToSpecs 0 l.keys, []))

def genName (g : Nat) : String := if g = 0 then "A" else if g = 1 then "B" else "C"
def execGetBus (l : Line) (s : State) : Host.Outcome State Fault Refusal :=
  s.lift fun n => n.runRead l (fun n => do
    l.bare
    portOnly [] [] l.keys
    let p := keyPort l.keys
    let e := n.fd (Fd.BUS_STAT_ERR p)
    pure [[.w "BUS", .w (busName p), .w "STATE", .w (stateWord (n.busState p)), .w "ERR",
      .w (if e = 0 then "ACTIVE" else if e = 1 then "PASSIVE" else "BUSOFF"), .w "TEC", .n (n.fd (Fd.BUS_ERRCNT_TEC p)),
      .w "REC", .n (n.fd (Fd.BUS_ERRCNT_REC p)), .w "BUSOFF", .n (n.fd (Fd.BUS_ERRCNT_BUSOFF p)), .w "GEN", .w (genName (n.genMax p)),
      .w "FALLBACK", .w (if n.on (Fd.BUS_STAT_FALLBACK p) then "YES" else "NO"), .w "FIFO", .n (n.fd (Fd.BUS_FIFO_COUNT p)),
      .w "LOST", .n (n.fd (Fd.BUS_RXLOST_LOST p)), .w "EVMISS", .n (n.fd (Fd.BUS_EVMISS_MISS p))]])

def wideItem (a b : Word) : Item := .h (natLE ((bytesLE 4 a.toNat ++ bytesLE 4 b.toNat).reverse)) 16
def execShowBus (l : Line) (s : State) : Host.Outcome State Fault Refusal :=
  s.lift fun n => n.runRead l (fun n => do
    l.bare
    portOnly [] [] l.keys
    let p := keyPort l.keys
    pure [[.w "BUS", .w (busName p)] ++ n.showKeys busPortSpecs p ++
      [.w "WDATA", wideItem (n.rd (Ad.BUS_WDATA p 0)) (n.rd (Ad.BUS_WDATA p 1)), .w "WDMASK",
       wideItem (n.rd (Ad.BUS_WDMASK p 0)) (n.rd (Ad.BUS_WDMASK p 1))]])

def execShowBusTrim (l : Line) (s : State) : Host.Outcome State Fault Refusal :=
  s.lift fun n => n.runRead l (fun n => do
    l.bare
    portOnly [] [] l.keys
    let p := keyPort l.keys
    pure (((List.range 64).filter (fun k => n.on (Fd.BUS_TRIM_VALID p k))).map (fun k =>
      [.w "BUS TRIM", .n k, .w "STATION", .n (n.fd (Fd.BUS_TRIM_STATION p k)), .w "OFFSET",
       .i (signed 8 (n.fd (Fd.BUS_TRIM_OFFSET p k))), .w "FRAMES", .n (n.fd (Fd.BUS_TRIM_FRAMES p k)), .w "LOCK",
       .n (n.fd (Fd.BUS_TRIM_LOCK p k))])))

/-! ### Mailboxes (R262, R275) -/

/-- A generation or a length that no port of the mailbox can carry (R275; in a pair either port may, R437). -/
def Node.genBad (n : Node) (p gen len : Nat) (car : Bool) : Bool :=
  let mx := if n.pairOn then Nat.max (n.genMax 0) (n.genMax 1) else n.genMax p
  let g := if gen = 3 then mx else gen
  (gen != 3 && mx < gen) || (car && g == 0) || (!car && ((g == 0 && 8 < len) || 64 < len))
/-- Why a request for a mailbox is refused: 303 port not ON, 405 taken, 205 generation or length. -/
def Node.reqErr (n : Node) (p k gen len : Nat) (car : Bool) : Option Nat :=
  if n.busState p != 1 then some 303
  else if n.mbStatus p k == 1 then some 405
  else if n.genBad p gen len car then some 205
  else none

/-- The mailbox becomes PENDING. -/
def Node.request (n : Node) (p k : Nat) : Node :=
  let b := n.bp p
  (n.setFd (Fd.BUS_MBCTL_STATUS p k) 1).setBp p { b with sent := Bank.set 0 b.sent k 0 }

def Node.busCfgErr (n : Node) (p : Nat) : Node := (n.busEvt Fd.BUS_EVT_CFGERR p).busRing p 11

/-- A write of MBCTL.REQ: refused as a SEND would be, or for a mailbox of the node (R262, R276); a refused one leaves
`old`. -/
def Node.mbReq (old n : Node) (p k : Nat) : Node :=
  let car := n.on (Fd.BUS_MBCTL_CARAVAN p k)
  let e := n.reqErr p k (n.fd (Fd.BUS_MBCTL_GEN p k)) (n.fd (Fd.BUS_MBCTL_LEN p k)) car
  if k < 16 || e.isSome || (car && n.fd (Fd.BUS_MBCTL_CARBUF p k) < 4) then old.busCfgErr p else n.request p k
def execMailboxReq (p k : Nat) (s : State) : Host.Outcome State Fault Refusal :=
  s.lift fun n => if n.awake && p < 2 && k < 64 then Node.mbReq n n p k else n

/-- ABORT: ABORTED at once, or by the outcome of the transmission on the wire (R275). -/
def Node.abortMb (n : Node) (p k : Nat) : Node :=
  if n.mbStatus p k != 1 then n
  else
    let wire := fun (o : Nat) => match (n.bp o).tx with
      | some t => t.own == p && t.mb == k
      | none => false
    if wire 0 then n.setBp 0 { n.bp 0 with aborting := some k }
    else if wire 1 then n.setBp 1 { n.bp 1 with aborting := some k }
    else n.mbEnd p k false

/-- A write of MBCTL.ABORT. -/
def Node.mbAbort (old n : Node) (p k : Nat) : Node :=
  if k < 16 || n.busState p != 1 then old.busCfgErr p else n.abortMb p k
def execMailboxAbort (p k : Nat) (s : State) : Host.Outcome State Fault Refusal :=
  s.lift fun n => if n.awake && p < 2 && k < 64 then Node.mbAbort n n p k else n

/-- A word of DATA: 8 hex digits, or 0x and up to 8 of them. -/
def dataWord (w : String) : Option Nat :=
  let cs := codesOf w
  let go := fun (l : List Nat) => if l.isEmpty || 8 < l.length || l.any (fun c => !isHexDigit c) then none
    else some (l.foldl (fun a c => a * 16 + hexVal c) 0)
  match cs with
  | 48 :: 88 :: t => go t
  | 48 :: 120 :: t => go t
  | _ => if cs.length = 8 then go cs else none
/-- The words a DATA key gives: none when a form is wrong. -/
def dataWords : Val → Option (List Nat)
  | .hex v d => if d ≤ 8 then some [v] else none
  | .words ws => if !ws.isEmpty && ws.all (fun w => (dataWord w).isSome) then some (ws.map (fun w => (dataWord w).getD 0)) else none
  | .int v => if 0 ≤ v ∧ v < 2 ^ 32 then some [v.toNat] else none
  | _ => none

def sendSpecs : List KeySpec := [
  kk "MB" (.int 16 63) (fun _ => 0), kk "ID" (.big 0 0x1FFFFFFF) (fun _ => 0), kk "IDE" (.enum [("STD", 0), ("EXT", 1)]) (fun _ => 0),
  kk "GEN" (.enum [("A", 0), ("B", 1), ("C", 2)]) (fun _ => 0), kk "LEN" (.int 0 64) (fun _ => 0),
  kk "RING" onOff (fun _ => 0), kk "WAIT" onOff (fun _ => 0)]

/-- DO BUS SEND (R275). -/
def execDoBusSend (l : Line) (s : State) : Host.Outcome State Fault Refusal :=
  s.lift fun n => n.runOpen l (fun n => do
    l.bare
    onlyKeys ["PORT", "MB", "ID", "IDE", "GEN", "LEN", "DATA", "RING", "WAIT"] ["PORT", "ID", "LEN"] l.keys
    let data ← match keyVal l.keys "DATA" with
      | none => .ok []
      | some v => match dataWords v with
        | none => refuse 203
        | some ws => if 16 < ws.length then refuse 201 else .ok ws
    checkKeys (portKey :: sendSpecs) ["PORT", "ID", "LEN"] (Keys.without l.keys ["DATA"])
    let p := keyPort l.keys
    let num := fun k d => (keyNum sendSpecs l.keys k).getD d
    let gen := num "GEN" 3
    let len := num "LEN" 0
    need (!n.genBad p gen len false) 205
    need (n.busState p == 1) 303
    let free := match keyNum sendSpecs l.keys "MB" with
      | some k => if n.mbStatus p k == 1 then none else some k
      | none => ((List.range 64).drop 16).find? (fun k => n.mbStatus p k != 1)
    match free with
    | none => refuse 405
    | some k => do
      n.mayWrite l.port .bus none
      let n := if data.isEmpty then n else n.setBytes (mbAddr p k) (data.flatMap (bytesLE 4))
      let n := n.setFds [(Fd.BUS_MBCTL_LEN p k, len), (Fd.BUS_MBCTL_GEN p k, gen), (Fd.BUS_MBCTL_CARAVAN p k, 0),
        (Fd.BUS_MBCTL_RING p k, num "RING" 0), (Fd.BUS_MBID_IDE p k, num "IDE" 1), (Fd.BUS_MBID_ID p k, num "ID" 0)]
      let n := n.request p k
      if num "WAIT" 0 = 1 then
        let n := n.send l.port l.tag [(.data, [.w "BUS SEND MB", .n k])] false
        pure (n.setPort l.port { n.port l.port with await := some ⟨l.tag, .busSend p k, n.tick⟩ })
      else pure (n.replyOk l [[.w "BUS SEND MB", .n k]]))

/-- DO BUS ABORT (R275, R278). -/
def execDoBusAbort (l : Line) (s : State) : Host.Outcome State Fault Refusal :=
  s.lift fun n => n.runWhole l .bus (fun n => do
      portOnly [kk "MB" (.int 16 63) (fun _ => 0)] ["MB"] l.keys
      need (n.busState (keyPort l.keys) == 1) 303)
    (fun n => .ok (n.abortMb (keyPort l.keys) ((keyNum sendSpecs l.keys "MB").getD 0), []))

/-- DO BUS TUNNEL (R275, R254, R278). -/
def execDoBusTunnel (l : Line) (s : State) : Host.Outcome State Fault Refusal :=
  s.lift fun n => n.runOpen l (fun n => do
    l.bare
    let specs := [kk "TO" (.int 1 255) (fun _ => 0), kk "LINE" .text (fun _ => 0)]
    portOnly specs ["TO", "LINE"] l.keys
    let p := keyPort l.keys
    let dst := (keyNum specs l.keys "TO").getD 255
    need (n.genMax p != 0) 205
    need (n.busState p == 1) 303
    need (!n.busOff p) 601
    match keyVal l.keys "LINE" with
    | some (.quoted cs) =>
      let n := n.sendLink p ⟨ident 3 0 n.station dst, cs.map (BitVec.ofNat 8), false, some 0⟩
      pure (n.setPort l.port { n.port l.port with await := some ⟨l.tag, .tunnel p dst, n.tick⟩, replyOpen := true })
    | _ => refuse 203)

def execTunnelTimeout (c : Port) (s : State) : Host.Outcome State Fault Refusal :=
  s.lift fun n => match (n.port c).await with
    | some ⟨tag, .tunnel _ _, since⟩ =>
      if n.awake && since + 50000 ≤ n.tick then
        (n.setPort c { n.port c with await := none }).send c tag [(.error 602, [.w (errText 602)])] true
      else n
    | _ => n

/-! ### Gates, trimmer, watches, re-initialisation -/

/-- An active LATCH ends (R273). -/
def Node.gateReset (n : Node) (p g : Nat) : Node :=
  let (c, _) := n.gateCfg p g
  if n.on (Fd.BUS_GATECFG_ACTIVE p g) && (Fd.BUS_GATECFG_LATCH p g).get c == 1 then (n.gateOff p g).hwGates p else n
def execDoBusGateReset (l : Line) (s : State) : Host.Outcome State Fault Refusal :=
  s.lift fun n => n.runWhole l .bus (fun _ => portOnly [gateKey] ["GATE"] l.keys)
    (fun n => .ok (n.gateReset (keyPort l.keys) ((keyNum [gateKey] l.keys "GATE").getD 0), []))
def execGateResetWrite (p g : Nat) (v : Word) (s : State) : Host.Outcome State Fault Refusal :=
  s.lift fun n => if n.awake && p < 2 && g < 4 && v.getLsbD 16 then n.gateReset p g else n

def Node.trimDrop (n : Node) (p k : Nat) : Node :=
  (n.wr (Ad.BUS_TRIM p k) 0#32).setBp p { n.bp p with trimAge := (n.bp p).trimAge.filter (· != k) }
def Node.trimFind (n : Node) (p st : Nat) : Option Nat :=
  (List.range 64).find? (fun k => n.on (Fd.BUS_TRIM_VALID p k) && n.fd (Fd.BUS_TRIM_STATION p k) == st)
def stationKey (k : String) : KeySpec := kk k (.int 0 255) (fun _ => 0)
def execDoBusTrimclr (l : Line) (s : State) : Host.Outcome State Fault Refusal :=
  s.lift fun n => n.runWhole l .bus (fun n => do
      portOnly [stationKey "STATION"] [] l.keys
      match keyNum [stationKey "STATION"] l.keys "STATION" with
      | some st => need (n.trimFind (keyPort l.keys) st).isSome 206
      | none => pure ())
    (fun n =>
      let p := keyPort l.keys
      match keyNum [stationKey "STATION"] l.keys "STATION" with
      | some st => .ok (match n.trimFind p st with
        | some k => n.trimDrop p k
        | none => n, [])
      | none => .ok ((List.range 64).foldl (fun n k => n.trimDrop p k) n, []))
def execSetBusTrimlock (l : Line) (s : State) : Host.Outcome State Fault Refusal :=
  s.lift fun n => n.runWhole l .bus (fun n => do
      portOnly [stationKey "TRIMLOCK"] ["TRIMLOCK"] l.keys
      need (n.trimFind (keyPort l.keys) ((keyNum [stationKey "TRIMLOCK"] l.keys "TRIMLOCK").getD 0)).isSome 206)
    (fun n =>
      let p := keyPort l.keys
      match n.trimFind p ((keyNum [stationKey "TRIMLOCK"] l.keys "TRIMLOCK").getD 0) with
      | some k => .ok (n.setOn (Fd.BUS_TRIM_LOCK p k) true, [])
      | none => refuse 206)

def execWatchBus (l : Line) (s : State) : Host.Outcome State Fault Refusal :=
  s.lift fun n => n.runWatch { l with keys := Keys.without l.keys ["PORT"] } .bus ""
    (do
      l.bare
      checkKeys [portKey, kk "OFF" (.int 1 1) (fun _ => 0)] ["PORT"] l.keys
      pure [some (keyPort l.keys)])

/-- What a port's re-initialisation reloads and clears (R279). -/
def Node.busReload (n : Node) (p : Nat) : Node :=
  let n' := n.reload busPortSpecs p
  let n' := n'.reloadRegs [Ad.BUS_WDATA p 0, Ad.BUS_WDATA p 1, Ad.BUS_WDMASK p 0, Ad.BUS_WDMASK p 1]
  let n' := (List.range 128).foldl (fun m k => m.reload (filterSpecs p) k) n'
  (List.range 4).foldl (fun m g => m.reload (gateSpecs p) g) n'
def Node.busReinit (n : Node) (p : Nat) (m : Moment) : Node :=
  let n := if n.on (Fd.BUS_STAT_FALLBACK p) then n.busWatch p "FALLBACK" "NO" else n
  let n := if n.fd (Fd.BUS_STAT_ERR p) = 0 then n else n.busWatch p "ERR" "ACTIVE"
  let n := n.busReload p
  let n := (List.range 4).foldl (fun n e => n.setEv p e (n.evWord p e / 65536 * 65536)) n
  let n := (List.range 4).foldl (fun n g => (n.setOn (Fd.BUS_GATECFG_ARMED p g) false).gateOff p g) n
  let n := (List.range 64).foldl (fun n k => n.setFd (Fd.BUS_MBCTL_STATUS p k) 0) n
  let n := n.setFds [(Fd.BUS_FIFO_COUNT p, 0), (Fd.BUS_FIFO_HEAD p, 0), (Fd.BUS_CARDONE_DONE p, 0), (Fd.BUS_STAT_FALLBACK p, 0),
    (Fd.BUS_STAT_ERR p, 0)]
  let n := (n.wr (Ad.BUS_ERRCNT p) 0#32).setBp p { n.bp p with cars := [], cmds := [], rx := none, sent := [], done := [], guard := 0 }
  let n := n.noteBlock
  let _ := m
  if n.on (Fd.BUS_CTRL_ENABLE p) then (n.busIdle p).enablePort p else n.busIdle p

/-- The unit of DO BUS REINIT at a stage S7: it asks the port to drain, and once the port is OFF it reloads and enables
it as one unit. Answers none while it waits. -/
def Node.busReinitUnit (n : Node) (p : Nat) : Node × Bool :=
  if n.busState p = 0 then (n.busReinit p 70000, true)
  else (n.drainPort p 70000, false)

def execDoBusReinit (l : Line) (s : State) : Host.Outcome State Fault Refusal :=
  s.lift fun n => n.runOpen l (fun n => do
    l.bare
    portOnly [] [] l.keys
    n.mayWrite l.port .bus none
    pure (n.startMr l verbDo .bus (.reinit .bus) [keyPort l.keys] false))

/-! ### Register writes with an effect -/

def execFifoPop (p : Nat) (v : Word) (s : State) : Host.Outcome State Fault Refusal :=
  s.lift fun n => if n.awake && p < 2 && v.getLsbD 0 then n.fifoPop p else n
/-- CARREL: a bit for a buffer that is free or reassembling is ignored (R266). -/
def execCaravanRelease (p : Nat) (v : Word) (s : State) : Host.Outcome State Fault Refusal :=
  s.lift fun n =>
    if n.awake && p < 2 then
      n.setFd (Fd.BUS_CARDONE_DONE p) ((n.rd (Ad.BUS_CARDONE p) &&& ~~~v).toNat % 256)
    else n
/-- EVREL: a CONFIRMED or RETRACTED buffer returns to IDLE (Table 9-8). -/
def Node.evRelease (n : Node) (p : Nat) (v : Word) : Node :=
  (List.range 4).foldl (fun n e =>
    if v.getLsbD e && 2 ≤ n.evState p e then n.setEv p e (n.evWord p e / 4 * 4) else n) n
def execEarlyViewRelease (p : Nat) (v : Word) (s : State) : Host.Outcome State Fault Refusal :=
  s.lift fun n => if n.awake && p < 2 then n.evRelease p v else n

/-- Would the settings now in the registers be refused as a SET (R276)? -/
def Node.busRegOk (old n : Node) (a : Nat) : Bool :=
  let port := fun (p : Nat) =>
    let cnt := (n.bp p).count
    if a = Ad.BUS_CTRL p then n.genMax p != 3
    else if a = Ad.BUS_BITNOM p then 120 ≤ n.fd (Fd.BUS_BITNOM_NSP p) && n.fd (Fd.BUS_BITNOM_NSP p) ≤ 180
    else if a = Ad.BUS_BITDATA p then
      100 ≤ n.fd (Fd.BUS_BITDATA_DSP p) && n.fd (Fd.BUS_BITDATA_DSP p) ≤ 170 && n.fd (Fd.BUS_BITDATA_CRATE p) ≤ 5 &&
      (n.fd (Fd.BUS_BITDATA_CRATE p) == old.fd (Fd.BUS_BITDATA_CRATE p) || cnt ≤ crateLimit (n.fd (Fd.BUS_BITDATA_CRATE p))) &&
      (n.fd (Fd.BUS_BITDATA_BRATE p) == old.fd (Fd.BUS_BITDATA_BRATE p) || cnt ≤ brateLimit (n.fd (Fd.BUS_BITDATA_BRATE p)))
    else if (Ad.BUS_MBCTL p 0 ≤ a && a < Ad.BUS_MBCTL p 16) || (Ad.BUS_MBID p 0 ≤ a && a < Ad.BUS_MBID p 16) then false
    else if (List.range 4).any (fun g => a == Ad.BUS_GATEW p g && n.fd (Fd.BUS_GATEW_WIDTH p g) == 0) then false
    else if Ad.BUS_SLEEP p ≤ a && a ≤ Ad.BUS_WDMASK p 1 then !n.surveyOn p
    else true
  if a = Ad.BUS_LINK then
    n.fd Fd.BUS_LINK_MODE != 3 && 1 ≤ n.fd Fd.BUS_LINK_DUPWIN && n.fd Fd.BUS_LINK_DUPWIN ≤ 50 &&
    (n.fd Fd.BUS_LINK_MODE == old.fd Fd.BUS_LINK_MODE || !n.srv.running)
  else if a = Ad.BUS_STATION then n.fd Fd.BUS_STATION_REQUEST ≤ 254 && !n.srv.running
  else if 0x40098000 ≤ a then port 1 else port 0

/-! ### Survey commands (R302, R303) -/

def surveyStartSpecs : List KeySpec := [portKey, kk "MODE" (.enum [("KEEP", 0), ("RENUMBER", 1)]) (fun _ => 0)]
def execDoSurveyStart (l : Line) (s : State) : Host.Outcome State Fault Refusal :=
  s.lift fun n => n.runWhole l .survey (fun n => do
      checkKeys surveyStartSpecs [] l.keys
      let p := if n.bus.linkF = 0 then keyPort l.keys else 0
      need (!n.surveyOn p) 306
      need (n.busState p == 1) 303
      need ((n.bp p).sleep == 0) 308
      need (!n.busOff p) 601)
    (fun n =>
      let p := if n.bus.linkF = 0 then keyPort l.keys else 0
      let n := { n with srv := { n.srv with wayNext := n.wayOn, used := [] } }
      .ok (n.svStart p ((keyNum surveyStartSpecs l.keys "MODE").getD 0 == 1), []))

def execDoSurveyAbort (l : Line) (s : State) : Host.Outcome State Fault Refusal :=
  s.lift fun n => n.runWhole l .survey (fun n => do
      onlyKeys [] [] l.keys
      need ([0, 1].any (fun p => (n.sv p).role == 1)) 308)
    (fun n => .ok ([0, 1].foldl (fun n p => if (n.sv p).role = 1 then (n.withdraw p).svEnd p 4 else n) n, []))

def execSetSurvey (l : Line) (s : State) : Host.Outcome State Fault Refusal :=
  s.lift fun n => n.runWhole l .survey (fun n => do
      checkKeys surveySpecs [] l.keys
      if hasKey l.keys "STATION" && n.srv.running then refuse 306)
    (fun n => .ok (n.setKeys surveySpecs 0 l.keys, []))

def execSetBusLink (l : Line) (s : State) : Host.Outcome State Fault Refusal :=
  s.lift fun n => n.runWhole l .bus (fun n => do
      checkKeys linkSpecs [] l.keys
      if hasKey l.keys "LINK" && n.srv.running then refuse 306)
    (fun n => .ok (Node.busChanged n (n.setKeys linkSpecs 0 l.keys) 70000, []))

def svStateName (k : Nat) : String :=
  match k with
  | 0 => "IDLE" | 1 => "MASTER" | 2 => "MEMBER" | _ => "LISTEN"
def execShowSurvey (l : Line) (s : State) : Host.Outcome State Fault Refusal :=
  s.lift fun n => n.runRead l (fun n => do
    l.bare
    onlyKeys [] [] l.keys
    pure [[.w "SURVEY STATE", .w (svStateName (n.fd Fd.BUS_SVSTAT_STATE)), .w "PORT", .w (busName (n.fd Fd.BUS_SVSTAT_PORT)),
        .w "RESULT", .w (resultName (n.fd Fd.BUS_SVSTAT_RESULT)), .w "ASSIGNED", .n (n.fd Fd.BUS_SVCNT_ASSIGNED),
        .w "VANISHED", .n (n.fd Fd.BUS_SVCNT_VANISHED), .w "JOINED", .n (n.fd Fd.BUS_SVCNT_JOINED),
        .w "DELAYS", .n (n.fd Fd.BUS_SVDLY_MEASURED), .w "OF", .n (n.fd Fd.BUS_SVDLY_EXPECTED)],
      [.w "SURVEY STATION", .n n.station, .w "REQUEST", .n (n.fd Fd.BUS_STATION_REQUEST)]])

def flagWord (k : Nat) : String := if k = 0 then "NONE" else if k = 1 then "REF" else if k = 2 then "WAY" else "REF+WAY"
def execShowSurveyMap (l : Line) (s : State) : Host.Outcome State Fault Refusal :=
  s.lift fun n => n.runRead l (fun n => do
    l.bare
    onlyKeys [] [] l.keys
    pure (n.srv.map.map (fun e => [.w "SURVEY MAP", .n e.station, .w "UID", .h e.uid 16, .w "SEGMENT", .w (busName e.seg),
      .w "FLAGS", .w (flagWord (e.flags % 4))])))

def execShowBusMark (l : Line) (s : State) : Host.Outcome State Fault Refusal :=
  s.lift fun n => n.runRead l (fun n => do
    l.bare
    portOnly [] [] l.keys
    let p := keyPort l.keys
    let st := n.fd (Fd.BUS_MARK_SENDER p)
    pure [[.w "BUS MARK", .w (busName p), .w "SENDER", .n st, .w "GRADE", .n (n.fd (Fd.BUS_MARK_GRADE p)), .w "DELAY",
      .d (((n.delayOf p st).getD 0 * 25 : Nat) : Int) 2, .w "SEQ", .n (n.fd (Fd.BUS_MARK_SEQ p)), .w "SENDING",
      .w (if n.on (Fd.BUS_MARK_SENDING p) then "YES" else "NO")]])

def execShowBusDelay (l : Line) (s : State) : Host.Outcome State Fault Refusal :=
  s.lift fun n => n.runRead l (fun n => do
    l.bare
    portOnly [] [] l.keys
    let p := keyPort l.keys
    pure (((List.range 4).filter (fun k => n.on (Fd.BUS_DLYSTA_VALID p k))).map (fun k =>
      [.w "BUS DELAY", .n (n.fd (Fd.BUS_DLYSTA_STATION p k)), .d ((n.fd (Fd.BUS_DLY_DELAY p k) * 25 : Nat) : Int) 2, .w "SPREAD",
       .d ((n.fd (Fd.BUS_DLY_SPREAD p k) * 25 : Nat) : Int) 2])))

def linkName (k : Nat) : String := if k = 0 then "SEPARATE" else if k = 1 then "PAIR" else "WAY"
def execGetBusLink (l : Line) (s : State) : Host.Outcome State Fault Refusal :=
  s.lift fun n => n.runRead l (fun n => do
    l.bare
    onlyKeys [] [] l.keys
    pure [[.w "BUS LINK", .w (linkName (n.fd Fd.BUS_LINK_MODE)), .w "TPORT", .w (busName (n.fd Fd.BUS_LINK_TPORT)), .w "DUP",
      .n (n.fd Fd.BUS_DUPCNT_DUP), .w "DROPAB", .n (n.fd Fd.BUS_WAYCNT_DROPAB), .w "DROPBA", .n (n.fd Fd.BUS_WAYCNT_DROPBA)]])

/-! ### Sleep (R300, R301) -/

/-- A request to sleep; the wake detector is armed from here. -/
def Node.sleepAsk (n : Node) (p cause : Nat) : Node :=
  let b := n.bp p
  if b.sleep = 0 then n.setBp p { b with sleep := 1, sleepCause := cause } else n
def execDoBusSleep (l : Line) (s : State) : Host.Outcome State Fault Refusal :=
  s.lift fun n => n.runWhole l .bus (fun n => do
      portOnly [] [] l.keys
      need (!n.surveyOn (keyPort l.keys)) 306)
    (fun n => .ok (if n.pairOn then (n.sleepAsk 0 0).sleepAsk 1 0 else n.sleepAsk (keyPort l.keys) 0, []))

/-- The transceiver reaches sleep. -/
def Node.sleepReach (n : Node) (p : Nat) (m : Moment) : Node :=
  let b := n.bp p
  let n := (n.setBp p { b with sleep := 2 }).setFd (Fd.BUS_SLEEP_PSTATE p) 1
  (n.busRec 0x07B [p, b.sleepCause] p m).pairSettle
def execPortSleep (p : Nat) (m : Moment) (s : State) : Host.Outcome State Fault Refusal :=
  s.lift fun n =>
    let b := n.bp p
    if n.sys.phase != .por && p < 2 && b.sleep == 1 && b.tx.isNone && b.rx.isNone then n.sleepReach p m else n

def execWakePattern (p : Nat) (s : State) : Host.Outcome State Fault Refusal :=
  s.lift fun n => if n.sys.phase != .por && p < 2 && !n.on (Fd.BUS_SLEEP_WMODE p) then n.wakeBoth p 0 else n

/-- The wake filter of FRAME mode: a Gen A frame whose identifier and data bytes match (R300). -/
def Node.wakeMatch (n : Node) (p : Nat) (f : Frame) : Bool :=
  let mk := n.fd (Fd.BUS_WMASK_MASK p)
  f.gen == 0 && Nat.land f.id mk == Nat.land (n.fd (Fd.BUS_WID_ID p)) mk &&
  (List.range 8).all (fun i =>
    let byte := fun (a : Nat → Nat) => (n.rd (a (i / 4))).toNat / 256 ^ (i % 4) % 256
    let mb := byte (Ad.BUS_WDMASK p)
    if i < f.data.length then Nat.land (f.data.getD i 0#8).toNat mb == Nat.land (byte (Ad.BUS_WDATA p)) mb else mb == 0)
def execWakeFrame (p : Nat) (f : Frame) (s : State) : Host.Outcome State Fault Refusal :=
  s.lift fun n => if n.sys.phase != .por && p < 2 && n.on (Fd.BUS_SLEEP_WMODE p) && n.wakeMatch p f then n.wakeBoth p 1 else n

/-- The port has integrated on the bus and is awake (R301). -/
def Node.wakeReach (n : Node) (p : Nat) (m : Moment) : Node :=
  let b := n.bp p
  let n := (n.setBp p { b with sleep := 0 }).setFd (Fd.BUS_SLEEP_PSTATE p) 0
  (n.busRing p 13).busRec 0x07C [p, b.wakeCause] p m
def execPortWake (p : Nat) (m : Moment) (s : State) : Host.Outcome State Fault Refusal :=
  s.lift fun n => if n.sys.phase != .por && p < 2 && (n.bp p).sleep == 3 then n.wakeReach p m else n

def execDoBusWake (l : Line) (s : State) : Host.Outcome State Fault Refusal :=
  s.lift fun n => n.runWhole l .bus (fun _ => portOnly [] [] l.keys)
    (fun n => .ok (n.wakeBoth (keyPort l.keys) 2, []))

/-- DO BUS WAKEUP: one WAKE frame, with the wake filter's data where one is set (Table 10-1). -/
def execDoBusWakeup (l : Line) (s : State) : Host.Outcome State Fault Refusal :=
  s.lift fun n => n.runWhole l .bus (fun n => do
      portOnly [stationKey "TO"] [] l.keys
      need (n.busState (keyPort l.keys) == 1) 303)
    (fun n =>
      let p := keyPort l.keys
      let dst := (keyNum [stationKey "TO"] l.keys "TO").getD 255
      let w := fun (a : Nat → Nat) => bytesLE 4 (n.rd (a 0)).toNat ++ bytesLE 4 (n.rd (a 1)).toNat
      let data := if (w (Ad.BUS_WDMASK p)).all (· == 0#8) then [] else w (Ad.BUS_WDATA p)
      let o : OutMsg := ⟨ident 0 0x310 n.station dst, data, true, none⟩
      .ok (if n.pairOn then n.sendBoth o else n.queueMsg p o, []))

/-! ### Frames and events of the survey and of the marks, each by its own row -/

/-- A confirmed protocol frame of a given type range. -/
def Node.protoRow (n : Node) (p : Nat) (f : Frame) (sofQ lo hi : Nat) (m : Moment) : Node :=
  if n.mayHear p && f.ext && idClass f.id == 0 && lo ≤ idType f.id && idType f.id ≤ hi then
    n.protoFrame p f ((n.now m - sofQ) / 2 * 2) m
  else n

def execBegin (p : Nat) (f : Frame) (sofQ : Nat) (m : Moment) (s : State) : Host.Outcome State Fault Refusal :=
  s.lift fun n => n.protoRow p f sofQ 0x300 0x300 m
def execQuery (p : Nat) (f : Frame) (sofQ : Nat) (m : Moment) (s : State) : Host.Outcome State Fault Refusal :=
  s.lift fun n => n.protoRow p f sofQ 0x301 0x301 m
def execBid (p : Nat) (f : Frame) (sofQ : Nat) (m : Moment) (s : State) : Host.Outcome State Fault Refusal :=
  s.lift fun n => n.protoRow p f sofQ 0x380 0x3FF m
def execAssign (p : Nat) (f : Frame) (sofQ : Nat) (m : Moment) (s : State) : Host.Outcome State Fault Refusal :=
  s.lift fun n => n.protoRow p f sofQ 0x302 0x302 m
def execAssigned (p : Nat) (f : Frame) (sofQ : Nat) (m : Moment) (s : State) : Host.Outcome State Fault Refusal :=
  s.lift fun n => n.protoRow p f sofQ 0x303 0x303 m
def execPing (p : Nat) (f : Frame) (sofQ : Nat) (m : Moment) (s : State) : Host.Outcome State Fault Refusal :=
  s.lift fun n => n.protoRow p f sofQ 0x304 0x304 m
def execPong (p : Nat) (f : Frame) (sofQ : Nat) (m : Moment) (s : State) : Host.Outcome State Fault Refusal :=
  s.lift fun n => n.protoRow p f sofQ 0x305 0x305 m
def execPongFollowUp (p : Nat) (f : Frame) (sofQ : Nat) (m : Moment) (s : State) : Host.Outcome State Fault Refusal :=
  s.lift fun n => n.protoRow p f sofQ 0x306 0x306 m
def execDelay (p : Nat) (f : Frame) (sofQ : Nat) (m : Moment) (s : State) : Host.Outcome State Fault Refusal :=
  s.lift fun n => n.protoRow p f sofQ 0x307 0x307 m
def execSurveyEnd (p : Nat) (f : Frame) (sofQ : Nat) (m : Moment) (s : State) : Host.Outcome State Fault Refusal :=
  s.lift fun n => n.protoRow p f sofQ 0x30F 0x30F m
def execAnnounce (p : Nat) (f : Frame) (sofQ : Nat) (m : Moment) (s : State) : Host.Outcome State Fault Refusal :=
  s.lift fun n => n.protoRow p f sofQ 0x308 0x308 m
def execMajorMark (p : Nat) (f : Frame) (sofQ : Nat) (m : Moment) (s : State) : Host.Outcome State Fault Refusal :=
  s.lift fun n => n.protoRow p f sofQ 0 0 m
def execMinorMark (p : Nat) (f : Frame) (sofQ : Nat) (m : Moment) (s : State) : Host.Outcome State Fault Refusal :=
  s.lift fun n => n.protoRow p f sofQ 1 1 m
def execMarkFollowUp (p : Nat) (f : Frame) (sofQ : Nat) (m : Moment) (s : State) : Host.Outcome State Fault Refusal :=
  s.lift fun n => n.protoRow p f sofQ 2 2 m

def execBidWindowExpiry (p : Nat) (m : Moment) (s : State) : Host.Outcome State Fault Refusal :=
  s.lift fun n => if n.working && p < 2 && (n.bp p).tx.isNone && (n.bp p).rx.isNone then n.windowOver (n.home p) m else n

/-- 5 s with no survey frame (R283): a member ends the survey, and a master whose END could not be sent in that time, as
ABORTED; a master that waits for other stations' measurements sends END (log entry 37). -/
def execSurveyMemberTimeout (p : Nat) (m : Moment) (s : State) : Host.Outcome State Fault Refusal :=
  s.lift fun n =>
    let v := n.sv p
    if !n.awake || 2 ≤ p || v.role = 0 || n.tick < v.lastAt + 250000 then n
    else if v.role = 2 || v.step = .last then n.svAbort p m
    else (n.setSv p { v with short := true, lastAt := n.tick }).svEnd p (SvPort.result { v with short := true })

/-- LISTEN ends after 300 ms without a survey frame, or after 5 s when one was heard (R290). -/
def execListenEnd (p : Nat) (s : State) : Host.Outcome State Fault Refusal :=
  s.lift fun n =>
    let b := n.bp p
    if n.working && p < 2 && ((b.listen == 1 && b.listenAt + 15000 ≤ n.tick) || (b.listen == 2 && b.listenAt + 250000 ≤ n.tick)) then
      n.listenOff p
    else n

def execMarkRequest (p : Nat) (m : Moment) (s : State) : Host.Outcome State Fault Refusal :=
  s.lift fun n => if n.working && p < 2 then n.markRequest p m else n
def execMarkAbandon (p : Nat) (m : Moment) (s : State) : Host.Outcome State Fault Refusal :=
  s.lift fun n => if n.awake && p < 2 then n.markAbandon p m else n
def execFollowUpTimeout (p : Nat) (m : Moment) (s : State) : Host.Outcome State Fault Refusal :=
  s.lift fun n => if n.awake && p < 2 then n.followUpsLate p m else n

/-- TPORT accepts no mark for 30 ms: marks are taken from the other port (R297). -/
def execTportFallback (m : Moment) (s : State) : Host.Outcome State Fault Refusal :=
  s.lift fun n =>
    let t := n.fd Fd.BUS_LINK_TPORT
    if n.awake && n.pairOn && n.bus.tport == t && (n.bp t).markOk + 120000000 ≤ n.now m then
      { n with bus := { n.bus with tport := 1 - t } }
    else n

/-- One port of a pair confirms no frame for 1 s while the other does (R297). -/
def execPairPortSilent (p : Nat) (m : Moment) (s : State) : Host.Outcome State Fault Refusal :=
  s.lift fun n =>
    let b := n.bp p
    if n.awake && p < 2 && n.pairOn && !b.silent && b.seen + 50000 ≤ n.tick && n.tick < (n.bp (1 - p)).seen + 50000 then
      ((n.setBp p { b with silent := true }).busRec 0x07D [p, 1] p m).busRing p 15
    else n

/-! ### Start, load, sleep and loss of power -/

/-- The settings of Allieno that DO SYS COMMIT keeps, beside those with a key. -/
def busStoredRegs : List Nat :=
  [0, 1].flatMap (fun p => [Ad.BUS_CTRL p, Ad.BUS_BITNOM p, Ad.BUS_BITDATA p, Ad.BUS_SLEEP p, Ad.BUS_WID p, Ad.BUS_WMASK p,
    Ad.BUS_WDATA p 0, Ad.BUS_WDATA p 1, Ad.BUS_WDMASK p 0, Ad.BUS_WDMASK p 1] ++
    (List.range 128).flatMap (fun k => [Ad.BUS_FILT p k, Ad.BUS_FMASK p k]) ++
    (List.range 4).flatMap (fun g => [Ad.BUS_GATECFG p g, Ad.BUS_GATEW p g])) ++ [Ad.BUS_LINK, Ad.BUS_STATION]

/-- When the configuration has loaded: stations and delays stand, LINK is in force, and enabled ports listen. -/
def Node.busLoad (n : Node) : Node :=
  let n := n.loadStations.noteBlock
  let n := { n with bus := { n.bus with linkF := n.fd Fd.BUS_LINK_MODE, tport := n.fd Fd.BUS_LINK_TPORT } }
  let vals := ((List.range 256).filter (fun v => n.k (Kid.valSrc v) != 0#32)).map (fun v => (v, (⟨n.tick, 4⟩ : ValPub)))
  let n := { n with bus := { n.bus with vals := vals } }
  [0, 1].foldl (fun n p =>
    let n := n.busIdle p
    if n.on (Fd.BUS_CTRL_ENABLE p) then n.enablePort p else n.setFd (Fd.BUS_STAT_STATE p) 0) n

end Sys2Proof.Machine
end

