-- ==== Sys2Proof/Machine/Dic.lean ====
section
/-! DEFINITION. The doorbell interrupt controller: delivery, priority, acceptance, completion, the host target,
moderation, and the DIC commands and registers (chapter 14). -/
namespace Sys2Proof.Machine

/-! ### Delivery and priority (R378, R379) -/

def Node.pend (n : Node) (s : Nat) : Bool := n.bit (Ad.DIC_PEND (s / 32)) (s % 32)
def Node.ena (n : Node) (s : Nat) : Bool := n.bit (Ad.DIC_ENA (s / 32)) (s % 32)
def Node.act (n : Node) (s : Nat) : Bool := n.bit (Ad.DIC_ACT (s / 32)) (s % 32)
/-- 0 ANNEX, 1 HOST. -/
def Node.target (n : Node) (s : Nat) : Nat := n.fd (Fd.DIC_SRC_TARGET s)

/-- Sources that are pending, enabled and not active, in ascending order. -/
def Node.ready (n : Node) : List Nat :=
  (List.range 8).flatMap (fun j =>
    let w := n.rd (Ad.DIC_PEND j) &&& n.rd (Ad.DIC_ENA j) &&& ~~~(n.rd (Ad.DIC_ACT j))
    if w = 0#32 then [] else ((List.range 32).filter (fun b => w.getLsbD b)).map (fun b => 32 * j + b))

/-- The source's moderation group is holding (R388). -/
def Node.holding (n : Node) (s : Nat) : Bool :=
  n.on (Fd.DIC_SRC_MODEN s) && Bank.get 0 n.dic.hold (n.fd (Fd.DIC_SRC_MODSEL s)) != 0

/-- Deliverable at a target (R378). A hold is ignored at the ANNEX target while the core is in WFI (R388). -/
def Node.deliverable (n : Node) (tgt : Nat) : List Nat :=
  if (if tgt = 0 then n.on Fd.DIC_GDIS_ANNEX else n.on Fd.DIC_GDIS_HOST) then []
  else n.ready.filter (fun s => n.target s == tgt && (!n.holding s || (tgt == 0 && n.annex.wfi)) &&
    (tgt == 1 || n.rd (Ad.DIC_VECT s) != 0#32))

/-- The number of set bits of `w` at positions 0 to `k - 1`. -/
def bitCount (w : Nat) : Nat → Nat
  | 0 => 0
  | k + 1 => (if w.testBit k then 1 else 0) + bitCount w k

/-- The band map as one number: bit v is set where a band starts at priority v; bit 0 always is (R379). -/
def Node.bandMap (n : Node) : Nat :=
  ((List.range 8).foldr (fun j a => (n.rd (Ad.DIC_BAND j)).toNat + 2 ^ 32 * a) 0) ||| 1
/-- The band of priority `p`: the set bits at values 1 to p. -/
def bandOf (map p : Nat) : Nat := bitCount (map / 2) p
def Node.prio (n : Node) (s : Nat) : Nat := n.fd (Fd.DIC_SRC_PRIO s)

/-- The winner: lowest band, then lowest PRIO, then lowest number (R379). -/
def Node.winner (n : Node) (l : List Nat) : Option Nat :=
  let map := n.bandMap
  l.foldl (fun (b : Option Nat) s =>
    match b with
    | none => some s
    | some x =>
      let bs := bandOf map (n.prio s)
      let bx := bandOf map (n.prio x)
      if bs < bx ∨ (bs = bx ∧ n.prio s < n.prio x) then some s else some x) none

/-- The running band: the band of the innermost entry's stored priority, under the map in force. -/
def Node.runningBand (n : Node) : Option Nat := n.dic.stack.head?.map (fun e => bandOf n.bandMap e.prio)

/-- Accepting or taking a source starts the hold of its group (R388). -/
def Node.startHold (n : Node) (s : Nat) (m : Moment) : Node :=
  let g := n.fd (Fd.DIC_SRC_MODSEL s)
  let us := n.fd (Fd.DIC_MODT_MODT g)
  if n.on (Fd.DIC_SRC_MODEN s) && us != 0 then
    { n with dic := { n.dic with hold := Bank.set 0 n.dic.hold g (n.mono m + us * 4000) } }
  else n

/-- The source R380 accepts now, if any. -/
def Node.acceptable (n : Node) : Option Nat :=
  if n.fd Fd.SYS_ASTAT_STATE ≠ 2 ∨ n.annex.startAt ∨ n.on Fd.SYS_ASTAT_TRAP ∨ 16 ≤ n.dic.stack.length then none
  else match n.winner (n.deliverable 0) with
    | none => none
    | some s => match n.runningBand with
      | none => some s
      | some r => if bandOf n.bandMap (n.prio s) < r then some s else none

/-- Acceptance (R380): the pending bit clears, the active bit sets, the return address is pushed, and VECTn goes to the
fetch unit. -/
def Node.accept (n : Node) (s : Nat) (ret : Nat) (m : Moment) : Node :=
  let n := (n.clrBit (Ad.DIC_PEND (s / 32)) (s % 32)).setBit (Ad.DIC_ACT (s / 32)) (s % 32)
  let n := n.startHold s m
  let e : DicEntry := ⟨ret, s, n.prio s, false⟩
  { n with dic := { n.dic with stack := e :: n.dic.stack }
           annex := { n.annex with pc := n.rd (Ad.DIC_VECT s), wfi := false } }

/-- A WFI ends although nothing is accepted: an ANNEX source would be accepted but for GDIS or a hold (R389). -/
def Node.wfiEnds (n : Node) : Bool :=
  let l := n.ready.filter (fun s => n.target s == 0 && n.rd (Ad.DIC_VECT s) != 0#32)
  !n.on Fd.SYS_ASTAT_TRAP && n.dic.stack.length < 16 && match n.winner l with
  | none => false
  | some s => match n.runningBand with
    | none => true
    | some r => bandOf n.bandMap (n.prio s) < r

/-! ### Pin events, which the DIC's completions repeat (R312, R326) -/

def inFd (i : Nat) : Fd := if i < 32 then ⟨Ad.GP_GPIN0, i, i⟩ else ⟨Ad.GP_GPIN1, i - 32, i - 32⟩
def Node.pinEvent (n : Node) (i : Nat) : Node :=
  (if i < 32 then n.setBit Ad.GP_GPISTAT0 i else n.setBit Ad.GP_GPISTAT1 (i - 32)).ring (144 + i)
/-- Pins raise events; in DORMANT only those whose sources the watch unit monitors (R326). -/
def Node.pinLive (n : Node) (i : Nat) : Bool := n.padOn i && (n.sys.power != .dormant || n.watched (144 + i))
/-- The level condition of the pin holds. -/
def Node.pinHolds (n : Node) (i : Nat) : Bool :=
  match n.fd (Fd.GP_FN_IRQ i) with
  | 4 => n.on (inFd i)
  | 5 => !n.on (inFd i)
  | _ => false
/-- After a completion of a source: a level condition that still holds sets the bit and rings again (R312). -/
def Node.pinAgain (n : Node) (src : Nat) : Node :=
  if 144 ≤ src && src < 192 && n.pinLive (src - 144) && n.pinHolds (src - 144) then n.pinEvent (src - 144) else n

/-! ### Completion and the host target (R383, R385, R386) -/

/-- A stray completion is counted and recorded; `req` is 0 for the Annex core, 1 for a command. -/
def Node.stray (n : Node) (s req : Nat) (m : Moment) : Node :=
  let n := { n with dic := { n.dic with strayed := true } }
  let n := (n.bump Fd.DIC_STRAYCNT_COUNT 1).setFds [(Fd.DIC_STRAYSRC_REQ, req), (Fd.DIC_STRAYSRC_SRC, s), (Fd.DIC_EVT_STRAY, 1)]
  let payload := [BitVec.ofNat 8 s, BitVec.ofNat 8 req]
  if req = 1 then n.raiseCmd 0x0B4 payload else n.raiseM 0x0B4 payload m 14

/-- A completion at the ANNEX target: a write of the source number to DIC.COMPLETE (R383); ignored and not counted for
a source whose entry carries the stop mark (R385). -/
def Node.complete (n : Node) (rq : Rq) (s : Nat) (m : Moment) : Node :=
  if n.dic.stack.any (fun e => e.src == s && e.stop) then n
  else if n.act s && !n.dic.actHost.contains s then (n.clrBit (Ad.DIC_ACT (s / 32)) (s % 32)).pinAgain s
  else n.stray s (match rq with | .annex => 0 | .cmd => 1) m

/-- The Annex core stops (R385): active ANNEX sources end without a completion, every entry gets the stop mark. -/
def Node.dicStop (n : Node) : Node :=
  let live := (List.range 8).flatMap (fun j =>
    let w := n.rd (Ad.DIC_ACT j)
    if w = 0#32 then [] else ((List.range 32).filter (fun b => w.getLsbD b)).map (fun b => 32 * j + b))
  let n := live.foldl (fun n s => if n.dic.actHost.contains s then n else n.clrBit (Ad.DIC_ACT (s / 32)) (s % 32)) n
  { n with dic := { n.dic with stack := n.dic.stack.map (fun e => { e with stop := true }) } }

/-- HOSTIRQ_N is driven low (R386, R396). -/
def Node.hostIrq (n : Node) : Bool :=
  match n.sys.power with
  | .dormant | .off => false
  | _ => n.sys.phase != .por && !(n.deliverable 1).isEmpty

/-- !IRQ once for each HOST source that has become deliverable (R386), at a stage S7. -/
def Node.irqNotices (n : Node) : Node :=
  let ds := n.deliverable 1
  let new := ds.filter (fun s => !n.cmd.irqTold.contains s)
  let n := new.foldl (fun n s => n.notify .irq [.w "IRQ", .n s]) n
  { n with cmd := { n.cmd with irqTold := ds } }

/-- Table 14-7: DIC.STAT as it reads. -/
def Node.dicStat (n : Node) : Word :=
  let (p, i) := match n.dic.stack with
    | e :: _ => (e.prio, e.src)
    | [] => (0, 0)
  BitVec.ofNat 32 ((if n.annex.wfi && !n.wfiEnds then 2 ^ 31 else 0) + n.dic.stack.length * 2 ^ 24 + p * 65536 + i)

/-! ### Keys (Table 14-6) -/

/-- The watchable sources (R392). -/
def watchable (s : Nat) : Bool := s == 0 || s == 125 || s == 141 || (144 ≤ s && s ≤ 191)

def dicSrcSpecs : List KeySpec := [
  ks "PRIO" (.int 0 255) Fd.DIC_SRC_PRIO,
  ks "TARGET" (.enum [("ANNEX", 0), ("HOST", 1)]) Fd.DIC_SRC_TARGET,
  ks "MOD" (.ext [("NONE", 8)] 0 7) (fun i => ⟨Ad.DIC_SRC i, 14, 11⟩),
  ks "ENA" onOff (fun i => ⟨Ad.DIC_ENA (i / 32), i % 32, i % 32⟩),
  ksv "VECT" (.big 0 0x100FFFFF) Fd.DIC_VECT_VECT]

def dicSpecs : List KeySpec := [
  ks "EDGES" (.nats ["ALL", "NONE"] 1 255) (fun _ => Fd.DIC_BAND_EDGE 0),
  ks "EDGESTEP" (.int 1 255) (fun _ => Fd.DIC_BAND_EDGE 0),
  ksv "GDIS" (.flags [("ANNEX", 0), ("HOST", 1)] 3) (fun _ => ⟨Ad.DIC_GDIS, 1, 0⟩)] ++
  (List.range 8).map (fun m => ks ("MODT" ++ toString m) (.int 0 1023) (fun _ => Fd.DIC_MODT_MODT m)) ++
  (List.range 16).map (fun k => ks ("WATCH" ++ toString k) (.ext [("NONE", 0)] 0 255) (fun _ => ⟨Ad.DIC_WATCH k, 8, 0⟩))

/-- The stored form of MOD: MODSEL in bits [3:1] of the field, MODEN in bit 0. -/
def modCode (v : Nat) : Nat := if v = 8 then 0 else v * 2 + 1

/-- One unit of SET DIC <n>. An odd VECT or one outside the TCM is refused with `?E201` (R393). -/
def dicSrcCheck (keys : Keys) : Except Err Unit := do
  checkKeys dicSrcSpecs [] keys
  match keyNum dicSrcSpecs keys "VECT" with
  | some v => if v != 0 && (v % 2 == 1 || v < 0x10000000) then refuse 201
  | none => pure ()

def setDicUnit (keys : Keys) (i : Nat) (n : Node) : Except Err (Node × List (List Item)) := do
  dicSrcCheck keys
  let rest := keys.filter (fun p => p.1 != "MOD")
  let n := n.setKeys dicSrcSpecs i rest
  pure (match keyNum dicSrcSpecs keys "MOD" with
    | some v => (n.setFd ⟨Ad.DIC_SRC i, 14, 11⟩ (modCode v)).dirty
    | none => n, [])

/-- The band map whose bands start at the values a test picks; bit 0 always reads 1. -/
def mapOf (starts : Nat → Bool) (j : Nat) : Nat :=
  (List.range 32).foldl (fun a b => if starts (32 * j + b) || 32 * j + b == 0 then a + 2 ^ b else a) 0
def Node.setMap (n : Node) (starts : Nat → Bool) : Node :=
  (List.range 8).foldl (fun n j => n.setFd (Fd.DIC_BAND_EDGE j) (mapOf starts j)) n

/-- Numbers of a list joined by +. -/
def natsOf : Val → List Nat
  | .int v => [v.toNat]
  | .words ws => ws.map (fun w => w.toNat?.getD 0)
  | _ => []

/-- The common keys: EDGES or EDGESTEP replace the whole map; a WATCHk of a source is enabled, of NONE is not. -/
def Node.setDic (n : Node) (keys : Keys) : Node :=
  let n := n.setKeys dicSpecs 0 (keys.filter (fun p => p.1 == "GDIS" || (List.range 8).any (fun m => p.1 == "MODT" ++ toString m)))
  let n := match keyVal keys "EDGES" with
    | some (.words ["ALL"]) => (n.setMap (fun _ => true)).dirty
    | some (.words ["NONE"]) => (n.setMap (fun _ => false)).dirty
    | some v => let l := natsOf v
                (n.setMap (fun x => l.contains x)).dirty
    | none => n
  let n := match keyNum dicSpecs keys "EDGESTEP" with
    | some st => (n.setMap (fun x => x % st == 0)).dirty
    | none => n
  (List.range 16).foldl (fun n k =>
    match keyVal keys ("WATCH" ++ toString k) with
    | some (.words _) => (n.setFds [(Fd.DIC_WATCH_EN k, 0), (Fd.DIC_WATCH_SRC k, 0)]).dirty
    | some (.int s) => (n.setFds [(Fd.DIC_WATCH_EN k, 1), (Fd.DIC_WATCH_SRC k, s.toNat)]).dirty
    | _ => n) n

def dicCheck (keys : Keys) : Except Err Unit := do
  checkKeys dicSpecs [] keys
  if hasKey keys "EDGES" && hasKey keys "EDGESTEP" then refuse 205
  if (List.range 16).any (fun k => match keyVal keys ("WATCH" ++ toString k) with
      | some (.int s) => !watchable s.toNat
      | _ => false) then refuse 205

/-! ### Commands and events -/

def execDoorbellWrite (_rq : Rq) (v : Word) (s : State) : Host.Outcome State Fault Refusal :=
  s.lift fun n => if n.awake then n.ring (Fd.DIC_DOORBELL_SRC.get v) else n

/-- One unit of DO DIC RING, CLEAR or DONE. -/
def dicActUnit (action : String) (i : Nat) (n : Node) : Except Err (Node × List (List Item)) :=
  match action with
  | "RING" => .ok (n.ring i, [])
  | "CLEAR" => .ok (n.clrBit (Ad.DIC_PEND (i / 32)) (i % 32), [])
  | _ =>
    if n.act i && n.dic.actHost.contains i then
      .ok (({ n.clrBit (Ad.DIC_ACT (i / 32)) (i % 32) with
             dic := { n.dic with actHost := n.dic.actHost.filter (· != i) } }).pinAgain i, [])
    else refuse 308

def execDoDicRing (l : Line) (s : State) : Host.Outcome State Fault Refusal :=
  s.lift fun n => n.runMulti l verbDo .dic 256 (.act .dic "RING" []) (fun _ _ => onlyKeys [] [] l.keys) (dicActUnit "RING")
def execDoDicClear (l : Line) (s : State) : Host.Outcome State Fault Refusal :=
  s.lift fun n => n.runMulti l verbDo .dic 256 (.act .dic "CLEAR" []) (fun _ _ => onlyKeys [] [] l.keys) (dicActUnit "CLEAR")

/-- DO DIC <n> DONE (R383): a source not active at HOST is a stray, and the line is refused. -/
def execDoDicDone (l : Line) (s : State) : Host.Outcome State Fault Refusal :=
  s.lift fun n =>
    let n' := n.runMulti l verbDo .dic 256 (.act .dic "DONE" []) (fun _ _ => onlyKeys [] [] l.keys) (dicActUnit "DONE")
    match l.items 256, onlyKeys [] [] l.keys, n.takeLine l |>.mayWrite l.port .dic l.idx with
    | .ok [i], .ok _, .ok _ =>
      if n.portReady l.port && n.sys.phase == .loaded && !(n.act i && n.dic.actHost.contains i) then n'.stray i 1 0 else n'
    | _, _, _ => n'

def execInterruptAcceptance (m : Moment) (s : State) : Host.Outcome State Fault Refusal :=
  s.lift fun n =>
    if !n.awake then n
    else match n.acceptable with
      | some k => n.accept k n.annex.pc.toNat m
      | none => n

def execCompleteWrite (rq : Rq) (v : Word) (m : Moment) (s : State) : Host.Outcome State Fault Refusal :=
  s.lift fun n => if n.awake then n.complete rq (Fd.DIC_COMPLETE_SRC.get v) m else n

/-- DO DIC TAKE (R386). -/
def execDoDicTake (l : Line) (s : State) : Host.Outcome State Fault Refusal :=
  s.lift fun n => n.runWhole l .dic (fun _ => onlyKeys [] [] l.keys) (fun n =>
    match n.winner (n.deliverable 1) with
    | none => .ok (n, [[.w "DIC TAKE NONE"]])
    | some k =>
      let p := n.prio k
      let n := (n.clrBit (Ad.DIC_PEND (k / 32)) (k % 32)).setBit (Ad.DIC_ACT (k / 32)) (k % 32)
      let n := { n with dic := { n.dic with actHost := k :: n.dic.actHost }
                        cmd := { n.cmd with irqTold := n.cmd.irqTold.filter (· != k) } }
      .ok (n.startHold k 70000, [[.w "DIC TAKE", .n k, .w "PRIO", .n p]]))

def execModerationHoldEnd (g : Nat) (m : Moment) (s : State) : Host.Outcome State Fault Refusal :=
  s.lift fun n =>
    let e := Bank.get 0 n.dic.hold g
    if n.awake && e != 0 && e ≤ n.mono m then { n with dic := { n.dic with hold := Bank.set 0 n.dic.hold g 0 } } else n

def execGdisWrite (_rq : Rq) (v : Word) (s : State) : Host.Outcome State Fault Refusal :=
  s.lift fun n => if n.awake then
    n.setFds [(Fd.DIC_GDIS_HOST, Fd.DIC_GDIS_HOST.get v), (Fd.DIC_GDIS_ANNEX, Fd.DIC_GDIS_ANNEX.get v)] else n

def execStrayclrWrite (_rq : Rq) (v : Word) (s : State) : Host.Outcome State Fault Refusal :=
  s.lift fun n => if n.awake && Fd.DIC_CTRL_STRAYCLR.get v == 1 then n.setFd Fd.DIC_STRAYCNT_COUNT 0 else n

/-- SET DIC, with an index for the per-source keys, without for the common keys (R393). -/
def execSetDic (l : Line) (s : State) : Host.Outcome State Fault Refusal :=
  s.lift fun n =>
    match l.idx with
    | some _ => n.runMulti l verbSet .dic 256 (.set .dic l.keys) (fun _ _ => dicSrcCheck l.keys) (setDicUnit l.keys)
    | none => n.runWhole l .dic (fun _ => dicCheck l.keys) (fun n => .ok (n.setDic l.keys, []))

def targetName (t : Nat) : String := if t = 0 then "ANNEX" else "HOST"
def Node.modItem (n : Node) (i : Nat) : Item :=
  if n.on (Fd.DIC_SRC_MODEN i) then .n (n.fd (Fd.DIC_SRC_MODSEL i)) else .w "NONE"

/-- The names of the set GDIS bits. -/
def gdisItem (v : Nat) : Item := .w (match v with | 0 => "NONE" | 1 => "ANNEX" | 2 => "HOST" | _ => "ANNEX+HOST")

/-- GET DIC, with or without an index (R394). -/
def execGetDic (l : Line) (s : State) : Host.Outcome State Fault Refusal :=
  s.lift fun n => n.runRead l (fun n => do
    match l.idx with
    | some _ =>
      let is ← l.items 256
      onlyKeys [] [] l.keys
      pure (is.map (fun i => [.w "DIC", .n i, .w "PEND", .n (if n.pend i then 1 else 0), .w "ENA",
        .n (if n.ena i then 1 else 0), .w "ACTIVE", .n (if n.act i then 1 else 0), .w "PRIO", .h (n.prio i) 2, .w "TARGET",
        .w (targetName (n.target i)), .w "MOD", n.modItem i, .w "VECT", .h (n.rd (Ad.DIC_VECT i)).toNat 8]))
    | none =>
      onlyKeys [] [] l.keys
      pure [[.w "DIC BANDS", .n (bitCount n.bandMap 256), .w "GDIS", gdisItem ((⟨Ad.DIC_GDIS, 1, 0⟩ : Fd).get (n.rd Ad.DIC_GDIS)),
        .w "DEPTH", .n n.dic.stack.length, .w "INNER",
        (match n.dic.stack with
         | e :: _ => .n e.src
         | [] => .w "NONE"),
        .w "WFI", .n (if n.annex.wfi then 1 else 0), .w "STRAY", .n (n.fd Fd.DIC_STRAYCNT_COUNT), .w "LASTSTRAY"] ++
        (if n.dic.strayed then [.n (n.fd Fd.DIC_STRAYSRC_SRC), .w (if n.on Fd.DIC_STRAYSRC_REQ then "COMMAND" else "ANNEX")]
         else [.w "NONE"])])

/-- SHOW DIC: the common keys, or the per-source keys (R394). -/
def execShowDic (l : Line) (s : State) : Host.Outcome State Fault Refusal :=
  s.lift fun n => n.runRead l (fun n => do
    match l.idx with
    | some _ =>
      let is ← l.items 256
      onlyKeys [] [] l.keys
      pure (is.map (fun i => [.w "DIC", .n i, .w "PRIO", .n (n.prio i), .w "TARGET", .w (targetName (n.target i)), .w "MOD",
        n.modItem i, .w "ENA", .w (if n.ena i then "ON" else "OFF"), .w "VECT", .h (n.rd (Ad.DIC_VECT i)).toNat 8]))
    | none =>
      onlyKeys [] [] l.keys
      let map := n.bandMap
      let es := (List.range 256).filter (fun v => v != 0 && map.testBit v)
      pure [[.w "DIC EDGES"] ++ [if es.length = 255 then .w "ALL" else listItem (es.map toString)] ++
        (List.range 8).flatMap (fun k => [.w ("MODT" ++ toString k), .n (n.fd (Fd.DIC_MODT_MODT k))]) ++
        [.w "GDIS", gdisItem ((⟨Ad.DIC_GDIS, 1, 0⟩ : Fd).get (n.rd Ad.DIC_GDIS))] ++
        (List.range 16).flatMap (fun k => [.w ("WATCH" ++ toString k),
          if n.on (Fd.DIC_WATCH_EN k) then .n (n.fd (Fd.DIC_WATCH_SRC k)) else .w "NONE"])])

def execClearDic (l : Line) (s : State) : Host.Outcome State Fault Refusal :=
  s.lift fun n => n.runWhole l .dic (fun _ => onlyKeys [] [] l.keys) (fun n => .ok (n.setFd Fd.DIC_STRAYCNT_COUNT 0, []))

/-- The reload of DO DIC REINIT (R398). -/
def Node.dicReinit (n : Node) : Node :=
  n.reloadRegs ((List.range 256).map Ad.DIC_SRC ++ (List.range 8).map Ad.DIC_ENA ++ (List.range 8).map Ad.DIC_BAND ++
    (List.range 8).map Ad.DIC_MODT ++ (List.range 16).map Ad.DIC_WATCH)

def execDoDicReinit (l : Line) (s : State) : Host.Outcome State Fault Refusal :=
  s.lift fun n => n.runOpen l (fun n => do
    l.bare
    onlyKeys [] [] l.keys
    n.mayWrite l.port .dic none
    pure (n.startMr l verbDo .dic (.reinit .dic) [0] false))

end Sys2Proof.Machine
end

