-- ==== Sys2Proof/Machine/Gp.lean ====
section
/-! DEFINITION. Pins: functions, inputs and their events, outputs, the lock sequence, the GP commands (chapter 11). -/
namespace Sys2Proof.Machine

def helpPin : Nat := 7
def fnNames : List (String × Nat) :=
  [("GPIO", 0), ("CALL", 1), ("GATEA", 2), ("GATEB", 3), ("SECPULSE", 4), ("BEATMARK", 5), ("LIFE", 6), ("NONE", 7)]
def altNames : List (String × Nat) :=
  [("NONE", 0), ("CALL", 1), ("GATEA", 2), ("GATEB", 3), ("SECPULSE", 4), ("BEATMARK", 5), ("LIFE", 6)]
def pinModes : List (String × Nat) := [("INPUT", 0), ("PUSHPULL", 1), ("OPENDRAIN", 2)]
def className (c : Nat) : String := match c with | 0 => "ABSENT" | 1 => "1V8" | _ => "3V3"

/-- GP keys (Table 11-4). -/
def gpSpecs : List KeySpec := [
  ks "FN" (.enum fnNames) Fd.GP_FN_FSEL,
  ks "ALT" (.enum altNames) Fd.GP_FN_ALT,
  ks "SUB" (.int 0 7) Fd.GP_FN_SUB,
  ks "ALTSUB" (.int 0 7) Fd.GP_FN_ALTSUB,
  ks "MODE" (.enum pinModes) Fd.GP_FN_MODE,
  ks "PULL" (.enum [("NONE", 0), ("UP", 1), ("DOWN", 2)]) Fd.GP_FN_PULL,
  ks "IRQ" (.enum [("NONE", 0), ("RISE", 1), ("FALL", 2), ("BOTH", 3), ("HIGH", 4), ("LOW", 5)]) Fd.GP_FN_IRQ,
  ks "FILT" (.enum [("0", 0), ("50", 1), ("1000", 2), ("20000", 3)]) Fd.GP_FN_FILT,
  ks "OUT" (.int 0 1) outFd]

/-- The combinations of Table 11-2 and the refused codes of Table 11-5. -/
def gpBad (w : Word) : Bool :=
  let g := fun (f : Nat → Fd) => (f 0).get w
  let fs := g Fd.GP_FN_FSEL
  let alt := g Fd.GP_FN_ALT
  let mode := g Fd.GP_FN_MODE
  5 < g Fd.GP_FN_IRQ || g Fd.GP_FN_PULL == 3 || mode == 3 || alt == 7 ||
  (fs == 0 && isLatch alt) || ((fs == 7 || (fs == 0 && mode == 0)) && alt != 0) ||
  (1 ≤ fs && fs ≤ 6 && mode == 0) ||
  ((fs == 2 || fs == 3) && 4 ≤ g Fd.GP_FN_SUB) || ((alt == 2 || alt == 3) && 4 ≤ g Fd.GP_FN_ALTSUB)

/-- The pin is locked (R317). -/
def Node.gpLocked (n : Node) (i : Nat) : Bool := n.on (Fd.GP_FN_LOCKED i)
/-- The RWL fields of GP.FNn (R318). -/
def gpLockMask : Word := 0x37FFFF#32
/-- FSEL, SUB, ALT and ALTSUB. -/
def gpFnMask : Word := 0xFFF#32

/-! ### Levels of the pads (R308 to R310, R326) -/

/-- The level of a direct function at a moment of the beat. In DORMANT the second pulse and BEATMARK are low, in
POWERFAIL BEATMARK too; LIFE holds (R326). -/
def Node.directLevel (n : Node) (c : Nat) (m : Moment) : Bool :=
  match c with
  | 4 => n.tm.pulse && n.sys.power != .dormant
  | 5 => m < 10000 && (n.sys.power == .full || n.sys.power == .quiet)
  | 6 => n.gp.life
  | _ => false
/-- What the node drives onto a pad: nothing (none) while its bank is ABSENT, for an input, for NONE, for a high
level in OPENDRAIN, and once the node is OFF (R326); otherwise the OR of its functions' levels. -/
def Node.padDrive (n : Node) (i : Nat) (m : Moment) : Option Bool :=
  let w := n.rd (Ad.GP_FN i)
  let mode := (Fd.GP_FN_MODE i).get w
  let fs := (Fd.GP_FN_FSEL i).get (n.fnWord i)
  if n.bank (if i < 24 then 0 else 1) = 0 || n.sys.power = .off || mode = 0 || fs = 7 then none
  else
    let bit := (fs = 0 || n.owned i) && n.on (outFd i)
    let lv := bit || (n.fns i).any (fun x => n.directLevel x.1 m)
    if mode = 2 && lv then none else some lv

/-! ### Inputs (R311, R312) -/

/-- A new filtered level (R312, R324). -/
def Node.pinEdge (n : Node) (i : Nat) (level : Bool) : Node :=
  if !n.padOn i || n.on (inFd i) == level then n
  else
    let n := n.setOn (inFd i) level
    let irq := n.fd (Fd.GP_FN_IRQ i)
    let hit := if level then irq == 1 || irq == 3 || irq == 4 else irq == 2 || irq == 3 || irq == 5
    let n := if hit && n.pinLive i then n.pinEvent i else n
    if n.awake && Bank.get 0 n.gp.told i != n.tick + 1 then
      ({ n with gp := { n.gp with told := Bank.set 0 n.gp.told i (n.tick + 1) } }).notifyWatch .gp "" (some i)
        [.w "GP", .n i, .w "IN", .n (if level then 1 else 0), .w "BEAT", .n n.idx]
    else n
def execPinEdge (i : Nat) (level : Bool) (_m : Moment) (s : State) : Host.Outcome State Fault Refusal :=
  s.lift fun n => if i < 48 then n.pinEdge i level else n

/-- A bank's class changes (R307): the record, the notice, and the pads' levels, which raise no events. -/
def Node.bankTo (n : Node) (b cls levels : Nat) (m : Moment) : Node :=
  let was := n.bank b
  let n := (n.setFd (if b = 0 then Fd.GP_BANK_A else Fd.GP_BANK_B) cls).setOn
    (if b = 0 then Fd.GP_EVT_BANKA else Fd.GP_EVT_BANKB) true
  let n := n.raiseM 0x090 [BitVec.ofNat 8 b, BitVec.ofNat 8 cls] m helpPin
  let n := n.notifyWatch .gp "BANK" none [.w "GP BANK", .w (if b = 0 then "A" else "B"), .w (className cls)]
  if cls = 0 then (List.range 24).foldl (fun n k => n.setOn (inFd (24 * b + k)) false) n
  else if was = 0 then (List.range 24).foldl (fun n k => n.setOn (inFd (24 * b + k)) (levels.testBit k)) n
  else n

/-! ### Functions in force (R316) -/

/-- The functions of a pin's GP.FN word come into force: a bit that leaves hardware ownership is written to 0, one that
enters it takes the level at once; both count in HWSEQ. -/
def Node.fnApply (n : Node) (i : Nat) : Node :=
  let was := n.owned i
  let n := { n with gp := { n.gp with fnF := Bank.set 0x8000#32 n.gp.fnF i (n.rd (Ad.GP_FN i) &&& 0x37FFFF#32)
                                      fnWait := n.gp.fnWait.filter (· != i) } }
  let n := if i < 32 then n.setFd ⟨Ad.GP_HWMASK0, i, i⟩ (if n.owned i then 1 else 0)
    else n.setFd ⟨Ad.GP_HWMASK1, i - 32, i - 32⟩ (if n.owned i then 1 else 0)
  if was && !n.owned i then n.hwWrite [i] (fun _ _ => false)
  else if !was && n.owned i then n.hwWrite [i] Node.hwLevel
  else n
/-- What a changed GP.FN word brings: a level condition that holds when it is chosen begins; a function change takes
effect at once in a stage S7, at the next S7 otherwise. -/
def Node.gpChanged (old n : Node) (i : Nat) (atS7 : Bool) : Node :=
  let a := old.rd (Ad.GP_FN i)
  let b := n.rd (Ad.GP_FN i)
  let n := if (Fd.GP_FN_IRQ i).get a != (Fd.GP_FN_IRQ i).get b && n.pinLive i && n.pinHolds i then n.pinEvent i else n
  if a &&& gpFnMask = b &&& gpFnMask then n
  else if atS7 then n.fnApply i
  else { n with gp := { n.gp with fnWait := n.gp.fnWait.filter (· != i) ++ [i] } }
/-- The function changes that wait for the stage S7. -/
def Node.gpS7 (n : Node) : Node := n.gp.fnWait.foldl Node.fnApply n
/-- GP.FN words a register write may leave. -/
def Node.gpRegOk (n : Node) (i : Nat) : Bool := !gpBad (n.rd (Ad.GP_FN i))
def Node.gpCfgErr (n : Node) : Node := n.setOn Fd.GP_EVT_CFGERR true

/-! ### Output registers -/

def execGpoutWrite (_rq : Rq) (k : Nat) (v : Word) (s : State) : Host.Outcome State Fault Refusal :=
  s.lift fun n =>
    if !n.awake then n
    else if k = 0 then n.setFd Fd.GP_GPOUT0_OUT v.toNat else if k = 1 then n.setFd Fd.GP_GPOUT1_OUT v.toNat else n
/-- Every hardware-owned bit is written (R314). -/
def execHwrefresh (_rq : Rq) (v : Word) (s : State) : Host.Outcome State Fault Refusal :=
  s.lift fun n => if n.awake && v.getLsbD 0 then n.hwWriteIf (fun _ => true) else n

/-! ### The lock sequence (R317, R319) -/

def Node.lockErr (n : Node) : Node :=
  ({ n with gp := { n.gp with lockStep := 0 } }).setOn Fd.GP_EVT_LOCKERR true
/-- The pins of a mask lock; locks accumulate. -/
def Node.lockPins (n : Node) (b mask : Nat) : Node :=
  let f := if b = 0 then Fd.GP_LOCKSTA_LOCK else Fd.GP_LOCKSTB_LOCK
  let n := n.setFd f (Nat.lor (n.fd f) mask)
  (List.range 24).foldl (fun n k => if mask.testBit k then n.setOn (Fd.GP_FN_LOCKED (24 * b + k)) true else n) n
/-- One write to GP.GPLOCK at a node time: 64 core cycles are 1280 quarter-ns. A first key always begins a sequence
anew; any other write out of order aborts. -/
def Node.gplock (n : Node) (rq : Rq) (v : Word) (t : Nat) : Node :=
  let n := if n.gp.lockStep != 0 && n.gp.lockAt + 1280 < t then n.lockErr else n
  if n.gp.lockStep = 2 then
    let n := { n with gp := { n.gp with lockStep := 0 } }
    let b := v.toNat / 2 ^ 31
    let mask := v.toNat % 2 ^ 24
    let n := n.lockPins b mask
    let pl := BitVec.ofNat 8 b :: bytesLE 3 mask
    match rq with
    | .cmd => n.raiseCmd 0x091 (pl ++ [0#8])
    | .annex => n.raiseM 0x091 (pl ++ [1#8]) (t - n.tm.t0) helpPin
  else if v = 0xA5C3#32 then
    let n := if n.gp.lockStep != 0 then n.lockErr else n
    { n with gp := { n.gp with lockStep := 1, lockAt := t } }
  else if v = 0x3C5A#32 && n.gp.lockStep = 1 then { n with gp := { n.gp with lockStep := 2 } }
  else n.lockErr
def execGplockWrite (rq : Rq) (v : Word) (m : Moment) (s : State) : Host.Outcome State Fault Refusal :=
  s.lift fun n => if n.awake then n.gplock rq v (n.now m) else n

def gpLockSpecs : List KeySpec := [kk "BANK" (.enum [("A", 0), ("B", 1)]) (fun _ => 0), kk "MASK" (.big 0 0xFFFFFF) (fun _ => 0)]
/-- DO GP LOCK (R319): the three writes in consecutive cycles of S7. -/
def execDoGpLock (l : Line) (s : State) : Host.Outcome State Fault Refusal :=
  s.lift fun n => n.runWhole l .gp (fun _ => checkKeys gpLockSpecs ["BANK", "MASK"] l.keys) (fun n =>
    let b := (keyNum gpLockSpecs l.keys "BANK").getD 0
    let mask := (keyNum gpLockSpecs l.keys "MASK").getD 0
    let t := n.stageAt 7
    .ok (((n.gplock .cmd 0xA5C3#32 t).gplock .cmd 0x3C5A#32 (t + 20)).gplock .cmd
      (BitVec.ofNat 32 (b * 2 ^ 31 + mask)) (t + 40), []))

/-! ### Commands -/

/-- SET GP at one pin: the refusals of R323, R318 and R315; ownership is judged as the line leaves the pin. -/
def gpCheck (keys : Keys) (n : Node) (i : Nat) : Except Err Unit := do
  let n' := n.putKeys gpSpecs i keys
  let w := n'.rd (Ad.GP_FN i)
  if gpBad w then refuse 205
  if n.gpLocked i && w != n.rd (Ad.GP_FN i) then refuse 304
  if hasKey keys "OUT" && (isLatch ((Fd.GP_FN_FSEL i).get w) || isLatch ((Fd.GP_FN_ALT i).get w)) then refuse 308
/-- One unit of SET GP. -/
def setGpUnit (keys : Keys) (i : Nat) (n : Node) : Except Err (Node × List (List Item)) := do
  gpCheck keys n i
  let n1 := Node.gpChanged n (n.setKeys gpSpecs i (keys.filter (fun p => p.1 != "OUT"))) i true
  pure (n1.putKeys gpSpecs i (keys.filter (fun p => p.1 == "OUT")), [])
def execSetGp (l : Line) (s : State) : Host.Outcome State Fault Refusal :=
  s.lift fun n => n.runMulti l verbSet .gp 48 (.set .gp l.keys)
    (fun n is => do
      checkKeys gpSpecs [] l.keys
      is.forM (gpCheck l.keys n)) (setGpUnit l.keys)

def gpMaskSpecs : List KeySpec := [
  kk "MASK0" (.big 0 0xFFFFFFFF) (fun _ => 0), kk "VAL0" (.big 0 0xFFFFFFFF) (fun _ => 0),
  kk "MASK1" (.big 0 0xFFFF) (fun _ => 0), kk "VAL1" (.big 0 0xFFFF) (fun _ => 0)]
/-- Writes only the named bits of a GPOUT register (R315). -/
def Node.maskWrite (n : Node) (a : Nat) (mask v : Nat) : Node :=
  n.wr a ((n.rd a &&& ~~~(BitVec.ofNat 32 mask)) ||| (BitVec.ofNat 32 v &&& BitVec.ofNat 32 mask))
def execSetGpMask (l : Line) (s : State) : Host.Outcome State Fault Refusal :=
  s.lift fun n =>
    let num := fun k => (keyNum gpMaskSpecs l.keys k).getD 0
    n.runWhole l .gp (fun n => do
        checkKeys gpMaskSpecs (["MASK0", "VAL0"] ++ (if hasKey l.keys "MASK1" then ["VAL1"] else []) ++
          (if hasKey l.keys "VAL1" then ["MASK1"] else [])) l.keys
        if (BitVec.ofNat 32 (num "MASK0") &&& n.rd Ad.GP_HWMASK0) != 0#32 ||
           (BitVec.ofNat 32 (num "MASK1") &&& n.rd Ad.GP_HWMASK1) != 0#32 then refuse 308)
      (fun n => .ok ((n.maskWrite Ad.GP_GPOUT0 (num "MASK0") (num "VAL0")).maskWrite Ad.GP_GPOUT1 (num "MASK1") (num "VAL1"), []))

/-- One unit of DO GP TOGGLE. -/
def gpToggleUnit (i : Nat) (n : Node) : Except Err (Node × List (List Item)) :=
  if n.owned i then refuse 308 else .ok (n.setOn (outFd i) (!n.on (outFd i)), [])
def execDoGpToggle (l : Line) (s : State) : Host.Outcome State Fault Refusal :=
  s.lift fun n => n.runMulti l verbDo .gp 48 (.act .gp "TOGGLE" [])
    (fun n is => do
      onlyKeys [] [] l.keys
      if is.any n.owned then refuse 308) gpToggleUnit

def nameOf (l : List (String × Nat)) (c : Nat) : String := ((l.find? (fun p => p.2 == c)).map (·.1)).getD "NONE"
def execGetGp (l : Line) (s : State) : Host.Outcome State Fault Refusal :=
  s.lift fun n => n.runRead l (fun n => do
    let is ← l.items 48
    onlyKeys [] [] l.keys
    let bitn := fun (b : Bool) => Item.n (if b then 1 else 0)
    pure (is.map (fun i => [.w "GP", .n i, .w "IN", bitn (n.on (inFd i)), .w "OUT", bitn (n.on (outFd i)), .w "FN",
      .w (nameOf fnNames (n.fd (Fd.GP_FN_FSEL i))), .w "ALT", .w (nameOf altNames (n.fd (Fd.GP_FN_ALT i))), .w "MODE",
      .w (nameOf pinModes (n.fd (Fd.GP_FN_MODE i))), .w "OWNER", .w (if n.owned i then "HW" else "SW"), .w "LOCK",
      bitn (n.gpLocked i)])))
def execGetGpBank (l : Line) (s : State) : Host.Outcome State Fault Refusal :=
  s.lift fun n => n.runRead l (fun n => do
    l.bare
    onlyKeys [] [] l.keys
    pure [[.w "GP BANK A", .w (className (n.bank 0)), .w "B", .w (className (n.bank 1))]])
def execShowGp (l : Line) (s : State) : Host.Outcome State Fault Refusal :=
  s.lift fun n => n.runRead l (fun n => do
    let is ← l.items 48
    onlyKeys [] [] l.keys
    pure (is.map (fun i => [.w "GP", .n i] ++ n.showKeys gpSpecs i)))
def execWatchGp (l : Line) (s : State) : Host.Outcome State Fault Refusal :=
  s.lift fun n => n.runWatch l .gp "" ((l.items 48).map (·.map some))
def execWatchGpBank (l : Line) (s : State) : Host.Outcome State Fault Refusal :=
  s.lift fun n => n.runWatch l .gp "BANK" (l.bare.map (fun _ => [none]))

/-- One unit of DO GP REINIT (R328): a locked pin is unchanged. Stored settings a SET would refuse are not applied
(R473). -/
def Node.gpReinit (n : Node) (i : Nat) : Node :=
  if n.gpLocked i then n
  else
    let n' := n.reload gpSpecs i
    let n' := if n.owned i then n'.setFd (outFd i) (n.fd (outFd i)) else n'
    let n' := if gpBad (n'.rd (Ad.GP_FN i)) then (n'.wr (Ad.GP_FN i) 0x8000#32).gpCfgErr else n'
    Node.gpChanged n n' i true
def execDoGpReinit (l : Line) (s : State) : Host.Outcome State Fault Refusal :=
  s.lift fun n => n.runOpen l (fun n => do
    let is ← match l.idx with
      | some _ => l.items 48
      | none => .ok (List.range 48)
    onlyKeys [] [] l.keys
    n.mayWrite l.port .gp l.idx
    pure (n.startMr l verbDo .gp (.reinit .gp) is true))

/-! ### LIFE (Table 11-1) -/

/-- `served`: the node-core watchdog was served in the preceding 500 ms. -/
def execLifeToggle (served : Bool) (s : State) : Host.Outcome State Fault Refusal :=
  s.lift fun n =>
    if n.awake && n.sys.power != .powerfail && served && n.tm.t0 % 2000000000 == 0 && n.gp.lifeTick != n.tick + 1 then
      { n with gp := { n.gp with life := !n.gp.life, lifeTick := n.tick + 1 } }
    else n

end Sys2Proof.Machine
end

