-- ==== Sys2Proof/Machine/Tw.lean ====
section
/-! DEFINITION. The two-wire sensor bus: the check, transfers, the bus clear, draining, the TW commands (chapter 11). -/
namespace Sys2Proof.Machine

def helpTw : Nat := 11
def twRate (c : Nat) : Nat := match c with | 0 => 100 | 1 => 400 | _ => 1000
def Node.twState (n : Node) : Nat := n.fd Fd.TW_STAT_STATE
def Node.setTw (n : Node) (t : Tw) : Node := { n with tw := t }
/-- The controller's phase, with TW.STAT.BUSY. -/
def Node.twPhase (n : Node) (p : TwPhase) : Node :=
  ({ n with tw := { n.tw with phase := p } }).setOn Fd.TW_STAT_BUSY (p != TwPhase.idle)

def twSpecs : List KeySpec := [
  ks "ENABLE" onOff (fun _ => Fd.TW_CTRL_ENABLE),
  ks "RATE" (.enum [("100", 0), ("400", 1), ("1000", 2)]) (fun _ => Fd.TW_CTRL_RATE),
  ks "TIMEOUT" (.int 1 100) (fun _ => Fd.TW_CTRL_TIMEOUT)]

/-! ### Results (R321, R325, R327) -/

/-- Ends the reply of the port that waits for its transfer or clear. -/
def Node.twReply (n : Node) (p : Port) (lines : List (LineKind × List Item)) : Node :=
  match (n.port p).await with
  | some a => (n.setPort p { n.port p with await := none }).send p a.tag lines true
  | none => n
def twErr (c : Nat) (detail : List Item) : LineKind × List Item := (.error c, .w (errText c) :: detail)

/-- TW.RES after a transfer (its code and its bytes), and the bytes read into the buffer of an Annex transfer. -/
def Node.twResult (n : Node) (j : TwJob) (code : Nat) (bytes : List Byte) : Node :=
  let n := n.setFds [(Fd.TW_RES_CODE, code), (Fd.TW_RES_BYTES, bytes.length)]
  if j.who.isNone && j.read then
    (List.range bytes.length).foldl (fun n k =>
      n.setFd ⟨Ad.TW_BUF (k / 4), k % 4 * 8 + 7, k % 4 * 8⟩ (bytes.getD k 0#8).toNat) n
  else n
/-- The line of a transfer that ended as TW.RES.CODE says. -/
def twLines (j : TwJob) (code k : Nat) (bytes : List Byte) : List (LineKind × List Item) :=
  match code with
  | 0 => if j.read then [(.data, [.w "TW", .h j.addr 2, .w "DATA", .b bytes]), (.done, [])] else [(.done, [])]
  | 1 => [twErr 606 [.w "ADDR"]]
  | 2 => [twErr 606 [.w "DATA", .n k]]
  | 3 => [twErr 607 []]
  | 4 => [twErr 605 []]
  | 5 => [twErr 501 []]
  | _ => [(.data, [.w "TW DONE", .n bytes.length]), twErr 303 []]
/-- The running transfer ends: its result, its events and rings, and its line. -/
def Node.twEnd (n : Node) (code k : Nat) (bytes : List Byte) : Node :=
  match n.tw.job with
  | none => n
  | some j =>
    let n := ({ n with tw := { n.tw with job := none } }).twResult j code bytes
    let n := match code with
      | 0 => (n.setOn Fd.TW_EVT_DONE true).ring 192
      | 1 => ((n.setOn Fd.TW_EVT_NACK true).bump Fd.TW_CNT_NACK 1).ring 193
      | 2 => ((n.setOn Fd.TW_EVT_NACK true).bump Fd.TW_CNT_NACK 1).ring 193
      | 3 => (n.setOn Fd.TW_EVT_TIMEOUT true).ring 194
      | _ => n
    match j.who with
    | some p => n.twReply p (twLines j code k bytes)
    | none => n
/-- The waiting transfers end with a code before they began. -/
def Node.twFlush (n : Node) (code : Nat) : Node :=
  let n := n.tw.queue.foldl (fun n j => match j.who with
    | some p => n.twReply p (twLines j code 0 [])
    | none => n) n
  { n with tw := { n.tw with queue := [] } }
/-- The clear that a port or TW.CMD asked for ends: CLEARED and its clocks, or none where it failed. -/
def Node.twClearEnd (n : Node) (clocks : Option Nat) : Node :=
  match n.tw.clearBy with
  | none => n
  | some w =>
    let n := { n with tw := { n.tw with clearBy := none } }
    match w, clocks with
    | some p, some k => n.twReply p [(.data, [.w "TW CLEARED", .n k]), (.done, [])]
    | some p, none => n.twReply p [twErr 605 []]
    | none, _ => n

/-! ### The check and what follows it (R322) -/

/-- The bus is found good: the transfer that waits starts, or the boot read (R362), or the controller is idle. -/
def Node.twGo (n : Node) : Node :=
  let n := { n with tw := { n.tw with rateF := n.fd Fd.TW_CTRL_RATE } }.twClearEnd (some 0)
  match n.tw.job with
  | some _ => n.twPhase .transfer
  | none => n.twPhase (if n.annex.boot then .boot else .idle)
/-- One look at the lines: SCL low waits, SDA low begins the clear, otherwise the bus is good. -/
def Node.twLook (n : Node) : Node :=
  if !n.on Fd.TW_STAT_SCL then n.twPhase .check
  else if !n.on Fd.TW_STAT_SDA then n.twPhase .clear
  else n.twGo
/-- The check begins, when the bus is enabled or before a transfer. -/
def Node.twCheck (n : Node) : Node := n.twLook
/-- The next transfer of the queue comes up for its check; only an idle bus that is ON takes one. -/
def Node.twNext (n : Node) : Node :=
  if n.tw.phase != .idle || n.twState != 1 then n
  else match n.tw.queue with
    | j :: t => ({ n with tw := { n.tw with job := some j, queue := t } }).twCheck
    | [] => n
/-- The bus enters STUCK; `cause` 0 SDA, 1 SCL (R322). -/
def Node.twStuck (n : Node) (cause clocks : Nat) (m : Moment) : Node :=
  let n := ({ n with tw := { n.tw with stuckScl := cause == 1 } }).setFd Fd.TW_STAT_STATE 3
  let n := ((n.setOn Fd.TW_EVT_STUCK true).bump Fd.TW_CNT_STUCK 1).ring 195
  let n := n.raiseM 0x092 [BitVec.ofNat 8 cause, BitVec.ofNat 8 clocks] m helpTw
  let n := (n.twPhase .idle).twClearEnd none
  let code := if cause = 1 then 3 else 4
  (n.twEnd code 0 []).twFlush code
/-- The bus reaches OFF (R327); a wish to enable it again follows. -/
def Node.twOff (n : Node) : Node :=
  let n := ((n.twPhase .idle).setFd Fd.TW_STAT_STATE 0).setOn Fd.TW_EVT_OFF true
  let n := { n with tw := { n.tw with stuckScl := false } }.ring 198
  if n.tw.then_ = 2 then
    (({ n with tw := { n.tw with then_ := 0 } }).setFd Fd.TW_STAT_STATE 1).twCheck
  else n
/-- The bus is switched on, with the check. -/
def Node.twEnable (n : Node) : Node :=
  if n.twState = 0 then (n.setFd Fd.TW_STAT_STATE 1).twCheck
  else if n.twState = 2 then { n with tw := { n.tw with then_ := 2 } }
  else n
/-- The request to drain: OFF at once when nothing runs. -/
def Node.twDrain (n : Node) : Node :=
  let n := { n with tw := { n.tw with then_ := 0 } }
  match n.twState with
  | 0 => n
  | 2 => n
  | _ => if n.tw.phase == .idle then (n.twFlush 6).twOff else n.setFd Fd.TW_STAT_STATE 2

/-- Stage S0 reads the lines; while bank B is ABSENT both read low (R463). A check that waits looks again. -/
def Node.twS0 (n : Node) (inp : S0In) : Node :=
  let up := n.bank 1 != 0
  let scl := inp.scl && up
  let n := n.setFds [(Fd.TW_STAT_SDA, if inp.sda && up then 1 else 0), (Fd.TW_STAT_SCL, if scl then 1 else 0)]
  let n := { n with tw := { n.tw with low := !scl, since := if scl then 0 else if n.tw.low then n.tw.since else n.mono 0 } }
  if n.tw.phase == .check && n.twState != 2 then n.twLook else n

/-! ### Events -/

def execTwTransferEnd (res : TwEnd) (bytes : List (BitVec 8)) (m : Moment) (s : State) : Host.Outcome State Fault Refusal :=
  s.lift fun n =>
    if !n.awake || n.tw.phase != .transfer || n.twState == 2 then n
    else
      let _ := m
      match res with
      | .ok => (((n.twPhase .idle).twEnd 0 0 bytes).twNext)
      | .nackAddr => (((n.twPhase .idle).twEnd 1 0 []).twNext)
      | .nackData k => (((n.twPhase .idle).twEnd 2 k bytes).twNext)
      | .contention => (n.twPhase .clear).twEnd 5 0 bytes

/-- SCL stayed low beyond TIMEOUT: a transfer ends with a timeout, a check ends in STUCK with cause SCL. -/
def execTwClockStretchTimeout (bytes : List (BitVec 8)) (m : Moment) (s : State) : Host.Outcome State Fault Refusal :=
  s.lift fun n =>
    if !n.awake then n
    else if n.tw.phase == .transfer && n.twState == 1 then ((n.twPhase .idle).twEnd 3 0 bytes).twNext
    else if n.tw.phase == .check && n.twState == 1 && n.tw.since + n.fd Fd.TW_CTRL_TIMEOUT * 4000000 ≤ n.mono m then
      n.twStuck 1 0 m
    else n

/-- The bus clear ends (R322). -/
def execTwBusClearEnd (clocks : Nat) (freed : Bool) (m : Moment) (s : State) : Host.Outcome State Fault Refusal :=
  s.lift fun n =>
    if !n.awake || n.tw.phase != .clear || n.twState == 2 then n
    else if freed && clocks ≤ 9 then
      let n := (n.raiseM 0x093 [0#8, BitVec.ofNat 8 clocks] m helpTw).setFds [(Fd.TW_EVT_CLEARED, 1), (Fd.TW_STAT_STATE, 1),
        (Fd.TW_STAT_SDA, 1)]
      let n := ((n.bump Fd.TW_CNT_CLEARED 1).ring 196).twClearEnd (some clocks)
      ({ n with tw := { n.tw with stuckScl := false } }).twGo.twNext
    else if freed then n
    else n.twStuck 0 9 m

/-- A draining bus has completed its byte and its STOP (R327). -/
def Node.twDrained (n : Node) (bytes : List Byte) : Node :=
  if n.twState = 2 then ((((n.twPhase .idle).twClearEnd none).twEnd 6 0 bytes).twFlush 6).twOff else n
def execTwDrained (bytes : List (BitVec 8)) (_m : Moment) (s : State) : Host.Outcome State Fault Refusal :=
  s.lift fun n => if n.awake then n.twDrained bytes else n

/-! ### Settings -/

/-- What a change of TW.CTRL brings: a change of ENABLE switches the bus on or asks it to drain. -/
def Node.twChanged (old n : Node) : Node :=
  let n := if n.tw.phase == .transfer then n else { n with tw := { n.tw with rateF := n.fd Fd.TW_CTRL_RATE } }
  if n.on Fd.TW_CTRL_ENABLE then (if old.on Fd.TW_CTRL_ENABLE && n.twState != 2 then n else n.twEnable)
  else if old.on Fd.TW_CTRL_ENABLE then n.twDrain else n
/-- TW.CTRL may hold the word (Table 11-6). -/
def Node.twRegOk (n : Node) : Bool :=
  n.fd Fd.TW_CTRL_RATE ≤ 2 && 1 ≤ n.fd Fd.TW_CTRL_TIMEOUT && n.fd Fd.TW_CTRL_TIMEOUT ≤ 100
def Node.twCfgErr (n : Node) : Node := (n.setOn Fd.TW_EVT_CFGERR true).ring 197
def execSetTw (l : Line) (s : State) : Host.Outcome State Fault Refusal :=
  s.lift fun n => n.runWhole l .tw (fun _ => checkKeys twSpecs [] l.keys)
    (fun n => .ok (Node.twChanged n (n.setKeys twSpecs 0 l.keys), []))

/-! ### Transfers by command -/

/-- The bytes of a word of hex digits, byte 0 first: an even number of digits, 2 to 64. -/
def hexBytes : List Nat → Option (List Byte)
  | [] => some []
  | a :: b :: t => if isHexDigit a && isHexDigit b then
      (hexBytes t).map (fun r => BitVec.ofNat 8 (hexVal a * 16 + hexVal b) :: r) else none
  | [_] => none
def hexData : Val → Option (List Byte)
  | .words [w] => hexBytes (codesOf w)
  | .int v => if 0 ≤ v then hexBytes (codesOf (toString v)) else none
  | _ => none
/-- The bytes of DATA: `?E203` for its form, `?E201` beyond `cap` bytes. -/
def dataKey (keys : Keys) (cap : Nat) : Except Err (List Byte) :=
  match (keyVal keys "DATA").bind hexData with
  | some l => if l.isEmpty || cap < l.length then refuse 201 else .ok l
  | none => refuse 203

def twAddrSpecs : List KeySpec := [kk "ADDR" (.int 8 0x77) (fun _ => 0), kk "COUNT" (.int 1 32) (fun _ => 0),
  kk "REG" (.int 0 255) (fun _ => 0)]
/-- May a transfer or a clear be asked for? -/
def Node.twReady (n : Node) (clear : Bool) : Except Err Unit :=
  match n.twState with
  | 1 => .ok ()
  | 3 => if clear then .ok () else if n.tw.stuckScl then refuse 607 else refuse 605
  | _ => refuse 303
/-- The line waits for the bus; its transfer takes its place in the queue. -/
def Node.twAsk (n : Node) (l : Line) (j : TwJob) : Node :=
  let n := n.setPort l.port { n.port l.port with await := some ⟨l.tag, .tw, n.tick⟩, replyOpen := true }
  ({ n with tw := { n.tw with queue := n.tw.queue ++ [j] } }).twNext

def execDoTwWrite (l : Line) (s : State) : Host.Outcome State Fault Refusal :=
  s.lift fun n => n.runOpen l (fun n => do
    l.bare
    onlyKeys ["ADDR", "DATA"] ["ADDR", "DATA"] l.keys
    let d ← dataKey l.keys 32
    checkKeys twAddrSpecs ["ADDR"] (l.keys.filter (fun p => p.1 != "DATA"))
    n.twReady false
    n.mayWrite l.port .tw none
    pure (n.twAsk l ⟨some l.port, false, (keyNum twAddrSpecs l.keys "ADDR").getD 8, none, d.length, d⟩))
def execDoTwRead (l : Line) (s : State) : Host.Outcome State Fault Refusal :=
  s.lift fun n => n.runOpen l (fun n => do
    l.bare
    checkKeys twAddrSpecs ["ADDR", "COUNT"] l.keys
    n.twReady false
    n.mayWrite l.port .tw none
    pure (n.twAsk l ⟨some l.port, true, (keyNum twAddrSpecs l.keys "ADDR").getD 8, keyNum twAddrSpecs l.keys "REG",
      (keyNum twAddrSpecs l.keys "COUNT").getD 1, []⟩))
/-- The clear of DO TW CLEAR and TW.CMD.CLEAR: with SDA and SCL high only a STOP, which frees a STUCK bus at once. -/
def Node.twClear (n : Node) (who : Option Port) : Node :=
  let n := { n with tw := { n.tw with clearBy := some who } }
  if n.on Fd.TW_STAT_SCL && n.on Fd.TW_STAT_SDA then
    let n := ({ n with tw := { n.tw with stuckScl := false } }).setFd Fd.TW_STAT_STATE 1
    (n.twClearEnd (some 0)).twGo.twNext
  else (n.setFd Fd.TW_STAT_STATE 1).twLook
def execDoTwClear (l : Line) (s : State) : Host.Outcome State Fault Refusal :=
  s.lift fun n => n.runOpen l (fun n => do
    l.bare
    onlyKeys [] [] l.keys
    n.twReady true
    need (n.tw.phase == .idle) 308
    n.mayWrite l.port .tw none
    pure ((n.setPort l.port { n.port l.port with await := some ⟨l.tag, .tw, n.tick⟩, replyOpen := true }).twClear (some l.port)))

/-! ### Transfers by TW.CMD -/

/-- A word TW.CMD may hold: an address of 0x08 to 0x77 and a count of 1 to 32. -/
def twCmdOk (v : Word) : Bool :=
  let a := Fd.TW_CMD_ADDR.get v
  let c := Fd.TW_CMD_COUNT.get v
  8 ≤ a && a ≤ 0x77 && 1 ≤ c && c ≤ 32
/-- The kept fields of a TW.CMD write. -/
def Node.twCmdKeep (n : Node) (v : Word) : Node := n.wr Ad.TW_CMD (v &&& 0x00FFBFFF#32)
/-- A write of TW.CMD with neither START nor CLEAR. -/
def Node.twCmdWrite (n : Node) (v : Word) : Node :=
  if n.tw.phase != .idle || !twCmdOk v then n.twCfgErr else n.twCmdKeep v
def Node.twBytes (n : Node) (k : Nat) : List Byte :=
  (List.range k).map (fun i => BitVec.ofNat 8 ((n.rd (Ad.TW_BUF (i / 4))).toNat / 2 ^ (i % 4 * 8)))
/-- A write of TW.CMD with START: it is refused while a transfer runs or the bus is not ON (R327). -/
def Node.twCmdStart (n : Node) (v : Word) : Node :=
    if n.tw.phase != .idle || !twCmdOk v || n.twState != 1 then n.twCfgErr
    else
      let rd := Fd.TW_CMD_READ.get v == 1
      let c := Fd.TW_CMD_COUNT.get v
      let j : TwJob := ⟨none, rd, Fd.TW_CMD_ADDR.get v, if Fd.TW_CMD_USEREG.get v = 1 then some (Fd.TW_CMD_REG.get v) else none,
        c, if rd then [] else n.twBytes c⟩
      let n := n.twCmdKeep v
      ({ n with tw := { n.tw with job := some j } }).twCheck
/-- A write of TW.CMD with CLEAR. -/
def Node.twCmdClear (n : Node) (v : Word) : Node :=
  if n.tw.phase != .idle || !twCmdOk v || (n.twState != 1 && n.twState != 3) then n.twCfgErr
  else (n.twCmdKeep v).twClear none
def execTwCmdStart (_rq : Rq) (v : Word) (_m : Moment) (s : State) : Host.Outcome State Fault Refusal :=
  s.lift fun n => if n.awake && Fd.TW_CMD_START.get v == 1 then n.twCmdStart v else n
def execTwCmdClear (_rq : Rq) (v : Word) (_m : Moment) (s : State) : Host.Outcome State Fault Refusal :=
  s.lift fun n => if n.awake && Fd.TW_CMD_CLEAR.get v == 1 then n.twCmdClear v else n

/-! ### Reports and re-initialisation -/

def twStateName (c : Nat) : String := match c with | 0 => "OFF" | 1 => "ON" | 2 => "DRAINING" | _ => "STUCK"
def execGetTw (l : Line) (s : State) : Host.Outcome State Fault Refusal :=
  s.lift fun n => n.runRead l (fun n => do
    l.bare
    onlyKeys [] [] l.keys
    pure [[.w "TW STATE", .w (twStateName n.twState), .w "RATE", .n (twRate (n.fd Fd.TW_CTRL_RATE)), .w "SDA",
      .n (n.fd Fd.TW_STAT_SDA), .w "SCL", .n (n.fd Fd.TW_STAT_SCL), .w "NACK", .n (n.fd Fd.TW_CNT_NACK), .w "STUCK",
      .n (n.fd Fd.TW_CNT_STUCK), .w "CLEARED", .n (n.fd Fd.TW_CNT_CLEARED)]])
def execClearTw (l : Line) (s : State) : Host.Outcome State Fault Refusal :=
  s.lift fun n => n.runWhole l .tw (fun _ => onlyKeys [] [] l.keys) (fun n => .ok (n.wr Ad.TW_CNT 0#32, []))

/-- The unit of DO TW REINIT at a stage S7: it drains the bus; once OFF, the keys reload, STUCK is cleared and the bus
is enabled with the check (R328). Answers false while it waits. -/
def Node.twReinitUnit (n : Node) : Node × Bool :=
  if n.twState = 0 then
    let n' := n.reload twSpecs 0
    let n' := if n'.twRegOk then n' else (n'.wr Ad.TW_CTRL (resetWord Ad.TW_CTRL)).twCfgErr
    let n' := { (n'.setOn Fd.TW_CTRL_ENABLE true) with tw := { n'.tw with rateF := n'.fd Fd.TW_CTRL_RATE } }
    (n'.twEnable, true)
  else
    let n := n.twDrain
    (n, false)
def execDoTwReinit (l : Line) (s : State) : Host.Outcome State Fault Refusal :=
  s.lift fun n => n.runOpen l (fun n => do
    l.bare
    onlyKeys [] [] l.keys
    n.mayWrite l.port .tw none
    pure (n.startMr l verbDo .tw (.reinit .tw) [0] false))

/-- The store has loaded: the bus is enabled as its key says, with the check (R322, R326). -/
def Node.twLoad (n : Node) : Node :=
  let n := n.reload twSpecs 0
  let n := if n.twRegOk then n else (n.wr Ad.TW_CTRL (resetWord Ad.TW_CTRL)).twCfgErr
  let n := { n with tw := { n.tw with rateF := n.fd Fd.TW_CTRL_RATE } }
  if n.on Fd.TW_CTRL_ENABLE then n.twEnable else n
/-- On wake the bus returns to its ENABLE, with the check (R322, R443). -/
def Node.twWake (n : Node) : Node := if n.on Fd.TW_CTRL_ENABLE then n.twEnable else n

end Sys2Proof.Machine
end

