-- ==== Sys2Proof/Machine/Disp.lean ====
section
/-! DEFINITION. The annunciator panel and the segment LCD: updates, snapshot, rails, waveforms, the fast discharge, the
DISP commands (chapter 12). -/
namespace Sys2Proof.Machine

def helpDisp : Nat := 12
def railNames : List String := ["VGL", "VGH", "VSL", "VSH", "VCOM"]
def railName (k : Nat) : String := railNames.getD k "VCOM"
def Node.setDisp (n : Node) (d : Disp) : Node := { n with disp := d }
def Node.dispState (n : Node) : Nat := n.fd Fd.DISP_STAT_STATE
def Node.dispWatch (n : Node) (items : List Item) : Node := n.notifyWatch .disp "" none (.w "DISP" :: items)
/-- 1 ms and 250 µs. -/
def ms1 : Nat := 4000000
def snapMax : Nat := 1000000

/-! ### Keys (Table 12-5) -/

def dispSpecs : List KeySpec := [
  ks "ENABLE" onOff (fun _ => Fd.DISP_CTRL_ENABLE),
  ks "W" (.int 64 1024) (fun _ => Fd.DISP_GEOM_W),
  ks "H" (.int 32 768) (fun _ => Fd.DISP_GEOM_H),
  ks "FRATE" (.enum [("50", 0), ("85", 1)]) (fun _ => Fd.DISP_CTRL_FRATE),
  ks "PCLK" (.enum [("10", 0), ("20", 1)]) (fun _ => Fd.DISP_CTRL_PCLK),
  ks "LINEGAP" (.int 1 15) (fun _ => Fd.DISP_CTRL_LINEGAP),
  ks "BASE" (.big 0x20240000 0x2027FFFC) (fun _ => Fd.DISP_BASE_BASE),
  ks "VCOM" (.fix (qd (-330) 2) (qd (-20) 2) (qd (-1) 2) (q 0)) (fun _ => Fd.DISP_VCOM_VCOM),
  ks "TSRC" (.enum ((List.range 24).map (fun i => ("UC" ++ toString i, i)) ++ [("ONCHIP", 24), ("FIXED", 25)]))
    (fun _ => Fd.DISP_TEMP_TSRC),
  ks "TFIX" (.int (-40) 85) (fun _ => Fd.DISP_TEMP_TFIX),
  ks "TMIN" (.int (-40) 85) (fun _ => Fd.DISP_TEMP_TMIN),
  ks "TMAX" (.int (-40) 85) (fun _ => Fd.DISP_TEMP_TMAX),
  ks "PARTMAX" (.int 0 255) (fun _ => Fd.DISP_CTRL_PARTMAX),
  ks "RAILHOLD" (.fix (q 0) (q 10) (qd 1 1) (q 0)) (fun _ => Fd.DISP_CTRL_RAILHOLD),
  ks "LCD" onOff (fun _ => Fd.LCD_CTRL_ENABLE),
  ks "LFRATE" (.int 64 128) (fun _ => Fd.LCD_CTRL_LFRATE),
  ks "VLCD" (.fix (qd 25 1) (q 5) (qd 1 1) (q 0)) (fun _ => Fd.LCD_CTRL_VLCD)]

def Node.dispW (n : Node) : Nat := n.fd Fd.DISP_GEOM_W
def Node.dispH (n : Node) : Nat := n.fd Fd.DISP_GEOM_H
/-- Bytes of an image (R329). -/
def Node.imageBytes (n : Node) : Nat := n.dispW * n.dispH / 4
def Node.frameRate (n : Node) : Nat := if n.on Fd.DISP_CTRL_FRATE then 85 else 50
def Node.pixelClock (n : Node) : Nat := if n.on Fd.DISP_CTRL_PCLK then 20 else 10
/-- Settings that R343 refuses together: the lines do not fit the frame, the target leaves its region, TSRC is no
temperature channel, TMIN is not below TMAX. -/
def Node.dispConflict (n : Node) : Bool :=
  let p := n.pixelClock
  let src := n.fd Fd.DISP_TEMP_TSRC
  let base := n.fd Fd.DISP_BASE_BASE
  36000000 * p < 10 * n.dispH * (n.dispW + 4 * p * n.fd Fd.DISP_CTRL_LINEGAP) * n.frameRate ||
  base < 0x20240000 || 0x20280000 < base + n.imageBytes ||
  (src < 24 && !(4 ≤ (n.chan src).mode && (n.chan src).mode ≤ 7)) ||
  signed 8 (n.fd Fd.DISP_TEMP_TMAX) ≤ signed 8 (n.fd Fd.DISP_TEMP_TMIN)
/-- Settings that may not change while an update runs or the rails are up. -/
def Node.dispFixed (old n : Node) : Bool :=
  n.rd Ad.DISP_GEOM == old.rd Ad.DISP_GEOM && n.rd Ad.DISP_BASE == old.rd Ad.DISP_BASE && n.rd Ad.DISP_VCOM == old.rd Ad.DISP_VCOM &&
  n.fd Fd.DISP_CTRL_FRATE == old.fd Fd.DISP_CTRL_FRATE && n.fd Fd.DISP_CTRL_PCLK == old.fd Fd.DISP_CTRL_PCLK &&
  n.fd Fd.DISP_CTRL_LINEGAP == old.fd Fd.DISP_CTRL_LINEGAP
/-- An update runs, or the rails are up. -/
def Node.dispActive (n : Node) : Bool := n.disp.upd.isSome || n.disp.rails != .down

/-! ### Waveforms (R332, R346) -/

/-- The number of a band of a set: FULL 0 to 7, PART 8 to 15. -/
def bandNo (full : Bool) (b : Nat) : Nat := if full then b else 8 + b
/-- The four code words of a pair of a band, 16 frames in each. -/
def Node.waveWord (n : Node) (bn from_ to_ k : Nat) : Word := n.k (Kid.wave bn (from_ * 4 + to_) k)
def Node.waveLen (n : Node) (bn : Nat) : Nat := (n.k (Kid.waveLen bn)).toNat
/-- The drive code of a pair in frame f. -/
def Node.waveCode (n : Node) (bn from_ to_ f : Nat) : Nat := (n.waveWord bn from_ to_ (f / 16)).toNat / 2 ^ (f % 16 * 2) % 4
/-- The grey level of a pixel (R329). -/
def Image.pixel (i : Image) (w x y : Nat) : Nat :=
  ((Bank.get i.fill i.cells (y * (w / 4) + x / 4)).toNat / 2 ^ (x % 4 * 2)) % 4
/-- The drive code a pixel gets in frame f of the update, by the tables in force at its start (R332, R346): none (0) in a PART update where its level does not change. -/
def Node.pixelCode (n : Node) (u : Upd) (x y f : Nat) : Nat :=
  let a := n.disp.shown.pixel n.dispW x y
  let b := n.disp.incoming.pixel n.dispW x y
  if !u.full && a = b then 0
  else (Bank.get 0#32 u.wave (Kid.wave (bandNo u.full u.band) (a * 4 + b) (f / 16))).toNat / 2 ^ (f % 16 * 2) % 4

/-! ### Temperature (R333) -/

/-- The panel temperature, and whether a channel was replaced by TFIX. -/
def Node.panelTemp (n : Node) : Word × Bool :=
  let fix := f32OfQ ⟨signed 8 (n.fd Fd.DISP_TEMP_TFIX), 1⟩
  let src := n.fd Fd.DISP_TEMP_TSRC
  if src = 24 then (n.rd Ad.UC_CJTEMP, false)
  else if 24 < src then (fix, false)
  else
    let v := n.readSrc 0 0 src
    if v.fault || v.stale || (f32Val v.val).isNone then (fix, true) else (v.val, false)
def bandOfTemp (t : Q) : Nat :=
  if Q.lt t (q 0) then 0 else if Q.le (q 60) t then 7 else 1 + (Q.floor (Q.div t (q 10))).toNat

/-! ### Ends of updates and of the rails (R335, R337, R340) -/

def Node.dispReply (n : Node) (p : Option Port) (lines : List (LineKind × List Item)) : Node :=
  match p with
  | some p => n.twReply p lines
  | none => n
def railErr (k : Nat) (mv : Int) : LineKind × List Item :=
  (.error 504, [.w (errText 504), .w "RAIL", .w (railName k), .i mv])

/-- The display is OFF (R350); a wish to enable it again follows. -/
def Node.dispOff (n : Node) : Node :=
  let n := (((n.setFd Fd.DISP_STAT_STATE 0).setOn Fd.DISP_EVT_OFF true).ring 206).dispWatch [.w "STATE", .w "OFF"]
  if n.disp.then_ = 2 then
    (({ n with disp := { n.disp with then_ := 0 } }).setFd Fd.DISP_STAT_STATE 1).dispWatch [.w "STATE", .w "ON"]
  else n
/-- Counts of an update that ends (R340). -/
def Node.updCount (n : Node) (u : Upd) : Node :=
  if u.frames = 0 then n
  else
    let n := n.setFd Fd.DISP_CNT_UPDATES (n.fd Fd.DISP_CNT_UPDATES + 1)
    if u.full then n else n.bump Fd.DISP_CNT_PARTS 1
/-- An update completes (R340). -/
def Node.updDone (n : Node) (u : Upd) : Node :=
  let n := (n.updCount u).setFds ([(Fd.DISP_STAT_IMGUNK, 0), (Fd.DISP_STAT_LAST, 1), (Fd.DISP_STAT_BUSY, 0), (Fd.DISP_EVT_DONE, 1)] ++
    (if u.full then [(Fd.DISP_CNT_PARTS, 0)] else []))
  let n := { n with disp := { n.disp with upd := none, shown := n.disp.incoming } }
  let n := (n.ring 200).dispWatch [.w "DONE"]
  n.dispReply u.who [(.data, [.w "DISP DONE FRAMES", .n u.frames, .w "BAND", .n u.band, .w "TEMP", .f u.temp]), (.done, [])]
/-- An update ends as ABANDONED (R337, R462, R352). -/
def Node.updAbandon (n : Node) (cause : Byte) (err : LineKind × List Item) (m : Moment) : Node :=
  match n.disp.upd with
  | none => n
  | some u =>
    let n := (n.updCount u).setFds ([(Fd.DISP_STAT_LAST, 2), (Fd.DISP_STAT_BUSY, 0), (Fd.DISP_STAT_SNAP, 0), (Fd.DISP_EVT_ABANDONED, 1)] ++
      (if u.frames = 0 then [] else [(Fd.DISP_STAT_IMGUNK, 1)]))
    let n := (n.bump Fd.DISP_CNT_ABANDONED 1)
    let n := { n with disp := { n.disp with upd := none } }
    let n := ((n.raiseM 0x0A1 [BitVec.ofNat 8 (u.frames - 1), cause] m helpDisp).ring 202).dispWatch [.w "ABANDONED"]
    n.dispReply u.who [err]
/-- A rail fault (R337): `phase` 0 power-up, 1 frames or hold, 2 power-down. -/
def Node.railFault (n : Node) (k phase : Nat) (mv : Int) (m : Moment) : Node :=
  let n := ((n.setOn Fd.DISP_EVT_RAILFAULT true).ring 201).raiseM 0x0A0
    ([BitVec.ofNat 8 k, BitVec.ofNat 8 phase] ++ bytesLE 2 (twos 16 mv)) m helpDisp
  n.dispWatch [.w "RAILFAULT", .w (railName k)]
def Node.railBit (n : Node) (k : Nat) (b : Bool) : Node := n.setOn ⟨Ad.DISP_STAT, k, k⟩ b
def Node.railMv (n : Node) (k : Nat) (mv : Int) : Node := n.setFd (Fd.DISP_RAIL_MV k) (twos 16 mv)

/-- Rails start: VGL first (R334). -/
def Node.railsStart (n : Node) (t : Nat) : Node :=
  { n with disp := { n.disp with rails := .rising 1, railAt := t + ms1 } }
/-- Rails begin discharging, in the order of the list, from a time (R335). -/
def Node.railsFall (n : Node) (l : List Nat) (t : Nat) : Node :=
  let n := { n with disp := { n.disp with rails := .falling l, railAt := t + ms1, faulted := false, holdEnd := none } }
  match l with
  | k :: _ => n.railBit k false
  | [] => n
def allDown : List Nat := [4, 3, 2, 1, 0]
/-- The rails are up: the hold is reached, and an update that waits begins its frames. -/
def Node.railsUp (n : Node) (t : Nat) : Node :=
  let n := { n with disp := { n.disp with rails := .up, upd := n.disp.upd.map (fun (u : Upd) =>
    if u.begun then { u with frame0 := some (Nat.max t (u.snapAt + snapMax)) } else u) } }
  if n.disp.held then
    let n := (n.ring 203).dispReply n.disp.heldBy [(.done, [])]
    { n with disp := { n.disp with heldBy := none } }
  else n
/-- Power-down has ended: an update whose frames are done completes, one that waits powers the rails up again, and a
draining display is OFF. -/
def Node.railsDown (n : Node) (t : Nat) : Node :=
  let n := { n with disp := { n.disp with rails := .down, faulted := false } }
  match n.disp.upd with
  | some u =>
    if u.over_ then
      let n := n.updDone u
      if n.dispState = 2 then n.dispOff else n
    else if u.begun then n.railsStart t else n
  | none =>
    if n.dispState = 2 then n.dispOff
    else if n.disp.held then n.railsStart t else n
/-- The hold of DO DISP RAILS ends; a line that still waits for it gets the line given. -/
def Node.unhold (n : Node) (line : LineKind × List Item) : Node :=
  let p := n.disp.heldBy
  ({ n with disp := { n.disp with held := false, heldBy := none } }).dispReply p [line]

/-! ### Starting updates (R330, R333, R340, R344) -/

/-- Why an update or a hold cannot start now. -/
def Node.dispReady (n : Node) : Except Err Unit := do
  need (n.dispState == 1) 303
  need n.disp.upd.isNone 308
  if n.bank 1 = 0 then .error ⟨308, [.w "BANK B"]⟩ else .ok ()
/-- Starts an update; answers whether FULL was forced. -/
def Node.updStart (n : Node) (wantFull : Bool) (grey : Option Nat) (who : Option Port) (m : Moment) : Except Err (Node × Bool) := do
  n.dispReady
  need (!n.disp.held) 308
  let pm := n.fd Fd.DISP_CTRL_PARTMAX
  let forced := !wantFull && (n.on Fd.DISP_STAT_IMGUNK || (pm != 0 && pm ≤ n.fd Fd.DISP_CNT_PARTS))
  let full := wantFull || forced
  let (t, swapped) := n.panelTemp
  let tq := f32Q t
  let band := bandOfTemp tq
  let len := n.waveLen (bandNo full band)
  need (len != 0) 206
  let out := Q.lt tq ⟨signed 8 (n.fd Fd.DISP_TEMP_TMIN), 1⟩ || Q.lt ⟨signed 8 (n.fd Fd.DISP_TEMP_TMAX), 1⟩ tq
  let deg := twos 8 (Q.round tq)
  let n := if forced then ((n.setOn Fd.DISP_EVT_FORCED true).ring 207).dispWatch [.w "FORCED"] else n
  let n := n.setOn Fd.DISP_STAT_TEMPRANGE (out || swapped)
  let n := if out || swapped then ((n.setOn Fd.DISP_EVT_TEMPRANGE true).ring 207).raiseM 0x0A2
      [BitVec.ofNat 8 deg, if swapped then 1#8 else 0#8] m helpDisp else n
  let n := n.setFds [(Fd.DISP_STAT_BUSY, 1), (Fd.DISP_STAT_BAND, band), (Fd.DISP_LAST_TEMP, deg), (Fd.DISP_LAST_MODE, if full then 0 else 1),
    (Fd.DISP_LAST_FRAMES, 0)]
  let u : Upd := { full, grey, who, band, len, temp := t, frames := 0, begun := false, snapAt := 0, frame0 := none, over_ := false,
                   wave := n.key.filter (fun x => 0x20000 ≤ x.1 && x.1 < 0x30000) }
  pure (({ n with disp := { n.disp with upd := some u } }).dispWatch [.w "START"], forced)
/-- The target image as SRAM holds it. -/
def Node.targetImage (n : Node) : Image :=
  let b := n.fd Fd.DISP_BASE_BASE
  ⟨0#8, (n.mem.filter (fun c => b ≤ c.1 && c.1 < b + n.imageBytes)).map (fun c => (c.1 - b, c.2))⟩
/-- The update taken begins: its image is what the target (or the grey) gives now. -/
def Node.dispBegin (n : Node) (u : Upd) (t : Nat) (inc : Image) : Node :=
  let u := { u with begun := true, snapAt := t, frame0 := if n.disp.rails = .up then some (t + snapMax) else none }
  let n := { n with disp := { n.disp with upd := some u, incoming := inc, holdEnd := none } }
  let n := if u.grey.isNone then n.setOn Fd.DISP_STAT_SNAP true else n
  if n.disp.rails = .down then n.railsStart t else n

/-- The beat boundary after the command's S7: the snapshot begins, and the rails where they are down (R330, R334). -/
def Node.dispBeat (n : Node) : Node :=
  match n.disp.upd with
  | some u =>
    if u.begun then n
    else n.dispBegin u (n.mono 0) (match u.grey with
        | some g => ⟨BitVec.ofNat 8 (g * 0x55), []⟩
        | none => n.targetImage)
  | none => if n.disp.held && n.disp.rails == .down then n.railsStart (n.mono 0) else n

/-- The snapshot ends (R330). A byte the target changed while it ran is taken as it was or as it is: which, the spec
leaves open. -/
def Node.snapDone (n : Node) : Node :=
  let old := n.disp.incoming
  let new := n.targetImage
  let offs := (old.cells.map (·.1) ++ new.cells.map (·.1)).eraseDups
  let n := offs.foldl (fun (n : Node) o =>
    let a := Bank.get 0#8 old.cells o
    let b := Bank.get 0#8 new.cells o
    if a = b then n
    else
      let (w, n) := n.fresh
      let inc := n.disp.incoming
      { n with disp := { n.disp with incoming := ⟨inc.fill, Bank.set inc.fill inc.cells o (if w.getLsbD 0 then b else a)⟩ } }) n
  n.setOn Fd.DISP_STAT_SNAP false
def execSnapshotEnd (m : Moment) (s : State) : Host.Outcome State Fault Refusal :=
  s.lift fun n => match n.disp.upd with
    | some u => if n.awake && n.on Fd.DISP_STAT_SNAP && u.snapAt + n.imageBytes / 4 * 20 ≤ n.mono m then n.snapDone else n
    | none => n

/-! ### Rail and frame events -/

/-- The window of a rail in mV (Table 12-1). -/
def Node.railWindow (n : Node) (k : Nat) : Int × Int :=
  match k with
  | 0 => (-21000, -19000) | 1 => (21000, 23000) | 2 => (-15300, -14700) | 3 => (14700, 15300)
  | _ => let v : Int := -10 * (n.fd Fd.DISP_VCOM_VCOM : Nat)
         (v - 30, v + 30)
def execRailPowerUpStep (mv : Int) (m : Moment) (s : State) : Host.Outcome State Fault Refusal :=
  s.lift fun n => match n.disp.rails with
    | .rising k =>
      if !n.awake || n.mono m < n.disp.railAt then n
      else
        let n := n.railMv (k - 1) mv
        let (lo, hi) := n.railWindow (k - 1)
        let t := n.disp.railAt
        if lo ≤ mv ∧ mv ≤ hi then
          let n := n.railBit (k - 1) true
          if 5 ≤ k then n.railsUp t else { n with disp := { n.disp with rails := .rising (k + 1), railAt := t + ms1 } }
        else
          let n := (n.railFault (k - 1) 0 mv m).updAbandon 0#8 (railErr (k - 1) mv) m
          let n := if n.disp.held then n.unhold (railErr (k - 1) mv) else n
          n.railsFall ((List.range k).reverse) t
    | _ => n
def execRailPowerDownStep (mv : Int) (m : Moment) (s : State) : Host.Outcome State Fault Refusal :=
  s.lift fun n => match n.disp.rails with
    | .falling (r :: rest) =>
      if !n.awake || n.mono m < n.disp.railAt then n
      else
        let t := n.disp.railAt
        let ok := -1000 ≤ mv && mv ≤ 1000
        let n := n.railMv r mv
        let n := if ok || n.disp.faulted then n else n.railFault r 2 mv m
        match rest with
        | k :: _ => ({ n with disp := { n.disp with rails := .falling rest, railAt := t + ms1, faulted := false } }).railBit k false
        | [] =>
          if ok then n.railsDown t
          else { n with disp := { n.disp with railAt := t + ms1, faulted := true } }
    | .falling [] => if n.awake then n.railsDown (n.mono m) else n
    | _ => n
/-- A rail has been outside its window for 100 µs while the rails are up (R336, R337). -/
def execRailFault (k : Nat) (mv : Int) (m : Moment) (s : State) : Host.Outcome State Fault Refusal :=
  s.lift fun n =>
    if n.awake && n.disp.rails == .up && k < 5 then
      let n := ((n.railMv k mv).railFault k 1 mv m).updAbandon 0#8 (railErr k mv) m
      ({ n with disp := { n.disp with held := false } }).railsFall allDown (n.mono m)
    else n
/-- When frame k of an update is due. -/
def Node.frameAt (n : Node) (f0 k : Nat) : Nat := f0 + (k * qnsSec + n.frameRate - 1) / n.frameRate
def execDispFrameStart (m : Moment) (s : State) : Host.Outcome State Fault Refusal :=
  s.lift fun n => match n.disp.upd with
    | some u => match u.frame0 with
      | some f0 =>
        if !n.awake || n.sys.power == .powerfail || n.disp.rails != .up || u.over_ || n.mono m < n.frameAt f0 u.frames then n
        else if u.frames < u.len then
          ({ n with disp := { n.disp with upd := some { u with frames := u.frames + 1 } } }).setFd Fd.DISP_LAST_FRAMES (u.frames + 1)
        else if n.fd Fd.DISP_CTRL_RAILHOLD != 0 && n.dispState == 1 then
          let n := n.updDone u
          { n with disp := { n.disp with holdEnd := some (n.frameAt f0 u.frames + n.fd Fd.DISP_CTRL_RAILHOLD * 400000000) } }
        else ({ n with disp := { n.disp with upd := some { u with over_ := true } } }).railsFall allDown (n.frameAt f0 u.frames)
      | none => n
    | none => n
def execRailholdExpiry (m : Moment) (s : State) : Host.Outcome State Fault Refusal :=
  s.lift fun n => match n.disp.holdEnd with
    | some t => if n.awake && n.disp.rails == .up && n.disp.upd.isNone && t ≤ n.mono m then n.railsFall allDown t else n
    | none => n

/-! ### Fast discharge (R339, R462) -/

/-- The fast discharge begins when any rail is up: VSH and VSL first. -/
def Node.fastStart (n : Node) : Node :=
  match n.disp.rails with
  | .down => n
  | .fast _ => n
  | _ =>
    let n := if n.disp.held then n.unhold (.error 504, [.w (errText 504)]) else n
    (({ n with disp := { n.disp with rails := .fast 0, holdEnd := none } }).railBit 3 false).railBit 2 false
def execDisplayUndervoltage (m : Moment) (s : State) : Host.Outcome State Fault Refusal :=
  s.lift fun n =>
    if n.disp.rails = .down then n
    else
      let (w, n) := if n.disp.upd.isSome then n.fresh else (0#32, n)
      (n.updAbandon (BitVec.ofNat 8 w.toNat) (.error 504, [.w (errText 504)]) m).fastStart
/-- VCOM, then VGH, then VGL discharge (Table 12-3). -/
def execFastDischargeStep (m : Moment) (s : State) : Host.Outcome State Fault Refusal :=
  s.lift fun n => match n.disp.rails with
    | .fast 0 => ({ n with disp := { n.disp with rails := .fast 1 } }).railBit 4 false
    | .fast 1 => ({ n with disp := { n.disp with rails := .fast 2 } }).railBit 1 false
    | .fast _ => (n.railBit 0 false).railsDown (n.mono m)
    | _ => n
/-- Bank B has become ABSENT (R462). -/
def Node.dispBankB (n : Node) (m : Moment) : Node :=
  if n.disp.rails = .down then n
  else (n.updAbandon 3#8 (.error 308, [.w (errText 308), .w "BANK B"]) m).fastStart

/-! ### Draining and settings (R343, R348, R350) -/

/-- The request to drain. -/
def Node.dispDrain (n : Node) : Node :=
  let n := { n with disp := { n.disp with then_ := 0 } }
  if n.dispState != 1 then n
  else
    let n := (n.setFd Fd.DISP_STAT_STATE 2).dispWatch [.w "STATE", .w "DRAINING"]
    if n.disp.upd.isSome then n
    else
      let n := if n.disp.held then n.unhold (.error 303, [.w (errText 303)]) else n
      match n.disp.rails with
      | .down => n.dispOff
      | .up => n.railsFall allDown (n.mono 70000)
      | .rising k => n.railsFall ((List.range k).reverse) (n.mono 70000)
      | _ => n
def Node.dispEnable (n : Node) : Node :=
  match n.dispState with
  | 0 => (n.setFd Fd.DISP_STAT_STATE 1).dispWatch [.w "STATE", .w "ON"]
  | 2 => { n with disp := { n.disp with then_ := 2 } }
  | _ => n
/-- The LCD goes ON with a first frame at the next beat, or is asked to finish its frame. -/
def Node.lcdFollow (n : Node) : Node :=
  match n.fd Fd.LCD_STAT_STATE, n.on Fd.LCD_CTRL_ENABLE with
  | 0, true => ({ n with disp := { n.disp with lcdAt := n.mono 80000 } }).setFd Fd.LCD_STAT_STATE 1
  | 2, true => n.setFd Fd.LCD_STAT_STATE 1
  | 1, false => n.setFd Fd.LCD_STAT_STATE 2
  | _, _ => n
/-- What changed DISP and LCD settings bring. -/
def Node.dispChanged (old n : Node) : Node :=
  let a := old.on Fd.DISP_CTRL_ENABLE
  let b := n.on Fd.DISP_CTRL_ENABLE
  let n := if b then (if a && n.dispState != 2 then n else n.dispEnable) else if a then n.dispDrain else n
  n.lcdFollow
/-- The words a register write may leave (Table 12-6, R343). -/
def Node.dispWordsOk (n : Node) : Bool :=
  let w := n.dispW
  let h := n.dispH
  let t := fun (f : Fd) => -40 ≤ signed 8 (n.fd f) && signed 8 (n.fd f) ≤ 85
  n.fd Fd.DISP_CTRL_RAILHOLD ≤ 100 && 1 ≤ n.fd Fd.DISP_CTRL_LINEGAP && 64 ≤ w && w ≤ 1024 && w % 8 == 0 && 32 ≤ h && h ≤ 768 &&
  20 ≤ n.fd Fd.DISP_VCOM_VCOM && n.fd Fd.DISP_VCOM_VCOM ≤ 330 && n.fd Fd.DISP_TEMP_TSRC ≤ 25 && t Fd.DISP_TEMP_TFIX &&
  t Fd.DISP_TEMP_TMIN && t Fd.DISP_TEMP_TMAX && n.fd Fd.DISP_BASE_BASE % 4 == 0 && 25 ≤ n.fd Fd.LCD_CTRL_VLCD &&
  n.fd Fd.LCD_CTRL_VLCD ≤ 50 && 64 ≤ n.fd Fd.LCD_CTRL_LFRATE && n.fd Fd.LCD_CTRL_LFRATE ≤ 128
/-- A write to the settings registers is applied only when the SET would be (R348). -/
def Node.dispRegOk (old n : Node) : Bool :=
  n.dispWordsOk && !n.dispConflict && (Node.dispFixed old n || !old.dispActive) &&
  (old.dispState != 2 || n.on Fd.DISP_CTRL_ENABLE)
def Node.dispCfgErr (n : Node) : Node := (n.setOn Fd.DISP_EVT_CFGERR true).ring 204
/-- A line other than ENABLE=ON is refused while the display drains. -/
def Node.dispOpen (n : Node) (keys : Keys) : Except Err Unit :=
  need (n.dispState != 2 || keys == [("ENABLE", .words ["ON"])]) 303
def Node.dispCheck (n : Node) (keys : Keys) : Except Err Unit := do
  checkKeys dispSpecs [] keys
  let n' := n.putKeys dispSpecs 0 keys
  need (n'.dispW % 8 == 0 && n'.fd Fd.DISP_BASE_BASE % 4 == 0) 204
  need (!n'.dispConflict) 205
  n.dispOpen keys
  need (Node.dispFixed n n' || !n.dispActive) 308
def execSetDisp (l : Line) (s : State) : Host.Outcome State Fault Refusal :=
  s.lift fun n => n.runWhole l .disp (fun n => n.dispCheck l.keys)
    (fun n => .ok (Node.dispChanged n (n.setKeys dispSpecs 0 l.keys), []))

def waveSpecs : List KeySpec := [kk "MODE" (.enum [("FULL", 0), ("PART", 1)]) (fun _ => 0), kk "BAND" (.int 0 7) (fun _ => 0),
  kk "LEN" (.int 0 64) (fun _ => 0), kk "FROM" (.int 0 3) (fun _ => 0), kk "TO" (.int 0 3) (fun _ => 0)]
def waveNum (keys : Keys) (k : String) : Nat := (keyNum waveSpecs keys k).getD 0
def waveBand (keys : Keys) : Nat := bandNo (waveNum keys "MODE" == 0) (waveNum keys "BAND")
def execSetDispWaveLen (l : Line) (s : State) : Host.Outcome State Fault Refusal :=
  s.lift fun n => n.runWhole l .disp (fun n => do
      onlyKeys ["MODE", "BAND", "LEN"] ["MODE", "BAND", "LEN"] l.keys
      checkKeys waveSpecs [] l.keys
      n.dispOpen l.keys)
    (fun n => .ok ((n.setK (Kid.waveLen (waveBand l.keys)) (BitVec.ofNat 32 (waveNum l.keys "LEN"))).dirty, []))
/-- The code words of 32 hex digits: a digit carries two frames, the earlier in its upper two bits. -/
def waveWords (ds : List Nat) : List Word :=
  (List.range 4).map (fun k => BitVec.ofNat 32 ((List.range 8).foldl (fun a i =>
    let d := ds.getD (8 * k + i) 0
    a + (d / 4 + d % 4 * 4) * 16 ^ i) 0))
/-- The digits of DATA: 32 of them, else `?E203`. -/
def waveDigits : Option Val → Except Err (List Nat)
  | some (.words [w]) =>
    let cs := codesOf w
    if cs.length = 32 && cs.all isHexDigit then .ok (cs.map hexVal) else refuse 203
  | some (.int v) =>
    let cs := codesOf (toString v)
    if cs.length = 32 && cs.all isHexDigit then .ok (cs.map hexVal) else refuse 203
  | _ => refuse 203
def Node.setWave (n : Node) (bn from_ to_ k : Nat) (w : Word) : Node := n.setK (Kid.wave bn (from_ * 4 + to_) k) w
def execSetDispWaveData (l : Line) (s : State) : Host.Outcome State Fault Refusal :=
  s.lift fun n => n.runWhole l .disp (fun n => do
      onlyKeys ["MODE", "BAND", "FROM", "TO", "DATA"] ["MODE", "BAND", "FROM", "TO", "DATA"] l.keys
      let _ ← waveDigits (keyVal l.keys "DATA")
      checkKeys waveSpecs [] (l.keys.filter (fun p => p.1 != "DATA"))
      n.dispOpen l.keys)
    (fun n => do
      let ds ← waveDigits (keyVal l.keys "DATA")
      let ws := waveWords ds
      let n := (List.range 4).foldl (fun n k =>
        n.setWave (waveBand l.keys) (waveNum l.keys "FROM") (waveNum l.keys "TO") k (ws.getD k 0#32)) n
      pure (n.dirty, []))

/-! ### DO DISP -/

def updSpecs : List KeySpec := [kk "MODE" (.enum [("FULL", 0), ("PART", 1)]) (fun _ => 0), kk "GREY" (.int 0 3) (fun _ => 0),
  kk "WAIT" onOff (fun _ => 0)]
/-- DO DISP UPDATE (R344). -/
def execDoDispUpdate (l : Line) (s : State) : Host.Outcome State Fault Refusal :=
  s.lift fun n => n.runOpen l (fun n => do
    l.bare
    checkKeys updSpecs [] l.keys
    let wait := keyNum updSpecs l.keys "WAIT" == some 1
    let full := keyNum updSpecs l.keys "MODE" == some 0
    let (n', forced) ← n.updStart full (keyNum updSpecs l.keys "GREY") (if wait then some l.port else none) 70000
    n.mayWrite l.port .disp none
    let data := if forced then [[Item.w "DISP FORCED FULL"]] else []
    if wait then
      let n' := n'.send l.port l.tag (data.map (fun i => (.data, i))) false
      pure (n'.setPort l.port { n'.port l.port with await := some ⟨l.tag, .disp, n.tick⟩ })
    else pure (n'.replyOk l data))

def loadSpecs : List KeySpec := [kk "X" (.int 0 1023) (fun _ => 0), kk "Y" (.int 0 767) (fun _ => 0)]
/-- DO DISP LOAD (R345). -/
def execDoDispLoad (l : Line) (s : State) : Host.Outcome State Fault Refusal :=
  s.lift fun n => n.runWhole l .disp (fun n => do
      onlyKeys ["X", "Y", "DATA"] ["X", "Y", "DATA"] l.keys
      let d ← dataKey l.keys 32
      checkKeys loadSpecs [] (l.keys.filter (fun p => p.1 != "DATA"))
      let x := (keyNum loadSpecs l.keys "X").getD 0
      need (x + 4 * d.length ≤ n.dispW && (keyNum loadSpecs l.keys "Y").getD 0 < n.dispH) 201
      need (x % 4 == 0) 204
      n.dispOpen l.keys)
    (fun n => do
      let d ← dataKey l.keys 32
      let a := n.fd Fd.DISP_BASE_BASE + (keyNum loadSpecs l.keys "Y").getD 0 * (n.dispW / 4) + (keyNum loadSpecs l.keys "X").getD 0 / 4
      if n.on Fd.DISP_STAT_SNAP then pure ({ n with disp := { n.disp with loads := n.disp.loads ++ [(a, d)] } }, [])
      else pure (n.setBytes a d, []))
/-- Waiting LOAD lines take effect at the first S7 after SNAP clears (R345). -/
def Node.dispS7 (n : Node) : Node :=
  if n.on Fd.DISP_STAT_SNAP then n
  else n.disp.loads.foldl (fun n x => n.setBytes x.1 x.2) { n with disp := { n.disp with loads := [] } }

def railsSpecs : List KeySpec := [kk "RAILS" onOff (fun _ => 0)]
/-- RAILS=ON: held from now on; answers whether the rails are up already. -/
def Node.railsOn (n : Node) (who : Option Port) : Except Err (Node × Bool) := do
  n.dispReady
  let n := { n with disp := { n.disp with held := true, holdEnd := none } }
  if n.disp.rails = .up then pure (n.ring 203, true)
  else pure ({ n with disp := { n.disp with heldBy := who } }, false)
/-- RAILS=OFF: held rails power down. -/
def Node.railsOff (n : Node) (t : Nat) : Node :=
  if !n.disp.held then n
  else
    let n := n.unhold (.done, [])
    match n.disp.rails with
    | .up => n.railsFall allDown t
    | .rising k => n.railsFall ((List.range k).reverse) t
    | _ => n
/-- DO DISP RAILS (R347): ON ends its reply when the rails are up. -/
def execDoDispRails (l : Line) (s : State) : Host.Outcome State Fault Refusal :=
  s.lift fun n => n.runOpen l (fun n => do
    l.bare
    checkKeys railsSpecs ["RAILS"] l.keys
    n.dispOpen l.keys
    if keyNum railsSpecs l.keys "RAILS" == some 1 then
      let (n', up) ← n.railsOn (some l.port)
      n.mayWrite l.port .disp none
      if up || n.disp.held then pure ({ n' with disp := { n'.disp with heldBy := n.disp.heldBy } }.replyOk l [])
      else pure (n'.setPort l.port { n'.port l.port with await := some ⟨l.tag, .disp, n.tick⟩, replyOpen := true })
    else do
      n.mayWrite l.port .disp none
      pure ((n.railsOff (n.mono 70000)).replyOk l []))

/-! ### The LCD (R341, R342) -/

def lcdShadows : List Nat := (List.range 4).flatMap (fun c => [Ad.LCD_SEGLO c, Ad.LCD_SEGHI c, Ad.LCD_BLKLO c, Ad.LCD_BLKHI c])
def Node.lcdCommit (n : Node) : Node := n.setOn Fd.LCD_STAT_PENDING true
def execLcdCommit (_rq : Rq) (v : Word) (s : State) : Host.Outcome State Fault Refusal :=
  s.lift fun n => if n.awake && v.getLsbD 0 then n.lcdCommit else n
/-- An LCD frame begins, or the LCD goes OFF at the end of its last one. -/
def Node.lcdFrame (n : Node) (m : Moment) : Node :=
  if n.fd Fd.LCD_STAT_STATE = 2 then ((n.setFd Fd.LCD_STAT_STATE 0).setOn Fd.DISP_EVT_OFF true).ring 206
  else
    let f := n.rd Ad.LCD_CTRL
    let hz := Nat.max 1 (Fd.LCD_CTRL_LFRATE.get f)
    let n := { n with disp := { n.disp with lcdF := f, lcdAt := n.disp.lcdAt + (qnsSec + hz - 1) / hz, blink := qnsOf (n.now m) < 2000000000 } }
    if n.on Fd.LCD_STAT_PENDING then
      let n := { n with disp := { n.disp with lcdUse := lcdShadows.foldl (fun u a => Bank.set 0#32 u a (n.rd a)) n.disp.lcdUse } }
      ((n.setOn Fd.LCD_STAT_PENDING false).setOn Fd.DISP_EVT_LCDCOMMIT true).ring 205
    else n
def execLcdFrameStart (m : Moment) (s : State) : Host.Outcome State Fault Refusal :=
  s.lift fun n => if n.awake && n.fd Fd.LCD_STAT_STATE != 0 && n.disp.lcdAt ≤ n.mono m then n.lcdFrame m else n
/-- The level of a common in a slot, in thirds of VLCD; 0 while the LCD is OFF (Table 12-4). -/
def Node.lcdCom (n : Node) (slot c : Nat) : Nat :=
  if n.fd Fd.LCD_STAT_STATE = 0 then 0
  else if slot < 4 then (if slot % 4 = c then 3 else 1) else (if slot % 4 = c then 0 else 2)
/-- Segment s of common c is on: its bit in use, and for a blinking one the first half of the second. -/
def Node.segOn (n : Node) (c s : Nat) : Bool :=
  let w := fun (lo hi : Nat) => if s < 32 then (Bank.get 0#32 n.disp.lcdUse lo).getLsbD s else (Bank.get 0#32 n.disp.lcdUse hi).getLsbD (s - 32)
  w (Ad.LCD_SEGLO c) (Ad.LCD_SEGHI c) && (n.disp.blink || !w (Ad.LCD_BLKLO c) (Ad.LCD_BLKHI c))
/-- The level of a segment in a slot, in thirds of VLCD. -/
def Node.lcdSeg (n : Node) (slot s : Nat) : Nat :=
  if n.fd Fd.LCD_STAT_STATE = 0 then 0
  else
    let on := n.segOn (slot % 4) s
    if slot < 4 then (if on then 0 else 2) else (if on then 3 else 1)

def comSpecs : List KeySpec := [kk "COM" (.int 0 3) (fun _ => 0), kk "SEGLO" (.big 0 0xFFFFFFFF) (fun _ => 0),
  kk "SEGHI" (.big 0 0xFF) (fun _ => 0), kk "BLINKLO" (.big 0 0xFFFFFFFF) (fun _ => 0), kk "BLINKHI" (.big 0 0xFF) (fun _ => 0)]
/-- SET DISP COM (R347): the shadows of one common, and the commit. -/
def execSetDispCom (l : Line) (s : State) : Host.Outcome State Fault Refusal :=
  s.lift fun n => n.runWhole l .disp (fun n => do
      checkKeys comSpecs (["COM", "SEGLO", "SEGHI"] ++ (if hasKey l.keys "BLINKLO" then ["BLINKHI"] else []) ++
        (if hasKey l.keys "BLINKHI" then ["BLINKLO"] else [])) l.keys
      n.dispOpen l.keys)
    (fun n =>
      let c := (keyNum comSpecs l.keys "COM").getD 0
      let put := fun (n : Node) (k : String) (f : Fd) => match keyNum comSpecs l.keys k with
        | some v => n.setFd f v
        | none => n
      let n := put (put n "SEGLO" (Fd.LCD_SEGLO_SEG c)) "SEGHI" (Fd.LCD_SEGHI_SEG c)
      let n := put (put n "BLINKLO" (Fd.LCD_BLKLO_BLINK c)) "BLINKHI" (Fd.LCD_BLKHI_BLINK c)
      .ok (n.lcdCommit, []))

/-! ### DISP.CMD (R348) -/

/-- UPDATE: a refused one shows REFUSED and rings source 204. -/
def Node.dispCmdUpdate (n : Node) (v : Word) (m : Moment) : Node :=
  match n.updStart (Fd.DISP_CMD_FULL.get v == 1)
      (if Fd.DISP_CMD_UNIFORM.get v = 1 then some (Fd.DISP_CMD_GREY.get v) else none) none m with
  | .ok (n', _) => n'
  | .error _ => (n.setFd Fd.DISP_STAT_LAST 3).ring 204
def Node.dispCmdRailsOn (n : Node) : Node :=
  match n.railsOn n.disp.heldBy with
  | .ok (n', _) => n'
  | .error _ => n.dispCfgErr
def Node.dispCmdRailsOff (n : Node) (m : Moment) : Node :=
  if n.dispState == 2 then n.dispCfgErr else n.railsOff (n.mono m)
def execDispCmdUpdate (_rq : Rq) (v : Word) (m : Moment) (s : State) : Host.Outcome State Fault Refusal :=
  s.lift fun n => if n.awake && Fd.DISP_CMD_UPDATE.get v == 1 then n.dispCmdUpdate v m else n
def execDispCmdRailsOn (_rq : Rq) (v : Word) (_m : Moment) (s : State) : Host.Outcome State Fault Refusal :=
  s.lift fun n => if n.awake && Fd.DISP_CMD_RAILSON.get v == 1 then n.dispCmdRailsOn else n
def execDispCmdRailsOff (_rq : Rq) (v : Word) (m : Moment) (s : State) : Host.Outcome State Fault Refusal :=
  s.lift fun n => if n.awake && Fd.DISP_CMD_RAILSOFF.get v == 1 then n.dispCmdRailsOff m else n

/-! ### Reports -/

def execGetDisp (l : Line) (s : State) : Host.Outcome State Fault Refusal :=
  s.lift fun n => n.runRead l (fun n => do
    l.bare
    onlyKeys [] [] l.keys
    let st := fun (c : Nat) => Item.w (match c with | 0 => "OFF" | 1 => "ON" | _ => "DRAINING")
    let mv := fun (k : Nat) => Item.d (signed 16 (n.fd (Fd.DISP_RAIL_MV k))) 3
    pure [[.w "DISP STATE", st n.dispState, .w "BUSY", .n (n.fd Fd.DISP_STAT_BUSY), .w "LAST",
        .w (match n.fd Fd.DISP_STAT_LAST with | 0 => "NONE" | 1 => "DONE" | 2 => "ABANDONED" | _ => "REFUSED"), .w "MODE",
        .w (if n.fd Fd.DISP_LAST_MODE = 0 then "FULL" else "PART"), .w "FRAMES", .n (n.fd Fd.DISP_LAST_FRAMES), .w "BAND",
        .n (n.fd Fd.DISP_STAT_BAND), .w "TEMP", .i (signed 8 (n.fd Fd.DISP_LAST_TEMP)), .w "IMAGE",
        .w (if n.on Fd.DISP_STAT_IMGUNK then "UNKNOWN" else "KNOWN"), .w "PARTS", .n (n.fd Fd.DISP_CNT_PARTS), .w "UPDATES",
        .n (n.fd Fd.DISP_CNT_UPDATES)],
      [.w "DISP RAILS VGL", mv 0, .w "VGH", mv 1, .w "VSL", mv 2, .w "VSH", mv 3, .w "VCOM", mv 4],
      [.w "DISP LCD", st (n.fd Fd.LCD_STAT_STATE), .w "PENDING", .n (n.fd Fd.LCD_STAT_PENDING)]])
def execShowDisp (l : Line) (s : State) : Host.Outcome State Fault Refusal :=
  s.lift fun n => n.runRead l (fun n => do
    l.bare
    onlyKeys [] [] l.keys
    pure [.w "DISP" :: n.showKeys dispSpecs 0])
/-- The 16 bytes of a pair's codes as DATA writes them. -/
def Node.waveBytes (n : Node) (bn from_ to_ : Nat) : List Byte :=
  (List.range 16).map (fun j =>
    let c := fun i => n.waveCode bn from_ to_ (4 * j + i)
    BitVec.ofNat 8 (c 0 * 64 + c 1 * 16 + c 2 * 4 + c 3))
def execShowDispWave (l : Line) (s : State) : Host.Outcome State Fault Refusal :=
  s.lift fun n => n.runRead l (fun n => do
    l.bare
    onlyKeys ["MODE", "BAND"] ["MODE", "BAND"] l.keys
    checkKeys waveSpecs [] l.keys
    let bn := waveBand l.keys
    pure ([.w "DISP WAVE LEN", .n (n.waveLen bn)] ::
      (List.range 16).map (fun p => [.w "DISP WAVE FROM", .n (p / 4), .w "TO", .n (p % 4), .w "DATA", .b (n.waveBytes bn (p / 4) (p % 4))])))
def execWatchDisp (l : Line) (s : State) : Host.Outcome State Fault Refusal :=
  s.lift fun n => n.runWatch l .disp "" (l.bare.map (fun _ => [none]))

/-! ### Re-initialisation, load, sleep -/

/-- The keys and waveform tables of the store, each setting a SET would refuse left at its reset value (R473). -/
def Node.dispReload (n : Node) : Node :=
  let img := n.image
  let n' := n.reload dispSpecs 0
  let n' := if n'.dispWordsOk && !n'.dispConflict then n'
    else ([Ad.DISP_CTRL, Ad.DISP_GEOM, Ad.DISP_VCOM, Ad.DISP_TEMP, Ad.DISP_BASE, Ad.LCD_CTRL].foldl
      (fun m a => m.wr a (resetWord a)) n').dispCfgErr
  let isWave := fun (k : Nat) => (0x1000 ≤ k && k < 0x1010) || (0x20000 ≤ k && k < 0x30000)
  let keep := n'.key.filter (fun x => !isWave x.1)
  (img.filter (fun x => 2 ^ 33 ≤ x.1 && isWave (x.1 - 2 ^ 33))).foldl (fun m x => m.setK (x.1 - 2 ^ 33) x.2) { n' with key := keep }
/-- The unit of DO DISP REINIT (R351): it drains the display; once OFF it reloads, sets IMGUNK and enables. -/
def Node.dispReinitUnit (n : Node) : Node × Bool :=
  if n.dispState = 0 then
    let n := ((n.dispReload).setOn Fd.DISP_STAT_IMGUNK true).setOn Fd.DISP_CTRL_ENABLE true
    (n.dispEnable.lcdFollow, true)
  else (n.dispDrain, false)
def execDoDispReinit (l : Line) (s : State) : Host.Outcome State Fault Refusal :=
  s.lift fun n => n.runOpen l (fun n => do
    l.bare
    onlyKeys [] [] l.keys
    n.dispOpen l.keys
    n.mayWrite l.port .disp none
    pure (n.startMr l verbDo .disp (.reinit .disp) [0] false))
/-- The store has loaded. -/
def Node.dispLoad (n : Node) : Node :=
  let n := n.dispReload
  let n := if n.on Fd.DISP_CTRL_ENABLE then n.dispEnable else n
  n.lcdFollow
/-- DORMANT entry drains the panel and turns the LCD off at the end of its frame (R349). -/
def Node.dispSleep (n : Node) : Node :=
  let n := n.dispDrain
  if n.fd Fd.LCD_STAT_STATE = 1 then n.setFd Fd.LCD_STAT_STATE 2 else n
def Node.dispQuiet (n : Node) : Bool := n.dispState == 0 && n.fd Fd.LCD_STAT_STATE == 0
def Node.dispWake (n : Node) : Node :=
  let n := if n.on Fd.DISP_CTRL_ENABLE then n.dispEnable else n
  n.lcdFollow
/-- The power-fail warning stops an update at its line in progress (R352); `fastStart` follows at the display step. -/
def Node.dispPowerFail (n : Node) (m : Moment) : Node := n.updAbandon 1#8 (.error 309, [.w (errText 309)]) m

end Sys2Proof.Machine
end

