-- ==== Sys2Proof/Machine/Annex.lean ====
section
/-! DEFINITION. The Annex core but for its instructions (chapter 13): states, loading, starting, stopping, faults, the
watchdog, the boot image, and the command mailbox. -/
namespace Sys2Proof.Machine

/-! ### Leases (R48, R49) -/

/-- The index of a lease as its notices and SHOW SYS LEASE write it. -/
def leaseIdx : Option (List (Nat × Nat)) → Item
  | some l => .x l
  | none => .w "ALL"
/-- Ends the leases chosen, other than by FREE: each holding port is told. -/
def Node.endLeases (n : Node) (gone : Lease → Bool) : Node :=
  let ls := n.cmd.leases.filter gone
  let n := { n with cmd := { n.cmd with leases := n.cmd.leases.filter (fun l => !gone l) } }
  ls.foldl (fun (n : Node) (l : Lease) =>
    n.notifyPort l.port .lease [.w "LEASE", .w (objName l.obj), leaseIdx l.idx, .w "ENDED"]) n

/-! ### States (Table 13-3) -/

def annexStateName (k : Nat) : String := match k with | 0 => "NONE" | 1 => "LOADED" | _ => "RUNNING"
def Node.annexState (n : Node) : Nat := n.fd Fd.SYS_ASTAT_STATE
def Node.annexRuns (n : Node) : Bool := n.annexState == 2

/-- The cycle counter (Table 13-1): 200 MHz while the core runs, one cycle every 20 quarter-ns. -/
def Node.cycles (n : Node) (m : Moment) : Nat :=
  if n.annexRuns && !n.annex.startAt then (n.annex.cyc + (n.mono m - n.annex.cycAt) / 20) % 2 ^ 64 else n.annex.cyc

/-- The core changes state: source 5 rings and watchers are told, with the cause and the PC after a fault (R371). -/
def Node.annexTo (n : Node) (st : Nat) (fault : List Item) : Node :=
  if n.annexState = st then n
  else
    let n := (n.setFd Fd.SYS_ASTAT_STATE st).ring 5
    n.notifyWatch .node "" none ([.w "NODE", .w "ANNEX", .w (annexStateName st)] ++ fault)

/-- The core stops before its next instruction and becomes LOADED (R374): the DIC ends its sources, its leases end. -/
def Node.annexHalt (n : Node) (fault : List Item) (m : Moment) : Node :=
  let cyc := n.cycles m
  let n := { n with annex := { n.annex with cyc := cyc, wfi := false, startAt := false } }
  let n := (n.annexTo 1 fault).dicStop
  n.endLeases (fun l => l.port == .annex)
/-- A stop with its record; `cause` as Table 13-12 numbers it. A stop by QUIET, DORMANT or power fail is resumed (R373). -/
def Node.annexStop (n : Node) (cause : Nat) (m : Moment) : Node :=
  if !n.annexRuns then n
  else
    let n := n.annexHalt [] m
    let n := { n with annex := { n.annex with resume := 2 ≤ cause } }
    if cause = 0 then n.raiseCmd 0x0B2 [0#8] else n.raiseM 0x0B2 [BitVec.ofNat 8 cause] m helpCore
/-- The core resumes at the stopped instruction on the return to FULL; its watchdog restarts from 0 (R373). -/
def Node.annexResume (n : Node) (m : Moment) : Node :=
  if n.annex.resume then
    let n := { n with annex := { n.annex with resume := false, dog := n.mono m, cycAt := n.mono m } }
    n.annexTo 2 []
  else n

/-! ### The check and the start (R361) -/

def tcmBase : Nat := 0x10000000
/-- CRC-32 of the first `len` bytes of the TCM. -/
def Node.tcmCrc (n : Node) (len : Nat) : Nat := crc32 (n.bytes tcmBase len)

/-- The core starts at the entry at the next beat boundary: CSRs at their reset values, TRAP clear, an empty return
stack. `src`: 0 command, 1 boot, 2 restart. -/
def Node.annexStart (n : Node) (entry crc src : Nat) (raise : Node → List Byte → Node) : Node :=
  let n := { n with annex := { n.annex with csr := [], cyc := 0, instret := 0, pc := BitVec.ofNat 32 entry, wfi := false,
                                            startAt := true, resume := false }
                    dic := { n.dic with stack := [] } }
  let n := (n.setOn Fd.SYS_ASTAT_TRAP false).annexTo 2 []
  raise n (bytesLE 4 entry ++ bytesLE 4 crc ++ [BitVec.ofNat 8 src])
/-- The boundary after the start: the core begins, and its watchdog and its cycle count begin at 0. -/
def Node.annexBegin (n : Node) : Node :=
  if n.annex.startAt then
    { n with annex := { n.annex with startAt := false, dog := n.mono 0, cycAt := n.mono 0 } }
  else n

/-! ### Faults and the watchdog (R356 to R358) -/

/-- ANNEX-FAULT is queued, source 4 rings. -/
def Node.annexFaultRecord (n : Node) (cause : Nat) (m : Moment) : Node :=
  let pc := (n.rd Ad.SYS_AFPC).toNat
  let v := (n.rd Ad.SYS_AFVAL).toNat
  (n.raiseM 0x0B0 (BitVec.ofNat 8 cause :: (bytesLE 4 pc ++ bytesLE 4 v)) m helpCore).ring 4
/-- An image that fails its check at a restart or at the boot: cause 18, state NONE (R361, R362). -/
def Node.badImage (n : Node) (m : Moment) : Node :=
  let n := ((n.setFd Fd.SYS_ASTAT_CAUSE 18).wr Ad.SYS_AFPC n.annex.pc).wr Ad.SYS_AFVAL ((Bank.get 0#32 n.annex.csr 0x343))
  (n.annexTo 0 [.w "FAULT", .n 18, .w "PC", .h (n.rd Ad.SYS_AFPC).toNat 8]).annexFaultRecord 18 m
/-- The automatic restart (R357): at most 3 in any 60 s. -/
def Node.annexRestart (n : Node) (m : Moment) : Node :=
  let recent := n.annex.restarts.filter (fun t => n.tick < t + 3000000)
  if !n.on Fd.SYS_AWDCFG_RESTART || 3 ≤ recent.length then n
  else if n.tcmCrc (n.rd Ad.SYS_ALEN).toNat = (n.rd Ad.SYS_ACRC).toNat then
    let n := { n with annex := { n.annex with restarts := recent ++ [n.tick] } }.bump Fd.SYS_ASTAT_RESTARTS 1
    n.annexStart (n.rd Ad.SYS_AENTRY).toNat (n.rd Ad.SYS_ACRC).toNat 2 (fun n p => n.raiseM 0x0B1 p m helpCore)
  else n.badImage m
/-- A double fault (16) or a watchdog expiry (17): the core stops at once (R357). -/
def Node.annexFault (n : Node) (cause : Nat) (m : Moment) : Node :=
  let pc := n.annex.pc
  let n := ((n.setFd Fd.SYS_ASTAT_CAUSE cause).wr Ad.SYS_AFPC pc).wr Ad.SYS_AFVAL (Bank.get 0#32 n.annex.csr 0x343)
  let n := n.annexHalt [.w "FAULT", .n cause, .w "PC", .h pc.toNat 8] m
  let n := n.annexFaultRecord cause m
  let n := n.raiseM 0x0B2 [1#8] m helpCore
  n.annexRestart m

/-- AWDOG in quarter-nanoseconds. -/
def Node.dogTime (n : Node) : Nat := n.fd Fd.SYS_AWDCFG_TIMEOUT * 4000000
def execAnnexWatchdogExpiry (m : Moment) (s : State) : Host.Outcome State Fault Refusal :=
  s.lift fun n =>
    if n.awake && n.annexRuns && !n.annex.startAt && n.dogTime != 0 && n.annex.dog + n.dogTime ≤ n.mono m then
      n.annexFault 17 m
    else n
/-- A write to SYS.AWDSERVE (R358). -/
def Node.dogServe (n : Node) (v : Word) (m : Moment) : Node :=
  if !n.annexRuns || n.dogTime = 0 then n
  else if v = 0xC35A#32 then { n with annex := { n.annex with dog := n.mono m } }
  else n.annexFault 17 m
def execAwdserveWrite (_rq : Rq) (v : Word) (m : Moment) (s : State) : Host.Outcome State Fault Refusal :=
  s.lift fun n => if n.awake then n.dogServe v m else n

/-! ### Commands (R360, R361, R370, R371) -/

def nodeLoadSpecs : List KeySpec := [kk "ADDR" (.big 0x10000000 0x100FFFFF) (fun _ => 0)]
/-- The address of a key with the big form. -/
def bigKey (keys : Keys) (k : String) : Nat := (((keyVal keys k).bind Val.int?).getD 0).toNat

/-- DO NODE LOAD (R360). -/
def execDoNodeLoad (l : Line) (s : State) : Host.Outcome State Fault Refusal :=
  s.lift fun n => n.runWhole l .node
    (fun n => do
      onlyKeys ["ADDR", "DATA"] ["ADDR", "DATA"] l.keys
      match keyVal l.keys "DATA" with
      | some v => if (hexData v).isNone then refuse 203
      | none => refuse 203
      checkKeys nodeLoadSpecs [] (l.keys.filter (fun k => k.1 == "ADDR"))
      let d ← dataKey l.keys 64
      if 0x10100000 < bigKey l.keys "ADDR" + d.length then refuse 201
      if n.sys.power == .quiet then refuse 302
      if n.annexRuns then refuse 308)
    (fun n => do
      let d ← dataKey l.keys 64
      let n := n.setBytes (bigKey l.keys "ADDR") d
      pure (n.annexTo 0 [], []))

def startSpecs : List KeySpec := [kk "ENTRY" (.big 0 0xFFFFFFFF) (fun _ => 0), kk "LEN" (.int 4 1048576) (fun _ => 0),
  kk "CHECK" (.big 0 0xFFFFFFFF) (fun _ => 0)]
/-- The entry is even and lies within the image. -/
def entryIn (entry len : Nat) : Bool := entry % 2 == 0 && tcmBase ≤ entry && entry < tcmBase + len

/-- DO NODE START (R361). -/
def execDoNodeStart (l : Line) (s : State) : Host.Outcome State Fault Refusal :=
  s.lift fun n => n.runOpen l (fun n => do
    l.bare
    checkKeys startSpecs ["ENTRY", "LEN", "CHECK"] l.keys
    let entry := bigKey l.keys "ENTRY"
    let len := bigKey l.keys "LEN"
    let c := bigKey l.keys "CHECK"
    if !entryIn entry len then refuse 201
    if n.sys.power == .quiet then refuse 302
    if n.annexRuns then refuse 308
    n.mayWrite l.port .node none
    let crc := n.tcmCrc len
    if crc != c then pure ((n.annexTo 0 []).replyErr l ⟨308, [.w "CHECK", .h crc 8]⟩)
    else
      let n := ((n.wr Ad.SYS_AENTRY (BitVec.ofNat 32 entry)).wr Ad.SYS_ALEN (BitVec.ofNat 32 len)).wr Ad.SYS_ACRC
        (BitVec.ofNat 32 c)
      pure ((n.annexStart entry c 0 (fun n p => n.raiseCmd 0x0B1 p)).replyOk l []))

def execDoNodeStop (l : Line) (s : State) : Host.Outcome State Fault Refusal :=
  s.lift fun n => n.runWhole l .node
    (fun n => do
      onlyKeys [] [] l.keys
      if n.annexState = 0 then refuse 307
      if n.annexState = 1 then refuse 308)
    (fun n => .ok (n.annexStop 0 70000, []))

/-- Table 13-8. -/
def nodeSpecs : List KeySpec := [
  ks "AWDOG" (.int 0 60000) (fun _ => Fd.SYS_AWDCFG_TIMEOUT),
  ks "AFAULT" (.enum [("STOP", 0), ("RESTART", 1)]) (fun _ => Fd.SYS_AWDCFG_RESTART),
  ks "ABOOT" (.enum [("NONE", 0), ("TW", 1)]) (fun _ => Fd.SYS_ABOOT_TW),
  ks "ABOOTADDR" (.int 0x50 0x57) (fun _ => Fd.SYS_ABOOT_ADDR)]
/-- The registers hold values a SET accepts (R372). -/
def Node.nodeRegOk (n : Node) : Bool :=
  let t := n.fd Fd.SYS_AWDCFG_TIMEOUT
  (t = 0 || (10 ≤ t && t ≤ 60000)) && 0x50 ≤ n.fd Fd.SYS_ABOOT_ADDR && n.fd Fd.SYS_ABOOT_ADDR ≤ 0x57
/-- A change of AWDOG that switches the watchdog on begins its time. -/
def Node.nodeChanged (old n : Node) (m : Moment) : Node :=
  if old.dogTime = 0 && n.dogTime != 0 then { n with annex := { n.annex with dog := n.mono m } } else n

def execSetNode (l : Line) (s : State) : Host.Outcome State Fault Refusal :=
  s.lift fun n => n.runWhole l .node
    (fun n => do
      checkKeys nodeSpecs [] l.keys
      if !(n.putKeys nodeSpecs 0 l.keys).nodeRegOk then refuse 201)
    (fun n => .ok (Node.nodeChanged n (n.setKeys nodeSpecs 0 l.keys) 70000, []))

def execShowNodeAnnex (l : Line) (s : State) : Host.Outcome State Fault Refusal :=
  s.lift fun n => n.runLine l true (fun n => do
    l.bare
    onlyKeys [] [] l.keys
    let hex (a : Nat) : Item := .h (n.rd a).toNat 8
    let c := n.fd Fd.SYS_ASTAT_CAUSE
    pure (n, [[.w "NODE", .w "ANNEX", .w (annexStateName n.annexState), .w "ENTRY", hex Ad.SYS_AENTRY, .w "LEN",
      .n (n.rd Ad.SYS_ALEN).toNat, .w "CHECK", hex Ad.SYS_ACRC, .w "VERSION", hex Ad.SYS_AVER, .w "FAULT",
      if c = 0 then .w "NONE" else .n c, .w "PC", hex Ad.SYS_AFPC, .w "VAL", hex Ad.SYS_AFVAL, .w "RESTARTS",
      .n (n.fd Fd.SYS_ASTAT_RESTARTS)]]))

def execWatchNode (l : Line) (s : State) : Host.Outcome State Fault Refusal :=
  s.lift fun n => n.runWatch l .node "" (match l.bare with
    | .ok _ => .ok [none]
    | .error e => .error e)

/-! ### The boot image (R362) -/

/-- The boot read begins once the bus has been enabled with its check (CONFIG_STORE_LOADED). -/
def Node.bootBegin (n : Node) : Node :=
  if !n.on Fd.SYS_ABOOT_TW then n
  else
    let was := n.twState != 0
    let n := { n with annex := { n.annex with boot := true, bootBus := !was } }
    if was then (if n.tw.phase == .idle then n.twPhase .boot else n) else n.twEnable

/-- The body of an image, when its header and its check are good: header fields and body bytes. -/
def bootImage (image : List Byte) : Option (Nat × Nat × Nat × Nat × List Byte) :=
  let num (i : Nat) := natLE ((image.drop i).take 4)
  let len := num 4
  let body := (image.drop 32).take len
  if image.length < 32 || num 0 != 0x5841574F || len < 4 || 524256 < len || body.length < len ||
    !entryIn (num 8) len || crc32 body != num 12 then none
  else some (len, num 8, num 12, num 16, body)

/-- The boot read ends: the bus returns to its ENABLE, and the image starts or is bad. -/
def Node.bootEnd (n : Node) (image : Option (List Byte)) (m : Moment) : Node :=
  let back := n.annex.bootBus
  let n := { n with annex := { n.annex with boot := false, bootBus := false } }
  let n := if n.tw.phase == .boot then n.twPhase .idle else n
  let n := if back && !n.on Fd.TW_CTRL_ENABLE then n.twDrain else n
  match image.bind bootImage with
  | none => n.badImage m
  | some (len, entry, c, ver, body) =>
    let n := n.setBytes tcmBase body
    let n := (((n.wr Ad.SYS_ALEN (BitVec.ofNat 32 len)).wr Ad.SYS_AENTRY (BitVec.ofNat 32 entry)).wr Ad.SYS_ACRC
      (BitVec.ofNat 32 c)).wr Ad.SYS_AVER (BitVec.ofNat 32 ver)
    n.annexStart entry c 1 (fun n p => n.raiseM 0x0B1 p m helpCore)
/-- A bus found STUCK by the check makes the boot fail. -/
def execAnnexBootReadEnd (image : Option (List (BitVec 8))) (m : Moment) (s : State) : Host.Outcome State Fault Refusal :=
  s.lift fun n =>
    if !n.awake || !n.annex.boot then n
    else if n.tw.phase == .boot then n.bootEnd image m
    else if n.twState = 3 || n.twState = 0 then n.bootEnd none m
    else n

/-! ### The command mailbox (R367 to R369) -/

def Node.mbCfgErr (n : Node) : Node := (n.setOn Fd.CMD_MBEVT_CFGERR true).ring 219
/-- A range within the TCM or the general shared SRAM. -/
def annexRange (a k : Nat) : Bool :=
  (0x10000000 ≤ a && a + k ≤ 0x10100000) || (0x20240000 ≤ a && a + k ≤ 0x20280000)
def Node.ringSize (n : Node) : Nat := 256 * 2 ^ n.fd Fd.CMD_RXCFG_SIZE
def Node.ringRoom (n : Node) : Nat :=
  let sz := n.ringSize
  (n.fd Fd.CMD_RXRD_RD + 2 * sz - n.fd Fd.CMD_RXWR_WR % sz - 1) % sz

/-- Stores a line's bytes in the ring, wrapping from its end to its start. -/
def Node.ringPut (n : Node) : List Byte → Node
  | [] => n
  | b :: t =>
    let w := n.fd Fd.CMD_RXWR_WR
    ((n.setByte ((n.rd Ad.CMD_RXBASE).toNat + w) b).setFd Fd.CMD_RXWR_WR ((w + 1) % n.ringSize)).ringPut t

/-- The bytes of a line on a port, with its CR LF (R31). -/
def OutLine.bytes (o : OutLine) : List Byte := (o.codes ++ [13, 10]).map (BitVec.ofNat 8)
/-- The line ends a reply (R39). -/
def OutLine.ends (o : OutLine) : Bool :=
  match o.kind with
  | .done => true
  | .error _ => true
  | .partialAt _ => true
  | _ => false

/-- One line of the ANNEX port goes into the ring. -/
def Node.ringLine (n : Node) (o : OutLine) : Node :=
  let n := (n.ringPut o.bytes).setOn Fd.CMD_MBEVT_LINE true
  let n := n.setPort .annex { n.port .annex with wrote := true }
  if o.ends then (n.setOn Fd.CMD_MBEVT_REPLYEND true).ring 217 else n

/-- Writes the lines that wait on the ANNEX port into the ring while it has room: reply lines before notices, and no
notice while a reply is open (R40). A reply line without room stalls the port (R369), or is discarded and counted when the
core does not run (R374). -/
def Node.annexPump (n : Node) : Nat → Node
  | 0 => n
  | k + 1 =>
    let s := n.port .annex
    let fits (o : OutLine) : Bool := n.on Fd.CMD_RXCFG_ENABLE && o.bytes.length ≤ n.ringRoom
    match s.reply with
    | o :: t =>
      let n' := n.setPort .annex { s with reply := t }
      if fits o then (n'.ringLine o).annexPump k
      else if n.annexRuns then n.setOn Fd.CMD_MBSTAT_STALLED true
      else (((n'.bump Fd.CMD_ERRCNT_LOST 1).setOn Fd.CMD_MBEVT_LOST true).ring 219).annexPump k
    | [] =>
      let n := n.setOn Fd.CMD_MBSTAT_STALLED false
      if s.replyOpen then n
      else match s.notices with
        | o :: t => if fits o then ((n.setPort .annex { s with notices := t }).ringLine o).annexPump k else n
        | [] => n
/-- Enough turns for every line that waits. -/
def Node.annexFlush (n : Node) : Node :=
  n.annexPump ((n.port .annex).reply.length + (n.port .annex).notices.length + 1)
/-- After a beat in which lines were written, source 216 rings once. -/
def Node.annexTell (n : Node) : Node :=
  let s := n.port .annex
  if s.wrote then (n.setPort .annex { s with wrote := false }).ring 216 else n

/-- A write to CMD.REQCTL (R367); writes by REG and POKE leave the mailbox registers unchanged (R372). -/
def Node.reqWrite (n : Node) (v : Word) : Node :=
  let len := Fd.CMD_REQCTL_LEN.get v
  let ptr := (n.rd Ad.CMD_REQPTR).toNat
  if Fd.CMD_REQCTL_GO.get v = 0 then n.setFd Fd.CMD_REQCTL_LEN len
  else if n.on Fd.CMD_REQCTL_BUSY || len = 0 || 240 < len || ptr % 4 != 0 || !annexRange ptr len ||
    !n.on Fd.CMD_RXCFG_ENABLE then n.mbCfgErr
  else
    let n := n.setFds [(Fd.CMD_REQCTL_LEN, len), (Fd.CMD_REQCTL_BUSY, 1)]
    { n with cmd := { n.cmd with reqLen := len, reqPtr := ptr } }
def execMailboxGo (rq : Rq) (v : Word) (_m : Moment) (s : State) : Host.Outcome State Fault Refusal :=
  s.lift fun n => if n.awake && rq == .annex then n.reqWrite v else n
/-- The copy of the line at stage S7: BUSY clears and source 218 rings. -/
def Node.reqCopy (n : Node) (m : Moment) : Node :=
  if !n.on Fd.CMD_REQCTL_BUSY then n
  else
    let cs := (n.bytes n.cmd.reqPtr n.cmd.reqLen).map (·.toNat)
    let n := ((n.setOn Fd.CMD_REQCTL_BUSY false).setOn Fd.CMD_MBEVT_REQFREE true).ring 218
    n.lineIn .annex cs 0 0 false m

/-- A write to CMD.RXRD, which takes the value written: room for the lines held. -/
def Node.rxrdWrite (n : Node) (v : Word) : Node := (n.setFd Fd.CMD_RXRD_RD (Fd.CMD_RXRD_RD.get v)).annexFlush
def execRxrdWrite (rq : Rq) (v : Word) (s : State) : Host.Outcome State Fault Refusal :=
  s.lift fun n => if n.awake && rq == .annex then n.rxrdWrite v else n

/-- A write to CMD.RXCFG (Table 13-10): SIZE is fixed while the ring is enabled; enabling sets both offsets to 0. -/
def Node.rxcfgWrite (n : Node) (v : Word) : Node :=
  let on := Fd.CMD_RXCFG_ENABLE.get v
  let size := Fd.CMD_RXCFG_SIZE.get v
  let base := (n.rd Ad.CMD_RXBASE).toNat
  let sz := 256 * 2 ^ size
  if n.on Fd.CMD_RXCFG_ENABLE then
    if size != n.fd Fd.CMD_RXCFG_SIZE then n.mbCfgErr else n.setFd Fd.CMD_RXCFG_ENABLE on
  else if size = 7 then n.mbCfgErr
  else if on = 0 then n.setFd Fd.CMD_RXCFG_SIZE size
  else if base % sz != 0 || !annexRange base sz then n.mbCfgErr
  else (n.setFds [(Fd.CMD_RXCFG_ENABLE, 1), (Fd.CMD_RXCFG_SIZE, size), (Fd.CMD_RXWR_WR, 0), (Fd.CMD_RXRD_RD, 0)]).annexFlush
def execRxcfgEnable (rq : Rq) (v : Word) (s : State) : Host.Outcome State Fault Refusal :=
  s.lift fun n => if n.awake && rq == .annex then n.rxcfgWrite v else n
/-- A write to CMD.RXBASE or CMD.REQPTR by the Annex core. -/
def Node.rxbaseWrite (n : Node) (v : Word) : Node :=
  if n.on Fd.CMD_RXCFG_ENABLE then n.mbCfgErr else n.wr Ad.CMD_RXBASE v

end Sys2Proof.Machine
end

