-- ==== Sys2Proof/Machine/Arc.lean ====
section
/-! DEFINITION. The Archive: pages and records, the writer, sealing, clearing, resealing, searching, start-up, and the
ARC commands and registers (chapter 8). -/
namespace Sys2Proof.Machine

/-! ### Pages and records (R214, R215, R219) -/

/-- Address of page `p`: Vault pages 0 to 47, Gallery pages 48 to 239. -/
def pageAt (p : Nat) : Nat := 0x30000000 + p * 0x1000
def isGallery (p : Nat) : Bool := 48 ≤ p
/-- The page after `p` of its area; the page after G191 is G0 (R227). After V47 comes G0 (R242). -/
def pageNext (p : Nat) : Nat := if p = 239 then 48 else p + 1

/-- Did a page hold records under a seal (R215)? -/
def Node.holdsUnder (n : Node) (sl p : Nat) : Bool :=
  let ty := n.byte (pageAt p + 1)
  (ty == 1#8 || ty == 2#8) && n.num (pageAt p + 4) 4 == sl
/-- Does a page hold records (R215)? -/
def Node.holds (n : Node) (p : Nat) : Bool := n.holdsUnder n.nv.reseals p
/-- The accession of a page's first record. -/
def Node.firstAcc (n : Node) (p : Nat) : Nat := n.num (pageAt p + 8) 4

/-- A page header (Table 8-1). -/
def Node.header (n : Node) (p ty acc : Nat) : List Byte :=
  let k := if isGallery p then p - 48 else p
  [0#8, BitVec.ofNat 8 ty] ++ bytesLE 2 k ++ bytesLE 4 n.nv.reseals ++ bytesLE 4 acc ++ bytesLE 4 0
/-- Writes a page header. -/
def Node.putHeader (n : Node) (p ty acc : Nat) : Node := n.setBytes (pageAt p) (n.header p ty acc)

/-- An entry's time in a form (Table 8-5). -/
def Entry.timeAs (e : Entry) (form : Nat) : List Byte :=
  if form = 0 then [] else if form = 1 then bytesLE 5 e.ms ++ bytesLE 3 e.pwr else bytesLE 6 e.sec ++ bytesLE 4 e.qns
/-- The time field of an entry's own form. -/
def Entry.time (e : Entry) : List Byte := e.timeAs e.form

/-- A record's bytes (Tables 8-3 and 8-4), padded with 0 to a multiple of 8. -/
def Entry.bytes (e : Entry) (acc : Nat) (gallery commit : Bool) : List Byte :=
  let body := e.time ++ (if e.rep.isSome then bytesLE 2 0 ++ e.time else []) ++
    (match e.supp with
     | some c => bytesLE 2 c
     | none => []) ++ e.payload
  let len := 8 + body.length
  let flags := (if commit then 1 else 0) + e.form * 2 + (if e.rep.isSome then 8 else 0) + (if gallery then 16 else 0) +
    (if e.supp.isSome then 32 else 0)
  [BitVec.ofNat 8 len, BitVec.ofNat 8 flags] ++ bytesLE 2 e.code ++ bytesLE 4 acc ++ body ++
    List.replicate ((8 - len % 8) % 8) 0#8

/-- The slot an entry's record takes. -/
def Entry.slot (e : Entry) : Nat :=
  let t := e.time.length
  let len := 8 + t + (if e.rep.isSome then 2 + t else 0) + (if e.supp.isSome then 2 else 0) + e.payload.length
  (len + 7) / 8 * 8

/-- The page the writer is in, and the offset of its next slot. -/
def Node.writerPage (n : Node) : Nat := ((n.rd Ad.ARC_WPTR).toNat - 1 - 0x30000000) / 0x1000
def Node.writerOff (n : Node) : Nat := (n.rd Ad.ARC_WPTR).toNat - pageAt n.writerPage

/-- ARC.CHG before and after a change to committed records (R229). -/
def Node.chg (n : Node) (k : Nat) : Node := n.wr Ad.ARC_CHG (n.rd Ad.ARC_CHG + BitVec.ofNat 32 k)

/-- The oldest accession of the Gallery: the least first accession of its pages that hold records; 0 when none does. -/
def Node.oldest (n : Node) : Nat :=
  (List.range 192).foldl (fun o g =>
    if n.holds (48 + g) then (if o = 0 then n.firstAcc (48 + g) else Nat.min o (n.firstAcc (48 + g))) else o) 0

/-- Starts a page with `acc` as its first record (R227): a Gallery page that holds records loses them. -/
def Node.startPage (n : Node) (p acc : Nat) : Node :=
  let full := isGallery p && n.holds p
  let n := n.putHeader p (if isGallery p then 2 else 1) acc
  let n := n.wr Ad.ARC_WPTR (BitVec.ofNat 32 (pageAt p + 16))
  let n := { n with arc := { n.arc with newPage := false, cleared := n.arc.cleared ++ [p] } }
  let n := if full then ((n.chg 2).ring 99).setOn Fd.ARC_EVT_RECLAIM true else n
  if isGallery p then n.setFd Fd.ARC_OLDEST_OLDEST n.oldest else n

/-- !WATCH ARC lines (R238). -/
def Node.watchArc (n : Node) (items : List Item) : Node := n.notifyWatch .arc "" none (.w "ARC" :: items)

/-- The Vault seals (R228): the header of G0 is written with the current seal, SEALED sets, source 98 rings, and
VAULT-SEALED goes to the head of the queue. -/
def Node.seal (n : Node) : Node :=
  let n := n.startPage 48 ((n.rd Ad.ARC_NEWEST).toNat + 1)
  let n := ((n.setOn Fd.ARC_STAT_SEALED true).setOn Fd.ARC_EVT_SEALED true).ring 98
  (n.raiseHead 0x004 (bytesLE 4 (n.rd Ad.ARC_VLAST).toNat) 6 (n.stageAt 6)).watchArc [.w "SEALED"]

/-! ### The writer (R223, R225 to R228, R242, R243) -/

/-- The time form of the record at `a`. -/
def Node.formAt (n : Node) (a : Nat) : Nat := (n.byte (a + 1)).toNat / 2 % 4
/-- The payload of the record at `a`, which has the repeat field. -/
def Node.repPayload (n : Node) (a : Nat) : List Byte :=
  let t := formBytes (n.formAt a)
  let off := 8 + t + 2 + t + (if (n.byte (a + 1)).getLsbD 5 then 2 else 0)
  n.bytes (a + off) ((n.byte a).toNat - off)

/-- Does the entry repeat the newest committed record (R223)? The record is read by its own form. -/
def Node.repeats (n : Node) (e : Entry) : Bool :=
  let a := n.arc.lastAddr
  match e.rep with
  | none => false
  | some k =>
    a != 0 && 0x30030000 ≤ a && n.num (a + 2) 2 == e.code && (n.byte (a + 1)).getLsbD 3 &&
    n.num (a + 8 + formBytes (n.formAt a)) 2 < 65535 && (n.repPayload a).take k == e.payload.take k

/-- The in-place update: the count plus 1, and the entry's time, in the record's form, as the last occurrence (R223,
R229). -/
def Node.updateInPlace (n : Node) (e : Entry) : Node :=
  let f := n.formAt n.arc.lastAddr
  let a := n.arc.lastAddr + 8 + formBytes f
  (n.setBytes a (bytesLE 2 (n.num a 2 + 1) ++ e.timeAs f)).chg 2

/-- What each commit does after the record stands. -/
def Node.committed (n : Node) (a acc slot p : Nat) : Node :=
  let n := { n with arc := { n.arc with lastAddr := a } }
  let n := (n.wr Ad.ARC_NEWEST (BitVec.ofNat 32 acc)).wr Ad.ARC_WPTR (BitVec.ofNat 32 (a + slot))
  let n := if isGallery p then (if n.rd Ad.ARC_OLDEST = 0#32 then n.setFd Fd.ARC_OLDEST_OLDEST n.oldest else n)
    else n.wr Ad.ARC_VLAST (BitVec.ofNat 32 acc)
  let n := n.setOn Fd.ARC_EVT_COMMIT true
  if n.on Fd.ARC_CTRL_RDY && !n.arc.rdyRung then { (n.ring 96) with arc := { n.arc with rdyRung := true } } else n

/-- The words of a slot that fail both read-backs. -/
def badIn (a slot : Nat) (bad : List Nat) : Option Nat := bad.find? (fun w => a ≤ w && w < a + slot)

/-- An ALM-POINT record has its accession: it is the one an acknowledgement may name (R200) when it is the point's newest
entry, and an alarm-state frame carries it (R259). -/
def Node.almCommitted (n : Node) (e : Entry) (acc : Nat) : Node :=
  if e.code ≠ 0x060 then n
  else
    let i := natLE (e.payload.take 2)
    let p := Bank.get {} n.alm.pts i
    let out := n.alm.stateOut ++ [(i, (e.payload.getD 2 0#8).toNat, (e.payload.getD 3 0#8).toNat, acc)]
    { n with alm := { n.alm with stateOut := out,
                                 pts := if p.entryRec = e.payload then Bank.set {} n.alm.pts i { p with acc := acc } else n.alm.pts } }

/-- A new record: at the next slot, or at the start of the next page when it does not fit or CLEAR ARC GALLERY asked
for one (R226, R227, R232). A word that fails its read-back twice abandons the slot: word 0 is set to 0, the failed word
holds a value that is not defined (R216), and the entry is committed with the same accession at the start of the next
page, followed by NV-FAULT (R242). -/
def Node.commitNew (n : Node) (e : Entry) (bad : List Nat) (fresh : Bool) : Nat → Node
  | 0 => n
  | fuel + 1 =>
    let acc := (n.rd Ad.ARC_NEWEST).toNat + 1
    let p := n.writerPage
    let fits := n.writerOff + e.slot ≤ 0x1000
    let n := if fresh || n.arc.newPage || !fits then n.startPage (pageNext p) acc else n
    let sealNow := fresh && p == 47
    let p := n.writerPage
    let a := (n.rd Ad.ARC_WPTR).toNat
    match badIn a e.slot bad with
    | some w =>
      let n := (n.setBytes a (e.bytes acc (isGallery p) false)).setBytes a (List.replicate 8 0#8)
      let n := n.spoil w
      let n := ((n.setOn Fd.ARC_EVT_NVFAIL true).ring 102).watchArc [.w "NVFAULT", .h a 8]
      let n := n.commitNew e (bad.filter (· != w)) true fuel
      n.raiseHead 0x009 (bytesLE 4 a) 6 (n.stageAt 6)
    | none =>
      let n := n.setBytes a (e.bytes acc (isGallery p) true)
      let n := (n.committed a acc e.slot p).almCommitted e acc
      if sealNow then
        let n := ((n.setOn Fd.ARC_STAT_SEALED true).setOn Fd.ARC_EVT_SEALED true).ring 98
        (n.raiseHead 0x004 (bytesLE 4 (n.rd Ad.ARC_VLAST).toNat) 6 (n.stageAt 6)).watchArc [.w "SEALED"]
      else if p = 47 ∧ 0x1000 < n.writerOff + 80 then n.seal
      else n

/-- ACCESSION-END follows accession 0xFFFF_FFFE (R243). `bad`: words that fail their read-back. -/
def Node.accessionEnd (n : Node) (bad : List Nat) : Node :=
  if n.rd Ad.ARC_NEWEST = 0xFFFFFFFE#32 then
    let n := n.commitNew (n.entry 0x00A [] 6 8 (n.stageAt 6) none) bad false (bad.length + 1)
    (((n.setOn Fd.ARC_STAT_ACCEND true).setOn Fd.ARC_EVT_ACCEND true).ring 103).watchArc [.w "ACCEND"]
  else n

/-- INTAKE-OVERFLOW is queued when records were lost, as soon as an entry is free (R224). -/
def Node.overflowRecord (n : Node) : Node :=
  match n.arc.lostRec with
  | none => n
  | some r =>
    if n.sys.power = .powerfail || 128 ≤ n.arc.queue.length then n
    else
      let n := { n with arc := { n.arc with lostRec := none } }
      let e := n.entry 0x005 (bytesLE 4 r.count ++ bytesLE 2 r.code) 6 8 0 none
      let e := { e with sec := r.sec, qns := r.qns }
      let n := (n.intake e).1
      let n := ((n.setOn Fd.ARC_STAT_OVERFLOW false).setOn Fd.ARC_EVT_OVERFLOW true).ring 97
      n.watchArc [.w "OVERFLOW", .n r.count]

/-- One operation of the writer: the entry at the head of the queue (R225). -/
def Node.writerOp (n : Node) (bad : List Nat) : Node :=
  match n.arc.queue with
  | [] => n
  | e :: t =>
    let n := { n with arc := { n.arc with queue := t } }
    let n := n.overflowRecord
    if n.repeats e then n.updateInPlace e
    else (n.commitNew e bad false (bad.length + 1)).accessionEnd bad

/-- Up to `k` operations. -/
def Node.writerOps (n : Node) (bad : List Nat) : Nat → Node
  | 0 => n
  | k + 1 =>
    if n.arc.queue.isEmpty || n.on Fd.ARC_STAT_ACCEND || n.on Fd.ARC_STAT_RESEALING then n
    else (n.writerOp bad).writerOps bad k

/-- A disabled Archive (R241): the waiting entries are discarded, an INTAKE-OVERFLOW that the first of them lets in among
them (log entry 84), DISCARDED is committed, unless ACCESSION-END stands (R243), and it enters OFF. -/
def Node.archiveOff (n : Node) (bad : List Nat) : Node :=
  let first := Nat.min 1 n.arc.queue.length
  let n := { n with arc := { n.arc with queue := n.arc.queue.drop 1 } }.overflowRecord
  let k := first + n.arc.queue.length
  let n := { n with arc := { n.arc with queue := [] } }
  let n := if n.on Fd.ARC_STAT_ACCEND then n.bump Fd.ARC_LOST_LOST 1
    else (n.commitNew (n.entry 0x006 (bytesLE 4 k) 6 8 (n.stageAt 6) none) bad false (bad.length + 1)).accessionEnd bad
  let n := ((n.setFd Fd.ARC_STAT_STATE 0).setOn Fd.ARC_EVT_OFF true).ring 105
  n.watchArc [.w "STATE", .w "OFF"]

/-- The work of a writer that is late, or completes a record across the boundary: entries raised after stage S6 of the
beat stand aside, and keep their places behind what it leaves (R225). -/
def Node.asOfS6 (n : Node) (work : Node → Node) : Node :=
  let later := n.arc.queue.filter (fun e => e.tick == n.tick && 7 ≤ e.win)
  let n := work { n with arc := { n.arc with queue := n.arc.queue.filter (fun e => !(e.tick == n.tick && 7 ≤ e.win)) } }
  let rest := (later.filter (fun e => !e.head)).foldl (fun q e => (queueIn e q.reverse).reverse) n.arc.queue
  { n with arc := { n.arc with queue := later.filter Entry.head ++ rest } }

/-- Stage S6 of the writer: 8 operations, without that limit in POWERFAIL (R225, R244). -/
def Node.writer (n : Node) (bad : List Nat) : Node :=
  if n.sys.phase != .loaded then n
  else match n.fd Fd.ARC_STAT_STATE with
    | 1 => n.writerOps bad (if n.sys.power = .powerfail then 2 * n.arc.queue.length + 8 else 8)
    | 2 => n.archiveOff bad
    | _ => n

/-! ### A commit cut short (R216, R226) -/

/-- The words that the commit of an entry writes, in order: the header of a page that it starts, word 0 with COMMIT at 0, the
words after it and word 0 with COMMIT at 1; or those of an in-place update. -/
def Node.commitWords (n : Node) (e : Entry) : List (Nat × List Byte) :=
  let words (a : Nat) (bs : List Byte) : List (Nat × List Byte) :=
    (List.range (bs.length / 8)).map (fun k => (a + 8 * k, (bs.drop (8 * k)).take 8))
  if n.repeats e then
    let a := n.arc.lastAddr
    let len := ((n.byte a).toNat + 7) / 8 * 8
    (words a ((n.updateInPlace e).bytes a len)).drop 1
  else
    let acc := (n.rd Ad.ARC_NEWEST).toNat + 1
    let p := n.writerPage
    if n.arc.newPage || 0x1000 < n.writerOff + e.slot then
      let q := pageNext p
      (words (pageAt q) (n.header q (if isGallery q then 2 else 1) acc)).reverse ++
        words (pageAt q + 16) (e.bytes acc (isGallery q) false) ++ (words (pageAt q + 16) (e.bytes acc (isGallery q) true)).take 1
    else
      let a := (n.rd Ad.ARC_WPTR).toNat
      words a (e.bytes acc (isGallery p) false) ++ (words a (e.bytes acc (isGallery p) true)).take 1

/-- The node stops while the commit at the head of the queue may be under way: `k` of its words are written, a free number,
with 0 when it has not begun; when power is lost without warning, the word being written then may hold any value (R216). -/
def Node.tear (n : Node) (dark : Bool) : Node :=
  match n.arc.queue with
  | [] => n
  | e :: _ =>
    if n.sys.phase != .loaded || n.fd Fd.ARC_STAT_STATE != 1 || n.on Fd.ARC_STAT_ACCEND || n.on Fd.ARC_STAT_RESEALING then n
    else
      let (k, n) := n.freshNat
      let ws := n.commitWords e
      let n := (ws.take k).foldl (fun (n : Node) (w : Nat × List Byte) => n.setBytes w.1 w.2) n
      match dark, ws.drop k with
      | true, (a, _) :: _ =>
        let (f, n) := n.fresh
        let (g, n) := n.fresh
        n.setBytes a (bytesLE 4 f.toNat ++ bytesLE 4 g.toNat)
      | _, _ => n

/-! ### Searching and reading (R230, R231, R235) -/

/-- Walks from a record that should carry `acc` to the one that carries `want`; the address of a valid record (R230). -/
def Node.walk (n : Node) (p a acc want : Nat) : Nat → Option Nat
  | 0 => none
  | fuel + 1 =>
    let len := (n.byte a).toNat
    if pageAt p + 0x1000 ≤ a || len < 8 || 78 < len || !(n.byte (a + 1)).getLsbD 0 || n.num (a + 4) 4 != acc then none
    else if acc = want then some a
    else n.walk p (a + (len + 7) / 8 * 8) (acc + 1) want fuel

/-- The page whose first accession is the largest not above `acc`. -/
def Node.pageOf (n : Node) (acc : Nat) : Option Nat :=
  (List.range 240).foldl (fun (b : Option Nat) p =>
    if n.holds p && n.firstAcc p ≤ acc then
      match b with
      | some x => if n.firstAcc x < n.firstAcc p then some p else some x
      | none => some p
    else b) none

/-- The address of the valid record with an accession. -/
def Node.findRecord (n : Node) (acc : Nat) : Option Nat :=
  match n.pageOf acc with
  | some p => if 510 < acc - n.firstAcc p then none
    else n.walk p (pageAt p + 16) (n.firstAcc p) acc (acc - n.firstAcc p + 1)
  | none => none

/-- The last valid record of a page: its address and accession; none when the page's first slot holds none. -/
def Node.lastOf (n : Node) (p a acc : Nat) (found : Option (Nat × Nat)) : Nat → Option (Nat × Nat)
  | 0 => found
  | fuel + 1 =>
    let len := (n.byte a).toNat
    if pageAt p + 0x1000 ≤ a || len < 8 || 78 < len || !(n.byte (a + 1)).getLsbD 0 || n.num (a + 4) 4 != acc then found
    else n.lastOf p (a + (len + 7) / 8 * 8) (acc + 1) (some (a, acc)) fuel

/-- The items of a time field at `a` in a form. -/
def Node.timeItems (n : Node) (form a : Nat) : List Item :=
  if form = 0 then [.w "S"]
  else if form = 1 then [.w "H", .n (n.num a 5), .n (n.num (a + 5) 3)]
  else [.w "T", .n (n.num a 6), .n (n.num (a + 6) 4)]

/-- The reply line of the record at `a` (R235). -/
def Node.recordLine (n : Node) (a : Nat) : List Item :=
  let len := (n.byte a).toNat
  let fl := n.byte (a + 1)
  let code := n.num (a + 2) 2
  let form := fl.toNat / 2 % 4
  let t := formBytes form
  let rep := fl.getLsbD 3
  let sup := fl.getLsbD 5
  let o1 := a + 8 + t
  let o2 := if rep then o1 + 2 + t else o1
  let o3 := if sup then o2 + 2 else o2
  let data := n.bytes o3 (a + len - o3)
  [.w "ARC", .n (n.num (a + 4) 4), .w "CODE", .n code, .w (codeName code)] ++ n.timeItems form (a + 8) ++
  (if rep then [.w "REP", .n (n.num o1 2), .w "LAST"] ++ (n.timeItems form (o1 + 2)).drop 1 else []) ++
  (if sup then [.w "SUPP", .n (n.num o2 2)] else []) ++
  [.w "AREA", .w (if fl.getLsbD 4 then "GALLERY" else "VAULT"), .w "DATA",
   if data.isEmpty then .w "NONE" else .b data]

/-- Is an accession in one of the two readable ranges (R231)? -/
def Node.readable (n : Node) (a : Nat) : Bool :=
  let v := (n.rd Ad.ARC_VLAST).toNat
  let o := (n.rd Ad.ARC_OLDEST).toNat
  let w := (n.rd Ad.ARC_NEWEST).toNat
  (1 ≤ a && a ≤ v) || (o != 0 && o ≤ a && a ≤ w)

/-- The lines of GET ARC from accession `a`: up or down, the gap between the ranges as one line. -/
def Node.recordLines (n : Node) (a : Nat) (up : Bool) : Nat → List (List Item)
  | 0 => []
  | k + 1 =>
    let line := match n.findRecord a with
      | some x => [n.recordLine x]
      | none => []
    let v := (n.rd Ad.ARC_VLAST).toNat
    let o := (n.rd Ad.ARC_OLDEST).toNat
    let w := (n.rd Ad.ARC_NEWEST).toNat
    let gap : List (List Item) :=
      if v + 1 < o then [[.w "ARC GAP", .w (toString (v + 1) ++ "-" ++ toString (o - 1))]] else []
    if up then
      if a = w then line
      else if a = v then
        (if o = 0 ∨ k = 0 then line else line ++ gap ++ n.recordLines o up k)
      else line ++ n.recordLines (a + 1) up k
    else
      if a ≤ 1 then line
      else if a = o ∧ v < o then
        (if v = 0 ∨ k = 0 then line else line ++ gap ++ n.recordLines v up k)
      else line ++ n.recordLines (a - 1) up k

/-! ### Start-up (R245) -/

/-- The page that holds records under a seal and has the largest first accession. -/
def Node.lastPageUnder (n : Node) (sl : Nat) : Option Nat :=
  (List.range 240).foldl (fun (b : Option Nat) p =>
    if n.holdsUnder sl p then
      match b with
      | some x => if n.firstAcc x < n.firstAcc p then some p else some x
      | none => some p
    else b) none
/-- The page that holds records and has the largest first accession. -/
def Node.lastPage (n : Node) : Option Nat := n.lastPageUnder n.nv.reseals
/-- NEWEST of the seal before the present one, as the array still shows it: by the headers that carry that seal, or, when
phase 1 had already renewed the header of its only page, by the records of V0 (R245, log entry 84). -/
def Node.oldNewest (n : Node) : Nat :=
  let found := match n.lastPageUnder (n.nv.reseals - 1) with
    | some p => n.lastOf p (pageAt p + 16) (n.firstAcc p) none 510
    | none => n.lastOf 0 (pageAt 0 + 16) 1 none 510
  match found with
  | some (_, acc) => acc
  | none => 0

/-- The newest Vault accession: the last valid record of the last Vault page that holds records. -/
def Node.vaultLast (n : Node) : Nat :=
  (List.range 48).foldl (fun v p =>
    if n.holds p then
      match n.lastOf p (pageAt p + 16) (n.firstAcc p) none 510 with
      | some (_, acc) => Nat.max v acc
      | none => v
    else v) 0

/-- Step 1 of R245: where the writer goes on. Answers whether the slot after the last valid record is torn. -/
def Node.findEnd (n : Node) : Node × Bool :=
  match n.lastPage with
  | none =>
    let n := n.putHeader 0 1 1
    ((n.wr Ad.ARC_WPTR 0x30000010#32), false)
  | some p =>
    let (a, acc, last) := match n.lastOf p (pageAt p + 16) (n.firstAcc p) none 510 with
      | some (x, acc) => (x + ((n.byte x).toNat + 7) / 8 * 8, acc, x)
      | none => (pageAt p + 16, n.firstAcc p - 1, 0)
    let torn := a < pageAt p + 0x1000 && !(n.byte (a + 1)).getLsbD 0
    let n := (n.wr Ad.ARC_WPTR (BitVec.ofNat 32 a)).wr Ad.ARC_NEWEST (BitVec.ofNat 32 acc)
    let n := (n.wr Ad.ARC_VLAST (BitVec.ofNat 32 n.vaultLast)).wr Ad.ARC_OLDEST (BitVec.ofNat 32 n.oldest)
    let n := { n with arc := { n.arc with lastAddr := last } }
    let n := n.setOn Fd.ARC_STAT_ACCEND (acc == 0xFFFFFFFF)
    (n.setOn Fd.ARC_STAT_SEALED (n.num (pageAt 48 + 4) 4 == n.nv.reseals), torn)

/-- Phase 1 of a reseal (Table 8-8). -/
def Node.resealV0 (n : Node) : Node :=
  let n := (n.putHeader 0 1 1).wr Ad.ARC_WPTR 0x30000010#32
  { (n.setOn Fd.ARC_STAT_SEALED false) with arc := { n.arc with newPage := false } }

/-- The entry of VAULT-RESEALED. -/
def Node.resealEntry (n : Node) : Entry :=
  n.entry 0x003 (bytesLE 4 n.nv.reseals ++ bytesLE 4 n.arc.prevNewest.toNat) 7 8 (n.stageAt 7) none
/-- Phase 2 of a reseal: VAULT-RESEALED is committed as accession 1, the flag clears, CHG becomes even. -/
def Node.resealEnd (n : Node) : Node :=
  let n := n.commitNew n.resealEntry [] false 1
  let n := { n with nv := { n.nv with resealFlag := false } }
  let n := n.chg 1
  let n := ((n.setOn Fd.ARC_STAT_RESEALING false).setOn Fd.ARC_EVT_RESEALED true).ring 101
  n.watchArc [.w "RESEALED"]

/-- A phase of a reseal whose write fails twice ends the command (R242): the words that failed are not defined (R216), the
flag clears and CHG becomes even, and the writer goes on at the next page of the Vault (log entry 84). -/
def Node.resealFail (n : Node) (bad : List Nat) : Node :=
  let n := bad.foldl Node.spoil n
  let n := { n with nv := { n.nv with resealFlag := false }, arc := { n.arc with newPage := true } }
  (((n.wr Ad.ARC_WPTR 0x30000010#32).chg 1).setOn Fd.ARC_STAT_RESEALING false).setOn Fd.ARC_STAT_SEALED false

/-- The Archive's start-up (R245): the last record is found, an interrupted reseal or sealing completed, START queued
with PFLOST, and the MR-CUT records after it. The Archive of a stored ENABLE=OFF drains them (R241, log entry 84). -/
def Node.arcStart (n : Node) : Node :=
  let n := (n.setFd Fd.ARC_STAT_STATE 1)
  let n := { n with arc := { n.arc with loadTick := n.tick, used := [], gain := [] } }
  let flag := n.nv.resealFlag
  let prev := n.oldNewest
  let (n, torn) := n.findEnd
  let n := if flag then
      let n := { n with arc := { n.arc with prevNewest := BitVec.ofNat 32 prev } }.setOn Fd.ARC_STAT_ACCEND false
      let n := n.wr Ad.ARC_NEWEST 0#32
      ((n.wr Ad.ARC_OLDEST 0#32).wr Ad.ARC_VLAST 0#32).resealV0
    else n
  let n := if flag then (n.setFds [(Fd.ARC_CHG_CHG, 1)]).resealEnd else n
  let sealFlag := n.writerPage == 47 && 0x1000 < n.writerOff + 80 && !n.on Fd.ARC_STAT_SEALED
  let n := (if sealFlag then n.seal else n).accessionEnd []
  let flags := (if torn then 1 else 0) + (if flag then 2 else 0) + (if sealFlag then 4 else 0)
  let payload := bytesLE 4 (n.rd Ad.SYS_RSTCAUSE).toNat ++ bytesLE 2 n.nv.pflost ++ [BitVec.ofNat 8 flags, 0#8]
  let n := n.raise 0x001 payload 0 8
  let n := n.nv.cuts.foldl (fun n c => n.raise 0x00B c 0 8) n
  let n := { n with nv := { n.nv with pflost := 0, cuts := [] } }
  if n.on Fd.ARC_CTRL_ENABLE then n else n.setFd Fd.ARC_STAT_STATE 2

/-! ### The code table (R234, R239) -/

def arcSpecs : List KeySpec := [
  ks "ENABLE" onOff (fun _ => Fd.ARC_CTRL_ENABLE), ks "RDY" onOff (fun _ => Fd.ARC_CTRL_RDY)]

/-- Per-code keys (Table 8-9). -/
def codeSpecs : List KeySpec := [
  ks "FORM" (.enum [("S", 0), ("H", 1), ("T", 2)]) Fd.ARC_CODE_FORM,
  ks "RULE" (.enum [("NONE", 0), ("LIMIT", 1), ("REPEAT", 2)]) Fd.ARC_CODE_RULE,
  ks "RATE" (.int 1 6000) Fd.ARC_CODE_RATE, ks "BURST" (.int 1 255) Fd.ARC_CODE_BURST,
  ks "KEYLEN" (.int 0 7) Fd.ARC_CODE_KEYLEN]

/-- An assigned code: a user code or a row of the code tables. -/
def assigned (c : Nat) : Bool := (0x100 ≤ c && c < 0x200) || (codeRow c).isSome
/-- May RULE, RATE and BURST of a code be set? -/
def settable (c : Nat) : Bool := 0x100 ≤ c || (match codeRow c with
  | some r => r.settable
  | none => false)

/-- The entry's own combinations: REPEAT not with form S, KEYLEN above 0 only with REPEAT. -/
def entryOk (c : Nat) (w : Word) : Bool :=
  let form := (Fd.ARC_CODE_FORM c).get w
  let rule := (Fd.ARC_CODE_RULE c).get w
  !(rule == 2 && form == 0) && !((Fd.ARC_CODE_KEYLEN c).get w != 0 && rule != 2)

/-- A refill of a code's bucket; the period of its tokens is counted from here (R222, R234). -/
def Node.refill (n : Node) (c : Nat) : Node :=
  { n with arc := { n.arc with used := Bank.set 0 n.arc.used c 0,
                               gain := Bank.set (n.arc.loadTick, 0) n.arc.gain c (n.tick, 0) } }

/-- The checks of SET ARC <code> (R234). -/
def codeCheck (keys : Keys) (n : Node) (is : List Nat) : Except Err Unit := do
  checkKeys codeSpecs [] keys
  if is.any (fun c => (c < 0x100 && hasKey keys "FORM") ||
      (!settable c && (hasKey keys "RULE" || hasKey keys "RATE" || hasKey keys "BURST")) ||
      !entryOk c ((n.putKeys codeSpecs c keys).rd (Ad.ARC_CODE c))) then refuse 205
  if is.any (fun c => !assigned c) then refuse 206

/-- One unit of SET ARC <code>. -/
def setCodeUnit (keys : Keys) (c : Nat) (n : Node) : Except Err (Node × List (List Item)) := do
  codeCheck keys n [c]
  let n := n.setKeys codeSpecs c keys
  pure (if hasKey keys "RULE" || hasKey keys "RATE" || hasKey keys "BURST" then n.refill c else n, [])

/-- A refused write to an Archive register: ARC.EVT.CFGERR and source 104 (R239). -/
def Node.arcCfgErr (n : Node) : Node := (n.setOn Fd.ARC_EVT_CFGERR true).ring 104

/-- A write to ARC.CODEc, judged by the entry that would result (R239). -/
def Node.codeWrite (n : Node) (c : Nat) (v : Word) : Node :=
  let cur := n.rd (Ad.ARC_CODE c)
  let g := fun (f : Nat → Fd) (w : Word) => (f c).get w
  let formKept := g Fd.ARC_CODE_FORM v == g Fd.ARC_CODE_FORM cur
  let rulesKept := g Fd.ARC_CODE_RULE v == g Fd.ARC_CODE_RULE cur && g Fd.ARC_CODE_RATE v == g Fd.ARC_CODE_RATE cur &&
    g Fd.ARC_CODE_BURST v == g Fd.ARC_CODE_BURST cur
  let ranges := g Fd.ARC_CODE_RULE v ≤ 2 && g Fd.ARC_CODE_FORM v ≤ 2 && 1 ≤ g Fd.ARC_CODE_RATE v &&
    g Fd.ARC_CODE_RATE v ≤ 6000 && 1 ≤ g Fd.ARC_CODE_BURST v
  if !assigned c || (c < 0x100 && !formKept) || (!settable c && !rulesKept) || !ranges || !entryOk c v then n.arcCfgErr
  else
    let w := (Fd.ARC_CODE_NODE c).put v (g Fd.ARC_CODE_NODE cur)
    ((n.wr (Ad.ARC_CODE c) w).refill c).dirty

/-! ### ENABLE and RDY -/

/-- After a change of ARC.CTRL (R241): OFF drains, ON queues ARC-RESUMED with the count of records not taken. -/
def Node.arcChanged (old n : Node) : Node :=
  let was := old.on Fd.ARC_CTRL_ENABLE
  let now := n.on Fd.ARC_CTRL_ENABLE
  if was && !now then (n.setFd Fd.ARC_STAT_STATE 2).watchArc [.w "STATE", .w "DRAINING"]
  else if !was && now then
    if n.fd Fd.ARC_STAT_STATE = 0 then
      let k := (n.rd Ad.ARC_OFFCNT).toNat
      let n := (n.setFd Fd.ARC_STAT_STATE 1).wr Ad.ARC_OFFCNT 0#32
      (n.raiseCmd 0x008 (bytesLE 4 k)).watchArc [.w "STATE", .w "ON"]
    else (n.setFd Fd.ARC_STAT_STATE 1).watchArc [.w "STATE", .w "ON"]
  else n

/-- ENABLE=OFF is refused while a clear or a reseal runs (R241). -/
def arcCheck (keys : Keys) (n : Node) : Except Err Unit := do
  checkKeys arcSpecs [] keys
  if keyNum arcSpecs keys "ENABLE" == some 0 && (n.on Fd.ARC_STAT_CLEARING || n.on Fd.ARC_STAT_RESEALING) then refuse 301

/-! ### Commands and events -/

/-- One token for the bucket of code `c` when its period has passed (R222). -/
def execTokenGain (c : Nat) (s : State) : Host.Outcome State Fault Refusal :=
  s.lift fun n =>
    let (t0, k) := Bank.get (n.arc.loadTick, 0) n.arc.gain c
    if n.awake && n.fd (Fd.ARC_CODE_RULE c) == 1 && t0 * n.fd (Fd.ARC_CODE_RATE c) + (k + 1) * 3000000 ≤
        n.tick * n.fd (Fd.ARC_CODE_RATE c) then
      { n with arc := { n.arc with gain := Bank.set (n.arc.loadTick, 0) n.arc.gain c (t0, k + 1),
                                   used := Bank.set 0 n.arc.used c (Bank.get 0 n.arc.used c - 1) } }
    else n

/-- What checkpoint slot `k` holds. -/
def Node.ckptAt (n : Node) (k : Nat) : Nat := Bank.get (Config.factoryCkpt k) n.nv.ckpts k
/-- The operating milliseconds go into the next checkpoint slot every 1,000 ms (R218). -/
def Node.checkpoint (n : Node) : Node :=
  let c := n.arc.opMs / 1000
  { n with arc := { n.arc with ckpt := c }
           nv := { n.nv with ckpts := Bank.put (c % 16) n.arc.opMs (Bank.drop n.nv.ckpts (c % 16)) } }

def execCheckpoint (s : State) : Host.Outcome State Fault Refusal :=
  s.lift fun n => if n.sys.phase != .por && n.sys.power != .off && n.arc.ckpt < n.arc.opMs / 1000 then n.checkpoint else n

/-- A search as its requester sees it. -/
def Node.setSearch (n : Node) (rq : Rq) (x : Search) : Node :=
  match rq with
  | .annex => { n with arc := { n.arc with searchA := x } }
  | .cmd => { n with arc := { n.arc with searchC := x } }
def Node.search (n : Node) : Rq → Search
  | .annex => n.arc.searchA
  | .cmd => n.arc.searchC

/-- A write to ARC.FIND starts the requester's search; FINDADDR reads BUSY (R231). -/
def Node.findStart (n : Node) (rq : Rq) (acc : Word) : Node := n.setSearch rq ⟨acc, 1#32⟩
/-- The search ends: the record's address, or ABSENT. -/
def Node.findDone (n : Node) (rq : Rq) : Node :=
  let x := n.search rq
  if x.res = 1#32 then
    n.setSearch rq ⟨x.acc, match n.findRecord x.acc.toNat with
      | some a => BitVec.ofNat 32 a
      | none => 2#32⟩
  else n

def execArcFind (rq : Rq) (acc : Word) (s : State) : Host.Outcome State Fault Refusal :=
  s.lift fun n => if n.awake then n.findStart rq acc else n
def execArcFindDone (rq : Rq) (s : State) : Host.Outcome State Fault Refusal :=
  s.lift fun n => if n.awake then n.findDone rq else n

def execArcCodeWrite (_rq : Rq) (c : Nat) (v : Word) (s : State) : Host.Outcome State Fault Refusal :=
  s.lift fun n => if n.awake && c < 512 then n.codeWrite c v else n

/-- A read of ARC.OPMSLO latches ARC.OPMSHI for its requester (R239). -/
def Node.readOpms (n : Node) (rq : Rq) : Node :=
  { n.setLat rq Ad.ARC_OPMSHI (BitVec.ofNat 32 (n.arc.opMs / 2 ^ 32 % 256)) with rdata := BitVec.ofNat 32 n.arc.opMs }
def execArcOpmsloRead (rq : Rq) (s : State) : Host.Outcome State Fault Refusal :=
  s.lift fun n => if n.awake then n.readOpms rq else n

def execSetArc (l : Line) (s : State) : Host.Outcome State Fault Refusal :=
  s.lift fun n => n.runWhole l .arc (arcCheck l.keys)
    (fun n => .ok (Node.arcChanged n (n.setKeys arcSpecs 0 l.keys), []))

def execSetArcCode (l : Line) (s : State) : Host.Outcome State Fault Refusal :=
  s.lift fun n => n.runMulti l verbSet .arc 512 (.set .arc l.keys) (codeCheck l.keys) (setCodeUnit l.keys)

/-- The keys of GET ARC (R235). -/
def getArcSpecs : List KeySpec := [
  kk "ACC" (.big 0 4294967295) (fun _ => 0), kk "COUNT" (.int 1 64) (fun _ => 0),
  kk "DIR" (.enum [("UP", 0), ("DOWN", 1)]) (fun _ => 0)]

def execGetArc (l : Line) (s : State) : Host.Outcome State Fault Refusal :=
  s.lift fun n => n.runRead l (fun n => do
    l.bare
    checkKeys getArcSpecs [] l.keys
    let a := (keyNum getArcSpecs l.keys "ACC").getD (n.rd Ad.ARC_NEWEST).toNat
    let k := (keyNum getArcSpecs l.keys "COUNT").getD 1
    if !n.readable a then refuse 206
    pure (n.recordLines a (keyNum getArcSpecs l.keys "DIR" != some 1) k))

def arcStateName (s : Nat) : String :=
  match s with
  | 0 => "OFF" | 1 => "ON" | _ => "DRAINING"

def execShowArc (l : Line) (s : State) : Host.Outcome State Fault Refusal :=
  s.lift fun n => n.runRead l (fun n => do
    l.bare
    onlyKeys [] [] l.keys
    pure [[.w "ARC STATE", .w (arcStateName (n.fd Fd.ARC_STAT_STATE)), .w "SEALED",
      .w (if n.on Fd.ARC_STAT_SEALED then "YES" else "NO"), .w "RESEALS", .n n.nv.reseals, .w "VLAST",
      .n (n.rd Ad.ARC_VLAST).toNat, .w "OLDEST", .n (n.rd Ad.ARC_OLDEST).toNat, .w "NEWEST", .n (n.rd Ad.ARC_NEWEST).toNat,
      .w "QUEUE", .n n.arc.queue.length, .w "LOST", .n (n.rd Ad.ARC_LOST).toNat, .w "CHG", .n (n.rd Ad.ARC_CHG).toNat]])

def execShowArcCode (l : Line) (s : State) : Host.Outcome State Fault Refusal :=
  s.lift fun n => n.runRead l (fun n => do
    let is ← l.items 512
    onlyKeys [] [] l.keys
    if is.any (fun c => !assigned c) then refuse 206
    pure (is.map (fun c => [.w "ARC", .n c, .w (codeName c)] ++ n.showKeys codeSpecs c ++ [.w "SUPP", .n (n.fd (suppFd c))])))

/-- The value of a hex digit's character code. -/
def hexDigit (c : Nat) : Option Nat :=
  if 48 ≤ c ∧ c ≤ 57 then some (c - 48) else if 65 ≤ c ∧ c ≤ 70 then some (c - 55)
  else if 97 ≤ c ∧ c ≤ 102 then some (c - 87) else none
/-- A number written in hex digits alone. -/
def hexNat : List Nat → Option Nat
  | [] => some 0
  | cs => cs.foldl (fun (a : Option Nat) c => match a, hexDigit c with
    | some v, some d => some (v * 16 + d)
    | _, _ => none) (some 0)
def wordChars (w : String) : List Nat := w.toList.map Char.toNat
/-- A word of exactly 8 hex digits (R237). -/
def hexWord (w : String) : Option Nat := if w.length = 8 then hexNat (wordChars w) else none

/-- The code of a value of DO ARC LOG that its key refuses (R237): CODE from 256 to 511, TEXT a quoted string (R33), DATA
up to 12 words of 8 hex digits. -/
def logErr (k : String) (v : Val) : Option Nat :=
  match k, v with
  | "TEXT", .quoted _ => if v.ok then none else some 203
  | "DATA", .words ws =>
    if ws.isEmpty || ws.any (fun w => (hexWord w).isNone) then some 203 else if 12 < ws.length then some 201 else none
  | "CODE", _ => match v.int? with
    | some z => if 256 ≤ z ∧ z ≤ 511 then none else some 201
    | none => some 203
  | _, _ => some 203
/-- The payload DO ARC LOG gives: TEXT as ASCII bytes, or DATA words least significant byte first. -/
def logPayload (keys : Keys) : List Byte :=
  match keyVal keys "TEXT", keyVal keys "DATA" with
  | some (.quoted cs), _ => cs.map (BitVec.ofNat 8)
  | _, some (.words ws) => ws.flatMap (fun w => bytesLE 4 ((hexWord w).getD 0))
  | _, _ => []

/-- DO ARC LOG (R237). -/
def execDoArcLog (l : Line) (s : State) : Host.Outcome State Fault Refusal :=
  s.lift fun n => n.runLine l false (fun n => do
    l.bare
    onlyKeys ["CODE", "TEXT", "DATA"] ["CODE"] l.keys
    match l.keys.findSome? (fun x => logErr x.1 x.2) with
      | some c => refuse c
      | none => .ok ()
    need (!(hasKey l.keys "TEXT" && hasKey l.keys "DATA")) 205
    let c := (((l.key "CODE").bind Val.int?).getD 0).toNat
    if n.fd Fd.ARC_STAT_STATE != 1 then refuse 303
    n.mayWrite l.port .arc (some [(c, c)])
    let (n, r) := n.raiseAt c (logPayload l.keys) 8 0 (n.stageAt 7)
    pure (n, match r with
      | .suppressed k => [[.w "ARC SUPPRESSED", .n k]]
      | .lost => [[.w "ARC LOST"]]
      | _ => []))

def execWatchArc (l : Line) (s : State) : Host.Outcome State Fault Refusal :=
  s.lift fun n => n.runWatch l .arc "" (l.bare.map (fun _ => [none]))

/-- One unit of CLEAR ARC GALLERY (R232): the page `j` pages after the page after P. -/
def Node.clearPage (n : Node) (j : Nat) : Node :=
  let p := 48 + (n.arc.firstClear - 48 + 1 + j) % 192
  if n.arc.cleared.contains p then n
  else
    let n := (n.putHeader p 0 0).chg 2
    n.setFd Fd.ARC_OLDEST_OLDEST n.oldest

/-- A unit of CLEAR ARC GALLERY whose header fails twice (R242): the words that failed are not defined (R216). -/
def Node.clearFail (n : Node) (j : Nat) (bad : List Nat) : Node :=
  let p := 48 + (n.arc.firstClear - 48 + 1 + j) % 192
  let n := (bad.filter (fun w => pageAt p ≤ w && w < pageAt p + 16)).foldl Node.spoil n
  (n.chg 2).setFd Fd.ARC_OLDEST_OLDEST n.oldest

/-- The end of CLEAR ARC GALLERY. -/
def Node.clearDone (n : Node) : Node :=
  (((n.setOn Fd.ARC_STAT_CLEARING false).setOn Fd.ARC_EVT_CLEARED true).ring 100).watchArc [.w "CLEARED"]

def execClearArcGallery (l : Line) (s : State) : Host.Outcome State Fault Refusal :=
  s.lift fun n => n.runOpen l (fun n => do
    l.bare
    onlyKeys [] [] l.keys
    if n.fd Fd.ARC_STAT_STATE != 1 then refuse 303
    if n.on Fd.ARC_STAT_RESEALING || n.on Fd.ARC_STAT_CLEARING then refuse 301
    n.mayWrite l.port .arc none
    if !n.on Fd.ARC_STAT_SEALED then pure (n.replyOk l [])
    else
      let n := n.raiseHead 0x007 (bytesLE 4 (n.rd Ad.ARC_OLDEST).toNat ++ bytesLE 4 (n.rd Ad.ARC_NEWEST).toNat) 8 (n.stageAt 7)
      let n := { n with arc := { n.arc with newPage := true, cleared := [], firstClear := pageNext n.writerPage } }
      pure ((n.setOn Fd.ARC_STAT_CLEARING true).startMr l verbClear .arc .clearGallery (List.range 191) false))

/-- A number in four decimal digits. -/
def fourDigits (k : Nat) : List Nat := [48 + k / 1000 % 10, 48 + k / 100 % 10, 48 + k / 10 % 10, 48 + k % 10]

/-- A line of R47: without CONFIRM it answers with a code and changes nothing; the next line of the port that repeats it
with that code within 30 s is executed; any other CONFIRM is refused with `?E305`. -/
def Node.runConfirm (n : Node) (l : Line) (what : Nat) (check : Node → Except Err Unit) (act : Node → Except Err Node) : Node :=
  let held := (n.port l.port).confirm
  n.runOpen l (fun n => do
    l.bare
    onlyKeys ["CONFIRM"] [] l.keys
    match l.key "CONFIRM" with
    | none =>
      check n
      let code := Config.confirmCode n.free % 10000
      let n := { n with free := n.free + 1 }
      let n := n.setPort l.port { n.port l.port with confirm := some ⟨what, code, n.tick + 1500000⟩ }
      pure (n.replyOk l [[.w "CONFIRM", .c (fourDigits code)]])
    | some v =>
      match Val.int? v with
      | none => refuse 203
      | some c =>
        if c < 0 ∨ 9999 < c then refuse 201
        else match held with
          | some h => if h.what = what ∧ (h.code : Int) = c ∧ n.tick ≤ h.until_ then do check n; act n else refuse 305
          | none => refuse 305)

/-- Phase 0 of a reseal (Table 8-8): CHG odd, the flag, RESEALS + 1; every existing page is then empty. -/
def Node.reseal0 (n : Node) : Node :=
  let prev := n.rd Ad.ARC_NEWEST
  let n := n.chg 1
  let n := { n with nv := { n.nv with resealFlag := true, reseals := n.nv.reseals + 1 }
                    arc := { n.arc with prevNewest := prev, resealTick := n.tick, lastAddr := 0 } }
  ((((n.wr Ad.ARC_NEWEST 0#32).wr Ad.ARC_OLDEST 0#32).wr Ad.ARC_VLAST 0#32).setOn Fd.ARC_STAT_RESEALING true).setOn
    Fd.ARC_STAT_ACCEND false

/-- DO ARC RESEAL (R233): the confirmed line applies phase 0 in its own beat. -/
def execDoArcReseal (l : Line) (s : State) : Host.Outcome State Fault Refusal :=
  s.lift fun n => n.runConfirm l 0
    (fun n => do
      if n.fd Fd.ARC_STAT_STATE != 1 then refuse 303
      if n.on Fd.ARC_STAT_CLEARING || n.on Fd.ARC_STAT_RESEALING then refuse 301
      n.mayWrite l.port .arc none)
    (fun n =>
      let n := n.startMr l verbDo .arc .reseal [0, 1, 2] false
      .ok (match (n.port l.port).mr with
        | some m => if m.paused then n
          else (n.setPort l.port { n.port l.port with mr := some { m with pos := 1 } }).reseal0
        | none => n))

/-- The port that runs a reseal, with its routine. -/
def Node.resealPort (n : Node) : Option (Port × Mr) :=
  allPorts.findSome? (fun p => match (n.port p).mr with
    | some m => if m.op == .reseal then some (p, m) else none
    | none => none)

/-- Phases 1 and 2 of the reseal, 64 and 128 beats after phase 0 (R233); a write that fails twice ends it (R242). -/
def execResealPhase (nvBad : List Nat) (s : State) : Host.Outcome State Fault Refusal :=
  s.lift fun n =>
    match n.resealPort with
    | none => n
    | some (p, m) =>
      if !n.awake || m.paused then n
      else if m.pos = 0 then (n.setPort p { n.port p with mr := some { m with pos := 1 } }).reseal0
      else if n.tick < n.arc.resealTick + 64 * m.pos then n
      else if m.pos = 1 then
        if (badIn (pageAt 0) 16 nvBad).isSome then
          ((n.putHeader 0 1 1).resealFail (nvBad.filter (fun w => pageAt 0 ≤ w && w < pageAt 0 + 16))).failMr p ⟨503, []⟩
        else (n.setPort p { n.port p with mr := some { m with pos := 2 } }).resealV0
      else
        if (badIn (pageAt 0 + 16) 24 nvBad).isSome then
          let n := (n.setBytes (pageAt 0 + 16) (n.resealEntry.bytes 1 false false)).setBytes (pageAt 0 + 16) (List.replicate 8 0#8)
          (n.resealFail (nvBad.filter (fun w => pageAt 0 + 16 ≤ w && w < pageAt 0 + 40))).failMr p ⟨503, []⟩
        else ((n.setPort p { n.port p with mr := some { m with pos := 3 } }).resealEnd).endMr p .done []

/-- The reload of DO ARC REINIT (R246). -/
def Node.arcReinit (n : Node) : Node :=
  let n' := n.reload arcSpecs 0
  let n' := (List.range 512).foldl (fun m c => if assigned c then m.reload codeSpecs c else m) n'
  let n' := Node.arcChanged n n'
  { n' with arc := { n'.arc with used := [], gain := [], loadTick := n.tick } }

def execDoArcReinit (l : Line) (s : State) : Host.Outcome State Fault Refusal :=
  s.lift fun n => n.runOpen l (fun n => do
    l.bare
    onlyKeys [] [] l.keys
    n.mayWrite l.port .arc none
    pure (n.startMr l verbDo .arc (.reinit .arc) [0] false))

/-- The counter block as bytes (Table 8-2): a read-only view of the counters. -/
def Node.counterByte (n : Node) (off : Nat) : Byte :=
  let at_ (base k v : Nat) : Byte := if base ≤ off ∧ off < base + k then BitVec.ofNat 8 (v / 256 ^ (off - base)) else 0#8
  if off < 8 then at_ 0 4 n.nv.reseals
  else if off < 0x10 then at_ 8 3 n.nv.pwrcyc
  else if off < 0x12 then at_ 0x10 2 n.nv.pflost
  else if off = 0x12 then (if n.nv.resealFlag then 1#8 else 0#8)
  else if off < 0x80 then 0#8
  else at_ (0x80 + (off - 0x80) / 8 * 8) 5 (n.ckptAt ((off - 0x80) / 8))

end Sys2Proof.Machine
end

