-- ==== Sys2Proof/Machine/Trans.lean ====
section
/-! DEFINITION. Fault transients: comparators, arrivals, the capture ring, and the TRANS commands and registers
(chapter 6). -/
namespace Sys2Proof.Machine

/-- The helper order of Table 1-1 for the transient engine. -/
def helpTrans : Nat := 4

def tsDisarmed : Nat := 0
def tsArmed : Nat := 1
def tsTriggered : Nat := 2
def tsHeld : Nat := 3
def tsName (k : Nat) : String :=
  match k with
  | 0 => "DISARMED" | 1 => "ARMED" | 2 => "TRIGGERED" | _ => "HELD"
def Node.tState (n : Node) : Nat := n.fd Fd.TRANS_STAT_STATE

/-- Enters a state, which a watch reports (R175). -/
def Node.tEnter (n : Node) (k : Nat) : Node :=
  (n.setFd Fd.TRANS_STAT_STATE k).notifyWatch .trans "" none [.w "TRANS STATE", .w (tsName k)]

/-! ### The capture ring (R168, R169) -/

/-- The address of input i's slot. -/
def slotAddr (i slot : Nat) : Nat := 0x20000000 + i * 0x40000 + slot * 26
/-- The block slot of a node time: its microsecond modulo 10,000. -/
def slotOf (t : Nat) : Nat := t % qnsSec / 4000 % 10000

/-- SHIFT: the smallest with which every sample fits a signed byte (R169). -/
def blockShift (c : List Int) : Nat :=
  ((List.range 5).find? (fun k => c.all (fun x => -128 ≤ x / 2 ^ k && x / 2 ^ k ≤ 127))).getD 4

/-- The 26 bytes of a block (Table 6-6). -/
def blockBytes (c : List Int) (arr : Bool) : List Byte :=
  let sh := blockShift c
  let clip := c.any (fun x => x == -2048 || x == 2047)
  BitVec.ofNat 8 (sh + (if arr then 8 else 0) + (if clip then 16 else 0)) :: c.map (fun x => BitVec.ofInt 8 (x / 2 ^ sh))

/-- May the block that begins at node time `t` be written (Table 6-4)? While the ring is being written: from arming on, and
until the fill's end; or before the end of the state that wrote it, in the same beat. -/
def Node.blockOk (n : Node) (t : Nat) : Bool :=
  ((n.tState == tsArmed || n.tState == tsTriggered) && n.trans.armAt ≤ t && !(n.tState == tsTriggered && n.trans.fillEnd ≤ t)) ||
  (match n.trans.cut with
   | some (a, b) => a ≤ t && t + 4000 ≤ b
   | none => false)

/-- Writes the whole blocks of one input, from the block that begins at node time `t`. -/
def Node.writeBlocks (n : Node) (i : Nat) : Nat → Nat → List Int → Node
  | 0, _, _ => n
  | k + 1, t, c =>
    let b := c.take 25
    let full := b.length == 25
    let hit := match Bank.get 0 n.trans.arrAt i with
      | 0 => false
      | a + 1 => t ≤ a && a < t + 4000
    let n :=
      if full && n.blockOk t then
        let n := if hit then { n with trans := { n.trans with arrSlot := Bank.set 0 n.trans.arrSlot i (slotOf t + 1) } } else n
        n.setBytes (slotAddr i (slotOf t)) (blockBytes b hit)
      else n
    n.writeBlocks i k (t + 4000) (c.drop 25)

/-- The blocks of a beat that began at node time `t`, or of its part so far, for every input in use (Table 6-4). A block is
one whole microsecond of node time (R168): of a beat that begins within one, its first samples fill none. -/
def Node.ringWrite (n : Node) (t : Nat) (hf : List (Nat × List Int)) : Node :=
  let us := (t + 3999) / 4000 * 4000
  let skip := (us - (t + 159) / 160 * 160) / 160
  hf.foldl (fun n (i, c) =>
    if i < 8 && n.trans.onF.testBit i then n.writeBlocks i (c.length / 25) us (c.drop skip) else n) n

/-- Writing ends with the state at a moment of node time: the blocks of the beat before it still count (Table 6-4). -/
def Node.tCut (n : Node) (t : Nat) : Node :=
  if n.tState = tsArmed ∨ n.tState = tsTriggered then { n with trans := { n.trans with cut := some (n.trans.armAt, t) } } else n

/-! ### Arming, triggering, holding -/

/-- ON and TRIG come into force (R174). -/
def Node.tMasks (n : Node) : Node :=
  let m := fun (f : Nat → Fd) => ((List.range 8).filter (fun i => n.on (f i))).foldl (fun a i => a + 2 ^ i) 0
  { n with trans := { n.trans with onF := m Fd.TRANS_CFG_ON, trigF := m Fd.TRANS_CFG_TRIG } }

/-- Discards the capture and its arrivals. -/
def Node.tDiscard (n : Node) : Node :=
  let n := n.setFds [(Fd.TRANS_STAT_ARRMASK, 0), (Fd.TRANS_STAT_TRIGIN, 0), (Fd.TRANS_STAT_KEPT, 0), (Fd.TRANS_ARRPOL_POL, 0),
    (Fd.TRANS_TRIGSEC_SEC, 0), (Fd.TRANS_TRIGQNS_QNS, 0), (Fd.TRANS_TRIGBLK_SLOT, 0)]
  let n := (List.range 8).foldl (fun n i => (n.wr (Ad.TRANS_ARRSEC i) 0#32).wr (Ad.TRANS_ARRQNS i) 0#32) n
  { n with trans := { n.trans with arrThr := [], arrAt := [], arrStamp := [], arrSlot := [], stepped := false, disarm := false } }

/-- Entry to ARMED at a moment of node time (Table 6-4). -/
def Node.tArm (n : Node) (t : Nat) : Node :=
  let n := n.tDiscard
  { n with trans := { n.trans with armAt := t } }.tEnter tsArmed

/-- Records the first firing of an input: its stamp at 0.5 ns, less TDELAY, its polarity and the threshold (R166). -/
def Node.tArrive (n : Node) (i : Nat) (t : Nat) (pos : Bool) : Node × Nat :=
  let d := signed 32 (n.fd (Fd.TRANS_TDELAY_TDELAY i))
  let stamp := (((t / 2 * 2 : Nat) : Int) - d).toNat
  let n := (n.wr (Ad.TRANS_ARRSEC i) (BitVec.ofNat 32 (stamp / qnsSec))).wr (Ad.TRANS_ARRQNS i) (BitVec.ofNat 32 (stamp % qnsSec))
  let n := n.setBit Ad.TRANS_STAT (8 + i)
  let n := if pos then n.setBit Ad.TRANS_ARRPOL i else n
  let n := { n with trans := { n.trans with arrThr := Bank.set 0 n.trans.arrThr i (n.fd (Fd.TRANS_THR_THR i)),
                                            arrAt := Bank.set 0 n.trans.arrAt i (t + 1),
                                            arrStamp := Bank.set 0 n.trans.arrStamp i stamp } }
  (if n.trans.arrRung then n else { n.ring 66 with trans := { n.trans with arrRung := true } }, stamp)

/-- Input i becomes the event's trigger. -/
def Node.tTrigger (n : Node) (i t stamp : Nat) : Node :=
  let n := n.setFds [(Fd.TRANS_STAT_TRIGIN, i), (Fd.TRANS_TRIGSEC_SEC, stamp / qnsSec), (Fd.TRANS_TRIGQNS_QNS, stamp % qnsSec),
    (Fd.TRANS_TRIGBLK_SLOT, slotOf t)]
  { n with trans := { n.trans with trigAt := stamp, trigRaw := t, trigEst := n.fd Fd.TIME_EST_EST,
                                   fillEnd := t / 4000 * 4000 + 5000 * 4000 } }

/-- A comparator fires (R166, R167). -/
def execComparatorFiring (i : Nat) (m : Moment) (pos : Bool) (s : State) : Host.Outcome State Fault Refusal :=
  s.lift fun n =>
    let t := n.now m
    if !(n.working && i < 8 && n.trans.onF.testBit i) then n
    else if n.tState = tsArmed then
      if !n.trans.trigF.testBit i then n
      else
        let n := n.bump Fd.TRANS_STAT_EVENTS 1
        let (n, stamp) := n.tArrive i t pos
        let n := (n.tTrigger i t stamp).setOn Fd.TRANS_EVT_TRIGGERED true
        (n.ring 64).tEnter tsTriggered
    else if n.tState = tsTriggered then
      if n.bit Ad.TRANS_STAT (8 + i) then n
      else
        let (n, stamp) := n.tArrive i t pos
        if n.trans.trigF.testBit i && i < n.fd Fd.TRANS_STAT_TRIGIN && t / 2 = n.trans.trigRaw / 2 then n.tTrigger i t stamp else n
    else if n.tState = tsHeld then
      ((n.bump Fd.TRANS_MISSED_MISSED 1).setOn Fd.TRANS_EVT_MISSED true).ring 67
    else n

/-- The payload of the TRANSIENT record (Table 6-5). -/
def Node.tPayload (n : Node) : List Byte :=
  let mask := n.fd Fd.TRANS_STAT_ARRMASK
  let offs := ((List.range 8).filter (fun i => mask.testBit i)).flatMap (fun i =>
    bytesLE 4 (twos 32 (((Bank.get 0 n.trans.arrStamp i : Nat) : Int) - (n.trans.trigAt : Int))))
  [BitVec.ofNat 8 (n.fd Fd.TRANS_STAT_TRIGIN), BitVec.ofNat 8 mask, BitVec.ofNat 8 (n.fd Fd.TRANS_ARRPOL_POL),
    if n.trans.stepped then 1#8 else 0#8] ++ offs ++ bytesLE 2 (Nat.min n.trans.trigEst 0xFFFF)

/-- The slot of the capture ring whose first byte an address is. -/
def ringSlotAt (a : Nat) : Option (Nat × Nat) :=
  let off := (a - 0x20000000) % 0x40000
  if 0x20000000 ≤ a && a < 0x20200000 && off < 260000 && off % 26 = 0 then some ((a - 0x20000000) / 0x40000, off / 26) else none
/-- After a step in the event, only the blocks of its arrivals keep ARR: slots that were not written hold older data with
ARR 0 (R181). -/
def Node.clearOldArr (n : Node) : Node :=
  if !n.trans.stepped then n
  else n.mem.foldl (fun n c => match ringSlotAt c.1 with
    | some (i, k) =>
      if n.trans.onF.testBit i && c.2.getLsbD 3 && Bank.get 0 n.trans.arrSlot i != k + 1 then n.setByte c.1 (c.2 &&& 0xF7#8) else n
    | none => n) n

/-- The last block is written: HELD (R167). -/
def execPostTriggerFillComplete (m : Moment) (hf : List (Nat × List Int)) (s : State) : Host.Outcome State Fault Refusal :=
  s.lift fun n =>
    if n.working && n.tState = tsTriggered && n.trans.fillEnd ≤ n.now m then
      let n := (n.ringWrite n.tm.t0 hf).clearOldArr.tMasks
      let n := { n with trans := { n.trans with heldTick := n.tick, record := some (n.tPayload, n.trans.trigAt) } }
      ((n.setOn Fd.TRANS_EVT_HELD true).ring 65).tEnter tsHeld
    else n

/-- AUTOARM seconds in HELD (R167). -/
def execAutoarmExpiry (m : Moment) (s : State) : Host.Outcome State Fault Refusal :=
  s.lift fun n =>
    let a := n.fd Fd.TRANS_CTRL_AUTOARM
    if n.working && n.tState = tsHeld && a ≠ 0 && n.trans.heldTick + a * 50000 ≤ n.tick then n.tArm (n.now m) else n

/-! ### Stages -/

/-- The beat boundary: the blocks of the beat that ended at node time `t1`, begun at `t0`; the running RMS, which holds
from the trigger (whose arrival ARRMASK shows) to the next arming, and the threshold of each input; settings that wait for the boundary; the end of a DISARM given in TRIGGERED (R165, R174, R179). -/
def Node.transBeat (n : Node) (t0 : Nat) (hf : List (Nat × List Int)) : Node :=
  let n := n.ringWrite t0 hf
  let st := n.tState
  let n := { n with trans := { n.trans with arrRung := false, cut := none } }
  let n := if st = tsArmed ∨ st = tsDisarmed then n.tMasks else n
  let n := (List.range 8).foldl (fun n i =>
    if !n.trans.onF.testBit i then n
    else
      let fl := n.fd (Fd.TRANS_FLOOR_FLOOR i)
      let r0 := Bank.get 0 n.trans.rms i
      let r := if n.fd Fd.TRANS_STAT_ARRMASK = 0 then
          Config.transRms (n.fd (Fd.TRANS_CFG_TAU i)) r0 (((hf.find? (fun p => p.1 == i)).map (·.2)).getD []) else r0
      let thr := Nat.min 2400 (Nat.max fl (n.fd (Fd.TRANS_CFG_K i) * r / 1000))
      let n := { n with trans := { n.trans with rms := Bank.set 0 n.trans.rms i r } }
      n.setFds [(Fd.TRANS_THR_RMS i, Nat.min 4095 (r / 1000)), (Fd.TRANS_THR_THR i, thr)]) n
  if st = tsHeld && n.trans.disarm then
    { n with trans := { n.trans with disarm := false } }.setOn Fd.TRANS_STAT_KEPT true |>.tEnter tsDisarmed
  else n

/-- Stage S6 of the first beat that begins after HELD: the TRANSIENT record, with the trigger's time (R167). -/
def Node.transS6 (n : Node) : Node :=
  match n.trans.record with
  | some (p, t) =>
    if n.trans.heldTick < n.tick then
      ({ n with trans := { n.trans with record := none } }.raiseAt 0x051 p 6 helpTrans t).1
    else n
  | none => n

/-- A step of node time while TRIGGERED (R181). -/
def Node.transStep (n : Node) (size : Int) : Node :=
  let mv := fun (t : Nat) => ((t : Int) + size).toNat
  let n := { n with trans := { n.trans with armAt := mv n.trans.armAt, trigRaw := mv n.trans.trigRaw,
                                            fillEnd := mv n.trans.trigRaw / 4000 * 4000 + 5000 * 4000 } }
  if n.tState = tsTriggered then { n with trans := { n.trans with stepped := true } }.setOn Fd.TRANS_EVT_STEP true else n

/-- The wake from DORMANT finds the engine DISARMED (R178). -/
def Node.transWake (n : Node) : Node :=
  let n := { n with trans := { n.trans with disarm := false, record := none } }
  if n.tState = tsDisarmed then n else n.tEnter tsDisarmed

/-! ### Keys and commands (Table 6-9) -/

def transSpecs : List KeySpec := [ks "AUTOARM" (.int 0 3600) (fun _ => Fd.TRANS_CTRL_AUTOARM)]
def transInSpecs : List KeySpec := [
  ks "ON" onOff Fd.TRANS_CFG_ON, ks "TRIG" onOff Fd.TRANS_CFG_TRIG, ks "K" (.int 4 32) Fd.TRANS_CFG_K,
  ks "FLOOR" (.fix (qd 5 3) (q 2) (qd 1 3) (q 0)) Fd.TRANS_FLOOR_FLOOR,
  ks "HPF" (.enum [("2", 0), ("10", 1), ("50", 2)]) Fd.TRANS_CFG_HPF,
  ks "TAU" (.enum [("10", 0), ("100", 1), ("1000", 2)]) Fd.TRANS_CFG_TAU,
  ks "TDELAY" (.fix (q (-100000)) (q 100000) (qd 25 2) (q 0)) Fd.TRANS_TDELAY_TDELAY]

def setTransUnit (keys : Keys) (i : Nat) (n : Node) : Except Err (Node × List (List Item)) := do
  checkKeys transInSpecs [] keys
  pure (n.setKeys transInSpecs i keys, [])

def execSetTrans (l : Line) (s : State) : Host.Outcome State Fault Refusal :=
  s.lift fun n => match l.idx with
    | some _ => n.runMulti l verbSet .trans 8 (.set .trans l.keys) (fun _ _ => checkKeys transInSpecs [] l.keys)
        (setTransUnit l.keys)
    | none => n.runWhole l .trans (fun _ => checkKeys transSpecs [] l.keys) (fun n => .ok (n.setKeys transSpecs 0 l.keys, []))

/-- ARM as DO TRANS ARM gives it; none where it is refused (R175). -/
def Node.doArm (n : Node) (t : Nat) : Option Node :=
  if n.tState = tsArmed ∨ n.tState = tsTriggered then none else some (n.tArm t)
/-- DISARM as DO TRANS DISARM gives it; none where it is refused (R175, R179). -/
def Node.doDisarm (n : Node) : Option Node :=
  if n.tState = tsArmed then some ((n.tCut (n.stageAt 7)).tEnter tsDisarmed)
  else if n.tState = tsTriggered then some { n with trans := { n.trans with disarm := true } }
  else none

def Node.runTrans (n : Node) (l : Line) (f : Node → Option Node) : Node :=
  n.runWhole l .trans (fun n => do
      onlyKeys [] [] l.keys
      if (f n).isNone then refuse 308)
    (fun n => match f n with
      | some n' => .ok (n', [])
      | none => refuse 308)

def execDoTransArm (l : Line) (s : State) : Host.Outcome State Fault Refusal :=
  s.lift fun n => n.runTrans l (fun n => n.doArm (n.stageAt 7))
def execDoTransDisarm (l : Line) (s : State) : Host.Outcome State Fault Refusal :=
  s.lift fun n => n.runTrans l (fun n => n.doDisarm)

/-- A refused transient write (R177). -/
def Node.transCfgErr (n : Node) : Node := (n.setOn Fd.TRANS_EVT_CFGERR true).ring 68

/-- A write of TRANS.CTRL: AUTOARM, then ARM, then DISARM (Table 6-11, R175, R177). -/
def Node.transCtrl (n : Node) (v : Word) : Node :=
  let a := v.toNat / 65536
  if 3600 < a then n.transCfgErr
  else
    let n := if a = n.fd Fd.TRANS_CTRL_AUTOARM then n else (n.setFd Fd.TRANS_CTRL_AUTOARM a).dirty
    let n := if v.getLsbD 0 then (n.doArm (n.stageAt 7)).getD n.transCfgErr else n
    if v.getLsbD 1 then n.doDisarm.getD n.transCfgErr else n

def execTransCtrlArm (v : Word) (s : State) : Host.Outcome State Fault Refusal :=
  s.lift fun n => if n.working && v.getLsbD 0 then n.transCtrl v else n
def execTransCtrlDisarm (v : Word) (s : State) : Host.Outcome State Fault Refusal :=
  s.lift fun n => if n.working && v.getLsbD 1 then n.transCtrl v else n

/-- Millivolts as volts with three digits. -/
def mVItem (k : Nat) : Item := .d (k : Int) 3

def execGetTrans (l : Line) (s : State) : Host.Outcome State Fault Refusal :=
  s.lift fun n => n.runRead l (fun n => do
    l.bare
    onlyKeys [] [] l.keys
    let st := n.tState
    let shown := st == tsTriggered || st == tsHeld || n.on Fd.TRANS_STAT_KEPT
    pure (([.w "TRANS STATE", .w (tsName st)] ++
        (if shown then [.w "TRIG", .n (n.fd Fd.TRANS_STAT_TRIGIN), .w "SEC", .n (secOf n.trans.trigAt), .w "QNS",
          .n (n.fd Fd.TRANS_TRIGQNS_QNS), .w "EST", .n n.trans.trigEst] else []) ++
        [.w "EVENTS", .n (n.fd Fd.TRANS_STAT_EVENTS)]) ::
      (List.range 8).map (fun i =>
        if !n.on (Fd.TRANS_CFG_ON i) then [.w "TRANS", .n i, .w "OFF"]
        else if shown && n.bit Ad.TRANS_STAT (8 + i) then
          [.w "TRANS", .n i, .w "ARR SEC", .n (secOf (Bank.get 0 n.trans.arrStamp i)), .w "QNS", .n (n.rd (Ad.TRANS_ARRQNS i)).toNat,
           .w "POL", .w (if n.bit Ad.TRANS_ARRPOL i then "POS" else "NEG"), .w "THR", mVItem (Bank.get 0 n.trans.arrThr i)]
        else [.w "TRANS", .n i, .w "NONE"])))

def execShowTrans (l : Line) (s : State) : Host.Outcome State Fault Refusal :=
  s.lift fun n => n.runRead l (fun n => do
    let is ← l.items 8
    onlyKeys [] [] l.keys
    pure (is.map (fun i => [.w "TRANS", .n i, .w "THR", mVItem (n.fd (Fd.TRANS_THR_THR i)), .w "RMS",
      mVItem (n.fd (Fd.TRANS_THR_RMS i))] ++ n.showKeys transInSpecs i)))

def execWatchTrans (l : Line) (s : State) : Host.Outcome State Fault Refusal :=
  s.lift fun n => n.runWatch l .trans "" (match l.bare with
    | .ok _ => .ok [none]
    | .error e => .error e)

def dumpSpecs : List KeySpec := [kk "FROM" (.int 0 9999) (fun _ => 0), kk "COUNT" (.int 1 64) (fun _ => 0)]

/-- DO TRANS DUMP: block k is the (k+1)-th oldest of the capture (R170, R176). -/
def execDoTransDump (l : Line) (s : State) : Host.Outcome State Fault Refusal :=
  s.lift fun n => n.runLine l false (fun n => do
    let i ← l.item 8
    checkKeys dumpSpecs ["FROM", "COUNT"] l.keys
    let k := (keyNum dumpSpecs l.keys "FROM").getD 0
    let c := (keyNum dumpSpecs l.keys "COUNT").getD 0
    if 10000 < k + c then refuse 201
    if n.tState != tsHeld && !(n.tState == tsDisarmed && n.on Fd.TRANS_STAT_KEPT) then refuse 308
    n.mayWrite l.port .trans l.idx
    pure (n, (List.range c).map (fun j =>
      let a := slotAddr i ((n.fd Fd.TRANS_TRIGBLK_SLOT + 5000 + k + j) % 10000)
      [.w "TRANS", .n i, .w "BLK", .n (k + j), .w "SH", .n ((n.byte a).toNat % 8)] ++
        (n.bytes (a + 1) 25).map (fun b => .i b.toInt))))

/-- Settings of the transient engine that the store keeps. -/
def transStored : List Nat :=
  Ad.TRANS_CTRL :: (List.range 8).flatMap (fun i => [Ad.TRANS_CFG i, Ad.TRANS_FLOOR i, Ad.TRANS_TDELAY i])

/-- Codes and values a register write may hold (R177). -/
def Node.transRegOk (n : Node) : Bool :=
  n.fd Fd.TRANS_CTRL_AUTOARM ≤ 3600 &&
  (List.range 8).all (fun i => n.fd (Fd.TRANS_CFG_TAU i) ≤ 2 && n.fd (Fd.TRANS_CFG_HPF i) ≤ 2 &&
    4 ≤ n.fd (Fd.TRANS_CFG_K i) && n.fd (Fd.TRANS_CFG_K i) ≤ 32 &&
    5 ≤ n.fd (Fd.TRANS_FLOOR_FLOOR i) && n.fd (Fd.TRANS_FLOOR_FLOOR i) ≤ 2000 &&
    (signed 32 (n.fd (Fd.TRANS_TDELAY_TDELAY i))).natAbs ≤ 400000)

/-- The unit of DO TRANS REINIT (R180). -/
def Node.transReinit (n : Node) : Node :=
  let n' := n.reloadRegs transStored
  let n' := if n'.transRegOk then n' else (transStored.foldl (fun n a => n.wr a (resetWord a)) n).transCfgErr
  let n' := (n'.tCut (n'.stageAt 7)).tDiscard
  let n' := { n' with trans := { n'.trans with rms := (List.range 8).map (fun i => (i, n'.fd (Fd.TRANS_FLOOR_FLOOR i) * 1000)),
                                               record := none } }
  if n'.tState = tsDisarmed then n' else n'.tEnter tsDisarmed

def execDoTransReinit (l : Line) (s : State) : Host.Outcome State Fault Refusal :=
  s.lift fun n => n.runOpen l (fun n => do
    l.bare
    onlyKeys [] [] l.keys
    n.mayWrite l.port .trans none
    pure (n.startMr l verbDo .trans (.reinit .trans) [0] false))

end Sys2Proof.Machine
end

