-- ==== Sys2Proof/Machine/Ports.lean ====
section
/-! DEFINITION. The command ports (chapter 2) but for register access: characters in and out, repeats, notices, streams,
confirmations, leases, the host heartbeat, the port settings, and the lines that only report (chapters 1 and 2). -/
namespace Sys2Proof.Machine

/-! ### Identification and state (R22, R23, R438, R439) -/

/-- DEVID, UID and ROMVER as the registers read. -/
def Node.devid (n : Node) : Nat := (n.rd Ad.SYS_DEVID).toNat
def Node.romver (n : Node) : Nat := (n.rd Ad.SYS_ROMVER).toNat

def execGetSysDevid (l : Line) (s : State) : Host.Outcome State Fault Refusal :=
  s.lift fun n => n.runLine l true (fun n => do
    l.bare
    onlyKeys [] [] l.keys
    pure (n, [[.w "SYS", .w "DEVID", .h n.devid 8]]))
def execGetSysUid (l : Line) (s : State) : Host.Outcome State Fault Refusal :=
  s.lift fun n => n.runLine l true (fun n => do
    l.bare
    onlyKeys [] [] l.keys
    pure (n, [[.w "SYS", .w "UID", .h Node.uid 16]]))
def execGetSysRomver (l : Line) (s : State) : Host.Outcome State Fault Refusal :=
  s.lift fun n => n.runLine l true (fun n => do
    l.bare
    onlyKeys [] [] l.keys
    pure (n, [[.w "SYS", .w "ROMVER", .h n.romver 8]]))

/-- The power state's word: a line reports only FULL or QUIET. -/
def Node.powerWord (n : Node) : String := if n.sys.power == .quiet then "QUIET" else "FULL"
def revWord (r : Nat) : List Nat := [66 + r]
def execShowNode (l : Line) (s : State) : Host.Outcome State Fault Refusal :=
  s.lift fun n => n.runLine l true (fun n => do
    l.bare
    onlyKeys [] [] l.keys
    pure (n, [
      [.w "NODE", .w "PART", .h (n.fd Fd.SYS_DEVID_PART) 4, .w "REV", .c (revWord (n.fd Fd.SYS_DEVID_REV)), .w "MINOR",
       .n (n.fd Fd.SYS_DEVID_MINOR), .w "ROM",
       .c (decCodes (n.fd Fd.SYS_ROMVER_MAJOR) ++ 46 :: decCodes (n.fd Fd.SYS_ROMVER_MINOR))],
      [.w "NODE", .w "UID", .h Node.uid 16],
      [.w "NODE", .w "STATION", .n n.station, .w "STATE", .w n.powerWord, .w "ANNEX", .w (annexStateName n.annexState)],
      [.w "NODE", .w "SOURCE", .w (sourceName (n.fd Fd.TIME_STATUS_SOURCE))]]))

/-- Locked pins of bank b. -/
def Node.lockedPins (n : Node) (b : Nat) : Nat := ((List.range 24).filter (fun i => n.gpLocked (24 * b + i))).length
def genWord (g : Nat) : String := match g with | 0 => "A" | 1 => "B" | _ => "C"
def linkWord (k : Nat) : String := match k with | 0 => "SEPARATE" | 1 => "PAIR" | _ => "WAY"
def execShowNodeModes (l : Line) (s : State) : Host.Outcome State Fault Refusal :=
  s.lift fun n => n.runLine l true (fun n => do
    l.bare
    onlyKeys [] [] l.keys
    pure (n, [[.w "NODE", .w "MODES", .w "STATE", .w n.powerWord, .w "GEN", .w "A", .w (genWord (n.genMax 0)), .w "B",
      .w (genWord (n.genMax 1)), .w "LINK", .w (linkWord (n.fd Fd.BUS_LINK_MODE)), .w "ANNEX",
      .w (annexStateName n.annexState), .w "HOST", .w (if n.on Fd.CMD_HBCFG_AUTONOMOUS then "LOST" else "PRESENT"),
      .w "LOCKED", .w "A", .n (n.lockedPins 0), .w "B", .n (n.lockedPins 1)]]))
/-- SYS.MODES follows its source registers (R439). -/
def Node.modes (n : Node) : Word :=
  let w := Fd.SYS_MODES_PSTATE.put 0#32 (n.fd Fd.SYS_PSTATE_STATE)
  let w := Fd.SYS_MODES_GENA.put w (n.genMax 0)
  let w := Fd.SYS_MODES_GENB.put w (n.genMax 1)
  let w := Fd.SYS_MODES_ANNEX.put w n.annexState
  let w := Fd.SYS_MODES_LINK.put w (n.fd Fd.BUS_LINK_MODE)
  let w := Fd.SYS_MODES_AUTONOMOUS.put w (n.fd Fd.CMD_HBCFG_AUTONOMOUS)
  Fd.SYS_MODES_LOCKB.put (Fd.SYS_MODES_LOCKA.put w (n.lockedPins 0)) (n.lockedPins 1)

/-! ### Receiving characters (R28 to R31, R37, R467) -/

/-- The ball of the port is supplied: HOST and SERVICE lie in bank A (R455). -/
def Node.uartUp (n : Node) (p : Port) : Bool := (p == .host || p == .service) && n.bank 0 != 0
/-- Echo is on for typed lines of the port (Table 2-1). -/
def Node.echoOn (n : Node) (p : Port) : Bool := p == .service || (p == .host && n.on Fd.CMD_HOSTCFG_ECHO)
def Node.echo (n : Node) (p : Port) (c : Nat) : Node := n.setPort p { n.port p with echo := (n.port p).echo ++ [c] }

/-- The terminator ends the line; a typed line from which a character was discarded is over its 240 characters. -/
def Node.endLine (n : Node) (p : Port) (m : Moment) : Node :=
  let s := n.port p
  let cs := if s.overlong then s.inbuf ++ List.replicate (241 - s.inbuf.length) 88 else s.inbuf
  (n.setPort p { s with inbuf := [], overlong := false }).lineIn p cs 0 0 false m

/-- An accepted character. -/
def Node.charIn (n : Node) (p : Port) (c : Nat) (m : Moment) : Node :=
  let s := n.port p
  let cr := s.afterCr
  let n := n.setPort p { s with afterCr := c == 13 }
  let s := n.port p
  let gen := s.inbuf.head? == some 35
  let echo := n.echoOn p && !gen && !(s.inbuf.isEmpty && c == 35)
  if c = 10 && cr then n
  else if c = 13 || c = 10 then (if echo then n.echo p c else n).endLine p m
  else if echo && (c = 8 || c = 127) then (n.setPort p { s with inbuf := s.inbuf.dropLast }).echo p c
  else if echo && (c = 21 || c = 3) then (n.setPort p { s with inbuf := [], overlong := false }).echo p c
  else if gen then (if 241 ≤ s.inbuf.length then n else n.setPort p { s with inbuf := s.inbuf ++ [c] })
  else if 240 ≤ s.inbuf.length then
    let n := n.setPort p { s with overlong := true }
    if echo then n.echo p 7 else n
  else
    let n := n.setPort p { s with inbuf := s.inbuf ++ [c] }
    if echo then n.echo p c else n

/-- HOST arms auto-baud on the occasions of R29, when HAUTO is ON. -/
def Node.armAuto (n : Node) : Node :=
  let n := n.setPort .host { n.port .host with frameRun := 0 }
  if n.on Fd.CMD_HOSTCFG_AUTO then n.setOn Fd.CMD_HOSTCFG_ARMED true else n

/-- A character with a framing or parity error is discarded and counted (R28, R29, R469). -/
def Node.charBad (n : Node) (p : Port) : Node :=
  let s := n.port p
  let n := n.setPort p { s with err := satAdd 65535 s.err 1, frameRun := s.frameRun + 1 }
  let n := n.bump (if p = .host then Fd.CMD_ERRCNT_HOSTFRAME else Fd.CMD_ERRCNT_SVCFRAME) 1
  if p = .host && 16 ≤ s.frameRun + 1 then n.armAuto else n

/-- An armed HOST port times the character: CR at its own timing sets the rate, anything else is discarded (R29). -/
def Node.autoBaud (n : Node) (ch : RxChar) : Node :=
  let rate := (2 * qnsSec + ch.interval / 2) / ch.interval
  if ch.timed = some 13 && ch.interval != 0 && 9600 ≤ rate && rate ≤ 4000000 then
    let n := n.setFds [(Fd.CMD_HOSTCFG_BAUD, rate), (Fd.CMD_HOSTCFG_ARMED, 0)]
    let s := n.port .host
    n.setPort .host { s with cfgInForce := Fd.CMD_HOSTCFG_BAUD.put s.cfgInForce rate, frameRun := 0 }
  else n

/-- Can the port receive: live, its bank supplied, and in RS-485 mode not sending (R30, R416, R435, R455)? -/
def Node.hears (n : Node) (p : Port) : Bool :=
  n.lively && n.uartUp p && !(p == .host && Fd.CMD_HOSTCFG_PHY.get (n.port p).cfgInForce == 1 && (n.port p).de)

/-- A character's stop bit ends on the port at a moment (R30). -/
def Node.rxMark (n : Node) (p : Port) (m : Moment) : Node := n.setPort p { n.port p with rxAt := n.mono m }

def execCharacterReceived (p : Port) (ch : RxChar) (m : Moment) (s : State) : Host.Outcome State Fault Refusal :=
  s.lift fun n =>
    if !n.hears p then n
    else
    let n := n.rxMark p m
    if p = .host && n.on Fd.CMD_HOSTCFG_ARMED then n.autoBaud ch
    else
      let par := Fd.CMD_HOSTCFG_PAR.get (n.port p).cfgInForce
      let parBad := p == .host && (par == 1 || par == 2) && !ch.parityOk
      if !ch.stopOk || parBad then n.charBad p
      else (n.setPort p { n.port p with frameRun := 0 }).charIn p (ch.code % 256) m

/-- A line whose characters reach the port with their terminator: on HOST and SERVICE character by character. -/
def execLineReceived (p : Port) (cs : List Nat) (m : Moment) (s : State) : Host.Outcome State Fault Refusal :=
  s.lift fun n =>
    match p with
    | .host => if n.hears .host && !n.on Fd.CMD_HOSTCFG_ARMED then (cs ++ [13]).foldl (fun (n : Node) (c : Nat) => n.charIn .host c m) (n.rxMark .host m) else n
    | .service => if n.hears .service then (cs ++ [13]).foldl (fun (n : Node) (c : Nat) => n.charIn .service c m) (n.rxMark .service m) else n
    | .bus => n.lineIn .bus cs (n.port .bus).station (n.port .bus).via false m
    | .annex => n.lineIn .annex cs 0 0 false m

/-! ### Sending characters (R30, R37, R40) -/

/-- `OW> `. -/
def promptCodes : List Nat := codesOf "OW> "

/-- What the port sends next when nothing is in progress: echo, then reply lines, then notices, which wait while a reply
is open (R40). The last line of a reply to a typed line is followed by the prompt when echo is on (R37); a reply that a
+PARTIAL ended is followed by its continuation first. -/
def Node.nextOut (n : Node) (p : Port) : Node :=
  let s := n.port p
  if !s.out.isEmpty then n
  else if !s.echo.isEmpty then n.setPort p { s with out := s.echo, outOf := 1, echo := [] }
  else match s.reply with
    | o :: t =>
      let last := match o.kind with
        | .done => true
        | .error _ => true
        | _ => false
      let tail := if last && o.tag = "" && n.echoOn p then promptCodes else []
      n.setPort p { s with reply := t, out := o.codes ++ [13, 10] ++ tail, outOf := 2 }
    | [] =>
      if s.replyOpen then n
      else match s.notices with
        | o :: _ => n.setPort p { s with out := (o.tagged s.genForm).codes ++ [13, 10], outOf := 3 }
        | [] => n

/-- The port has something to send and may send it. -/
def Node.sending (n : Node) (p : Port) : Bool :=
  n.awake && n.uartUp p && !(n.nextOut p |>.port p).out.isEmpty &&
    (p != .host || Fd.CMD_HOSTCFG_PHY.get (n.port p).cfgInForce == 0 || (n.port p).de)

/-- One character of what the port sends is gone. A queue's line frees its place once it is sent; after the last
character of all HOST_DE goes low (R30). -/
def Node.charGone (n : Node) (p : Port) : Node :=
  let s := n.port p
  let rest := s.out.drop 1
  let n := n.setPort p { s with out := rest, outOf := if rest.isEmpty then 0 else s.outOf,
                                notices := if rest.isEmpty && s.outOf = 3 then s.notices.drop 1 else s.notices }
  if rest.isEmpty && ((n.nextOut p).port p).out.isEmpty then n.setPort p { n.port p with de := false } else n
def execCharacterSent (p : Port) (s : State) : Host.Outcome State Fault Refusal :=
  s.lift fun n => if n.sending p then (n.nextOut p).charGone p else n

/-- HTURN has passed since the stop bit of the last character that HOST received (R30). -/
def Node.turned (n : Node) (m : Moment) : Bool := (n.port .host).rxAt + n.fd Fd.CMD_HBCFG_TURN * 4000 ≤ n.mono m
/-- HOST_DE goes high, HTURN after the last received stop bit (R30). -/
def execHostDeTurnaround (m : Moment) (s : State) : Host.Outcome State Fault Refusal :=
  s.lift fun n =>
    if n.awake && n.uartUp .host && n.turned m && Fd.CMD_HOSTCFG_PHY.get (n.port .host).cfgInForce = 1 &&
        !((n.nextOut .host).port .host).out.isEmpty then
      n.setPort .host { n.port .host with de := true }
    else n

/-- `!LOST n` takes the first place that frees (R40). -/
def execLostNotice (p : Port) (s : State) : Host.Outcome State Fault Refusal :=
  s.lift fun n =>
    let st := n.port p
    if n.awake && st.lost != 0 && st.notices.length < 64 then
      n.setPort p { st with lost := 0, notices := st.notices ++ [⟨"", .notice, [.w "LOST", .n st.lost]⟩] }
    else n

/-- A !STREAM line goes with the publication at which the stream's count is full (R41, R472). -/
def execStreamEmit (p : Port) (o : Obj) (i : Option Nat) (s : State) : Host.Outcome State Fault Refusal :=
  s.lift fun n =>
    let (items, pubs) : List Item × Nat := match o, i with
      | .uc, some k => n.ucStream k
      | .lo, some k => n.loStream k
      | .grid, k => n.gridStream k
      | _, _ => ([], 1)
    match n.cmd.streams.find? (fun t => t.port == p && t.obj == o && t.idx == i) with
    | none => n
    | some t =>
      if !n.awake || pubs = 0 || t.phase < pubs then n
      else
        let n := { n with cmd := { n.cmd with streams := n.cmd.streams.map (fun (u : Stream) =>
          if u.port == p && u.obj == o && u.idx == i then { u with phase := u.phase - pubs } else u) } }
        n.notifyPort p .stream (.w "STREAM" :: items)

/-! ### Repeats and confirmations (R36, R47) -/

/-- A stored reply goes out again once the first reply has ended; one that was too long is answered with ?E310. -/
def execStoredReplyResend (p : Port) (s : State) : Host.Outcome State Fault Refusal :=
  s.lift fun n =>
    let st := n.port p
    match st.stored with
    | none => n
    | some r =>
      if !n.awake || !r.again || r.ended.isNone || st.replyOpen then n
      else
        let lines := if 64 < r.count then [(⟨r.tag, .error 310, [.w (errText 310)]⟩ : OutLine)] else r.lines
        n.setPort p { st with stored := some { r with again := false }, reply := st.reply ++ lines }

def execStoredReplyExpiry (p : Port) (s : State) : Host.Outcome State Fault Refusal :=
  s.lift fun n =>
    let st := n.port p
    match st.stored with
    | none => n
    | some r => match r.ended with
      | none => n
      | some t => if n.awake && t + 100000 ≤ n.tick && !r.again then n.setPort p { st with stored := none } else n

def execConfirmationExpiry (p : Port) (s : State) : Host.Outcome State Fault Refusal :=
  s.lift fun n =>
    let st := n.port p
    match st.confirm with
    | none => n
    | some c => if n.awake && c.until_ < n.tick then n.setPort p { st with confirm := none } else n

/-! ### Leases (R48, R49) -/

/-- The index of HOLD and FREE. -/
def leaseIndex (l : Line) (o : Obj) : Except Err Unit :=
  match l.idx with
  | none => .ok ()
  | some x =>
    if objCap o = 0 || !idxSyntax x then refuse 113
    else if x.any (fun (_, b) => objCap o ≤ b) then refuse 202
    else .ok ()

def holdSpecs : List KeySpec := [kk "TIME" (.int 0 3600) (fun _ => 0)]
/-- The same index items. -/
def sameIdx (a b : Option (List (Nat × Nat))) : Bool :=
  match a, b with
  | some x, some y => indexSet x == indexSet y
  | none, none => true
  | _, _ => false

def execHold (l : Line) (o : Obj) (s : State) : Host.Outcome State Fault Refusal :=
  s.lift fun n => n.runLine l false (fun n => do
    leaseIndex l o
    checkKeys holdSpecs [] l.keys
    let t := (keyNum holdSpecs l.keys "TIME").getD 60
    let mine (x : Lease) : Bool := x.port == l.port && x.obj == o && sameIdx x.idx l.idx
    let rest := n.cmd.leases.filter (fun x => !mine x)
    if 32 ≤ rest.length then refuse 403
    match n.cmd.leases.find? (fun x => x.port != l.port && x.obj == o && idxMeet x.idx l.idx) with
    | some x => .error ⟨401, [.w "HELD BY", .w (portName x.port)]⟩
    | none =>
      let lease : Lease := ⟨l.port, o, l.idx, if t = 0 then none else some (n.cmd.clock + t * 50000), (n.port l.port).station⟩
      pure ({ n with cmd := { n.cmd with leases := rest ++ [lease] } }, []))

def execFree (l : Line) (o : Obj) (s : State) : Host.Outcome State Fault Refusal :=
  s.lift fun n => n.runLine l false (fun n => do
    leaseIndex l o
    onlyKeys [] [] l.keys
    let gone (x : Lease) : Bool := x.port == l.port && x.obj == o && (l.idx.isNone || idxWithin (objCap o) x.idx l.idx)
    if !n.cmd.leases.any gone then refuse 402
    pure ({ n with cmd := { n.cmd with leases := n.cmd.leases.filter (fun x => !gone x) } }, []))

/-- The lease an event names. -/
def leaseIs (p : Port) (o : Obj) (idx : Option (List (Nat × Nat))) (x : Lease) : Bool := x.port == p && x.obj == o && x.idx == idx

def execLeaseTimeExpiry (p : Port) (o : Obj) (idx : Option (List (Nat × Nat))) (s : State) : Host.Outcome State Fault Refusal :=
  s.lift fun n =>
    if n.awake then
      n.endLeases (fun x => leaseIs p o idx x && (match x.left with
        | some t => t ≤ n.cmd.clock
        | none => false))
    else n

/-- A port's silence time in beats (R49): ANNEX leases end when the core stops. -/
def Node.silence (n : Node) (p : Port) : Option Nat :=
  match p with
  | .host => some (Nat.max 1 (n.fd Fd.CMD_HBCFG_HBEAT) * 50000)
  | .service => some (600 * 50000)
  | .bus => some (30 * 50000)
  | .annex => none
/-- The holding port has been silent for its silence time; on BUS the holding station. -/
def Node.leaseSilent (n : Node) (x : Lease) : Bool :=
  match n.silence x.port with
  | none => false
  | some t => (if x.port == .bus then Bank.get 0 n.cmd.heard x.station else (n.port x.port).lastLine) + t ≤ n.cmd.clock

def execLeaseSilenceExpiry (p : Port) (o : Obj) (idx : Option (List (Nat × Nat))) (s : State) :
    Host.Outcome State Fault Refusal :=
  s.lift fun n => if n.awake then n.endLeases (fun x => leaseIs p o idx x && n.leaseSilent x) else n

/-! ### The host heartbeat (R50) -/

/-- HBEAT in beats. -/
def Node.heartbeat (n : Node) : Nat := Nat.max 1 (n.fd Fd.CMD_HBCFG_HBEAT) * 50000
/-- The node enters autonomous watch: the notices, the record, the host-loss actions, auto-baud armed (R29, R50). -/
def Node.hostLost (n : Node) (m : Moment) : Node :=
  let n := n.setOn Fd.CMD_HBCFG_AUTONOMOUS true
  let n := n.raiseM 0x00C [] m helpCore
  let n := (n.notifyPort .service .host [.w "HOST LOST"]).notifyPort .bus .host [.w "HOST LOST"]
  (n.loHostLoss.ucHostLoss).armAuto
/-- The time since the last line that restarted the timer has reached HBEAT. -/
def Node.hostSilent (n : Node) : Bool := !n.on Fd.CMD_HBCFG_AUTONOMOUS && (n.port .host).lastLine + n.heartbeat ≤ n.cmd.clock
def execHostHeartbeatExpiry (m : Moment) (s : State) : Host.Outcome State Fault Refusal :=
  s.lift fun n => if n.lively && n.hostSilent then n.hostLost m else n

/-! ### Port settings (R54, R55, R421) -/

/-- The notice classes in the order of Table 2-7. -/
def noteWords : List (String × Nat) :=
  [("ALM", 0), ("QUAD", 1), ("PFAIL", 2), ("IRQ", 3), ("SURVEY", 4), ("LEASE", 5), ("HOST", 6), ("MR", 7), ("WATCH", 8),
   ("STREAM", 9)]
/-- Tables 2-7 and 15-7; item k is the port numbered k, which only NOTE depends on. -/
def sysSpecs : List KeySpec := [
  ks "HPHY" (.enum [("UART", 0), ("RS485", 1)]) (fun _ => Fd.CMD_HOSTCFG_PHY),
  ks "HBAUD" (.int 9600 4000000) (fun _ => Fd.CMD_HOSTCFG_BAUD), ks "HAUTO" onOff (fun _ => Fd.CMD_HOSTCFG_AUTO),
  ks "HPAR" (.enum [("NONE", 0), ("EVEN", 1), ("ODD", 2)]) (fun _ => Fd.CMD_HOSTCFG_PAR),
  ks "HSTOP" (.enum [("1", 0), ("2", 1)]) (fun _ => Fd.CMD_HOSTCFG_STOP2), ks "HECHO" onOff (fun _ => Fd.CMD_HOSTCFG_ECHO),
  ks "HTURN" (.int 0 1000) (fun _ => Fd.CMD_HBCFG_TURN), ks "HBEAT" (.int 1 600) (fun _ => Fd.CMD_HBCFG_HBEAT),
  ks "SBAUD" (.int 9600 921600) (fun _ => Fd.CMD_SVCCFG_BAUD), kk "BNOTE" (.int 0 254) (fun _ => Kid.bnote),
  kk "BPOKE" onOff (fun _ => Kid.bpoke), kk "NOTE" (.flags noteWords 0x3FF) Kid.note,
  ks "AVS" onOff (fun _ => Fd.SYS_CORE_AVS), ks "VCORE" (.fix (qd 72 2) (qd 90 2) (qd 5 3) (qd 72 2)) (fun _ => Fd.SYS_CORE_VFIX),
  ks "AGRACE" (.int 0 2000) (fun _ => Fd.SYS_PFCFG_AGRACE)]

/-- The registers hold port and heartbeat settings a SET accepts (R55). -/
def Node.cmdRegOk (n : Node) : Bool :=
  let h := n.fd Fd.CMD_HOSTCFG_BAUD
  let v := n.fd Fd.CMD_SVCCFG_BAUD
  9600 ≤ h && h ≤ 4000000 && 9600 ≤ v && v ≤ 921600 && n.fd Fd.CMD_HBCFG_TURN ≤ 1000 && n.fd Fd.CMD_HBCFG_HBEAT ≤ 600
/-- SYS.CORE and SYS.PFCFG hold values a SET accepts (R424). -/
def Node.sysRegOk (n : Node) : Bool := n.fd Fd.SYS_CORE_VFIX ≤ 36 && n.fd Fd.SYS_PFCFG_AGRACE ≤ 2000 && n.fd Fd.SYS_DTIME_TIME ≤ 86400
/-- A refused write in the port block, or in the power registers. -/
def Node.sysCfgErr (n : Node) : Node := n.setOn Fd.SYS_EVT_CFGERR true

/-- The port settings R54 names, in the layout of CMD.HOSTCFG: rate, parity, stop bits, physical layer. SERVICE has a rate only. -/
def Node.portCfg (n : Node) (p : Port) : Word :=
  if p = .host then
    let w := Fd.CMD_HOSTCFG_BAUD.put 0#32 (n.fd Fd.CMD_HOSTCFG_BAUD)
    let w := Fd.CMD_HOSTCFG_STOP2.put w (n.fd Fd.CMD_HOSTCFG_STOP2)
    let w := Fd.CMD_HOSTCFG_PAR.put w (n.fd Fd.CMD_HOSTCFG_PAR % 3)
    Fd.CMD_HOSTCFG_PHY.put w (n.fd Fd.CMD_HOSTCFG_PHY)
  else if p = .service then Fd.CMD_HOSTCFG_BAUD.put 0#32 (n.fd Fd.CMD_SVCCFG_BAUD)
  else 0#32

/-- After a change of port settings, by a line of port `by_` or by another way: a port whose settings differ from those in
force waits for its quiet moment (R54); HAUTO=OFF disarms auto-baud (R29); a shortened HBEAT may end at once (R50). -/
def Node.cmdChanged (old n : Node) (by_ : Option Port) (m : Moment) : Node :=
  let n := [Port.host, Port.service].foldl (fun (n : Node) (p : Port) =>
    if old.portCfg p = n.portCfg p then n
    else n.setPort p { n.port p with cfgWait := true, cfgAfter := by_ == some p }) n
  let n := if n.on Fd.CMD_HOSTCFG_AUTO then n else n.setOn Fd.CMD_HOSTCFG_ARMED false
  if old.heartbeat != n.heartbeat && n.lively && n.hostSilent then n.hostLost m else n

/-- The changed settings of a port come into force: it sends no character, and the completion line of the line that made
the change has left. -/
def Node.takeSettings (n : Node) (p : Port) : Node :=
  let s := n.port p
  let busy := n.sending p || (s.cfgAfter && (!s.reply.isEmpty || !s.out.isEmpty || s.replyOpen))
  if s.cfgWait && !busy then
    n.setPort p { s with cfgInForce := n.portCfg p, cfgWait := false, cfgAfter := false, de := false }
  else n
def execPortSettingsTakeEffect (p : Port) (s : State) : Host.Outcome State Fault Refusal :=
  s.lift fun n => if n.awake && (p == .host || p == .service) then n.takeSettings p else n

/-- SET SYS takes the keys of both tables in one line. -/
def Node.setSys (n : Node) (l : Line) : Node :=
  n.runWhole l .sys (fun _ => checkKeys sysSpecs [] l.keys)
    (fun n => .ok (Node.cmdChanged n (n.setKeys sysSpecs (portNum l.port) l.keys) (some l.port) 70000, []))
def execSetSys (l : Line) (s : State) : Host.Outcome State Fault Refusal := s.lift fun n => n.setSys l
def execSetSysPower (l : Line) (s : State) : Host.Outcome State Fault Refusal :=
  s.lift fun n => n.runWhole l .sys (fun _ => checkKeys sysSpecs [] l.keys)
    (fun n => .ok (Node.cmdChanged n (n.setKeys sysSpecs (portNum l.port) l.keys) (some l.port) 70000, []))

/-- GET SYS: the keys named, or every key of Table 2-7. -/
def execGetSys (l : Line) (names : List String) (s : State) : Host.Outcome State Fault Refusal :=
  s.lift fun n => n.runLine l true (fun n => do
    l.bare
    onlyKeys [] [] l.keys
    let specs := sysSpecs.take 12
    if names.any (fun k => (specOf specs k).isNone) then refuse 104
    let chosen := if names.isEmpty then specs else specs.filter (fun k => names.contains k.key)
    pure (n, [.w "SYS" :: n.showKeys chosen (portNum l.port)]))

/-! ### Reports -/

/-- The classes of NOTE in force, joined by +. -/
def Node.noteItem (n : Node) (p : Port) : Item :=
  let v := n.k (Kid.note (portNum p))
  let ws := (noteWords.filter (fun w => v.getLsbD w.2)).map (·.1)
  .w (if v = 0x3FF#32 then "ALL" else if ws.isEmpty then "NONE" else String.intercalate "+" ws)

def execShowSysLease (l : Line) (s : State) : Host.Outcome State Fault Refusal :=
  s.lift fun n => n.runRead l (fun n => do
    l.bare
    onlyKeys [] [] l.keys
    pure (n.cmd.leases.map (fun (x : Lease) =>
      [.w "SYS", .w "LEASE", .w (objName x.obj), leaseIdx x.idx, .w (portName x.port), .w "LEFT",
       match x.left with
       | some t => .n ((t - n.cmd.clock + 49999) / 50000)
       | none => .w "NONE"])))

/-- The tag's number; 0 for a typed line. -/
def tagNum (t : String) : Nat := t.toNat?.getD 0
def execShowSysMr (l : Line) (s : State) : Host.Outcome State Fault Refusal :=
  s.lift fun n => n.runRead l (fun n => do
    l.bare
    onlyKeys [] [] l.keys
    pure (allPorts.filterMap (fun p => (n.port p).mr.map (fun (m : Mr) =>
      [.w "SYS", .w "MR", .w (portName p), .w "TAG", .n (tagNum m.tag), .w (verbs.getD m.verb ""), .w (objName m.obj), .w "AT",
       .n m.pos, .w "OF", .n m.units.length, .w (if m.paused then "PAUSED" else "RUNNING")]))))

def onOffWord (b : Bool) : Item := .w (if b then "ON" else "OFF")
def execShowSysPort (l : Line) (s : State) : Host.Outcome State Fault Refusal :=
  s.lift fun n => n.runRead l (fun n => do
    l.bare
    onlyKeys [] [] l.keys
    let w := (n.port .host).cfgInForce
    let note (p : Port) : List Item := [.w "NOTE", n.noteItem p, .w "ERR", .n (n.port p).err]
    let par := Fd.CMD_HOSTCFG_PAR.get w
    pure [
      [.w "SYS", .w "PORT", .w "HOST", .w "PHY", .w (if Fd.CMD_HOSTCFG_PHY.get w = 1 then "RS485" else "UART"), .w "BAUD",
       .n (Fd.CMD_HOSTCFG_BAUD.get w), .w "PAR", .w (if par = 1 then "EVEN" else if par = 2 then "ODD" else "NONE"),
       .w "STOP", .n (Fd.CMD_HOSTCFG_STOP2.get w + 1), .w "AUTO", onOffWord (n.on Fd.CMD_HOSTCFG_AUTO), .w "ARMED",
       .n (n.fd Fd.CMD_HOSTCFG_ARMED), .w "ECHO", onOffWord (n.on Fd.CMD_HOSTCFG_ECHO), .w "TURN",
       .n (n.fd Fd.CMD_HBCFG_TURN), .w "HBEAT", .n (n.fd Fd.CMD_HBCFG_HBEAT)] ++ note .host,
      [.w "SYS", .w "PORT", .w "SERVICE", .w "BAUD", .n (Fd.CMD_HOSTCFG_BAUD.get (n.port .service).cfgInForce)] ++ note .service,
      [.w "SYS", .w "PORT", .w "BUS", .w "BNOTE", .n (n.k Kid.bnote).toNat, .w "BPOKE", onOffWord (n.k Kid.bpoke != 0#32)] ++
        note .bus,
      [.w "SYS", .w "PORT", .w "ANNEX"] ++ note .annex])

/-! ### Re-initialising a port (R56) -/

def reinitPortSpecs : List KeySpec := [kk "PORT" (.enum [("HOST", 0), ("SERVICE", 1), ("BUS", 2)]) (fun _ => 0)]
/-- The settings of a port alone, by their keys. -/
def portKeys (p : Nat) : List String :=
  match p with
  | 0 => ["HPHY", "HBAUD", "HAUTO", "HPAR", "HSTOP", "HECHO", "HTURN", "HBEAT", "NOTE"]
  | 1 => ["SBAUD", "NOTE"]
  | _ => ["BNOTE", "BPOKE", "NOTE"]
/-- The port drains: the reply line in progress and its micro-routine go on; waiting lines and leases end; its settings
reload. -/
def Node.reinitPort (n : Node) (p : Port) (by_ : Port) : Node :=
  let n := n.setPort p { n.port p with waiting := [], inbuf := [], overlong := false }
  let n := n.endLeases (fun x => x.port == p)
  let specs := sysSpecs.filter (fun k => (portKeys (portNum p)).contains k.key)
  let n := Node.cmdChanged n (n.reload specs (portNum p)) (some by_) 70000
  if p = .host then n.armAuto else n
def execDoSysReinitPort (l : Line) (s : State) : Host.Outcome State Fault Refusal :=
  s.lift fun n => n.runWhole l .sys (fun _ => checkKeys reinitPortSpecs ["PORT"] l.keys)
    (fun n => .ok (n.reinitPort (match keyNum reinitPortSpecs l.keys "PORT" with
      | some 0 => .host
      | some 1 => .service
      | _ => .bus) l.port, []))

/-! ### Help (R37) -/

/-- The keys a verb takes for an object, after a bare word or two of the object (Tables 2-7, 3-7, 4-9 ... and the commands of
each chapter). -/
def helpKeys (verb obj : String) (words : List String) : List String :=
  let names (l : List KeySpec) : List String := l.map (·.key)
  match verb, obj, words with
  | "SET", "UC", _ => names (ucSpecs 0 ++ ctabSpecs)
  | "SET", "LO", _ => names loSpecs
  | "SET", "GRID", _ => names (gridSpecsFs ++ gridInSpecs)
  | "SET", "TRANS", _ => names (transSpecs ++ transInSpecs)
  | "SET", "AP", _ => names (apAll ++ engineSpecs)
  | "SET", "AG", _ => names agAll
  | "SET", "CALL", _ => names (callSpecs ++ callLineSpecs)
  | "SET", "ARC", _ => names (arcSpecs ++ codeSpecs)
  | "SET", "BUS", _ => names (busPortAll ++ filterSpecs 0 ++ gateSpecs 0 ++ valSpecs ++ almToSpecs ++ linkSpecs) ++ ["GATE", "VAL", "TRIMLOCK"]
  | "SET", "SURVEY", _ => names surveySpecs
  | "SET", "GP", _ => names (gpSpecs ++ gpMaskSpecs)
  | "SET", "TW", _ => names twSpecs
  | "SET", "DISP", ["WAVE"] => ["MODE", "BAND", "LEN", "FROM", "TO", "DATA"]
  | "SET", "DISP", _ => names (dispSpecs ++ comSpecs)
  | "SET", "TIME", _ => names (timeSpecs ++ captureSpecs)
  | "SET", "DIC", _ => names (dicSrcSpecs ++ dicSpecs)
  | "SET", "SYS", _ => names sysSpecs
  | "SET", "NODE", _ => names nodeSpecs
  | "GET", "ARC", _ => ["ACC", "COUNT", "DIR"]
  | "GET", "BUS", [] => ["PORT"]
  | "SHOW", "BUS", _ => ["PORT"]
  | "SHOW", "DISP", ["WAVE"] => ["MODE", "BAND"]
  | "DO", "UC", [a] => if a = "REINIT" then [] else ["QUAD"]
  | "DO", "TRANS", ["DUMP"] => ["FROM", "COUNT"]
  | "DO", "AP", ["ACK"] => ["ACC"]
  | "DO", "AP", ["SHELVE"] => ["TIME"]
  | "DO", "ARC", ["LOG"] => ["CODE", "TEXT", "DATA"]
  | "DO", "ARC", ["RESEAL"] => ["CONFIRM"]
  | "DO", "BUS", ["SEND"] => ["PORT", "MB", "ID", "IDE", "GEN", "LEN", "DATA", "RING", "WAIT"]
  | "DO", "BUS", ["TUNNEL"] => ["PORT", "TO", "LINE"]
  | "DO", "BUS", ["TRIMCLR"] => ["PORT", "STATION"]
  | "DO", "BUS", ["WAKEUP"] => ["PORT", "TO"]
  | "DO", "BUS", ["ABORT"] => ["PORT", "MB"]
  | "DO", "BUS", ["GATE", "RESET"] => ["PORT", "GATE"]
  | "DO", "BUS", _ => ["PORT"]
  | "DO", "SURVEY", ["START"] => ["PORT", "MODE"]
  | "DO", "GP", ["LOCK"] => ["BANK", "MASK"]
  | "DO", "TW", ["WRITE"] => ["ADDR", "DATA"]
  | "DO", "TW", ["READ"] => ["ADDR", "COUNT", "REG"]
  | "DO", "DISP", ["UPDATE"] => ["MODE", "GREY", "WAIT"]
  | "DO", "DISP", ["LOAD"] => ["X", "Y", "DATA"]
  | "DO", "DISP", [] => ["RAILS"]
  | "DO", "TIME", ["SET"] => names timeSetSpecs
  | "DO", "SYS", ["REINIT"] => ["PORT"]
  | "DO", "SYS", ["FACTORY"] => ["CONFIRM"]
  | "DO", "NODE", ["LOAD"] => ["ADDR", "DATA"]
  | "DO", "NODE", ["START"] => names startSpecs
  | "DO", "NODE", ["DORMANT"] => ["TIME"]
  | "DO", "NODE", ["PWRCYC"] => ["CONFIRM"]
  | "WATCH", "BUS", _ => ["PORT", "OFF"]
  | "WATCH", _, _ => ["OFF"]
  | "STREAM", _, _ => ["RATE"]
  | "HOLD", _, _ => ["TIME"]
  | _, _, _ => []

/-- The names of the registers, each with its index where there are several (Table 0-3). -/
def regNames : List String :=
  regRows.flatMap (fun r => if r.count ≤ 1 then [r.name] else (List.range r.count).map (fun i => r.name ++ toString i))
/-- A key=value item's key. -/
def pairKey (i : List Nat) : String := String.ofList ((i.takeWhile (· != 61)).map Char.ofNat)

/-- The words that may stand after the items of a line, in upper case (R8, R37): verbs, then objects, then the bare words and
the keys not given yet. -/
def helpWords (items : List (List Nat)) : List String :=
  match items with
  | [] => verbs
  | v :: rest =>
    match verbs.find? (fun x => codesOf x == v), rest with
    | none, _ => []
    | some "HELP", [] => verbs ++ objects
    | some "HELP", _ => []
    | some "REG", [] => regNames
    | some "REG", [_] => ["VALUE"]
    | some "PEEK", [_] => ["COUNT"]
    | some "POKE", [_] => ["VALUE"]
    | some verb, [] => (verbForms verb).map (·.1)
    | some verb, o :: rest =>
      match (verbForms verb).find? (fun x => codesOf x.1 == o) with
      | none => []
      | some (obj, forms) =>
        let rest := match rest with
          | i :: t => if isIndex i then t else i :: t
          | [] => []
        let words := rest.filter (fun i => !isPair i)
        let given := (rest.filter isPair).map pairKey
        let here := forms.filter (fun f => (f.map codesOf).take words.length == words)
        let next := here.filterMap (fun f => f[words.length]?)
        let keys := match here.find? (fun f => f.length == words.length) with
          | some f => (helpKeys verb obj f).filter (fun k => !given.contains k)
          | none => []
        next.eraseDups ++ keys
/-- The =HELP lines of words. -/
def helpLines (ws : List String) : List (List Item) := ws.map (fun w => [.w "HELP", .w w])

/-- A typed line that ends with ? is answered before the store has loaded too: the words that may stand in its place. -/
def execTypedHelpQuery (p : Port) (s : State) : Host.Outcome State Fault Refusal :=
  s.lift fun n =>
    match (n.port p).waiting with
    | [] => n
    | w :: _ =>
      if !isHelpQuery w.chars || p = .bus then n
      else
        let l : Line := ⟨p, w.tag, none, []⟩
        n.runLine l true (fun n => .ok (n, helpLines (helpWords (itemsOf false [] w.chars).dropLast)))

/-- The words HELP lists: the verbs, the objects of a verb, or the verbs of an object (log entry 85). -/
def helpFor (word : Option String) : List String :=
  match word with
  | none => verbs
  | some w => if verbs.contains w then helpWords [codesOf w] else verbs.filter (fun v => (verbForms v).any (fun x => x.1 == w))
/-- HELP, with a verb or an object, or alone. -/
def execHelp (l : Line) (word : Option String) (s : State) : Host.Outcome State Fault Refusal :=
  s.lift fun n => n.runLine l true (fun n => do
    match word with
    | some w => if !verbs.contains w && !objects.contains w then refuse 102
    | none => pure ()
    pure (n, helpLines (helpFor word)))

/-! ### Micro-routines that were paused (R44) -/

/-- The pausing work has ended: +RESUME n and on, or ?E309 when a survey paused a routine on BUS or SURVEY. R39 has every
continuation begin with +RESUME; R44 says that the node sends +RESUME or ?E309. The model follows R44: a routine that ends
so sends its ?E309 with no +RESUME before it (DESIGN CHOICE, log entry 85). -/
def execMicroRoutineResume (p : Port) (s : State) : Host.Outcome State Fault Refusal :=
  s.lift fun n =>
    match (n.port p).mr with
    | none => n
    | some m =>
      if !n.lively || !m.paused || n.coreWork then n
      else
        let n := n.setPort p { n.port p with mr := some { m with paused := false, since := m.pos } }
        if m.pauseSurvey && (m.obj == .bus || m.obj == .survey) then
          let n := n.setPort p { n.port p with replyOpen := true }
          n.failMr p ⟨309, []⟩
        else n.send p m.tag [(.resume m.pos, [])] false

end Sys2Proof.Machine
end

