-- ==== Sys2Proof/Machine/Power.lean ====
section
/-! DEFINITION. Start-up, the configuration store, resets, the power states with DORMANT, the power-fail sequence and the
recovery ladder (chapters 15 and 16). -/
namespace Sys2Proof.Machine

/-! ### Supplies and the core voltage (R399, R400) -/

/-- HOLD crosses the HOLDOK thresholds: set at 32.0 V, cleared below 30.0 V. -/
def execHoldokChange (mv : Nat) (m : Moment) (s : State) : Host.Outcome State Fault Refusal :=
  s.lift fun n =>
    if !n.awake then n
    else
      let was := n.on Fd.SYS_PWRSTAT_HOLDOK
      let n := n.setFd Fd.SYS_HOLD_MV mv
      let now := if was then 30000 ≤ mv else 32000 ≤ mv
      if was = now then n
      else
        let n := (n.setOn Fd.SYS_PWRSTAT_HOLDOK now).ring 2
        let n := n.setOn (if now then Fd.SYS_EVT_HOLDOK else Fd.SYS_EVT_HOLDLOST) true
        n.raiseM 0x0C3 ((if now then 1#8 else 0#8) :: bytesLE 2 mv) m helpCore

/-- One 5 mV step of the core regulator, 1 ms or more after the last (R400). -/
def Node.avsStep (n : Node) (margin spare : Bool) : Node :=
  let st := n.fd Fd.SYS_CORE_STEP
  let to_ (k : Nat) (n : Node) : Node := { (n.setFd Fd.SYS_CORE_STEP k) with sys := { n.sys with avsAt := n.tick + 1 } }
  if n.on Fd.SYS_CORE_AVS then
    if !margin then
      if st < 36 then to_ (st + 1) n
      else if n.on Fd.SYS_CORE_LIMIT then n
      else
        let n := ((n.setOn Fd.SYS_CORE_LIMIT true).setOn Fd.SYS_EVT_CORELIMIT true).ring 6
        n.raise 0x0C4 [36#8] 7 helpCore
    else if spare && st != 0 then (to_ (st - 1) n).setOn Fd.SYS_CORE_LIMIT false
    else n.setOn Fd.SYS_CORE_LIMIT false
  else
    let v := n.fd Fd.SYS_CORE_VFIX
    if st < v then to_ (st + 1) n else if v < st then to_ (st - 1) n else n

def execAvsStep (margin spare : Bool) (s : State) : Host.Outcome State Fault Refusal :=
  s.lift fun n =>
    if n.awake && n.sys.phase == .loaded && (n.sys.avsAt = 0 || n.sys.avsAt + 49 ≤ n.tick) then n.avsStep margin spare else n

/-! ### Micro-routines cut short (R45) -/

def objIndex : Obj → Nat
  | .uc => 0 | .lo => 1 | .grid => 2 | .trans => 3 | .ap => 4 | .ag => 5 | .call => 6 | .arc => 7 | .bus => 8
  | .survey => 9 | .gp => 10 | .tw => 11 | .disp => 12 | .time => 13 | .beat => 14 | .dic => 15 | .sys => 16 | .node => 17
/-- The payload of MR-CUT (Table 8-6). -/
def cutPayload (p : Port) (m : Mr) : List Byte :=
  [BitVec.ofNat 8 (portNum p)] ++ bytesLE 2 (tagNum m.tag) ++ [BitVec.ofNat 8 m.verb, BitVec.ofNat 8 (objIndex m.obj), 0#8] ++
    bytesLE 4 m.pos
/-- Every running micro-routine ends without a further line; the next start-up records each. -/
def Node.cutMrs (n : Node) : Node :=
  allPorts.foldl (fun (n : Node) (p : Port) => match (n.port p).mr with
    | none => n
    | some m =>
      let n := n.setPort p { n.port p with mr := none }
      { n with nv := { n.nv with cuts := n.nv.cuts ++ [cutPayload p m] } }) n

/-! ### Reset and start (R401, R408, R427) -/

/-- What a reset leaves (Table 15-12): the nonvolatile array, operating time, the levels at the balls and HOLD; the rails
fall fast if they are up (R339). Everything else is at its reset value, and SRAM is undefined (log entry 12). -/
def Node.reborn (n : Node) : Node :=
  let m : Node := {
    mem := n.mem.filter (fun c => 0x30000000 ≤ c.1), nv := n.nv, tick := n.tick, free := n.free,
    arc := { opMs := n.arc.opMs, opBeat := n.arc.opBeat, ckpt := n.arc.ckpt },
    sys := { resetPin := n.sys.resetPin, cause := n.sys.cause }, disp := { rails := n.disp.rails, railAt := n.disp.railAt } }
  let m := [Ad.GP_GPIN0, Ad.GP_GPIN1, Ad.GP_BANK, Ad.SYS_VSYS, Ad.SYS_HOLD].foldl (fun (m : Node) (a : Nat) => m.wr a (n.rd a)) m
  let m := [Fd.TW_STAT_SDA, Fd.TW_STAT_SCL, Fd.SYS_PWRSTAT_HOLDOK, Fd.SYS_PWRSTAT_VSYSOK].foldl
    (fun (m : Node) (f : Fd) => m.setFd f (n.fd f)) m
  let m := (List.range 5).foldl (fun (m : Node) (k : Nat) => m.railBit k (n.bit Ad.DISP_STAT k)) m
  if m.disp.rails = .down then m else m.fastStart

/-- The node core begins to run: the beat starts with node time 0; RSTCAUSE holds the causes that ended the last run. -/
def Node.begin_ (n : Node) (causes : Nat) : Node :=
  ({ n with sys := { n.sys with phase := .starting, power := .full, cause := 0, parked := false } }).setFd
    Fd.SYS_RSTCAUSE_CAUSE causes
/-- A reset with a cause; RESET_N low holds the node in reset, and adds its own cause. -/
def Node.resetTo (n : Node) (causes : Nat) : Node :=
  let m := n.reborn
  if m.sys.resetPin then
    { m with sys := { m.sys with phase := .por, power := .full, cause := Nat.lor causes 4 } }
  else m.begin_ causes

/-- Time that passes while no beat runs counts as operating time, in whole beats (R218). -/
def Node.passTime (n : Node) (q : Nat) : Node :=
  let ob := n.arc.opBeat + q / 80000
  { n with arc := { n.arc with opBeat := ob % 50, opMs := n.arc.opMs + ob / 50 } }

/-- A time that no row delivers passes while no beat runs: a free number of quarter-ns (log entry 2). -/
def Node.passSome (n : Node) : Node :=
  let (q, n) := n.freshNat
  n.passTime q

/-- Power-on: the power-cycle count, and operating milliseconds from the largest checkpoint (R218). -/
def Node.powerUp (n : Node) (causes : Nat) : Node :=
  let best := (List.range 16).foldl (fun (b k : Nat) => Nat.max b (n.ckptAt k)) 0
  let n := { n with nv := { n.nv with pwrcyc := (n.nv.pwrcyc + 1) % 2 ^ 24 }
                    arc := { n.arc with opMs := best, opBeat := 0, ckpt := best / 1000 } }
  n.resetTo causes

/-- Power returns: to a node that is OFF, or, when VSYS and HOLD were lost together without warning, to one that ran until
then, whose commit was cut short (R216, R226). A RESET_N held low holds the node. -/
def execPowerOn (s : State) : Host.Outcome State Fault Refusal :=
  s.lift fun n => (if n.sys.power = .off then n else n.tear true).powerUp 1
/-- VSYS has been good for 10 ms after a park (R418); a RESET_N held low holds the node (R428). -/
def execPowerFailRestart (s : State) : Host.Outcome State Fault Refusal :=
  s.lift fun n => if n.sys.power = .off && n.sys.parked then n.powerUp 2 else n

/-- RESET_N has been low for 10 µs: a reset with cause PIN, which may cut a commit short (R226); from the warning to the park
it is ignored (R416, R428). Time spent in DORMANT counts as operating time (R218). -/
def execResetPin (s : State) : Host.Outcome State Fault Refusal :=
  s.lift fun n =>
    let m := { n with sys := { n.sys with resetPin := true } }
    if n.sys.power = .off || n.sys.power = .powerfail || n.sys.phase = .por then m
    else ((if n.sys.power = .dormant then m.passSome else m.tear false).cutMrs).resetTo 4
/-- The reset ends; the time held in it counts as operating time (R218). -/
def execResetNRelease (s : State) : Host.Outcome State Fault Refusal :=
  s.lift fun n =>
    let m := { n with sys := { n.sys with resetPin := false } }
    if n.sys.resetPin && n.sys.phase = .por && n.sys.power != .off then m.passSome.begin_ n.sys.cause else m
def execNodeCoreWatchdog (s : State) : Host.Outcome State Fault Refusal :=
  s.lift fun n => if n.awake then (n.tear false).resetTo 0x10 else n
def execCoreUndervoltage (s : State) : Host.Outcome State Fault Refusal :=
  s.lift fun n => if n.awake then (n.tear false).resetTo 0x80 else n

/-- The ports go live at their reset settings, SERVICE shows the prompt, HOST auto-baud is armed (Table 15-1). The time since
the reset ended counts as operating time (R218). -/
def execFirstPrompt (s : State) : Host.Outcome State Fault Refusal :=
  s.lift fun n =>
    if n.sys.phase = .starting && n.sys.power = .full then
      let n := n.passSome
      let n := { n with sys := { n.sys with phase := .prompt } }
      let n := allPorts.foldl (fun (n : Node) (p : Port) =>
        n.setPort p { n.port p with cfgInForce := n.portCfg p, lastLine := n.cmd.clock }) n
      let n := n.setPort .service { n.port .service with echo := promptCodes }
      n.armAuto
    else n

/-! ### The running configuration as an image (R403, R405) -/

/-- Registers stored whole. -/
def storedRegs : List Nat :=
  Ad.UC_CTNPT :: (List.range 4).flatMap (fun t => (List.range 32).flatMap (fun p => [ctabOhm t p, ctabDeg t p])) ++
  gridStored ++ transStored ++ (List.range 1024).flatMap apStored ++
  (List.range 64).flatMap (fun g => [Ad.ALM_AGCFG g, Ad.ALM_AGREL g]) ++ callStored ++
  [0, 1].flatMap (fun p => [Ad.BUS_WDATA p 0, Ad.BUS_WDATA p 1, Ad.BUS_WDMASK p 0, Ad.BUS_WDMASK p 1]) ++
  (List.range 256).map Ad.DIC_SRC ++ (List.range 8).map Ad.DIC_ENA ++ (List.range 8).map Ad.DIC_BAND ++
  (List.range 8).map Ad.DIC_MODT ++ (List.range 16).map Ad.DIC_WATCH

/-- The key tables of the items that have them, with each item's number. -/
def Node.storedSpecs (n : Node) : List (List KeySpec × Nat) :=
  (timeSpecs, 0) :: (List.range 8).map (fun i => (captureSpecs, i)) ++
  (List.range 24).map (fun i => (ucSpecs (n.fd (Fd.UC_CFG_MODE i)), i)) ++ (List.range 8).map (fun i => (loSpecs, i)) ++
  [(engineSpecs, 0), (arcSpecs, 0)] ++ ((List.range 512).filter assigned).map (fun c => (codeSpecs, c)) ++
  [0, 1].flatMap (fun p => (busPortSpecs, p) :: (List.range 128).map (fun k => (filterSpecs p, k)) ++
    (List.range 4).map (fun g => (gateSpecs p, g))) ++
  [(linkSpecs, 0), (surveySpecs, 0)] ++ (List.range 48).map (fun i => (gpSpecs, i)) ++
  [(twSpecs, 0), (dispSpecs, 0), (sysSpecs, 0), (nodeSpecs, 0)]

/-- Places of the fields the store keeps. -/
def Node.storedFds (n : Node) : List Fd :=
  (n.storedSpecs.flatMap (fun x => x.1.filterMap (fun k => if k.stored then
    match k.loc x.2 with
    | .fd f => some f
    | .kid _ => none else none))) ++ (List.range 8).map Fd.TIME_CAPCFG_ENABLE

/-- The items that differ from their reset values: fields in their registers, whole registers, and keys without one. -/
def Node.running (n : Node) : List (Nat × Word) :=
  let img : List (Nat × Word) := n.storedFds.foldl (fun (b : List (Nat × Word)) (f : Fd) =>
    Bank.set (resetWord f.addr) b f.addr (f.put (Bank.get (resetWord f.addr) b f.addr) (n.fd f))) []
  let img := storedRegs.foldl (fun (b : List (Nat × Word)) (a : Nat) => Bank.set (resetWord a) b a (n.rd a)) img
  img ++ n.key.map (fun x => (kidAddr x.1, x.2))

/-! ### Commit, load and factory (R404 to R407, R473) -/

/-- The copy a commit writes, and its GEN. -/
def Node.commitTarget (n : Node) : Nat × Nat :=
  match n.standing with
  | some k => (1 - k, (n.copy k).gen + 1)
  | none => (0, 1)
/-- Blocks of 1 KiB an image takes with its header. -/
def blocksOf (len : Nat) : Nat := Nat.max 1 ((32 + len + 1023) / 1024)
def copyBase (k : Nat) : Nat := 0x300F0000 + 0x7C00 * k

/-- CONFIG-COMMIT, source 7 and the event bit. -/
def Node.commitEnd (n : Node) (c : Commit) (ok : Bool) : Node :=
  let n := { n with sys := { n.sys with commit := none } }
  let n := ((n.setFd Fd.SYS_STORE_BUSY 0).setOn (if ok then Fd.SYS_EVT_COMMITDONE else Fd.SYS_EVT_COMMITFAIL) true).ring 7
  n.raiseCmd 0x0C1 ([if ok then 0#8 else 1#8, BitVec.ofNat 8 c.target] ++ bytesLE 4 c.gen ++ bytesLE 2 c.len)

/-- The header of a copy: MAGIC, GEN, LEN and CHECK (R403). -/
def Commit.head (c : Commit) : List Byte :=
  bytesLE 4 0x47464357 ++ bytesLE 4 c.gen ++ bytesLE 4 (c.len % 65536) ++
  bytesLE 4 (crc32 ((List.range c.len).map (Config.imageByte c.image))) ++ List.replicate 16 0#8

/-- The addresses that a unit of a commit writes: its first, and the one after its last. -/
def Commit.range (c : Commit) (u : Nat) : Nat × Nat :=
  let base := copyBase c.target
  if u = 0 then (base, base + 32) else if u < blocksOf c.len then (base + 1024 * u, base + 1024 * (u + 1)) else (base, base + 1024)
/-- One unit of a commit (R406): unit 0 clears the target's header, units 1 to k − 1 write those blocks, unit k block 0,
whose last word makes the copy valid. Answers an error when a word fails twice. -/
def Node.commitUnit (n : Node) (c : Commit) (u : Nat) (bad : List Nat) : Except Err Node :=
  let base := copyBase c.target
  let k := blocksOf c.len
  let (lo, hi) := c.range u
  let body (first last : Nat) : List Byte := ((List.range c.len).map (Config.imageByte c.image)).take last |>.drop first
  if bad.any (fun w => lo ≤ w && w < hi) then
    .error ⟨503, []⟩
  else if u = k then
    let n := (n.setBytes (base + 32) (body 0 992)).setBytes base (c.head)
    let n := n.setCopy c.target ⟨true, c.gen, c.len, true, c.image⟩
    .ok (n.setFds [(Fd.SYS_STORE_COPY, c.target), (Fd.SYS_STORE_LEN, c.len), (Fd.SYS_STORE_DIRTY, 0), (Fd.SYS_STOREGEN_GEN, c.gen)])
  else if u = 0 then .ok ((n.setCopy c.target Copy.none).setBytes base (List.replicate 32 0#8))
  else .ok ((n.setCopy c.target Copy.none).setBytes (base + 1024 * u) (body (1024 * u - 32) (1024 * u + 992)))

/-- A unit of a commit in which a word failed twice: the target copy is not valid (R406), and the words that failed are not
defined (R216). -/
def Node.commitFail (n : Node) (c : Commit) (u : Nat) (bad : List Nat) : Node :=
  let (lo, hi) := c.range u
  (bad.filter (fun w => lo ≤ w && w < hi)).foldl Node.spoil (n.setCopy c.target Copy.none)

def execDoSysCommit (l : Line) (s : State) : Host.Outcome State Fault Refusal :=
  s.lift fun n => n.runOpen l (fun n => do
    l.bare
    onlyKeys [] [] l.keys
    let img := n.running
    let len := Config.imageLen img
    if 31712 < len then .error ⟨201, [.w "STORE", .n len]⟩
    else
      if n.sys.commit.isSome then refuse 301
      n.mayWrite l.port .sys none
      let (t, g) := n.commitTarget
      let n := { n with sys := { n.sys with commit := some ⟨t, g, len, img⟩ } }
      pure ((n.setFd Fd.SYS_STORE_BUSY 1).startMr l verbDo .sys .commit (List.range (blocksOf len + 1)) false))

def copyWord (n : Node) : Item :=
  match n.fd Fd.SYS_STORE_COPY with
  | 2 => .w "DEFAULT"
  | c => .n c
def execShowSysStore (l : Line) (s : State) : Host.Outcome State Fault Refusal :=
  s.lift fun n => n.runRead l (fun n => do
    l.bare
    onlyKeys [] [] l.keys
    pure [[.w "SYS", .w "STORE", .w "COPY", copyWord n, .w "GEN", .n (n.rd Ad.SYS_STOREGEN).toNat, .w "LEN", .n (n.fd Fd.SYS_STORE_LEN),
      .w "RUNLEN", .n (Config.imageLen n.running), .w "DIRTY", .n (n.fd Fd.SYS_STORE_DIRTY)]])

/-- The settings of every function from the store, each as its SET applies it (R404, R473). -/
def Node.loadAll (n : Node) : Node :=
  let old := n
  let n := n.reload timeSpecs 0
  let n := (List.range 8).foldl (fun (n : Node) (i : Nat) =>
    let n := n.reload captureSpecs i
    n.setFd (Fd.TIME_CAPCFG_ENABLE i) (n.storeLoc (.fd (Fd.TIME_CAPCFG_ENABLE i)))) n
  let n := Node.timeChanged old n
  let n := (List.range 24).foldl (fun (n : Node) (i : Nat) => n.ucReinit i) (n.ucReinit 24)
  let n := { n with uc := { n.uc with checkTill := n.tick + 16 } }
  let n := ((List.range 8).foldl (fun (n : Node) (i : Nat) => n.loReinit i) n).loLoad
  let n := n.gridReinit.transReinit
  let n := (List.range 1024).foldl (fun (n : Node) (i : Nat) => n.apLoad i) n
  let n := ((List.range 64).foldl (fun (n : Node) (g : Nat) => n.agLoad g) n).callLoad
  let n := (n.reload engineSpecs 0).almLoad
  let n := n.reload arcSpecs 0
  let n := ((List.range 512).filter assigned).foldl (fun (n : Node) (c : Nat) => n.reload codeSpecs c) n
  let n := ((n.busReload 0).busReload 1).reload linkSpecs 0
  let n := (n.reload surveySpecs 0).reload almToSpecs 0
  let n := (List.range 256).foldl (fun (n : Node) (v : Nat) => n.reload valSpecs v) n
  let n := n.busLoad
  let n := (List.range 48).foldl (fun (n : Node) (i : Nat) => n.gpReinit i) n
  let n := n.dicReinit
  let n := allPorts.foldl (fun (n : Node) (p : Port) => n.reload sysSpecs (portNum p)) n
  let n := Node.nodeChanged n (n.reload nodeSpecs 0) 70000
  let n := Node.cmdChanged old n none 70000
  n.twLoad.dispLoad

/-- The store has loaded (R404), and what Table 15-1 lists for the first beat after it follows. -/
def execConfigStoreLoaded (s : State) : Host.Outcome State Fault Refusal :=
  s.lift fun n =>
    if n.sys.phase != .prompt || !n.awake then n
    else
      let a := n.copy 0
      let b := n.copy 1
      let stands := n.standing
      let image := n.image
      let n := n.loadAll
      let skipped := n.running != image
      let (cp, gen, len) := match stands with
        | some k => (k, (n.copy k).gen, (n.copy k).len)
        | none => (2, 0, 0)
      let n := n.setFds [(Fd.SYS_STORE_COPY, cp), (Fd.SYS_STORE_LEN, len), (Fd.SYS_STOREGEN_GEN, gen), (Fd.SYS_STORE_DIRTY, 0)]
      let n := if stands.isNone then (n.setOn Fd.SYS_EVT_STOREDEF true).ring 8 else n
      let flags := (if a.valid then 0 else 1) + (if b.valid then 0 else 2) + (if skipped then 4 else 0)
      let n := if flags = 0 then n
        else n.raise 0x0C2 ([BitVec.ofNat 8 cp, BitVec.ofNat 8 flags] ++ bytesLE 4 gen ++ bytesLE 2 len) 0 helpCore
      let n := n.ring 10
      let n := { n with sys := { n.sys with phase := .loaded } }
      n.arcStart.bootBegin

/-- DO SYS FACTORY, confirmed: both headers and the first word of both slots are cleared; the node drains and resets (R407,
R466). -/
def Node.factoryClear (n : Node) : Node :=
  let n := ((n.setCopy 0 Copy.none).setCopy 1 Copy.none).setBytes (copyBase 0) (List.replicate 32 0#8)
  let n := n.setBytes (copyBase 1) (List.replicate 32 0#8)
  (n.setBytes 0x300FF800 (List.replicate 8 0#8)).setBytes 0x300FFB80 (List.replicate 8 0#8)

/-- DO NODE RESET: the completion line, then ?E309 on every port with a running micro-routine; the node drains (R56). -/
def Node.drainReset (n : Node) (l : Line) (cause : Nat) : Node :=
  let n := n.replyOk l []
  let running := allPorts.filterMap (fun p => (n.port p).mr.map (fun m => cutPayload p m))
  let n := { n with nv := { n.nv with cuts := n.nv.cuts ++ running } }
  let n := allPorts.foldl (fun (n : Node) (p : Port) => n.failMr p ⟨309, []⟩) n
  { n with cmd := { n.cmd with resetDrain := some n.tick }, sys := { n.sys with cause := cause } }
def execDoSysFactory (l : Line) (s : State) : Host.Outcome State Fault Refusal :=
  s.lift fun n => n.runConfirm l 2 (fun n => n.mayWrite l.port .sys none) (fun n => .ok (n.factoryClear.drainReset l 0x20))
def execDoNodeReset (l : Line) (s : State) : Host.Outcome State Fault Refusal :=
  s.lift fun n => n.runOpen l (fun n => do
    l.bare
    onlyKeys [] [] l.keys
    n.mayWrite l.port .node none
    pure (n.drainReset l 8))
/-- Every output queue is empty, or 50 ms have passed. -/
def execNodeResetDrainEnd (s : State) : Host.Outcome State Fault Refusal :=
  s.lift fun n =>
    match n.cmd.resetDrain with
    | none => n
    | some t =>
      let quiet := allPorts.all (fun p => (n.port p).reply.isEmpty && (n.port p).notices.isEmpty && (n.port p).out.isEmpty)
      if n.awake && n.sys.power != .powerfail && (quiet || t + 2500 ≤ n.tick) then n.resetTo n.sys.cause else n

/-! ### Reports -/

/-- Millivolts as volts with one decimal. -/
def volts1 (mv : Nat) : Item := .d ((mv + 50) / 100 : Nat) 1
def execGetSysPower (l : Line) (s : State) : Host.Outcome State Fault Refusal :=
  s.lift fun n => n.runLine l true (fun n => do
    l.bare
    onlyKeys [] [] l.keys
    pure (n, [[.w "SYS", .w "POWER", .w "STATE", .w n.powerWord, .w "VSYS", volts1 (n.fd Fd.SYS_VSYS_MV), .w "HOLD",
      volts1 (n.fd Fd.SYS_HOLD_MV), .w "HOLDOK", .n (n.fd Fd.SYS_PWRSTAT_HOLDOK), .w "VCORE",
      .d ((720 + 5 * n.fd Fd.SYS_CORE_STEP : Nat) : Int) 3, .w "AVS", onOffWord (n.on Fd.SYS_CORE_AVS), .w "LIMIT",
      .n (n.fd Fd.SYS_CORE_LIMIT)]]))
def causeWords : List String := ["POR", "PFRESTART", "PIN", "COMMAND", "NCWDOG", "FACTORY", "PWRCYC", "CORE"]
def execGetSysRstcause (l : Line) (s : State) : Host.Outcome State Fault Refusal :=
  s.lift fun n => n.runLine l true (fun n => do
    l.bare
    onlyKeys [] [] l.keys
    let w := n.rd Ad.SYS_RSTCAUSE
    let ws := ((List.range 8).filter (fun k => w.getLsbD k)).map (fun k => causeWords.getD k "")
    pure (n, [[.w "SYS", .w "RSTCAUSE", .h w.toNat 8, .w (String.intercalate "+" ws)]]))

/-! ### QUIET and FULL (R409, R373, R123) -/

def pstateCode : Power → Nat
  | .full => 0 | .quiet => 1 | .dormant => 2 | .powerfail => 3 | .off => 3
/-- The change of power state rings source 9 and is recorded; `cause`: 0 command, 1 register, 2 watched ring, 3 timer. -/
def Node.powerRecord (n : Node) (new old cause : Nat) (raise : Node → Nat → List Byte → Node) : Node :=
  raise (n.ring 9) 0x0C0 [BitVec.ofNat 8 new, BitVec.ofNat 8 old, BitVec.ofNat 8 cause]

def Node.goQuiet (n : Node) (cause : Nat) (m : Moment) : Node :=
  let n := ({ n with sys := { n.sys with power := .quiet } }).setFd Fd.SYS_PSTATE_STATE 1
  (n.annexStop 2 m).ucQuietEdge.powerRecord 1 0 cause (fun n c p => n.raiseCmd c p)
def Node.goFull (n : Node) (cause : Nat) (m : Moment) : Node :=
  let n := ({ n with sys := { n.sys with power := .full } }).setFd Fd.SYS_PSTATE_STATE 0
  (n.annexResume m).ucQuietEdge.powerRecord 0 1 cause (fun n c p => n.raiseCmd c p)

def execDoNodeQuiet (l : Line) (s : State) : Host.Outcome State Fault Refusal :=
  s.lift fun n => n.runWhole l .node (fun n => do
      onlyKeys [] [] l.keys
      if n.sys.power == .quiet then refuse 308)
    (fun n => .ok (n.goQuiet 0 70000, []))
def execDoNodeFull (l : Line) (s : State) : Host.Outcome State Fault Refusal :=
  s.lift fun n => n.runWhole l .node (fun n => do
      onlyKeys [] [] l.keys
      if n.sys.power == .full then refuse 308)
    (fun n => .ok (n.goFull 0 70000, []))

/-! ### DORMANT: entry (R410, R435, R442) -/

/-- Steps 1 to 3 of the entry: the watch unit is armed, every waiting line is discarded, the Annex core stops; the drains
of step 4 are asked for. -/
def Node.sleepBegin (n : Node) (timer : Nat) (byReg : Bool) (m : Moment) : Node :=
  let slept := [0, 1].filter (fun p => (n.bp p).sleep != 0)
  let n := { n with dic := { n.dic with armed := true } }.setOn Fd.DIC_WAKESRC_VALID false
  let n := allPorts.foldl (fun (n : Node) (p : Port) => n.setPort p { n.port p with waiting := [] }) n
  let n := { n with sys := { n.sys with sleep := some ⟨n.sys.power, 3, byReg, timer, slept⟩ } }
  let n := n.annexStop 3 m
  ((n.dispSleep.twDrain).svAbort 0 m).svAbort 1 m

/-- Why an entry is refused (R410). -/
def Node.sleepRefused (n : Node) (timer : Nat) : Option Nat :=
  if timer = 0 && !(List.range 16).any (fun k => n.on (Fd.DIC_WATCH_EN k)) then some 205
  else if allPorts.any (fun p => (n.port p).mr.isSome) then some 301
  else none

def dormantSpecs : List KeySpec := [kk "TIME" (.int 0 86400) (fun _ => 0)]
def execDoNodeDormant (l : Line) (s : State) : Host.Outcome State Fault Refusal :=
  s.lift fun n => n.runOpen l (fun n => do
    l.bare
    checkKeys dormantSpecs [] l.keys
    let t := (keyNum dormantSpecs l.keys "TIME").getD 0
    match n.sleepRefused t with
    | some c => refuse c
    | none =>
      n.mayWrite l.port .node none
      pure ((n.replyOk l []).sleepBegin t false 70000))

/-- Both ports have reached sleep, or are OFF. -/
def Node.portsAsleep (n : Node) : Bool := [0, 1].all (fun p => (n.bp p).sleep == 2 || n.busState p == 0)

/-- The entry's next step, at a stage S7 (R410). A latched ring ends it (R411): no further step is taken. -/
def Node.sleepStep (n : Node) : Node :=
  match n.sys.sleep with
  | none => n
  | some z =>
    let to_ (k : Nat) (n : Node) : Node := { n with sys := { n.sys with sleep := some { z with step := k } } }
    if n.on Fd.DIC_WAKESRC_VALID || n.sys.power = .dormant then n
    else match z.step with
      | 3 => if n.dispQuiet && n.twState = 0 && (n.sv 0).role = 0 && (n.sv 1).role = 0 then to_ 4 n else n
      | 4 =>
        let n := (List.range 64).foldl (fun (n : Node) (g : Nat) =>
          if n.fd (Fd.ALM_AGSTAT_STAGE g) = 0 then n else n.callCancel g) n
        to_ 5 (n.setFd Fd.CALL_LINES_LINES 0).hwSync
      | 5 =>
        let n := n.powerRecord 2 (pstateCode z.from_) (if z.byReg then 1 else 0) (fun n c p => n.raiseCmd c p)
        to_ 6 (n.writerOps [] (2 * n.arc.queue.length + 8))
      | 6 => to_ 7 ((n.sleepAsk 0 1).sleepAsk 1 1)
      | _ => n

/-- The queue is committed, or ACCESSION-END keeps the writer from it (R240, R243). -/
def Node.queueDone (n : Node) : Bool := (n.arc.queue.isEmpty && n.arc.staged.isEmpty) || n.on Fd.ARC_STAT_ACCEND
/-- Step 8: the node core, the helpers and the core regulator stop. Records raised since step 6 are committed first (R240). -/
def execDormantEntryComplete (s : State) : Host.Outcome State Fault Refusal :=
  s.lift fun n =>
    match n.sys.sleep with
    | none => n
    | some z =>
      if n.awake && z.step = 7 && n.portsAsleep && n.queueDone && !n.on Fd.DIC_WAKESRC_VALID && n.sys.power != .powerfail then
        let n := n.loFreeze
        let n := [0, 1].foldl (fun (n : Node) (p : Nat) => (List.range 4).foldl (fun (n : Node) (g : Nat) => n.gateOff p g) n) n
        { n with sys := { n.sys with power := .dormant, sleep := some { z with step := 8 } } }
      else n

/-! ### DORMANT: wake (R411 to R413, R76, R443) -/

/-- Ports wake, except those that slept by command before the entry. -/
def Node.wakePorts (n : Node) (slept : List Nat) : Node :=
  [0, 1].foldl (fun (n : Node) (p : Nat) => if slept.contains p then n else n.wakeBegin p 2) n

/-- Steps 5 and 6 of the wake: the state entry left, the Annex core, the records. `cause` as in POWER-STATE. -/
def Node.wakeEnd (n : Node) (z : Sleep) (cause : Nat) (m : Moment) : Node :=
  let n := { n with sys := { n.sys with power := z.from_, sleep := none }, dic := { n.dic with armed := false } }
  let n := if z.from_ = .full then n.annexResume m else n
  let n := n.powerRecord (pstateCode z.from_) 2 cause (fun n c p => n.raiseM c p m helpCore)
  if cause = 2 then n.raiseM 0x0B3 [BitVec.ofNat 8 (n.fd Fd.DIC_WAKESRC_SRC), 0#8] m helpCore else n

/-- A ring ends the entry before step 8 (R443, Table 16-6). -/
def Node.sleepCancel (n : Node) (z : Sleep) (m : Moment) : Node :=
  let n := if 5 ≤ z.step then (List.range 64).foldl (fun (n : Node) (g : Nat) =>
      let st := n.fd (Fd.ALM_AGSTAT_STAGE g)
      if st = 0 then n else n.callFrame g st) n else n
  let n := n.dispWake.twWake
  let n := if 7 ≤ z.step then n.wakePorts z.portSlept else n
  n.wakeEnd z 2 m

/-- The wake from DORMANT: node time restarts at the next beat boundary of coarse time, `spent` after step 8 (R76). -/
def Node.wakeFull (n : Node) (z : Sleep) (cause spent : Nat) : Node :=
  let t := n.tm.t0 + spent
  let t0 := (t + 79999) / 80000 * 80000
  let est := (n.rd Ad.TIME_EST).toNat
  let n := { n with tm := { n.tm with t0 := t0, t1 := t0, coarseTick := n.tick, ppsLast := none, ppsRun := 0, stepPend := none } }
  let n := (n.passTime spent).unqualify
  let n := if n.sys.oscInt then n      -- R91
    else (n.wr Ad.TIME_EST (BitVec.ofNat 32 (satAdd 0xFFFFFFFF est (31000 + spent / 40000)))).servoTo stCoarse 0 0
  let n := { n with sys := { n.sys with power := z.from_ } }
  let n := (n.ucWake.loThaw).transWake.gridRestart.almWake
  (((n.twWake).dispWake).wakePorts z.portSlept).wakeEnd z cause 0

/-- The latched ring of the watch unit (R392): it ends an entry, or wakes the node. -/
def execWatchUnitWake (spent : Nat) (m : Moment) (s : State) : Host.Outcome State Fault Refusal :=
  s.lift fun n =>
    match n.sys.sleep with
    | none => n
    | some z =>
      if !n.on Fd.DIC_WAKESRC_VALID || n.sys.phase = .por then n
      else if n.sys.power = .dormant then n.wakeFull z 2 spent
      else if n.awake && n.sys.power != .powerfail then n.sleepCancel z m
      else n
/-- The timer counts TIME seconds from step 8 (R413). -/
def execDormantTimerExpiry (s : State) : Host.Outcome State Fault Refusal :=
  s.lift fun n =>
    match n.sys.sleep with
    | none => n
    | some z =>
      if n.sys.power = .dormant && z.timer != 0 && !n.on Fd.DIC_WAKESRC_VALID then n.wakeFull z 3 (z.timer * qnsSec) else n

/-! ### SYS.PCMD (R424) -/

/-- A write that the command would refuse sets SYS.EVT.CFGERR. -/
def Node.pcmd (n : Node) (which : Nat) (m : Moment) : Node :=
  if !n.working || n.sys.sleep.isSome || n.cmd.resetDrain.isSome then n.sysCfgErr
  else match which with
    | 0 => if n.sys.power = .quiet then n.sysCfgErr else n.goQuiet 1 m
    | 1 => if n.sys.power = .full then n.sysCfgErr else n.goFull 1 m
    | _ =>
      let t := n.fd Fd.SYS_DTIME_TIME
      if (n.sleepRefused t).isSome then n.sysCfgErr else n.sleepBegin t true m
/-- A word written to SYS.PCMD: exactly one bit names the command. -/
def Node.pcmdWrite (n : Node) (v : Word) (m : Moment) : Node :=
  match v.toNat % 8 with
  | 1 => n.pcmd 0 m
  | 2 => n.pcmd 1 m
  | 4 => n.pcmd 2 m
  | _ => n.sysCfgErr
def execPcmdQuiet (_rq : Rq) (s : State) : Host.Outcome State Fault Refusal :=
  s.lift fun n => if n.awake then n.pcmd 0 70000 else n
def execPcmdFull (_rq : Rq) (s : State) : Host.Outcome State Fault Refusal :=
  s.lift fun n => if n.awake then n.pcmd 1 70000 else n
def execPcmdDormant (_rq : Rq) (s : State) : Host.Outcome State Fault Refusal :=
  s.lift fun n => if n.awake then n.pcmd 2 70000 else n

/-! ### Power failure (R414 to R419, R429, R434, R441) -/

/-- What is left uncommitted and what was raised after the warning is counted (R244), the last checkpoint is stored, the pins and outputs go dark, the node is OFF. -/
def Node.park (n : Node) : Node :=
  let lost := Nat.min 65535 (n.arc.queue.length + n.arc.afterWarn)
  let n := { n with nv := { n.nv with pflost := lost }, arc := { n.arc with queue := [], afterWarn := 0 } }
  let n := n.loPark.checkpoint
  { n with sys := { n.sys with power := .off, phase := .por, parked := true } }

/-- !PFAIL on a port whose NOTE has PFAIL: at the head of its queue; a full queue loses its newest notice (R416). -/
def Node.pfailNotice (n : Node) (vsys hold : Nat) (p : Port) : Node :=
  if !n.notes p .pfail then n
  else
    let s := n.port p
    let full := 64 ≤ s.notices.length
    let held := if full then s.notices.dropLast else s.notices
    let line : OutLine := ⟨"", .notice, [.w "PFAIL", .w "VSYS", volts1 vsys, .w "HOLD", volts1 hold]⟩
    let first := s.outOf = 3 && !s.out.isEmpty
    let list := if first then held.take 1 ++ line :: held.drop 1 else line :: held
    let n := n.setPort p { s with notices := list, replyOpen := false }
    if full then (n.setPort p { n.port p with lost := (n.port p).lost + 1 }).bump Fd.CMD_ERRCNT_LOST 1 else n

/-- A reseal past phase 0 completes at once while HOLD lasts (chapter 8, Corners). -/
def Node.resealNow (n : Node) : Node :=
  match n.resealPort with
  | none => n
  | some (_, m) =>
    if m.pos = 0 then n
    else ((if m.pos = 1 then n.resealV0 else n)).resealEnd

/-- The warning at instant w: HOLD is connected, the node enters POWERFAIL, POWER-FAIL stands at the head of the queue, and the
records that the alarm engine has raised for stage S6 of the beat behind it (R20, R244); every port stops, micro-routines end, the functions take their power-fail settings. -/
def Node.powerFail (n : Node) (vsys hold : Nat) (m : Moment) : Node :=
  let n := n.setFds [(Fd.SYS_VSYS_MV, vsys), (Fd.SYS_HOLD_MV, hold), (Fd.SYS_PWRSTAT_HOLDCONN, 1), (Fd.SYS_PWRSTAT_PFWARN, 1),
    (Fd.SYS_PWRSTAT_VSYSOK, 0), (Fd.SYS_EVT_PFWARN, 1)]
  let n := n.ring 0
  let count := n.arc.queue.length
  let n := n.dispPowerFail m
  let n := (match n.gate with
    | (n, some _) => n
    | (n, none) => n.raiseHead 0x002 (bytesLE 2 count) (windowOf m) (n.now m)).intakeStaged
  let n := if hold < 25000 then n else n.resealNow
  let n := n.cutMrs
  let n := ((n.svAbort 0 m).svAbort 1 m).twDrain.dropServoStep
  let n := ({ n with sys := { n.sys with power := .powerfail, sleep := none, warnAt := n.mono m, graceOver := false, pfLo := false },
                     dic := { n.dic with armed := false } }).setFd
    Fd.SYS_PSTATE_STATE 3
  let n := allPorts.foldl (fun (n : Node) (p : Port) => n.setPort p { n.port p with waiting := [], inbuf := [] }) n
  let n := allPorts.foldl (fun (n : Node) (p : Port) => n.pfailNotice vsys hold p) n
  let n := n.ucPowerFail
  if hold < 25000 then n.park else n

def execPowerFailWarning (vsys hold spent : Nat) (m : Moment) (s : State) : Host.Outcome State Fault Refusal :=
  s.lift fun n =>
    if n.sys.phase = .por || n.sys.power = .off || n.sys.power = .powerfail then n
    else match n.sys.power, n.sys.sleep with
      | .dormant, some z => (n.wakeFull z 2 spent).powerFail vsys hold m
      | _, _ => n.powerFail vsys hold m

/-- AGRACE has passed: the Annex core stops with cause 4 (R373, Table 15-5). -/
def execAgraceExpiry (m : Moment) (s : State) : Host.Outcome State Fault Refusal :=
  s.lift fun n =>
    if n.sys.power = .powerfail && !n.sys.graceOver && n.sys.warnAt + n.fd Fd.SYS_PFCFG_AGRACE * 4000 ≤ n.mono m then
      let n := n.annexStop 4 m
      { n with sys := { n.sys with graceOver := true } }
    else n

/-- Everything R417 waits for has happened. -/
def Node.parkReady (n : Node) : Bool :=
  n.arc.queue.isEmpty && n.sys.pfLo && n.loParked && n.disp.rails == .down && n.sys.graceOver
def execPark (hold : Nat) (_m : Moment) (s : State) : Host.Outcome State Fault Refusal :=
  s.lift fun n =>
    if n.sys.power != .powerfail then n
    else
      let n := n.setFd Fd.SYS_HOLD_MV hold
      if n.parkReady || hold < 25000 then n.park else n

/-! ### DO NODE PWRCYC (R423) -/

def execDoNodePwrcyc (l : Line) (s : State) : Host.Outcome State Fault Refusal :=
  s.lift fun n => n.runConfirm l 1 (fun n => n.mayWrite l.port .node none)
    (fun n => .ok { (n.replyOk l []) with sys := { n.sys with pwrcyc := some 0, pwrcycAt := n.tick } })
/-- Stage S6 after the completion line: the whole queue is committed, then PWRCYC_N goes low. -/
def Node.pwrcycCommit (n : Node) (bad : List Nat) : Node :=
  if n.sys.pwrcyc = some 0 then
    let n := n.writerOps bad (2 * n.arc.queue.length + 8)
    { n with sys := { n.sys with pwrcyc := some 1, pwrcycAt := n.tick } }
  else n
def execPwrcycPulseEnd (s : State) : Host.Outcome State Fault Refusal :=
  s.lift fun n =>
    if n.awake && n.sys.pwrcyc = some 1 && n.sys.pwrcycAt + 12500 ≤ n.tick then
      { n with sys := { n.sys with pwrcyc := some 2, pwrcycAt := n.tick } }
    else n
def execPwrcycSelfReset (s : State) : Host.Outcome State Fault Refusal :=
  s.lift fun n =>
    if n.awake && n.sys.power != .powerfail && n.sys.pwrcyc = some 2 && n.sys.pwrcycAt + 2500 ≤ n.tick then n.resetTo 0x40 else n

end Sys2Proof.Machine
end

