-- ==== Sys2Proof/Machine/Regs.lean ====
section
/-! DEFINITION. Register access and the address map: what a write does field by field, what each block makes of it, what
a read returns and clears, and the commands REG, PEEK and POKE (R4, R9 to R12, R52, R53, R363 to R366, R471). -/
namespace Sys2Proof.Machine

/-! ### Fields by access code (Table 0-4) -/

def FieldRow.mask (f : FieldRow) : Word := BitVec.ofNat 32 ((2 ^ (f.hi + 1 - f.lo) - 1) * 2 ^ f.lo)
/-- The bits of a register that have an access code. -/
def RegRow.mask (r : RegRow) (c : Acc) : Word := (r.fields.filter (fun f => f.acc == c)).foldl (fun w f => w ||| f.mask) 0#32
/-- Each RC field of a word changed by what its field of another word holds. -/
def RegRow.eachRC (r : RegRow) (f : Nat → Nat → Nat) (w keep : Word) : Word :=
  r.fields.foldl (fun w x => if x.acc == .RC then Fd.put ⟨0, x.hi, x.lo⟩ w (f (Fd.get ⟨0, x.hi, x.lo⟩ w) (Fd.get ⟨0, x.hi, x.lo⟩ keep)) else w) w
/-- An RC register as a read returns it: each field as it stood before the increments made in the cycle of the read (R10). -/
def RegRow.before (r : RegRow) (w keep : Word) : Word := r.eachRC (fun x k => x - k) w keep
/-- What the read leaves in it: those increments. -/
def RegRow.kept (r : RegRow) (w keep : Word) : Word := r.eachRC Nat.min w keep
/-- The word a write leaves by the fields' access codes alone: RW fields, and RWL fields while unlocked, take the value;
a 1 clears a W1C bit; every other bit stays. -/
def RegRow.written (r : RegRow) (locked : Bool) (old v : Word) : Word :=
  let rw := r.mask .RW ||| (if locked then 0#32 else r.mask .RWL)
  ((old &&& ~~~rw) ||| (v &&& rw)) &&& ~~~(v &&& r.mask .W1C)

/-- Some field of the register takes a write; one that has none ignores it (R4). -/
def RegRow.writable (r : RegRow) : Bool := r.fields.any (fun f => f.acc != .RO && f.acc != .RC)

/-- The lock that covers the register's RWL fields is set (R318). -/
def Node.regLocked (n : Node) (a : Nat) : Bool :=
  Ad.GP_FN 0 ≤ a && a < Ad.GP_FN 48 && n.gpLocked ((a - Ad.GP_FN 0) / 4)
/-- The bits that a write would have changed and did not (R318). -/
def Node.lockedBits (n : Node) (a : Nat) (v : Word) : Word :=
  match regRow a with
  | some r => if n.regLocked a then (v ^^^ n.rd a) &&& r.mask .RWL else 0#32
  | none => 0#32

/-- A change of a stored register sets DIRTY (R405). -/
def Node.dirtyIf (old n : Node) (a : Nat) : Node := if n.rd a = old.rd a then n else n.dirty
/-- A settings write: applied when the settings it leaves are accepted, else the block's CFGERR on the old settings. -/
def settle (ok : Bool) (applied refused : Node) : Node := if ok then applied else refused

/-! ### Writes, block by block. `n` is the node before the write, `g` the node with the fields written -/

def Node.dicReg (n g : Node) (rq : Rq) (r : RegRow) (a : Nat) (v : Word) (m : Moment) : Node :=
  let err := n.setOn Fd.DIC_EVT_CFGERR true
  match r.name with
  | "DIC.DOORBELL" => n.ring (Fd.DIC_DOORBELL_SRC.get v)
  | "DIC.COMPLETE" => n.complete rq (Fd.DIC_COMPLETE_SRC.get v) m
  | "DIC.CTRL" => if Fd.DIC_CTRL_STRAYCLR.get v = 1 then n.setFd Fd.DIC_STRAYCNT_COUNT 0 else n
  | "DIC.BAND" => Node.dirtyIf n (if a = Ad.DIC_BAND 0 then g.setBit a 0 else g) a
  | "DIC.VECT" =>
    let x := v.toNat
    settle (x = 0 || (x % 2 = 0 && 0x10000000 ≤ x && x < 0x10100000)) g err
  | "DIC.WATCH" =>
    let k := r.index a
    settle (!g.on (Fd.DIC_WATCH_EN k) || watchable (g.fd (Fd.DIC_WATCH_SRC k))) (Node.dirtyIf n g a) err
  | "DIC.MODT" => Node.dirtyIf n g a
  | "DIC.ENA" => Node.dirtyIf n g a
  | "DIC.SRC" => Node.dirtyIf n g a
  | _ => g

def Node.gpReg (n g : Node) (rq : Rq) (r : RegRow) (a : Nat) (v : Word) (m : Moment) : Node :=
  match r.name with
  | "GP.FN" =>
    let i := r.index a
    let met := n.lockedBits a v != 0#32 && rq == .annex
    let g := settle (g.gpRegOk i) (Node.gpChanged n (Node.dirtyIf n g a) i (rq == .cmd)) n.gpCfgErr
    if met then g.setOn Fd.GP_EVT_LOCKWR true else g
  | "GP.HWREFRESH" => if v.getLsbD 0 then n.hwWriteIf (fun _ => true) else n
  | "GP.GPLOCK" => n.gplock rq v (n.now m)
  | _ => g

def Node.twReg (n g : Node) (r : RegRow) (a : Nat) (v : Word) : Node :=
  match r.name with
  | "TW.CTRL" => settle g.twRegOk (Node.twChanged n (Node.dirtyIf n g a)) n.twCfgErr
  | "TW.CMD" =>
    if Fd.TW_CMD_START.get v = 1 then n.twCmdStart v
    else if Fd.TW_CMD_CLEAR.get v = 1 then n.twCmdClear v
    else n.twCmdWrite v
  | _ => g

/-- TIME and BEAT: a value outside its range is taken as the nearest limit. -/
def Node.timeReg (n g : Node) (r : RegRow) (a : Nat) (v : Word) : Node :=
  match r.name with
  | "TIME.CAPPOP" => n.capPop v
  | "BEAT.OVRCLR" => n.ovrClear v
  | "TIME.CAPSTAT" => g
  | "BEAT.LATE" => g
  | _ =>
    let g := g.wr a (clampReg a (g.rd a))
    Node.timeChanged n (Node.dirtyIf n g a)

/-- The custom tables hold numbers in their ranges, and points in order where a channel uses them (R119). -/
def Node.tablesOk (n : Node) : Bool :=
  (List.range 4).all (fun t =>
    (n.npt t == 0 || (2 ≤ n.npt t && n.npt t ≤ 32)) &&
    (List.range 32).all (fun p => within (q 0) (q 4000) (n.rd (ctabOhm t p)) && within (q (-273)) (q 1000) (n.rd (ctabDeg t p))) &&
    !((List.range 24).any (fun i => n.usesTable i t) && !ascending (n.points t)))
/-- Universal channels (R110, R121): a write that changes MODE loads the mode defaults of every other register of its
channel; a write that a SET would refuse is not applied, as one to a DRAINING channel that changes more than MODE. -/
def Node.ucReg (n g : Node) (r : RegRow) (a : Nat) : Node :=
  if a < 0x40040600 then
    let i := (a - 0x40040000) / 64
    let m := g.fd (Fd.UC_CFG_MODE i)
    let d := if m = n.fd (Fd.UC_CFG_MODE i) then n else n.modeDefaults i m
    let fits := Node.ucRegFits n d g a i
    let drains := (n.chan i).drain &&
      (a != Ad.UC_CFG i || g.rd a != (Fd.UC_CFG_MODE i).put (n.rd a) m)
    let g := if m = n.fd (Fd.UC_CFG_MODE i) then g else d.wr a (g.rd a)
    let lost := n.noReserve (i / 4) && m != 0
    let g := if a = Ad.UC_OUT i then (if (n.chan i).drain then g else g.setChan i { g.chan i with goal := none })
      else Node.dirtyIf n g a
    settle (fits && g.ucRegOk i && !drains && !lost) (Node.ucChanged n g i) n.ucCfgErr
  else if r.name = "UC.QEVT" ∨ r.name = "UC.FLAGCHG" then g
  else settle g.tablesOk (Node.dirtyIf n g a) n.ucCfgErr

def Node.loReg (n g : Node) (a : Nat) : Node :=
  if a < 0x40050200 then
    let i := (a - 0x40050000) / 64
    let changed := g.fd (Fd.LO_CFG_MODE i) != n.fd (Fd.LO_CFG_MODE i)
    let g := if a = Ad.LO_OUT i then g else Node.dirtyIf n g a
    let other := a != Ad.LO_CFG i || g.rd a != (Fd.LO_CFG_MODE i).put (n.rd a) (g.fd (Fd.LO_CFG_MODE i))
    settle (Node.loRegOk n g i && !(n.loState i == loDraining && other))
      (Node.loChanged n g i (a == Ad.LO_OUT i) changed) (n.loCfgErr i)
  else g

def Node.gridReg (n g : Node) (r : RegRow) (a : Nat) (v : Word) : Node :=
  match r.name with
  | "GRID.EVT" => g
  | "TRANS.EVT" => g
  | "TRANS.CTRL" => n.transCtrl v
  | _ =>
    if a < 0x40060400 then
      let g := gridChanged n g
      let frames := g.fd Fd.GRID_CTRL_FRAMES
      settle (g.gridRegOk && (frames == n.fd Fd.GRID_CTRL_FRAMES || n.framesOk frames) && !gridLocked n g) (Node.dirtyIf n g a) n.gridCfgErr
    else settle g.transRegOk (Node.dirtyIf n g a) n.transCfgErr

/-- Alarms and calls (R208): with the engine OFF only its own register takes a setting (R210). -/
def Node.almReg (n g : Node) (r : RegRow) (a : Nat) (v : Word) : Node :=
  let live := n.fd Fd.ALM_STAT_STATE != 0
  let point (i : Nat) : Node :=
    let g := Node.dirtyIf n g a
    let g := if r.name = "ALM.PCFG" then g.setK (Kid.apSrc i) 1#32 else g
    settle (live && g.apRegOk i) (Node.apChanged n g i) n.almCfgErr
  match r.name with
  | "ALM.CTRL" => settle (live || g.on Fd.ALM_CTRL_ENGINE) ((Node.dirtyIf n g a).engineSet (g.on Fd.ALM_CTRL_ENGINE)) n.almCfgErr
  | "ALM.ACK" => n.ackWrite v
  | "ALM.ACKACC" => g
  | "ALM.EVT" => g
  | "ALM.CHG" => g
  | "ALM.AGCFG" => settle (live && g.agRegOk (r.index a)) (Node.dirtyIf n g a) n.almCfgErr
  | "ALM.AGREL" => settle (live && g.agRegOk (r.index a)) (Node.dirtyIf n g a) n.almCfgErr
  | "ALM.PCFG" => point (r.index a)
  | "ALM.PSRC2" => point (r.index a)
  | "ALM.HH" => point (r.index a)
  | "ALM.H" => point (r.index a)
  | "ALM.L" => point (r.index a)
  | "ALM.LL" => point (r.index a)
  | "ALM.HYS" => point (r.index a)
  | "ALM.ONDLY" => point (r.index a)
  | "ALM.OFFDLY" => point (r.index a)
  | "CALL.MASK" => settle (live && g.callRegOk) (Node.dirtyIf n g a) n.almCfgErr
  | "CALL.T" => settle (live && g.callRegOk) (Node.dirtyIf n g a) n.almCfgErr
  | "CALL.MODE" => settle (live && g.callRegOk) (Node.dirtyIf n g a) n.almCfgErr
  | "CALL.TO" => settle (live && g.callRegOk) (Node.dirtyIf n g a) n.almCfgErr
  | _ => g

def Node.arcReg (n g : Node) (rq : Rq) (r : RegRow) (a : Nat) (v : Word) : Node :=
  match r.name with
  | "ARC.CTRL" =>
    let off := !g.on Fd.ARC_CTRL_ENABLE && (n.on Fd.ARC_STAT_CLEARING || n.on Fd.ARC_STAT_RESEALING)
    settle (!off) (Node.arcChanged n (Node.dirtyIf n g a)) n.arcCfgErr
  | "ARC.FIND" => n.findStart rq v
  | "ARC.CODE" => n.codeWrite (r.index a) v
  | _ => g

/-- The settings of Allieno that a write changes at once and the store keeps (Tables 9-11 and 10-6). -/
def busSetting (off : Nat) : Bool :=
  off < 0xC || (0x400 ≤ off && off < 0x800) || (0x900 ≤ off && off < 0x920) || (0xB40 ≤ off && off < 0xC08)
def Node.busReg (n g : Node) (r : RegRow) (a : Nat) (v : Word) (m : Moment) : Node :=
  let p := if a < 0x40098000 then 0 else 1
  let off := a % 0x8000
  if off = 0x1C then (if v.getLsbD 0 then n.fifoPop p else n)
  else if off = 0x2C then n.setFd (Fd.BUS_CARDONE_DONE p) ((n.rd (Ad.BUS_CARDONE p) &&& ~~~v).toNat % 256)
  else if off = 0x810 then n.evRelease p v
  else if 0x100 ≤ off ∧ off < 0x200 then
    let k := r.index a
    if k < 16 then n.busCfgErr p
    else
      let g := if v.getLsbD 0 then Node.mbReq n g p k else g
      if v.getLsbD 1 then Node.mbAbort g g p k else g
  else if !Node.busRegOk n g a then n.busCfgErr p
  else
    let g := if (List.range 4).any (fun k => a == Ad.BUS_GATEW p k) && v.getLsbD 16 then g.gateReset p (r.index a) else g
    if busSetting off then Node.busChanged n (Node.dirtyIf n g a) m else g

def Node.dispReg (n g : Node) (r : RegRow) (a : Nat) (v : Word) (m : Moment) : Node :=
  let open_ := n.dispState != 2
  let band := bandNo (n.fd Fd.DISP_WSEL_MODE == 0) (n.fd Fd.DISP_WSEL_BAND)
  match r.name with
  | "DISP.CMD" =>
    let n := if Fd.DISP_CMD_UPDATE.get v = 1 then n.dispCmdUpdate v m else n
    let n := if Fd.DISP_CMD_RAILSON.get v = 1 then n.dispCmdRailsOn else n
    if Fd.DISP_CMD_RAILSOFF.get v = 1 then n.dispCmdRailsOff m else n
  | "DISP.EVT" => g
  | "DISP.WSEL" => g
  | "DISP.WLEN" =>
    let len := Fd.DISP_WLEN_LEN.get v
    settle (open_ && len ≤ 64) ((n.setK (Kid.waveLen band) (BitVec.ofNat 32 len)).dirty) n.dispCfgErr
  | "DISP.WDATA" =>
    settle open_ ((n.setWave band (n.fd Fd.DISP_WSEL_FROM) (n.fd Fd.DISP_WSEL_TO) (r.index a) v).dirty) n.dispCfgErr
  | "LCD.COMMIT" => if v.getLsbD 0 then n.lcdCommit else n
  | "LCD.SEGLO" => g
  | "LCD.SEGHI" => g
  | "LCD.BLKLO" => g
  | "LCD.BLKHI" => g
  | _ => settle (Node.dispRegOk n g) (Node.dispChanged n (Node.dirtyIf n g a)) n.dispCfgErr

/-- System registers: the Annex core cannot write AWDCFG and ABOOT (R372). -/
def Node.sysReg (n g : Node) (rq : Rq) (r : RegRow) (a : Nat) (v : Word) (m : Moment) : Node :=
  match r.name with
  | "SYS.PCMD" => n.pcmdWrite v m
  | "SYS.CORE" => settle g.sysRegOk (Node.dirtyIf n g a) n.sysCfgErr
  | "SYS.PFCFG" => settle g.sysRegOk (Node.dirtyIf n g a) n.sysCfgErr
  | "SYS.DTIME" => settle g.sysRegOk g n.sysCfgErr
  | "SYS.AWDSERVE" => n.dogServe v m
  | "SYS.AWDCFG" => if rq = .annex then n else settle g.nodeRegOk (Node.nodeChanged n (Node.dirtyIf n g a) m) n.sysCfgErr
  | "SYS.ABOOT" => if rq = .annex then n else settle g.nodeRegOk (Node.nodeChanged n (Node.dirtyIf n g a) m) n.sysCfgErr
  | _ => g

/-- The mailbox, which REG and POKE leave unchanged (R372), and the ports (R54, R55): HBEAT 0 is taken as 1 and PAR 0b11
as none. `by_`: the port whose line wrote. -/
def Node.cmdReg (n g : Node) (rq : Rq) (by_ : Option Port) (r : RegRow) (a : Nat) (v : Word) (m : Moment) : Node :=
  if a < 0x400C0100 then
    if rq = .cmd then n
    else match r.name with
      | "CMD.REQPTR" => n.wr a v
      | "CMD.REQCTL" => n.reqWrite v
      | "CMD.RXBASE" => n.rxbaseWrite v
      | "CMD.RXCFG" => n.rxcfgWrite v
      | "CMD.RXRD" => n.rxrdWrite v
      | _ => g
  else
    let g := if g.fd Fd.CMD_HBCFG_HBEAT = 0 then g.setFd Fd.CMD_HBCFG_HBEAT 1 else g
    let g := if g.fd Fd.CMD_HOSTCFG_PAR = 3 then g.setFd Fd.CMD_HOSTCFG_PAR 0 else g
    settle g.cmdRegOk (Node.cmdChanged n (Node.dirtyIf n g a) by_ m) n.mbCfgErr

/-- One register write by a requester at a moment of the beat. An offset that no register occupies ignores it (R364).
`keep`: W1C bits that hardware sets in the same cycle: they stay set (R10). -/
def Node.regWrite (n : Node) (rq : Rq) (by_ : Option Port) (a : Nat) (v : Word) (m : Moment) (keep : Word := 0#32) : Node :=
  match regRow a with
  | none => n
  | some r =>
    let v := v &&& ~~~(keep &&& r.mask .W1C)
    let g := n.wr a (r.written (n.regLocked a) (n.rd a) v)
    if !r.writable then n else match (a - 0x40000000) / 0x10000 with
    | 0 => n.dicReg g rq r a v m
    | 1 => n.gpReg g rq r a v m
    | 2 => n.twReg g r a v
    | 3 => n.timeReg g r a v
    | 4 => n.ucReg g r a
    | 5 => n.loReg g a
    | 6 => n.gridReg g r a v
    | 7 => n.almReg g r a v
    | 8 => n.arcReg g rq r a v
    | 9 => n.busReg g r a v m
    | 10 => n.dispReg g r a v m
    | 11 => n.sysReg g rq r a v m
    | _ => n.cmdReg g rq by_ r a v m

/-! ### Reads -/

/-- CMD.MRSTAT (Table 2-12). -/
def Node.mrstat (n : Node) : Word :=
  let bits (f : Mr → Bool) : Nat := allPorts.foldl (fun b p => match (n.port p).mr with
    | some k => if f k then b + 2 ^ portNum p else b
    | none => b) 0
  let first := allPorts.findSome? (fun p => (n.port p).mr.map (fun k => k.pos))
  BitVec.ofNat 32 (first.getD 0 % 65536 * 65536 + bits (fun k => k.paused) * 16 + bits (fun _ => true))

/-- Companion registers, which read what their requester latched (R85, R122, R149, R177, R239, R366). -/
def latched (a : Nat) : Bool :=
  a == Ad.TIME_SECHI || a == Ad.TIME_SECLO || a == Ad.UC_VSTAT || a == Ad.ARC_OPMSHI ||
  (Ad.GRID_REPQNS ≤ a && a ≤ Ad.GRID_ROCOF) ||
  (0x40050000 ≤ a && a < 0x40050200 && 0x20 ≤ a % 64 && a % 64 ≤ 0x2C)

/-- The word a register shows its requester at a moment, without the effects of a read: computed fields as they stand,
latched companions, WO fields 0, reserved bits 0. -/
def Node.regView (n : Node) (rq : Rq) (a : Nat) (m : Moment) : Word :=
  match regRow a with
  | none => 0#32
  | some r =>
    let w := n.rd a
    let band := bandNo (n.fd Fd.DISP_WSEL_MODE == 0) (n.fd Fd.DISP_WSEL_BAND)
    if latched a then n.lat rq a
    else match r.name with
      | "DIC.STAT" => n.dicStat
      | "TIME.QNS" => BitVec.ofNat 32 (qnsOf (n.now m))
      | "BEAT.STATUS" => Fd.BEAT_STATUS_INDEX.put w n.idx
      | "UC.QLOAD" => n.qload
      | "ARC.STAT" => Fd.ARC_STAT_QDEPTH.put w n.arc.queue.length
      | "ARC.FIND" => (n.search rq).acc
      | "ARC.FINDADDR" => (n.search rq).res
      | "ARC.RESEALS" => BitVec.ofNat 32 n.nv.reseals
      | "ARC.PWRCYC" => BitVec.ofNat 32 n.nv.pwrcyc
      | "ARC.OPMSLO" => BitVec.ofNat 32 n.arc.opMs
      | "DISP.WLEN" => n.k (Kid.waveLen band)
      | "DISP.WDATA" => n.waveWord band (n.fd Fd.DISP_WSEL_FROM) (n.fd Fd.DISP_WSEL_TO) (r.index a)
      | "SYS.UIDLO" => BitVec.ofNat 32 Node.uid
      | "SYS.UIDHI" => BitVec.ofNat 32 (Node.uid / 2 ^ 32)
      | "SYS.MODES" => n.modes
      | "CMD.MRSTAT" => n.mrstat
      | "CMD.MBSTAT" => Fd.CMD_MBSTAT_REPLY.put (Fd.CMD_MBSTAT_WAITING.put w (Nat.min 4 (n.port .annex).waiting.length))
          (if (n.port .annex).replyOpen then 1 else 0)
      | _ => w &&& ~~~r.mask .WO

/-- One register read: what it returns stands in `rdata`; RC fields clear (R11), latches load (R366). `keep`: what hardware has
counted in RC fields in the same cycle: it stays in the field and is not returned (R10). -/
def Node.regRead (n : Node) (rq : Rq) (a : Nat) (m : Moment) (keep : Word := 0#32) : Node :=
  match regRow a with
  | none => { n with rdata := 0#32 }
  | some r => match r.name with
    | "TIME.QNS" => n.readQns rq m
    | "UC.VAL" => n.readUcVal rq (r.index a)
    | "LO.RB" => n.readLoRb rq (r.index a)
    | "GRID.REPSEC" => n.readRepSec rq
    | "ARC.OPMSLO" => n.readOpms rq
    | _ =>
      let w := n.regView rq a m
      let rc := r.mask .RC
      { (if rc = 0#32 then n else n.wr a (r.kept (n.rd a) keep)) with rdata := r.before w keep }

def execRegisterWrite (rq : Rq) (a : Nat) (v : Word) (c : Access) (s : State) : Host.Outcome State Fault Refusal :=
  s.lift fun n => if n.awake then n.regWrite rq none a v c.at_ c.keep else n
def execReadClearRead (rq : Rq) (a : Nat) (c : Access) (s : State) : Host.Outcome State Fault Refusal :=
  s.lift fun n => if n.awake then n.regRead rq a c.at_ c.keep else n

/-! ### The address map (Table 13-4) -/

inductive Region
  | tcm | ring | caravan | sram | nv | regs | unmapped
deriving DecidableEq, Repr

def region (a : Nat) : Region :=
  if 0x10000000 ≤ a ∧ a < 0x10100000 then .tcm
  else if 0x20000000 ≤ a ∧ a < 0x20200000 then .ring
  else if 0x20200000 ≤ a ∧ a < 0x20240000 then .caravan
  else if 0x20240000 ≤ a ∧ a < 0x20280000 then .sram
  else if 0x30000000 ≤ a ∧ a < 0x30100000 then .nv
  else if 0x40000000 ≤ a ∧ a < 0x400D0000 then .regs
  else .unmapped

/-- A byte of a memory region as it reads: the counter block is a view of its counters (R217). -/
def Node.memByte (n : Node) (a : Nat) : Byte := if 0x300FFF00 ≤ a ∧ a < 0x30100000 then n.counterByte (a - 0x300FFF00) else n.byte a
/-- A little-endian number of `k` bytes of a memory region. -/
def Node.memNum (n : Node) (a k : Nat) : Nat := natLE ((List.range k).map (fun i => n.memByte (a + i)))
/-- The user's part of a port's area of the caravanserai: transmit slots 16 to 63, caravan buffers 4 to 7 (R262, Table 9-7). -/
def userPart (off : Nat) : Bool := (0x400 ≤ off && off < 0x1000) || (0x5000 ≤ off && off < 0x9000)
/-- A write to a memory region by POKE or by the Annex core: the TCM and the general SRAM take it, the caravanserai only
in the user's parts, elsewhere nothing changes. -/
def Node.memWrite (n : Node) (a : Nat) (bytes : List Byte) : Node :=
  match region a with
  | .tcm => n.setBytes a bytes
  | .sram => n.setBytes a bytes
  | .caravan =>
    let p := (a - 0x20200000) / 0x20000
    if userPart (a % 0x20000) then n.setBytes a bytes else n.busCfgErr p
  | _ => n

/-- A word read by PEEK: a register with the effects of its read, or memory. -/
def Node.peekWord (n : Node) (a : Nat) (m : Moment) : Node :=
  if region a = .regs then n.regRead .cmd a m else { n with rdata := BitVec.ofNat 32 (n.memNum a 4) }

/-! ### Registers by name (Table 0-3) and the items they touch (Table 2-6a) -/

/-- What follows a prefix. -/
def afterPrefix : List Char → List Char → Option (List Char)
  | [], l => some l
  | a :: t, b :: l => if a = b then afterPrefix t l else none
  | _ :: _, [] => none

/-- The register a name stands for: UNIT.REGISTER, with its index where there are several. -/
def RegRow.named (r : RegRow) (name : String) : Option Nat :=
  match afterPrefix r.name.toList name.toList with
  | some rest =>
    if r.count ≤ 1 then (if rest.isEmpty then some r.addr else none)
    else match digitsOf 4 rest with
      | some (i, []) => if i < r.count && (toString i).toList == rest then some (r.addr + i * r.stride) else none
      | _ => none
  | none => none
def regNamed (name : String) : Option (RegRow × Nat) := regRows.findSome? (fun r => (r.named name).map (fun a => (r, a)))
def RegRow.field (r : RegRow) (f : String) : Option FieldRow := r.fields.find? (fun x => x.name == f)

/-- The object of a register, and its item where the register touches one. -/
def regItem (a : Nat) : Option (Obj × Option Nat) :=
  match regRow a with
  | none => none
  | some r =>
    let i := r.index a
    let one (o : Obj) (names : List String) : Option (Obj × Option Nat) := some (o, if names.contains r.name then some i else none)
    match (a - 0x40000000) / 0x10000 with
    | 0 => one .dic ["DIC.SRC", "DIC.VECT"]
    | 1 => one .gp ["GP.FN"]
    | 2 => some (.tw, none)
    | 3 => if a < 0x40030100 then one .time ["TIME.CAPCFG"] else some (.beat, none)
    | 4 => some (.uc, if a < 0x40040600 then some i else none)
    | 5 => some (.lo, if a < 0x40050200 then some i else none)
    | 6 => if a < 0x40060400 then one .grid ["GRID.RATIO", "GRID.DELAY", "GRID.INCFG"]
      else one .trans ["TRANS.CFG", "TRANS.FLOOR", "TRANS.TDELAY"]
    | 7 =>
      if 0x40070400 ≤ a && a < 0x40070800 then some (.ag, some i)
      else if 0x40070800 ≤ a && a < 0x40071000 then some (.call, none)
      else some (.ap, if 0x40071000 ≤ a then some i else none)
    | 8 => one .arc ["ARC.CODE"]
    | 9 => some (.bus, none)
    | 10 => some (.disp, none)
    | 11 => some (if 0x400B0100 ≤ a then .node else .sys, none)
    | _ => some (.sys, none)

/-- Claims and leases on what a register write touches (R48, R471). -/
def Node.mayWriteReg (n : Node) (p : Port) (a : Nat) : Except Err Unit :=
  match regItem a with
  | some (o, some i) => n.mayWrite p o (some [(i, i)])
  | some (o, none) => n.mayWrite p o none
  | none => .ok ()

/-! ### REG, PEEK and POKE (R52, R53) -/

/-- VALUE for a width: a whole number from -2^(w-1) to 2^w - 1, negative ones as their two's complement. -/
def valueOf (keys : Keys) (w : Nat) : Except Err Nat :=
  match keyVal keys "VALUE" with
  | none => refuse 112
  | some v => match Val.int? v with
    | none => refuse 203
    | some z => if -(2 ^ (w - 1) : Int) ≤ z ∧ z < (2 ^ w : Int) then .ok (twos w z) else refuse 201
/-- The keys a REG or POKE write takes, and the form of VALUE. -/
def valueKey (keys : Keys) : Except Err Unit := do
  onlyKeys ["VALUE"] ["VALUE"] keys
  match (keyVal keys "VALUE").bind Val.int? with
  | some _ => pure ()
  | none => refuse 203

/-- Hex digits that a width needs. -/
def hexLen (w : Nat) : Nat := (w + 3) / 4

def execRegRead (l : Line) (reg : String) (s : State) : Host.Outcome State Fault Refusal :=
  s.lift fun n => n.runLine l true (fun n => do
    onlyKeys [] [] l.keys
    match regNamed reg with
    | none => refuse 209
    | some (_, a) =>
      let n := n.regRead .cmd a 70000
      pure (n, [[.w "REG", .w reg, .h n.rdata.toNat 8]]))
def execRegFieldRead (l : Line) (reg fld : String) (s : State) : Host.Outcome State Fault Refusal :=
  s.lift fun n => n.runLine l true (fun n => do
    onlyKeys [] [] l.keys
    match (regNamed reg).bind (fun x => (x.1.field fld).map (fun f => (x.2, f))) with
    | none => refuse 209
    | some (a, f) =>
      let n := n.regRead .cmd a 70000
      let fd : Fd := ⟨a, f.hi, f.lo⟩
      pure (n, [[.w "REG", .w (reg ++ "." ++ fld), .h (fd.get n.rdata) (hexLen fd.width)]]))

/-- The write a line makes, and the =LOCKED line where it met locked fields (R318). -/
def Node.lineWrite (n : Node) (l : Line) (a : Nat) (v : Word) : Node × List (List Item) :=
  let k := n.lockedBits a v
  (n.regWrite .cmd (some l.port) a v 70000,
   if k = 0#32 then [] else [[.w "LOCKED", .h a 8, .h k.toNat 8]])

def execRegWrite (l : Line) (reg : String) (s : State) : Host.Outcome State Fault Refusal :=
  s.lift fun n => n.runLine l false (fun n => do
    valueKey l.keys
    match regNamed reg with
    | none => refuse 209
    | some (_, a) =>
      let v ← valueOf l.keys 32
      n.mayWriteReg l.port a
      pure (n.lineWrite l a (BitVec.ofNat 32 v)))

/-- The word of a field write: the named field, and every other RW or RWL field as it reads (R52). -/
def Node.fieldWord (n : Node) (r : RegRow) (a : Nat) (f : FieldRow) (v : Nat) : Word :=
  let fd : Fd := ⟨a, f.hi, f.lo⟩
  fd.put (n.regView .cmd a 70000 &&& (r.mask .RW ||| r.mask .RWL)) v
def execRegFieldWrite (l : Line) (reg fld : String) (s : State) : Host.Outcome State Fault Refusal :=
  s.lift fun n => n.runLine l false (fun n => do
    valueKey l.keys
    match (regNamed reg).bind (fun x => (x.1.field fld).map (fun f => (x.1, x.2, f))) with
    | none => refuse 209
    | some (r, a, f) =>
      let v ← valueOf l.keys (f.hi + 1 - f.lo)
      n.mayWriteReg l.port a
      pure (n.lineWrite l a (n.fieldWord r a f v)))

def peekSpecs : List KeySpec := [kk "COUNT" (.int 1 64) (fun _ => 0)]
/-- The words of a PEEK at ascending addresses. -/
def Node.peekLines (n : Node) (a : Nat) : Nat → Node × List (List Item)
  | 0 => (n, [])
  | k + 1 =>
    let n := n.peekWord a 70000
    let x := n.rdata
    let (n', t) := n.peekLines (a + 4) k
    (n', [.w "PEEK", .h a 8, .h x.toNat 8] :: t)
def execPeek (l : Line) (a : Nat) (s : State) : Host.Outcome State Fault Refusal :=
  s.lift fun n => n.runLine l true (fun n => do
    checkKeys peekSpecs [] l.keys
    let k := (keyNum peekSpecs l.keys "COUNT").getD 1
    if a % 4 != 0 then refuse 208
    if (List.range k).any (fun i => region (a + 4 * i) == .unmapped) then refuse 207
    pure (n.peekLines a k))
def execPoke (l : Line) (a : Nat) (s : State) : Host.Outcome State Fault Refusal :=
  s.lift fun n => n.runLine l false (fun n => do
    valueKey l.keys
    let v ← valueOf l.keys 32
    if a % 4 != 0 then refuse 208
    match region a with
    | .unmapped => refuse 207
    | .nv => refuse 210
    | .regs =>
      n.mayWriteReg l.port a
      pure (n.lineWrite l a (BitVec.ofNat 32 v))
    | _ => pure (n.memWrite a (bytesLE 4 v), []))

end Sys2Proof.Machine
end

