-- ==== Sys2Proof/Machine/Rv32.lean ====
section
/-! DEFINITION. The instructions of the Annex core: RV32IMC with Zicsr and Zifencei in machine mode (R353 to R356, R364,
R382, R389). The encodings and results are those of the RISC-V manuals, which the spec names (log entry 60, PRESUMED). -/
namespace Sys2Proof.Machine

/-! ### Instructions -/

inductive Alu
  | add | sub | sll | slt | sltu | xor | srl | sra | or | and
  | mul | mulh | mulhsu | mulhu | div | divu | rem | remu
deriving DecidableEq, Repr

inductive Br
  | eq | ne | lt | ge | ltu | geu
deriving DecidableEq, Repr

/-- How a CSR instruction combines the source with the old value. -/
inductive CsrOp
  | write | set | clear
deriving DecidableEq, Repr

/-- One instruction, its compressed forms expanded. Immediates are sign-extended; `sz` is the access size in bytes. -/
inductive Rv
  | lui (rd : Nat) (imm : Word)
  | auipc (rd : Nat) (imm : Word)
  | jal (rd : Nat) (imm : Word)
  | jalr (rd rs1 : Nat) (imm : Word)
  | branch (op : Br) (rs1 rs2 : Nat) (imm : Word)
  | load (sz : Nat) (sign : Bool) (rd rs1 : Nat) (imm : Word)
  | store (sz : Nat) (rs1 rs2 : Nat) (imm : Word)
  | opImm (op : Alu) (rd rs1 : Nat) (imm : Word)
  | opReg (op : Alu) (rd rs1 rs2 : Nat)
  | fence
  | ecall
  | ebreak
  | mret
  | wfi
  | csr (op : CsrOp) (uimm : Bool) (rd src num : Nat)
deriving DecidableEq, Repr

/-! ### Decoding -/

/-- Bits hi to lo of a number. -/
def nbits (w hi lo : Nat) : Nat := w / 2 ^ lo % 2 ^ (hi + 1 - lo)
/-- A number of `w` bits, sign-extended to a word. -/
def sext (w v : Nat) : Word := BitVec.ofInt 32 (signed w v)

def aluReg (f7 f3 : Nat) : Option Alu :=
  match f7, f3 with
  | 0, 0 => some .add | 0x20, 0 => some .sub | 0, 1 => some .sll | 0, 2 => some .slt | 0, 3 => some .sltu
  | 0, 4 => some .xor | 0, 5 => some .srl | 0x20, 5 => some .sra | 0, 6 => some .or | 0, 7 => some .and
  | 1, 0 => some .mul | 1, 1 => some .mulh | 1, 2 => some .mulhsu | 1, 3 => some .mulhu
  | 1, 4 => some .div | 1, 5 => some .divu | 1, 6 => some .rem | 1, 7 => some .remu
  | _, _ => none
def aluImm (f7 f3 : Nat) : Option Alu :=
  match f3 with
  | 0 => some .add | 2 => some .slt | 3 => some .sltu | 4 => some .xor | 6 => some .or | 7 => some .and
  | 1 => if f7 = 0 then some .sll else none
  | _ => if f7 = 0 then some .srl else if f7 = 0x20 then some .sra else none
def brOp (f3 : Nat) : Option Br :=
  match f3 with
  | 0 => some .eq | 1 => some .ne | 4 => some .lt | 5 => some .ge | 6 => some .ltu | 7 => some .geu
  | _ => none

/-- A 32-bit instruction. -/
def rvDecode32 (w : Nat) : Option Rv :=
  let rd := nbits w 11 7
  let f3 := nbits w 14 12
  let rs1 := nbits w 19 15
  let rs2 := nbits w 24 20
  let f7 := nbits w 31 25
  let immI := sext 12 (nbits w 31 20)
  let immS := sext 12 (f7 * 32 + rd)
  let immB := sext 13 (nbits w 31 31 * 4096 + nbits w 7 7 * 2048 + nbits w 30 25 * 32 + nbits w 11 8 * 2)
  let immU := BitVec.ofNat 32 (nbits w 31 12 * 4096)
  let immJ := sext 21 (nbits w 31 31 * 2 ^ 20 + nbits w 19 12 * 4096 + nbits w 20 20 * 2048 + nbits w 30 21 * 2)
  match nbits w 6 0 with
  | 0x37 => some (.lui rd immU)
  | 0x17 => some (.auipc rd immU)
  | 0x6F => some (.jal rd immJ)
  | 0x67 => if f3 = 0 then some (.jalr rd rs1 immI) else none
  | 0x63 => (brOp f3).map (fun op => .branch op rs1 rs2 immB)
  | 0x03 => match f3 with
    | 0 => some (.load 1 true rd rs1 immI)
    | 1 => some (.load 2 true rd rs1 immI)
    | 2 => some (.load 4 false rd rs1 immI)
    | 4 => some (.load 1 false rd rs1 immI)
    | 5 => some (.load 2 false rd rs1 immI)
    | _ => none
  | 0x23 => if f3 < 3 then some (.store (2 ^ f3) rs1 rs2 immS) else none
  | 0x13 =>
    let shift : Bool := f3 == 1 || f3 == 5
    (aluImm f7 f3).map (fun op => .opImm op rd rs1 (if shift then BitVec.ofNat 32 rs2 else immI))
  | 0x33 => (aluReg f7 f3).map (fun op => .opReg op rd rs1 rs2)
  | 0x0F => if f3 ≤ 1 then some .fence else none
  | 0x73 => match f3 with
    | 0 => if rd != 0 || rs1 != 0 then none else match nbits w 31 20 with
      | 0 => some .ecall
      | 1 => some .ebreak
      | 0x302 => some .mret
      | 0x105 => some .wfi
      | _ => none
    | 1 => some (.csr .write false rd rs1 (nbits w 31 20))
    | 2 => some (.csr .set false rd rs1 (nbits w 31 20))
    | 3 => some (.csr .clear false rd rs1 (nbits w 31 20))
    | 5 => some (.csr .write true rd rs1 (nbits w 31 20))
    | 6 => some (.csr .set true rd rs1 (nbits w 31 20))
    | 7 => some (.csr .clear true rd rs1 (nbits w 31 20))
    | _ => none
  | _ => none

/-- A 16-bit instruction: quadrant 0. -/
def rvDecodeC0 (w : Nat) : Option Rv :=
  let rd' := 8 + nbits w 4 2
  let rs' := 8 + nbits w 9 7
  let off := BitVec.ofNat 32 (nbits w 12 10 * 8 + nbits w 6 6 * 4 + nbits w 5 5 * 64)
  match nbits w 15 13 with
  | 0 =>
    let imm := nbits w 12 11 * 16 + nbits w 10 7 * 64 + nbits w 6 6 * 4 + nbits w 5 5 * 8
    if imm = 0 then none else some (.opImm .add rd' 2 (BitVec.ofNat 32 imm))
  | 2 => some (.load 4 false rd' rs' off)
  | 6 => some (.store 4 rs' rd' off)
  | _ => none
/-- Quadrant 1. -/
def rvDecodeC1 (w : Nat) : Option Rv :=
  let rd := nbits w 11 7
  let rd' := 8 + nbits w 9 7
  let rs2' := 8 + nbits w 4 2
  let imm6 := nbits w 12 12 * 32 + nbits w 6 2
  let immJ := sext 12 (nbits w 12 12 * 2048 + nbits w 11 11 * 16 + nbits w 10 9 * 256 + nbits w 8 8 * 1024 +
    nbits w 7 7 * 64 + nbits w 6 6 * 128 + nbits w 5 3 * 2 + nbits w 2 2 * 32)
  let immB := sext 9 (nbits w 12 12 * 256 + nbits w 11 10 * 8 + nbits w 6 5 * 64 + nbits w 4 3 * 2 + nbits w 2 2 * 32)
  match nbits w 15 13 with
  | 0 => some (.opImm .add rd rd (sext 6 imm6))
  | 1 => some (.jal 1 immJ)
  | 2 => some (.opImm .add rd 0 (sext 6 imm6))
  | 3 =>
    if rd = 2 then
      let imm := nbits w 12 12 * 512 + nbits w 6 6 * 16 + nbits w 5 5 * 64 + nbits w 4 3 * 128 + nbits w 2 2 * 32
      if imm = 0 then none else some (.opImm .add 2 2 (sext 10 imm))
    else if imm6 = 0 then none
    else some (.lui rd (sext 18 (imm6 * 4096)))
  | 4 => match nbits w 11 10 with
    | 0 => if nbits w 12 12 = 1 then none else some (.opImm .srl rd' rd' (BitVec.ofNat 32 imm6))
    | 1 => if nbits w 12 12 = 1 then none else some (.opImm .sra rd' rd' (BitVec.ofNat 32 imm6))
    | 2 => some (.opImm .and rd' rd' (sext 6 imm6))
    | _ => if nbits w 12 12 = 1 then none else match nbits w 6 5 with
      | 0 => some (.opReg .sub rd' rd' rs2')
      | 1 => some (.opReg .xor rd' rd' rs2')
      | 2 => some (.opReg .or rd' rd' rs2')
      | _ => some (.opReg .and rd' rd' rs2')
  | 5 => some (.jal 0 immJ)
  | 6 => some (.branch .eq rd' 0 immB)
  | _ => some (.branch .ne rd' 0 immB)
/-- Quadrant 2. -/
def rvDecodeC2 (w : Nat) : Option Rv :=
  let rd := nbits w 11 7
  let rs2 := nbits w 6 2
  let b12 := nbits w 12 12
  match nbits w 15 13 with
  | 0 => if b12 = 1 then none else some (.opImm .sll rd rd (BitVec.ofNat 32 rs2))
  | 2 => if rd = 0 then none
    else some (.load 4 false rd 2 (BitVec.ofNat 32 (b12 * 32 + nbits w 6 4 * 4 + nbits w 3 2 * 64)))
  | 4 =>
    if rs2 = 0 then
      if rd = 0 then (if b12 = 1 then some .ebreak else none) else some (.jalr b12 rd 0#32)
    else some (if b12 = 1 then .opReg .add rd rd rs2 else .opReg .add rd 0 rs2)
  | 6 => some (.store 4 2 rs2 (BitVec.ofNat 32 (nbits w 12 9 * 4 + nbits w 8 7 * 64)))
  | _ => none
def rvDecode16 (w : Nat) : Option Rv :=
  match w % 4 with
  | 0 => rvDecodeC0 w
  | 1 => rvDecodeC1 w
  | _ => rvDecodeC2 w

/-! ### Registers and arithmetic -/

/-- x0 reads 0. -/
def Node.x (n : Node) (r : Nat) : Word := if r = 0 then 0#32 else Bank.get 0#32 n.annex.x r
/-- x0 discards what is written. -/
def Node.setX (n : Node) (r : Nat) (v : Word) : Node :=
  if r = 0 then n else { n with annex := { n.annex with x := Bank.set 0#32 n.annex.x r v } }
def Node.setPc (n : Node) (v : Word) : Node := { n with annex := { n.annex with pc := v } }

def Alu.val (op : Alu) (a b : Word) : Word :=
  match op with
  | .add => a + b
  | .sub => a - b
  | .sll => a <<< (b.toNat % 32)
  | .slt => if a.toInt < b.toInt then 1#32 else 0#32
  | .sltu => if a.toNat < b.toNat then 1#32 else 0#32
  | .xor => a ^^^ b
  | .srl => a >>> (b.toNat % 32)
  | .sra => a.sshiftRight (b.toNat % 32)
  | .or => a ||| b
  | .and => a &&& b
  | .mul => a * b
  | .mulh => BitVec.ofInt 32 (a.toInt * b.toInt / 2 ^ 32)
  | .mulhsu => BitVec.ofInt 32 (a.toInt * (b.toNat : Int) / 2 ^ 32)
  | .mulhu => BitVec.ofNat 32 (a.toNat * b.toNat / 2 ^ 32)
  | .div => if b = 0#32 then BitVec.allOnes 32 else BitVec.ofInt 32 (a.toInt.tdiv b.toInt)
  | .divu => if b = 0#32 then BitVec.allOnes 32 else BitVec.ofNat 32 (a.toNat / b.toNat)
  | .rem => if b = 0#32 then a else BitVec.ofInt 32 (a.toInt.tmod b.toInt)
  | .remu => if b = 0#32 then a else BitVec.ofNat 32 (a.toNat % b.toNat)

def Br.holds (op : Br) (a b : Word) : Bool :=
  match op with
  | .eq => a == b
  | .ne => a != b
  | .lt => a.toInt < b.toInt
  | .ge => b.toInt ≤ a.toInt
  | .ltu => a.toNat < b.toNat
  | .geu => b.toNat ≤ a.toNat

/-! ### CSRs (Table 13-1) -/

/-- The CSRs the core implements, by their numbers. -/
def csrKnown (c : Nat) : Bool :=
  [0x301, 0xF11, 0xF12, 0xF13, 0xF14, 0x300, 0x305, 0x341, 0x342, 0x343, 0x340, 0x304, 0x344, 0xB00, 0xB80, 0xB02,
   0xB82].contains c
/-- A CSR as it reads. -/
def Node.csrRead (n : Node) (c : Nat) (m : Moment) : Word :=
  match c with
  | 0x301 => 0x40001104#32
  | 0x300 => Bank.get 0#32 n.annex.csr c ||| 0x1800#32
  | 0xB00 => BitVec.ofNat 32 (n.cycles m)
  | 0xB80 => BitVec.ofNat 32 (n.cycles m / 2 ^ 32)
  | 0xB02 => BitVec.ofNat 32 n.annex.instret
  | 0xB82 => BitVec.ofNat 32 (n.annex.instret / 2 ^ 32)
  | _ => Bank.get 0#32 n.annex.csr c
/-- The bits of a CSR that a write changes: mstatus MIE and MPIE; mtvec without its mode; mepc even. -/
def csrMask (c : Nat) : Word :=
  match c with
  | 0x300 => 0x88#32
  | 0x305 => 0xFFFFFFFC#32
  | 0x341 => 0xFFFFFFFE#32
  | 0x342 => 0xFFFFFFFF#32
  | 0x343 => 0xFFFFFFFF#32
  | 0x340 => 0xFFFFFFFF#32
  | _ => 0#32
def Node.setCsr (n : Node) (c : Nat) (v : Word) : Node :=
  { n with annex := { n.annex with csr := Bank.set 0#32 n.annex.csr c (v &&& csrMask c) } }
def Node.setCycles (n : Node) (v : Nat) (m : Moment) : Node :=
  { n with annex := { n.annex with cyc := v, cycAt := n.mono m } }
/-- The low or high word of a 64-bit counter, replaced. -/
def low32 (c : Nat) (v : Word) : Nat := c / 2 ^ 32 * 2 ^ 32 + v.toNat
def high32 (c : Nat) (v : Word) : Nat := c % 2 ^ 32 + v.toNat * 2 ^ 32
/-- A CSR write; the instruction that writes minstret does not count itself in what it wrote. -/
def Node.csrWrite (n : Node) (c : Nat) (v : Word) (m : Moment) : Node :=
  match c with
  | 0xB00 => n.setCycles (low32 (n.cycles m) v) m
  | 0xB80 => n.setCycles (high32 (n.cycles m) v) m
  | 0xB02 => { n with annex := { n.annex with instret := low32 n.annex.instret v } }
  | 0xB82 => { n with annex := { n.annex with instret := high32 n.annex.instret v } }
  | _ => n.setCsr c v

/-! ### Exceptions (R356) -/

/-- An exception's cause and what mtval gets. -/
abbrev Trap := Nat × Word

/-- A synchronous exception of the instruction at the pc: mepc, mcause and mtval are written and TRAP is set; with TRAP
set already or mtvec 0 it is a double fault. -/
def Node.except (n : Node) (t : Trap) (m : Moment) : Node :=
  let double := n.on Fd.SYS_ASTAT_TRAP || Bank.get 0#32 n.annex.csr 0x305 == 0#32
  let n := ((n.setCsr 0x341 n.annex.pc).setCsr 0x342 (BitVec.ofNat 32 t.1)).setCsr 0x343 t.2
  let n := n.setOn Fd.SYS_ASTAT_TRAP true
  if double then n.annexFault 16 m else n.setPc (Bank.get 0#32 n.annex.csr 0x305)
/-- The core fetches from the TCM only (R364). -/
def inTcm (a : Word) : Bool := region a.toNat == .tcm
/-- An exception whose own fetch at mtvec raises one is a double fault too. -/
def Node.takeTrap (n : Node) (t : Trap) (m : Moment) : Node :=
  let n := n.except t m
  if n.annexRuns && !n.annex.startAt && !inTcm n.annex.pc then n.except (1, n.annex.pc) m else n

/-! ### Fetch -/

/-- The instruction at the pc, its length in bytes and its bits, or the exception its fetch raises. -/
def Node.rvFetch (n : Node) : Except Trap (Option Rv × Nat × Nat) :=
  let pc := n.annex.pc
  let half (a : Word) : Nat := n.memNum a.toNat 2
  if !inTcm pc then .error (1, pc)
  else
    let lo := half pc
    if lo % 4 != 3 then .ok (rvDecode16 lo, 2, lo)
    else if !inTcm (pc + 2#32) then .error (1, pc + 2#32)
    else
      let w := lo + 65536 * half (pc + 2#32)
      .ok (rvDecode32 w, 4, w)

/-! ### Loads and stores (R364, Table 13-4) -/

/-- A load: the node after it and what it read, extended to a word. -/
def Node.rvLoad (n : Node) (a : Word) (sz : Nat) (sign : Bool) (m : Moment) : Except Trap (Node × Word) :=
  let k := a.toNat
  let ext (v : Nat) : Word := if sign then sext (8 * sz) v else BitVec.ofNat 32 v
  if k % sz != 0 then .error (4, a)
  else match region k with
    | .unmapped => .error (5, a)
    | .regs => if sz != 4 then .error (5, a) else
        let n := n.regRead .annex k m
        .ok (n, n.rdata)
    | _ => .ok (n, ext (n.memNum k sz))
/-- A store: the capture ring and the nonvolatile window take none. -/
def Node.rvStore (n : Node) (a : Word) (sz : Nat) (v : Word) (m : Moment) : Except Trap Node :=
  let k := a.toNat
  if k % sz != 0 then .error (6, a)
  else match region k with
    | .unmapped => .error (7, a)
    | .ring => .error (7, a)
    | .nv => .error (7, a)
    | .regs => if sz != 4 then .error (7, a) else .ok (n.regWrite .annex none k v m)
    | _ => .ok (n.memWrite k (bytesLE sz v.toNat))

/-! ### MRET and WFI (R382, R389) -/

/-- MRET: a return from a trap, or a pop of the DIC stack, which enters a waiting source directly. -/
def Node.mret (n : Node) (m : Moment) : Node :=
  let back := Bank.get 0#32 n.annex.csr 0x341
  if n.on Fd.SYS_ASTAT_TRAP then (n.setOn Fd.SYS_ASTAT_TRAP false).setPc back
  else match n.dic.stack with
    | [] => n.setPc back
    | e :: t =>
      let n := { n with dic := { n.dic with stack := t } }.setPc (BitVec.ofNat 32 e.addr)
      match n.acceptable with
      | some k => n.accept k e.addr m
      | none => n
/-- WFI: the core waits, unless what ends the wait holds already. -/
def Node.waitFor (n : Node) : Node := { n with annex := { n.annex with wfi := !n.wfiEnds } }

/-! ### Execution -/

/-- The instruction's effect. The pc already stands at the next instruction; `pc` is the instruction's own address. -/
def Node.rvExec (n : Node) (i : Rv) (pc : Word) (m : Moment) : Except Trap Node :=
  match i with
  | .lui rd imm => .ok (n.setX rd imm)
  | .auipc rd imm => .ok (n.setX rd (pc + imm))
  | .jal rd imm => .ok ((n.setX rd n.annex.pc).setPc (pc + imm))
  | .jalr rd rs1 imm => .ok ((n.setX rd n.annex.pc).setPc ((n.x rs1 + imm) &&& 0xFFFFFFFE#32))
  | .branch op rs1 rs2 imm => .ok (if op.holds (n.x rs1) (n.x rs2) then n.setPc (pc + imm) else n)
  | .load sz sign rd rs1 imm => (n.rvLoad (n.x rs1 + imm) sz sign m).map (fun r => r.1.setX rd r.2)
  | .store sz rs1 rs2 imm => n.rvStore (n.x rs1 + imm) sz (n.x rs2) m
  | .opImm op rd rs1 imm => .ok (n.setX rd (op.val (n.x rs1) imm))
  | .opReg op rd rs1 rs2 => .ok (n.setX rd (op.val (n.x rs1) (n.x rs2)))
  | .fence => .ok n
  | .ecall => .error (11, 0#32)
  | .ebreak => .error (3, if Config.trapVal 3 then pc else 0#32)
  | .mret => .ok (n.mret m)
  | .wfi => .ok n.waitFor
  | .csr op uimm rd src num =>
    let writes : Bool := op == .write || src != 0
    if !csrKnown num || (writes && 0xC00 ≤ num) then .error (2, 0#32)
    else
      let old := n.csrRead num m
      let v := if uimm then BitVec.ofNat 32 src else n.x src
      let new := match op with
        | .write => v
        | .set => old ||| v
        | .clear => old &&& ~~~v
      .ok ((if writes then n.csrWrite num new m else n).setX rd old)

/-- An instruction retires: it counts itself. -/
def Node.retire (n : Node) : Node := { n with annex := { n.annex with instret := (n.annex.instret + 1) % 2 ^ 64 } }

/-- mtval of an illegal instruction: its bits or 0, as the privileged specification leaves it (log entry 2). -/
def illegalVal (w : Nat) : Word := if Config.trapVal 2 then BitVec.ofNat 32 w else 0#32

/-- One instruction, from its fetch to its retirement or its exception. -/
def Node.runInstr (n : Node) (m : Moment) : Node :=
  match n.rvFetch with
  | .error t => n.takeTrap t m
  | .ok (none, _, w) => n.takeTrap (2, illegalVal w) m
  | .ok (some i, len, w) =>
    let pc := n.annex.pc
    match ((n.setPc (pc + BitVec.ofNat 32 len)).retire).rvExec i pc m with
    | .ok n' => n'
    | .error (2, _) => n.takeTrap (2, illegalVal w) m
    | .error t => n.takeTrap t m

/-- The core stands at an instruction boundary, not waiting. -/
def Node.atBoundary (n : Node) : Bool := n.awake && n.annexRuns && !n.annex.startAt && !n.annex.wfi
/-- The next instruction is `i`. -/
def Node.nextIs (n : Node) (i : Rv) : Bool :=
  match n.rvFetch with
  | .ok (some j, _, _) => j == i
  | _ => false

/-- In WFI nothing executes until the wait ends (R389); a source that is accepted ends it by INTERRUPT_ACCEPTANCE. -/
def execAnnexInstruction (m : Moment) (s : State) : Host.Outcome State Fault Refusal :=
  s.lift fun n =>
    if n.atBoundary then n.runInstr m
    else if n.awake && n.annexRuns && !n.annex.startAt && n.wfiEnds && n.acceptable.isNone then
      ({ n with annex := { n.annex with wfi := false } }).runInstr m
    else n
def execMret (m : Moment) (s : State) : Host.Outcome State Fault Refusal :=
  s.lift fun n => if n.atBoundary && n.nextIs .mret then n.runInstr m else n
def execWfi (m : Moment) (s : State) : Host.Outcome State Fault Refusal :=
  s.lift fun n => if n.atBoundary && n.nextIs .wfi then n.runInstr m else n

end Sys2Proof.Machine
end

