-- ==== Sys2Proof/Machine/Stages.lean ====
section
/-! DEFINITION. The beat: its start, its stages S0 to S7, late and overrun helpers, the second boundary, steps of node time,
the units of micro-routines, and the bank supplies (chapters 1 to 3, 11, 16). -/
namespace Sys2Proof.Machine

/-! ### Micro-routines at stage S7 (R43, R44, Table 2-5) -/

/-- Units that one stage S7 may apply. The reseal runs by its own phases. -/
def unitsPerBeat : UnitOp → Nat
  | .set _ _ => 16
  | .act _ _ _ => 16
  | .clear _ => 16
  | .reinit _ => 1
  | .commit => 4
  | .clearGallery => 2
  | .reseal => 0

/-- A unit that has taken effect as a whole. -/
def whole (r : Except Err (Node × List (List Item))) : Except Err (Node × List (List Item) × Bool) :=
  r.map (fun x => (x.1, x.2, true))
/-- A unit that may still wait for its unit to drain. -/
def maybe (x : Node × Bool) : Except Err (Node × List (List Item) × Bool) := .ok (x.1, [], x.2)
/-- A unit that always takes effect. -/
def surely (n : Node) : Except Err (Node × List (List Item) × Bool) := .ok (n, [], true)

/-- One unit of a SET on several indices. -/
def setUnit (o : Obj) (keys : Keys) (u : Nat) (n : Node) : Except Err (Node × List (List Item)) :=
  match o with
  | .uc => setUcUnit keys u n
  | .lo => setLoUnit keys u n
  | .grid => setGridUnit keys u n
  | .trans => setTransUnit keys u n
  | .ap => setApUnit keys u n
  | .ag => setAgUnit keys u n
  | .call => setCallUnit keys u n
  | .arc => setCodeUnit keys u n
  | .bus => setFilterUnit keys u n
  | .gp => setGpUnit keys u n
  | .time => setCaptureUnit keys u n
  | .dic => setDicUnit keys u n
  | _ => .ok (n, [])
/-- One unit of a DO on several indices. -/
def actUnit (o : Obj) (action : String) (keys : Keys) (u : Nat) (n : Node) : Except Err (Node × List (List Item)) :=
  match o with
  | .ap => match action with
    | "ACK" => apAckUnit keys u n
    | "SHELVE" => apShelveUnit keys u n
    | _ => apUnshelveUnit keys u n
  | .ag => match action with
    | "ACK" => agAckUnit keys u n
    | _ => agForesetUnit keys u n
  | .gp => gpToggleUnit u n
  | .time => takeUnit u n
  | .dic => dicActUnit action u n
  | _ => .ok (n, [])
/-- One unit of a REINIT. -/
def reinitUnit (o : Obj) (u : Nat) (n : Node) : Except Err (Node × List (List Item) × Bool) :=
  match o with
  | .uc => surely (n.ucReinit u)
  | .lo => surely (n.loReinit u)
  | .grid => surely n.gridReinit
  | .trans => surely n.transReinit
  | .ap => surely (n.apReinit u)
  | .ag => surely (n.agReinit u)
  | .call => surely n.callReinit
  | .arc => surely n.arcReinit
  | .bus => maybe (n.busReinitUnit u)
  | .gp => surely (n.gpReinit u)
  | .tw => maybe n.twReinitUnit
  | .disp => maybe n.dispReinitUnit
  | .time => surely n.timeReinit
  | .dic => surely n.dicReinit
  | _ => surely n

/-- One unit: what it does, its data lines, and whether it has taken effect. `bad`: words whose writes fail twice. -/
def Node.unitNow (n : Node) (m : Mr) (u : Nat) (bad : List Nat) : Except Err (Node × List (List Item) × Bool) :=
  match m.op with
  | .set o keys => whole (setUnit o keys u n)
  | .act o action keys => whole (actUnit o action keys u n)
  | .clear _ => whole (clearLoUnit u n)
  | .reinit o => reinitUnit o u n
  | .commit => match n.sys.commit with
    | some c => (n.commitUnit c u bad).map (fun n' => (n', [], true))
    | none => refuse 309
  | .clearGallery =>
    let p := 48 + (n.arc.firstClear - 48 + 1 + u) % 192
    if !n.arc.cleared.contains p && (badIn (pageAt p) 16 bad).isSome then refuse 503 else surely (n.clearPage u)
  | .reseal => surely n

/-- The last unit has been applied: the routine's own last lines, and the line that ends its reply. -/
def Node.mrDone (n : Node) (p : Port) (m : Mr) : Node :=
  match m.op with
  | .commit => match n.sys.commit with
    | some c =>
      let n := n.commitEnd c true
      let line : List Item := [.w "SYS", .w "COMMIT", .w "COPY", .n c.target, .w "GEN", .n c.gen, .w "LEN", .n c.len]
      (n.send p m.tag [(.data, line)] false).endMr p .done []
    | none => n.endMr p .done []
  | .clearGallery => n.clearDone.endMr p .done []
  | _ => n.endMr p .done []
/-- Unit `u` has failed: it ends the routine with its error line (R43, R242). `bad`: words whose writes failed twice. -/
def Node.mrFailed (n : Node) (p : Port) (m : Mr) (u : Nat) (bad : List Nat) (e : Err) : Node :=
  let n := match m.op, n.sys.commit with
    | .commit, some c => (n.commitFail c u bad).commitEnd c false
    | .clearGallery, _ => (n.clearFail u bad).setOn Fd.ARC_STAT_CLEARING false
    | _, _ => n
  n.failMr p e

/-- Applies up to `k` units of a port's routine. -/
def Node.mrUnits (n : Node) (p : Port) (bad : List Nat) : Nat → Node
  | 0 => n
  | k + 1 => match (n.port p).mr with
    | none => n
    | some m =>
      if m.paused || n.tick < m.from_ then n
      else match m.units.drop m.pos with
        | [] => n.mrDone p m
        | u :: rest => match n.unitNow m u bad with
          | .error e => n.mrFailed p m u bad e
          | .ok (n', data, done) =>
            if !done then n'
            else
              let n' := n'.setPort p { n'.port p with mr := some { m with pos := m.pos + 1 } }
              let n' := if data.isEmpty then n' else n'.send p m.tag (data.map (fun i => (LineKind.data, i))) false
              if rest.isEmpty then n'.mrDone p m else n'.mrUnits p bad k

/-- The routine of a port at a stage S7: the units of its kind, or those that `cut` leaves (R60). -/
def Node.mrS7 (n : Node) (p : Port) (cut : Option Nat) (bad : List Nat) : Node :=
  match (n.port p).mr with
  | none => n
  | some m =>
    let k := unitsPerBeat m.op
    n.mrUnits p bad (match cut with
      | some c => Nat.min c k
      | none => k)

/-! ### Late helpers and overruns (R59, R60, Table 3-2) -/

/-- Conversions of a beat that the sequencer overran are lost; the window that holds a lost QX conversion is discarded
(R60, R440). -/
def Node.seqLost (n : Node) : Node :=
  let n := match Bank.get Task.idle n.uc.tasks 6 with
    | .raw i _ _ => n.dropWindow i
    | _ => n
  { n with uc := { n.uc with tasks := [] } }
/-- What the overrun of a slot loses, beside its work. The operations that the writer had begun complete across the
boundary. -/
def Node.slotLost (n : Node) (begun k : Nat) : Node :=
  match k with
  | 0 => n.seqLost
  | 1 => { n with grid := { n.grid with lost := true } }
  | 2 => { n with alm := { n.alm with late := none } }
  | 5 => if n.fd Fd.ARC_STAT_STATE = 1 then n.asOfS6 (fun n => n.writerOps n.tm.lateBad (Nat.min begun 8)) else n
  | _ => n

/-- The call lines, and the bits that the hardware owns (R202, R314). -/
def Node.driveLines (n : Node) (lines : Nat) : Node := (n.setFd Fd.CALL_LINES_LINES lines).hwSync
/-- A late helper's work of the beat, done as a whole at the moment it finishes on what stood when its stage began (R59). The
loop outputs use no other helper's values. -/
def Node.lateWork (n : Node) (k : Nat) : Node :=
  match k with
  | 0 => n.ucS3
  | 1 => n.gridS2
  | 2 => n.almLate.busFlush
  | 3 => match n.tm.lateLo with
    | some inp => n.loS5 inp
    | none => n
  | 4 => n.driveLines n.tm.lateLines
  | 5 => (n.asOfS6 (fun n => (n.writer n.tm.lateBad).pwrcycCommit n.tm.lateBad)).busFlush
  | _ => n
/-- The stage window of the moment at which a late helper finishes is that of its records (R27, R220). -/
def execHelperLatePublication (slot : Nat) (m : Moment) (s : State) : Host.Outcome State Fault Refusal :=
  s.lift fun n =>
    if n.awake && n.tm.lateWork.contains slot && (n.working || slot = 5) then
      let n := { n with tm := { n.tm with lateWin := some (windowOf m) } }.lateWork slot
      { n with tm := { n.tm with lateWin := none } }.latePublished slot
    else n

/-! ### The beat (R16, R17, R58) -/

def execBeatStart (b : Boundary) (s : State) : Host.Outcome State Fault Refusal :=
  s.lift fun n =>
    if !n.awake then n
    else
      let n := n.tm.lateWork.foldl (fun (n : Node) (k : Nat) => n.slotLost b.begun k) n
      let n := n.overruns
      let began := n.tm.t0
      let n := n.beatAdvance.setOn Fd.BEAT_STATUS_ADJNOW false
      let n := (if n.working then n.transBeat began b.hf else n).almBeat
      ((n.dispBeat.annexBegin).annexTell).annexFlush

/-- Supplies as the node measures them, its sensor-bus lines, and, while the helpers work, the conversions and the
sampling of the beat. In POWERFAIL no conversion starts (R414). -/
def execStageS0 (inp : S0In) (s : State) : Host.Outcome State Fault Refusal :=
  s.lift fun n =>
    if !n.awake then n
    else
      let n := n.setFds [(Fd.SYS_VSYS_MV, inp.vsys), (Fd.SYS_HOLD_MV, inp.hold)]
      let n := (inp.rails.zipIdx).foldl (fun (n : Node) (x : Int × Nat) => n.railMv x.2 x.1) n
      let n := n.twS0 inp
      if !n.working then n
      else
        let n := (n.ucS0 inp).loS0
        { n with tm := { n.tm with watchStep := false } }.gridS0

def execStageS1 (codes : List (List Int)) (s : State) : Host.Outcome State Fault Refusal :=
  s.lift fun n =>
    if n.awake && n.working then
      let lost := n.grid.lost
      { n with grid := { n.grid with lost := false } }.gridFold (if lost then none else some codes)
    else n

def execStageS2 (late : List Nat) (s : State) : Host.Outcome State Fault Refusal :=
  s.lift fun n =>
    if !(n.awake && n.working) then n else if late.contains 1 then n.markLate 1 else n.gridS2

def execStageS3 (late : List Nat) (s : State) : Host.Outcome State Fault Refusal :=
  s.lift fun n =>
    if !(n.awake && n.working) then n else if late.contains 0 then n.markLate 0 else n.ucS3

/-- A late alarm engine uses what stands now (R19, R59). -/
def Node.almHold (n : Node) : Node :=
  let seen := n.seeing
  { n.markLate 2 with alm := { n.alm with late := some seen } }
def execStageS4 (late : List Nat) (s : State) : Host.Outcome State Fault Refusal :=
  s.lift fun n =>
    if !(n.awake && n.working) then n else if late.contains 2 then n.almHold else n.almS4.busFlush

/-- The loop outputs at a stage S5 in POWERFAIL. -/
def Node.loFailing (n : Node) : Node :=
  let n := if n.sys.pfLo then n else n.loPowerFail
  let n := (List.range 8).foldl (fun (n : Node) (i : Nat) => (n.loDrive i).loZeroOff i) n
  { n with sys := { n.sys with pfLo := true } }
/-- A late loop-output controller keeps what its check converter delivered. -/
def Node.loLate (n : Node) (lo : LoIn) : Node :=
  let n := n.markLate 3
  { n with tm := { n.tm with lateLo := some lo } }
/-- A late GPIO helper drives the lines as they stand now. -/
def Node.linesLate (n : Node) : Node :=
  let lines := n.linesNow
  let n := n.markLate 4
  { n with tm := { n.tm with lateLines := lines } }
/-- In POWERFAIL the first stage S5 begins PFACT, and each goes on with the drive alone (R141, R414). -/
def execStageS5 (late : List Nat) (lo : LoIn) (s : State) : Host.Outcome State Fault Refusal :=
  s.lift fun n =>
    if n.sys.power = .powerfail then
      if n.sys.phase = .loaded && late.contains 3 then n else n.loFailing
    else if !(n.awake && n.working) then n
    else
      let n := if late.contains 3 then n.loLate lo else n.loS5 lo
      let n := n.almS5
      if late.contains 4 then n.linesLate else n.driveLines n.linesNow

def execStageS6 (late nvBad : List Nat) (s : State) : Host.Outcome State Fault Refusal :=
  s.lift fun n =>
    if !n.awake then n
    else
      let n := (if n.working then n.transS6 else n).intakeStaged
      let n := { n with tm := { n.tm with lateBad := nvBad } }
      if late.contains 5 && n.sys.power != .powerfail then n.markLate 5 else ((n.writer nvBad).pwrcycCommit nvBad).busFlush

/-- Stage S7 in a node core that runs (FULL or QUIET): sources that have become deliverable are told, waiting function
changes and panel loads apply, acknowledgements and the units of micro-routines take effect, the request line is copied,
lines that fail are answered, and a DORMANT entry goes on. `cut`: see the row; in a beat of less than 20 µs a unit that
does not fit waits, and no overrun is counted (R89). -/
def execStageS7 (cut : Option Nat) (nvBad : List Nat) (s : State) : Host.Outcome State Fault Refusal :=
  s.lift fun n =>
    if !n.awake || n.sys.power = .powerfail then n
    else
      let n := n.irqNotices.gpS7.dispS7.almS7
      let n := if n.lively then allPorts.foldl (fun (n : Node) (p : Port) => n.mrS7 p cut nvBad) n else n
      let n := if cut.isSome && 80000 ≤ n.tm.t1 - n.tm.t0 then n.markLate 6 else n
      let n := n.reqCopy 70000
      let n := allPorts.foldl (fun (n : Node) (p : Port) => n.serve p 6) n
      n.sleepStep.annexFlush.busFlush

/-! ### The second boundary and steps (R63, R73, R78) -/

/-- The second pulse rises, and call lines in PULSE mode begin their first half second (R78, R202). -/
def Node.pulseUp (n : Node) (m : Moment) : Node :=
  { n with tm := { n.tm with pulse := true, pulseAt := n.mono m }, alm := { n.alm with pulse := true } }
/-- The work of a second boundary that lies at a moment of the beat (R61, R63, R67, R295). -/
def Node.secondWork (n : Node) (m : Moment) : Node :=
  let n := { n with tm := { n.tm with secDue := n.tm.secDue - 1 } }.ring 208
  ((((n.overrunRecord m).leapBoundary m).holdoverEst m).sourceBoundary m).markSecond m
/-- The work of a second boundary that lies in the present beat. In POWERFAIL the pads hold (R326). -/
def execNodeTimeSecond (s : State) : Host.Outcome State Fault Refusal :=
  s.lift fun n =>
    if !n.awake || n.tm.secDue = 0 then n
    else if n.sys.power = .powerfail then n.secondWork n.secMoment
    else (n.secondWork n.secMoment).pulseUp n.secMoment

/-- PULSEW in quarter-nanoseconds. -/
def Node.pulseTime (n : Node) : Nat := n.fd Fd.TIME_PPSCFG_PULSEW * 4000000
def execSecondPulseEnd (m : Moment) (s : State) : Host.Outcome State Fault Refusal :=
  s.lift fun n =>
    if n.awake && n.sys.power != .powerfail && n.tm.pulse && n.tm.pulseAt + n.pulseTime ≤ n.mono m then
      { n with tm := { n.tm with pulse := false } }
    else n

/-- In POWERFAIL node time makes no step (R434). -/
def execTimeStep (s : State) : Host.Outcome State Fault Refusal :=
  s.lift fun n =>
    if !n.awake || n.sys.power = .powerfail then n
    else
      let r := n.timeStep
      if r.2 then (r.1.gridStep n.tm.t0 r.1.tm.t0).transStep ((r.1.tm.t0 : Int) - (n.tm.t0 : Int)) else r.1

/-! ### Bank supplies (R307, R462, R468) -/

/-- A bank that becomes ABSENT: the panel rails fall (B); a character that HOST or SERVICE is sending is lost (A). -/
def Node.bankGone (n : Node) (b : Nat) (m : Moment) : Node :=
  if b = 0 then [Port.host, Port.service].foldl (fun (n : Node) (p : Port) =>
    if (n.port p).out.isEmpty then n else n.charGone p) n
  else n.dispBankB m
/-- The class a bank is found in while the node is off or held in reset: no record and no event (log entry 61). -/
def Node.bankFound (n : Node) (b cls levels : Nat) : Node :=
  let n := n.setFd (if b = 0 then Fd.GP_BANK_A else Fd.GP_BANK_B) cls
  (List.range 24).foldl (fun (n : Node) (k : Nat) => n.setOn (inFd (24 * b + k)) (cls != 0 && levels.testBit k)) n
def execBankClassChange (b cls levels : Nat) (m : Moment) (s : State) : Host.Outcome State Fault Refusal :=
  s.lift fun n =>
    if 1 < b || 2 < cls || n.bank b = cls then n
    else if n.sys.power = .off || n.sys.phase = .por then n.bankFound b cls levels
    else
      let n := if cls = 0 then n.bankGone b m else n
      n.bankTo b cls levels m

end Sys2Proof.Machine
end

