-- ==== Sys2Proof/Machine/Dispatch.lean ====
section
/-! DEFINITION. One arm for each command and event: a direct call of its meaning. -/
namespace Sys2Proof.Machine

def exec (i : Instr) (s : State) : Host.Outcome State Fault Refusal :=
  match i with
  | .registerWrite rq a v c => Sys2Proof.Machine.execRegisterWrite rq a v c s
  | .readClearRead rq a c => Sys2Proof.Machine.execReadClearRead rq a c s
  | .getSysDevid l => Sys2Proof.Machine.execGetSysDevid l s
  | .getSysUid l => Sys2Proof.Machine.execGetSysUid l s
  | .getSysRomver l => Sys2Proof.Machine.execGetSysRomver l s
  | .showNode l => Sys2Proof.Machine.execShowNode l s
  | .beatStart b => Sys2Proof.Machine.execBeatStart b s
  | .stageS0 inp => Sys2Proof.Machine.execStageS0 inp s
  | .stageS1 codes => Sys2Proof.Machine.execStageS1 codes s
  | .stageS2 late => Sys2Proof.Machine.execStageS2 late s
  | .stageS3 late => Sys2Proof.Machine.execStageS3 late s
  | .stageS4 late => Sys2Proof.Machine.execStageS4 late s
  | .stageS5 late lo => Sys2Proof.Machine.execStageS5 late lo s
  | .stageS6 late nvBad => Sys2Proof.Machine.execStageS6 late nvBad s
  | .stageS7 cut nvBad => Sys2Proof.Machine.execStageS7 cut nvBad s
  | .helperLatePublication slot m => Sys2Proof.Machine.execHelperLatePublication slot m s
  | .nodeTimeSecond => Sys2Proof.Machine.execNodeTimeSecond s
  | .secondPulseEnd m => Sys2Proof.Machine.execSecondPulseEnd m s
  | .characterReceived p ch m => Sys2Proof.Machine.execCharacterReceived p ch m s
  | .hostDeTurnaround m => Sys2Proof.Machine.execHostDeTurnaround m s
  | .lineReceived p cs m => Sys2Proof.Machine.execLineReceived p cs m s
  | .typedHelpQuery p => Sys2Proof.Machine.execTypedHelpQuery p s
  | .storedReplyResend p => Sys2Proof.Machine.execStoredReplyResend p s
  | .storedReplyExpiry p => Sys2Proof.Machine.execStoredReplyExpiry p s
  | .lostNotice p => Sys2Proof.Machine.execLostNotice p s
  | .streamEmit p o k => Sys2Proof.Machine.execStreamEmit p o k s
  | .microRoutineResume p => Sys2Proof.Machine.execMicroRoutineResume p s
  | .confirmationExpiry p => Sys2Proof.Machine.execConfirmationExpiry p s
  | .hold l o => Sys2Proof.Machine.execHold l o s
  | .free l o => Sys2Proof.Machine.execFree l o s
  | .leaseTimeExpiry p o idx => Sys2Proof.Machine.execLeaseTimeExpiry p o idx s
  | .leaseSilenceExpiry p o idx => Sys2Proof.Machine.execLeaseSilenceExpiry p o idx s
  | .hostHeartbeatExpiry m => Sys2Proof.Machine.execHostHeartbeatExpiry m s
  | .regRead l reg => Sys2Proof.Machine.execRegRead l reg s
  | .regFieldRead l reg fld => Sys2Proof.Machine.execRegFieldRead l reg fld s
  | .regWrite l reg => Sys2Proof.Machine.execRegWrite l reg s
  | .regFieldWrite l reg fld => Sys2Proof.Machine.execRegFieldWrite l reg fld s
  | .peek l a => Sys2Proof.Machine.execPeek l a s
  | .poke l a => Sys2Proof.Machine.execPoke l a s
  | .setSys l => Sys2Proof.Machine.execSetSys l s
  | .getSys l names => Sys2Proof.Machine.execGetSys l names s
  | .portSettingsTakeEffect p => Sys2Proof.Machine.execPortSettingsTakeEffect p s
  | .showSysLease l => Sys2Proof.Machine.execShowSysLease l s
  | .showSysMr l => Sys2Proof.Machine.execShowSysMr l s
  | .showSysPort l => Sys2Proof.Machine.execShowSysPort l s
  | .help l word => Sys2Proof.Machine.execHelp l word s
  | .doSysReinitPort l => Sys2Proof.Machine.execDoSysReinitPort l s
  | .doNodeReset l => Sys2Proof.Machine.execDoNodeReset l s
  | .nodeResetDrainEnd => Sys2Proof.Machine.execNodeResetDrainEnd s
  | .ppsEdge rise widthNs m => Sys2Proof.Machine.execPpsEdge rise widthNs m s
  | .ppsEdgeMissing m => Sys2Proof.Machine.execPpsEdgeMissing m s
  | .irigFrame label dist cellsOk m => Sys2Proof.Machine.execIrigFrame label dist cellsOk m s
  | .finutInvalid m => Sys2Proof.Machine.execFinutInvalid m s
  | .timeStep => Sys2Proof.Machine.execTimeStep s
  | .coarseTimeout m => Sys2Proof.Machine.execCoarseTimeout m s
  | .referenceLoss m => Sys2Proof.Machine.execReferenceLoss m s
  | .edgeCapture sel rise m => Sys2Proof.Machine.execEdgeCapture sel rise m s
  | .setTime l => Sys2Proof.Machine.execSetTime l s
  | .doTimeSet l => Sys2Proof.Machine.execDoTimeSet l s
  | .getTime l => Sys2Proof.Machine.execGetTime l s
  | .setTimeCapture l => Sys2Proof.Machine.execSetTimeCapture l s
  | .doTimeTake l => Sys2Proof.Machine.execDoTimeTake l s
  | .capturePop rq v => Sys2Proof.Machine.execCapturePop rq v s
  | .showBeat l => Sys2Proof.Machine.execShowBeat l s
  | .clearBeat l => Sys2Proof.Machine.execClearBeat l s
  | .overrunClear rq v => Sys2Proof.Machine.execOverrunClear rq v s
  | .watchTime l => Sys2Proof.Machine.execWatchTime l s
  | .watchBeat l => Sys2Proof.Machine.execWatchBeat l s
  | .doTimeReinit l => Sys2Proof.Machine.execDoTimeReinit l s
  | .timeQnsRead rq m => Sys2Proof.Machine.execTimeQnsRead rq m s
  | .crossbarSwitch => Sys2Proof.Machine.execCrossbarSwitch s
  | .quadMigrated => Sys2Proof.Machine.execQuadMigrated s
  | .quadRestored => Sys2Proof.Machine.execQuadRestored s
  | .channelStale k => Sys2Proof.Machine.execChannelStale k s
  | .diDebounce k => Sys2Proof.Machine.execDiDebounce k s
  | .ucDrainComplete k => Sys2Proof.Machine.execUcDrainComplete k s
  | .setUc l => Sys2Proof.Machine.execSetUc l s
  | .getUc l => Sys2Proof.Machine.execGetUc l s
  | .showUc l => Sys2Proof.Machine.execShowUc l s
  | .showUcQuad l => Sys2Proof.Machine.execShowUcQuad l s
  | .doUcQuadFail l => Sys2Proof.Machine.execDoUcQuadFail l s
  | .doUcQuadRestore l => Sys2Proof.Machine.execDoUcQuadRestore l s
  | .setUcCtab l => Sys2Proof.Machine.execSetUcCtab l s
  | .watchUc l => Sys2Proof.Machine.execWatchUc l s
  | .streamUc l => Sys2Proof.Machine.execStreamUc l s
  | .doUcReinit l => Sys2Proof.Machine.execDoUcReinit l s
  | .ucValRead rq k => Sys2Proof.Machine.execUcValRead rq k s
  | .thermalFoldback k => Sys2Proof.Machine.execThermalFoldback k s
  | .thermalRelease k => Sys2Proof.Machine.execThermalRelease k s
  | .loActionEnd k => Sys2Proof.Machine.execLoActionEnd k s
  | .loDrainComplete k => Sys2Proof.Machine.execLoDrainComplete k s
  | .setLo l => Sys2Proof.Machine.execSetLo l s
  | .getLo l => Sys2Proof.Machine.execGetLo l s
  | .showLo l => Sys2Proof.Machine.execShowLo l s
  | .showLoCheck l => Sys2Proof.Machine.execShowLoCheck l s
  | .watchLo l => Sys2Proof.Machine.execWatchLo l s
  | .streamLo l => Sys2Proof.Machine.execStreamLo l s
  | .clearLo l => Sys2Proof.Machine.execClearLo l s
  | .doLoReinit l => Sys2Proof.Machine.execDoLoReinit l s
  | .loRbRead rq k => Sys2Proof.Machine.execLoRbRead rq k s
  | .comparatorFiring k m pos => Sys2Proof.Machine.execComparatorFiring k m pos s
  | .postTriggerFillComplete m hf => Sys2Proof.Machine.execPostTriggerFillComplete m hf s
  | .autoarmExpiry m => Sys2Proof.Machine.execAutoarmExpiry m s
  | .setGrid l => Sys2Proof.Machine.execSetGrid l s
  | .getGrid l => Sys2Proof.Machine.execGetGrid l s
  | .showGrid l => Sys2Proof.Machine.execShowGrid l s
  | .streamGrid l => Sys2Proof.Machine.execStreamGrid l s
  | .doGridReinit l => Sys2Proof.Machine.execDoGridReinit l s
  | .setTrans l => Sys2Proof.Machine.execSetTrans l s
  | .doTransArm l => Sys2Proof.Machine.execDoTransArm l s
  | .doTransDisarm l => Sys2Proof.Machine.execDoTransDisarm l s
  | .transCtrlArm v => Sys2Proof.Machine.execTransCtrlArm v s
  | .transCtrlDisarm v => Sys2Proof.Machine.execTransCtrlDisarm v s
  | .getTrans l => Sys2Proof.Machine.execGetTrans l s
  | .showTrans l => Sys2Proof.Machine.execShowTrans l s
  | .watchTrans l => Sys2Proof.Machine.execWatchTrans l s
  | .doTransDump l => Sys2Proof.Machine.execDoTransDump l s
  | .doTransReinit l => Sys2Proof.Machine.execDoTransReinit l s
  | .gridRepsecRead rq => Sys2Proof.Machine.execGridRepsecRead rq s
  | .onDelayExpiry k => Sys2Proof.Machine.execOnDelayExpiry k s
  | .offDelayExpiry k => Sys2Proof.Machine.execOffDelayExpiry k s
  | .blockRelease g => Sys2Proof.Machine.execBlockRelease g s
  | .shelvingExpiry k => Sys2Proof.Machine.execShelvingExpiry k s
  | .ackPin g => Sys2Proof.Machine.execAckPin g s
  | .ackFrame f => Sys2Proof.Machine.execAckFrame f s
  | .callEscalation g => Sys2Proof.Machine.execCallEscalation g s
  | .callPulseEnd m => Sys2Proof.Machine.execCallPulseEnd m s
  | .callFrameRepeat g => Sys2Proof.Machine.execCallFrameRepeat g s
  | .peerValueAge k => Sys2Proof.Machine.execPeerValueAge k s
  | .setAp l => Sys2Proof.Machine.execSetAp l s
  | .setApEngine l => Sys2Proof.Machine.execSetApEngine l s
  | .setAg l => Sys2Proof.Machine.execSetAg l s
  | .setCall l => Sys2Proof.Machine.execSetCall l s
  | .setCallLine l => Sys2Proof.Machine.execSetCallLine l s
  | .getAp l => Sys2Proof.Machine.execGetAp l s
  | .getAg l => Sys2Proof.Machine.execGetAg l s
  | .getCall l => Sys2Proof.Machine.execGetCall l s
  | .showAp l => Sys2Proof.Machine.execShowAp l s
  | .showAg l => Sys2Proof.Machine.execShowAg l s
  | .showCall l => Sys2Proof.Machine.execShowCall l s
  | .doApAck l => Sys2Proof.Machine.execDoApAck l s
  | .doAgAck l => Sys2Proof.Machine.execDoAgAck l s
  | .almAckWrite v => Sys2Proof.Machine.execAlmAckWrite v s
  | .doApShelve l => Sys2Proof.Machine.execDoApShelve l s
  | .doApUnshelve l => Sys2Proof.Machine.execDoApUnshelve l s
  | .doAgForeset l => Sys2Proof.Machine.execDoAgForeset l s
  | .watchAp l => Sys2Proof.Machine.execWatchAp l s
  | .doApReinit l => Sys2Proof.Machine.execDoApReinit l s
  | .doAgReinit l => Sys2Proof.Machine.execDoAgReinit l s
  | .doCallReinit l => Sys2Proof.Machine.execDoCallReinit l s
  | .tokenGain c => Sys2Proof.Machine.execTokenGain c s
  | .checkpoint => Sys2Proof.Machine.execCheckpoint s
  | .arcFind rq acc => Sys2Proof.Machine.execArcFind rq acc s
  | .arcFindDone rq => Sys2Proof.Machine.execArcFindDone rq s
  | .arcCodeWrite rq c v => Sys2Proof.Machine.execArcCodeWrite rq c v s
  | .arcOpmsloRead rq => Sys2Proof.Machine.execArcOpmsloRead rq s
  | .setArc l => Sys2Proof.Machine.execSetArc l s
  | .setArcCode l => Sys2Proof.Machine.execSetArcCode l s
  | .getArc l => Sys2Proof.Machine.execGetArc l s
  | .showArc l => Sys2Proof.Machine.execShowArc l s
  | .showArcCode l => Sys2Proof.Machine.execShowArcCode l s
  | .doArcLog l => Sys2Proof.Machine.execDoArcLog l s
  | .watchArc l => Sys2Proof.Machine.execWatchArc l s
  | .clearArcGallery l => Sys2Proof.Machine.execClearArcGallery l s
  | .doArcReseal l => Sys2Proof.Machine.execDoArcReseal l s
  | .resealPhase nvBad => Sys2Proof.Machine.execResealPhase nvBad s
  | .doArcReinit l => Sys2Proof.Machine.execDoArcReinit l s
  | .frameConfirmed p f sofQ edges m => Sys2Proof.Machine.execFrameConfirmed p f sofQ edges m s
  | .earlyMatch p f len bytes sofQ m => Sys2Proof.Machine.execEarlyMatch p f len bytes sofQ m s
  | .frameError p afterBrs special m => Sys2Proof.Machine.execFrameError p afterBrs special m s
  | .arbitrationLost p m => Sys2Proof.Machine.execArbitrationLost p m s
  | .frameSent p m => Sys2Proof.Machine.execFrameSent p m s
  | .busOffRecovery p m => Sys2Proof.Machine.execBusOffRecovery p m s
  | .gatePulseEnd p g m => Sys2Proof.Machine.execGatePulseEnd p g m s
  | .caravanGapTimeout p m => Sys2Proof.Machine.execCaravanGapTimeout p m s
  | .doorbellFrame p f => Sys2Proof.Machine.execDoorbellFrame p f s
  | .valueFrame f => Sys2Proof.Machine.execValueFrame f s
  | .valuePublish v => Sys2Proof.Machine.execValuePublish v s
  | .tunnelTimeout c => Sys2Proof.Machine.execTunnelTimeout c s
  | .busPortOff p m => Sys2Proof.Machine.execBusPortOff p m s
  | .setBusPort l => Sys2Proof.Machine.execSetBusPort l s
  | .setBusFilter l => Sys2Proof.Machine.execSetBusFilter l s
  | .setBusGate l => Sys2Proof.Machine.execSetBusGate l s
  | .setBusVal l => Sys2Proof.Machine.execSetBusVal l s
  | .setBusAlmto l => Sys2Proof.Machine.execSetBusAlmto l s
  | .getBus l => Sys2Proof.Machine.execGetBus l s
  | .showBus l => Sys2Proof.Machine.execShowBus l s
  | .showBusTrim l => Sys2Proof.Machine.execShowBusTrim l s
  | .doBusSend l => Sys2Proof.Machine.execDoBusSend l s
  | .doBusAbort l => Sys2Proof.Machine.execDoBusAbort l s
  | .doBusTunnel l => Sys2Proof.Machine.execDoBusTunnel l s
  | .doBusGateReset l => Sys2Proof.Machine.execDoBusGateReset l s
  | .doBusTrimclr l => Sys2Proof.Machine.execDoBusTrimclr l s
  | .setBusTrimlock l => Sys2Proof.Machine.execSetBusTrimlock l s
  | .watchBus l => Sys2Proof.Machine.execWatchBus l s
  | .doBusReinit l => Sys2Proof.Machine.execDoBusReinit l s
  | .mailboxReq p k => Sys2Proof.Machine.execMailboxReq p k s
  | .mailboxAbort p k => Sys2Proof.Machine.execMailboxAbort p k s
  | .fifoPop p v => Sys2Proof.Machine.execFifoPop p v s
  | .caravanRelease p v => Sys2Proof.Machine.execCaravanRelease p v s
  | .earlyViewRelease p v => Sys2Proof.Machine.execEarlyViewRelease p v s
  | .gateResetWrite p g v => Sys2Proof.Machine.execGateResetWrite p g v s
  | .doSurveyStart l => Sys2Proof.Machine.execDoSurveyStart l s
  | .begin p f sofQ m => Sys2Proof.Machine.execBegin p f sofQ m s
  | .query p f sofQ m => Sys2Proof.Machine.execQuery p f sofQ m s
  | .bid p f sofQ m => Sys2Proof.Machine.execBid p f sofQ m s
  | .bidWindowExpiry p m => Sys2Proof.Machine.execBidWindowExpiry p m s
  | .assign p f sofQ m => Sys2Proof.Machine.execAssign p f sofQ m s
  | .assigned p f sofQ m => Sys2Proof.Machine.execAssigned p f sofQ m s
  | .ping p f sofQ m => Sys2Proof.Machine.execPing p f sofQ m s
  | .pong p f sofQ m => Sys2Proof.Machine.execPong p f sofQ m s
  | .pongFollowUp p f sofQ m => Sys2Proof.Machine.execPongFollowUp p f sofQ m s
  | .delay p f sofQ m => Sys2Proof.Machine.execDelay p f sofQ m s
  | .surveyEnd p f sofQ m => Sys2Proof.Machine.execSurveyEnd p f sofQ m s
  | .announce p f sofQ m => Sys2Proof.Machine.execAnnounce p f sofQ m s
  | .surveyMemberTimeout p m => Sys2Proof.Machine.execSurveyMemberTimeout p m s
  | .listenEnd p => Sys2Proof.Machine.execListenEnd p s
  | .markRequest p m => Sys2Proof.Machine.execMarkRequest p m s
  | .markAbandon p m => Sys2Proof.Machine.execMarkAbandon p m s
  | .majorMark p f sofQ m => Sys2Proof.Machine.execMajorMark p f sofQ m s
  | .minorMark p f sofQ m => Sys2Proof.Machine.execMinorMark p f sofQ m s
  | .markFollowUp p f sofQ m => Sys2Proof.Machine.execMarkFollowUp p f sofQ m s
  | .followUpTimeout p m => Sys2Proof.Machine.execFollowUpTimeout p m s
  | .tportFallback m => Sys2Proof.Machine.execTportFallback m s
  | .pairPortSilent p m => Sys2Proof.Machine.execPairPortSilent p m s
  | .doSurveyAbort l => Sys2Proof.Machine.execDoSurveyAbort l s
  | .setSurvey l => Sys2Proof.Machine.execSetSurvey l s
  | .setBusLink l => Sys2Proof.Machine.execSetBusLink l s
  | .showSurvey l => Sys2Proof.Machine.execShowSurvey l s
  | .showSurveyMap l => Sys2Proof.Machine.execShowSurveyMap l s
  | .showBusMark l => Sys2Proof.Machine.execShowBusMark l s
  | .showBusDelay l => Sys2Proof.Machine.execShowBusDelay l s
  | .getBusLink l => Sys2Proof.Machine.execGetBusLink l s
  | .doBusSleep l => Sys2Proof.Machine.execDoBusSleep l s
  | .portSleep p m => Sys2Proof.Machine.execPortSleep p m s
  | .wakePattern p => Sys2Proof.Machine.execWakePattern p s
  | .wakeFrame p f => Sys2Proof.Machine.execWakeFrame p f s
  | .portWake p m => Sys2Proof.Machine.execPortWake p m s
  | .doBusWake l => Sys2Proof.Machine.execDoBusWake l s
  | .doBusWakeup l => Sys2Proof.Machine.execDoBusWakeup l s
  | .pinEdge k level m => Sys2Proof.Machine.execPinEdge k level m s
  | .bankClassChange b cls levels m => Sys2Proof.Machine.execBankClassChange b cls levels m s
  | .lifeToggle served => Sys2Proof.Machine.execLifeToggle served s
  | .gpoutWrite rq k v => Sys2Proof.Machine.execGpoutWrite rq k v s
  | .hwrefresh rq v => Sys2Proof.Machine.execHwrefresh rq v s
  | .gplockWrite rq v m => Sys2Proof.Machine.execGplockWrite rq v m s
  | .setGp l => Sys2Proof.Machine.execSetGp l s
  | .setGpMask l => Sys2Proof.Machine.execSetGpMask l s
  | .doGpToggle l => Sys2Proof.Machine.execDoGpToggle l s
  | .getGp l => Sys2Proof.Machine.execGetGp l s
  | .getGpBank l => Sys2Proof.Machine.execGetGpBank l s
  | .showGp l => Sys2Proof.Machine.execShowGp l s
  | .doGpLock l => Sys2Proof.Machine.execDoGpLock l s
  | .watchGp l => Sys2Proof.Machine.execWatchGp l s
  | .watchGpBank l => Sys2Proof.Machine.execWatchGpBank l s
  | .doGpReinit l => Sys2Proof.Machine.execDoGpReinit l s
  | .setTw l => Sys2Proof.Machine.execSetTw l s
  | .doTwWrite l => Sys2Proof.Machine.execDoTwWrite l s
  | .doTwRead l => Sys2Proof.Machine.execDoTwRead l s
  | .doTwClear l => Sys2Proof.Machine.execDoTwClear l s
  | .getTw l => Sys2Proof.Machine.execGetTw l s
  | .clearTw l => Sys2Proof.Machine.execClearTw l s
  | .doTwReinit l => Sys2Proof.Machine.execDoTwReinit l s
  | .twCmdStart rq v m => Sys2Proof.Machine.execTwCmdStart rq v m s
  | .twCmdClear rq v m => Sys2Proof.Machine.execTwCmdClear rq v m s
  | .twTransferEnd res bytes m => Sys2Proof.Machine.execTwTransferEnd res bytes m s
  | .twClockStretchTimeout bytes m => Sys2Proof.Machine.execTwClockStretchTimeout bytes m s
  | .twBusClearEnd clocks freed m => Sys2Proof.Machine.execTwBusClearEnd clocks freed m s
  | .twDrained bytes m => Sys2Proof.Machine.execTwDrained bytes m s
  | .doDispUpdate l => Sys2Proof.Machine.execDoDispUpdate l s
  | .snapshotEnd m => Sys2Proof.Machine.execSnapshotEnd m s
  | .railPowerUpStep mv m => Sys2Proof.Machine.execRailPowerUpStep mv m s
  | .dispFrameStart m => Sys2Proof.Machine.execDispFrameStart m s
  | .railPowerDownStep mv m => Sys2Proof.Machine.execRailPowerDownStep mv m s
  | .railFault k mv m => Sys2Proof.Machine.execRailFault k mv m s
  | .railholdExpiry m => Sys2Proof.Machine.execRailholdExpiry m s
  | .displayUndervoltage m => Sys2Proof.Machine.execDisplayUndervoltage m s
  | .fastDischargeStep m => Sys2Proof.Machine.execFastDischargeStep m s
  | .doDispLoad l => Sys2Proof.Machine.execDoDispLoad l s
  | .setDisp l => Sys2Proof.Machine.execSetDisp l s
  | .setDispWaveLen l => Sys2Proof.Machine.execSetDispWaveLen l s
  | .setDispWaveData l => Sys2Proof.Machine.execSetDispWaveData l s
  | .doDispRails l => Sys2Proof.Machine.execDoDispRails l s
  | .setDispCom l => Sys2Proof.Machine.execSetDispCom l s
  | .getDisp l => Sys2Proof.Machine.execGetDisp l s
  | .showDisp l => Sys2Proof.Machine.execShowDisp l s
  | .showDispWave l => Sys2Proof.Machine.execShowDispWave l s
  | .watchDisp l => Sys2Proof.Machine.execWatchDisp l s
  | .doDispReinit l => Sys2Proof.Machine.execDoDispReinit l s
  | .dispCmdUpdate rq v m => Sys2Proof.Machine.execDispCmdUpdate rq v m s
  | .dispCmdRailsOn rq v m => Sys2Proof.Machine.execDispCmdRailsOn rq v m s
  | .dispCmdRailsOff rq v m => Sys2Proof.Machine.execDispCmdRailsOff rq v m s
  | .lcdCommit rq v => Sys2Proof.Machine.execLcdCommit rq v s
  | .lcdFrameStart m => Sys2Proof.Machine.execLcdFrameStart m s
  | .annexInstruction m => Sys2Proof.Machine.execAnnexInstruction m s
  | .mret m => Sys2Proof.Machine.execMret m s
  | .wfi m => Sys2Proof.Machine.execWfi m s
  | .annexWatchdogExpiry m => Sys2Proof.Machine.execAnnexWatchdogExpiry m s
  | .awdserveWrite rq v m => Sys2Proof.Machine.execAwdserveWrite rq v m s
  | .doNodeLoad l => Sys2Proof.Machine.execDoNodeLoad l s
  | .doNodeStart l => Sys2Proof.Machine.execDoNodeStart l s
  | .doNodeStop l => Sys2Proof.Machine.execDoNodeStop l s
  | .setNode l => Sys2Proof.Machine.execSetNode l s
  | .showNodeAnnex l => Sys2Proof.Machine.execShowNodeAnnex l s
  | .watchNode l => Sys2Proof.Machine.execWatchNode l s
  | .annexBootReadEnd image m => Sys2Proof.Machine.execAnnexBootReadEnd image m s
  | .mailboxGo rq v m => Sys2Proof.Machine.execMailboxGo rq v m s
  | .rxrdWrite rq v => Sys2Proof.Machine.execRxrdWrite rq v s
  | .rxcfgEnable rq v => Sys2Proof.Machine.execRxcfgEnable rq v s
  | .doorbellWrite rq v => Sys2Proof.Machine.execDoorbellWrite rq v s
  | .doDicRing l => Sys2Proof.Machine.execDoDicRing l s
  | .doDicClear l => Sys2Proof.Machine.execDoDicClear l s
  | .interruptAcceptance m => Sys2Proof.Machine.execInterruptAcceptance m s
  | .completeWrite rq v m => Sys2Proof.Machine.execCompleteWrite rq v m s
  | .doDicDone l => Sys2Proof.Machine.execDoDicDone l s
  | .doDicTake l => Sys2Proof.Machine.execDoDicTake l s
  | .moderationHoldEnd g m => Sys2Proof.Machine.execModerationHoldEnd g m s
  | .gdisWrite rq v => Sys2Proof.Machine.execGdisWrite rq v s
  | .strayclrWrite rq v => Sys2Proof.Machine.execStrayclrWrite rq v s
  | .setDic l => Sys2Proof.Machine.execSetDic l s
  | .getDic l => Sys2Proof.Machine.execGetDic l s
  | .showDic l => Sys2Proof.Machine.execShowDic l s
  | .clearDic l => Sys2Proof.Machine.execClearDic l s
  | .doDicReinit l => Sys2Proof.Machine.execDoDicReinit l s
  | .watchUnitWake spent m => Sys2Proof.Machine.execWatchUnitWake spent m s
  | .powerOn => Sys2Proof.Machine.execPowerOn s
  | .firstPrompt => Sys2Proof.Machine.execFirstPrompt s
  | .configStoreLoaded => Sys2Proof.Machine.execConfigStoreLoaded s
  | .holdokChange mv m => Sys2Proof.Machine.execHoldokChange mv m s
  | .avsStep margin spare => Sys2Proof.Machine.execAvsStep margin spare s
  | .coreUndervoltage => Sys2Proof.Machine.execCoreUndervoltage s
  | .resetPin => Sys2Proof.Machine.execResetPin s
  | .nodeCoreWatchdog => Sys2Proof.Machine.execNodeCoreWatchdog s
  | .doSysCommit l => Sys2Proof.Machine.execDoSysCommit l s
  | .doSysFactory l => Sys2Proof.Machine.execDoSysFactory l s
  | .showSysStore l => Sys2Proof.Machine.execShowSysStore l s
  | .getSysPower l => Sys2Proof.Machine.execGetSysPower l s
  | .getSysRstcause l => Sys2Proof.Machine.execGetSysRstcause l s
  | .setSysPower l => Sys2Proof.Machine.execSetSysPower l s
  | .doNodeQuiet l => Sys2Proof.Machine.execDoNodeQuiet l s
  | .doNodeFull l => Sys2Proof.Machine.execDoNodeFull l s
  | .doNodeDormant l => Sys2Proof.Machine.execDoNodeDormant l s
  | .dormantEntryComplete => Sys2Proof.Machine.execDormantEntryComplete s
  | .dormantTimerExpiry => Sys2Proof.Machine.execDormantTimerExpiry s
  | .pcmdQuiet rq => Sys2Proof.Machine.execPcmdQuiet rq s
  | .pcmdFull rq => Sys2Proof.Machine.execPcmdFull rq s
  | .pcmdDormant rq => Sys2Proof.Machine.execPcmdDormant rq s
  | .powerFailWarning vsys hold spent m => Sys2Proof.Machine.execPowerFailWarning vsys hold spent m s
  | .agraceExpiry m => Sys2Proof.Machine.execAgraceExpiry m s
  | .park hold m => Sys2Proof.Machine.execPark hold m s
  | .powerFailRestart => Sys2Proof.Machine.execPowerFailRestart s
  | .doNodePwrcyc l => Sys2Proof.Machine.execDoNodePwrcyc l s
  | .pwrcycPulseEnd => Sys2Proof.Machine.execPwrcycPulseEnd s
  | .pwrcycSelfReset => Sys2Proof.Machine.execPwrcycSelfReset s
  | .showNodeModes l => Sys2Proof.Machine.execShowNodeModes l s
  | .characterSent p => Sys2Proof.Machine.execCharacterSent p s
  | .transmissionStart p m => Sys2Proof.Machine.execTransmissionStart p m s
  | .resetNRelease => Sys2Proof.Machine.execResetNRelease s

end Sys2Proof.Machine
end

