-- ==== Sys2Proof/WellFormed.lean ====
section
/-! DEFINITION. The operands each command and event may carry: the numbers of its object's items (Table 1-7), whole
words at aligned addresses (R2), lines that could have passed steps 1 to 8 of R470, frames as their generation allows. -/
namespace Sys2Proof.Machine

/-- An index of a line lists at least one item (R464). -/
def idxWf (idx : Option (List (Nat × Nat))) : Bool := idx != some []
/-- A tag is at most four digits, and an index is not empty (R31, R464). -/
def Line.wf (l : Line) : Bool := l.tag.length ≤ 4 && l.tag.toList.all Char.isDigit && idxWf l.idx
/-- Identifiers of 29 or 11 bits, three generations, TRAIN and SEQ in Gen C frames only (R249, Table 9-3). -/
def Frame.wf (f : Frame) : Bool :=
  f.id < (if f.ext then 2 ^ 29 else 2 ^ 11) && f.gen ≤ 2 && (f.gen == 2 || (f.train == 0 && f.seq == 0)) &&
    f.data.length ≤ (if f.gen = 0 then 8 else 64)
/-- Converters Q0 to Q5 and QX, 24 channels, five rails. -/
def S0In.wf (i : S0In) : Bool :=
  i.conv.all (fun x => x.1 ≤ 6) && i.excLow.all (· < 24) && i.high.all (· < 24) && i.rails.length == 5
/-- A time of day and a day of the year. -/
def IrigLabel.wf (l : IrigLabel) : Bool := l.day < 367 && l.hour < 24 && l.minute < 60 && l.second < 61

end Sys2Proof.Machine

namespace Sys2Proof
open Machine

/-- Are the operands within what the spec gives the command? A command whose operands are not acts as its meaning
says; no statement is made that it may be sent. -/
def Instr.wf (i : Instr) : Bool :=
  match i with
  | .registerWrite _ a _ _ => a < 2 ^ 32 && a % 4 == 0
  | .readClearRead _ a _ => a < 2 ^ 32 && a % 4 == 0
  | .getSysDevid l => l.wf
  | .getSysUid l => l.wf
  | .getSysRomver l => l.wf
  | .showNode l => l.wf
  | .beatStart _ => true
  | .stageS0 inp => inp.wf
  | .stageS1 codes => codes.length == 4 && codes.all (fun r => r.length == 8)
  | .stageS2 late => late.all (· < 7)
  | .stageS3 late => late.all (· < 7)
  | .stageS4 late => late.all (· < 7)
  | .stageS5 late _ => late.all (· < 7)
  | .stageS6 late _ => late.all (· < 7)
  | .stageS7 _ _ => true
  | .helperLatePublication slot _ => slot < 7
  | .nodeTimeSecond => true
  | .secondPulseEnd _ => true
  | .characterReceived p ch _ => (p == .host || p == .service) && ch.code < 256
  | .hostDeTurnaround _ => true
  | .lineReceived _ cs _ => cs.all (· < 256)
  | .typedHelpQuery _ => true
  | .storedReplyResend _ => true
  | .storedReplyExpiry _ => true
  | .lostNotice _ => true
  | .streamEmit _ _ _ => true
  | .microRoutineResume _ => true
  | .confirmationExpiry _ => true
  | .hold l _ => l.wf
  | .free l _ => l.wf
  | .leaseTimeExpiry _ _ idx => idxWf idx
  | .leaseSilenceExpiry _ _ idx => idxWf idx
  | .hostHeartbeatExpiry _ => true
  | .regRead l reg => l.wf && reg != ""
  | .regFieldRead l reg fld => l.wf && reg != "" && fld != ""
  | .regWrite l reg => l.wf && reg != ""
  | .regFieldWrite l reg fld => l.wf && reg != "" && fld != ""
  | .peek l a => l.wf && a < 2 ^ 32
  | .poke l a => l.wf && a < 2 ^ 32
  | .setSys l => l.wf
  | .getSys l names => l.wf && !names.contains ""
  | .portSettingsTakeEffect p => (p == .host || p == .service)
  | .showSysLease l => l.wf
  | .showSysMr l => l.wf
  | .showSysPort l => l.wf
  | .help l _ => l.wf
  | .doSysReinitPort l => l.wf
  | .doNodeReset l => l.wf
  | .nodeResetDrainEnd => true
  | .ppsEdge _ _ _ => true
  | .ppsEdgeMissing _ => true
  | .irigFrame label _ _ _ => label.wf
  | .finutInvalid _ => true
  | .timeStep => true
  | .coarseTimeout _ => true
  | .referenceLoss _ => true
  | .edgeCapture sel _ _ => sel < 50
  | .setTime l => l.wf
  | .doTimeSet l => l.wf
  | .getTime l => l.wf
  | .setTimeCapture l => l.wf
  | .doTimeTake l => l.wf
  | .capturePop _ _ => true
  | .showBeat l => l.wf
  | .clearBeat l => l.wf
  | .overrunClear _ _ => true
  | .watchTime l => l.wf
  | .watchBeat l => l.wf
  | .doTimeReinit l => l.wf
  | .timeQnsRead _ _ => true
  | .crossbarSwitch => true
  | .quadMigrated => true
  | .quadRestored => true
  | .channelStale i => i < 24
  | .diDebounce i => i < 24
  | .ucDrainComplete i => i < 24
  | .setUc l => l.wf
  | .getUc l => l.wf
  | .showUc l => l.wf
  | .showUcQuad l => l.wf
  | .doUcQuadFail l => l.wf
  | .doUcQuadRestore l => l.wf
  | .setUcCtab l => l.wf
  | .watchUc l => l.wf
  | .streamUc l => l.wf
  | .doUcReinit l => l.wf
  | .ucValRead _ i => i < 24
  | .thermalFoldback i => i < 8
  | .thermalRelease i => i < 8
  | .loActionEnd i => i < 8
  | .loDrainComplete i => i < 8
  | .setLo l => l.wf
  | .getLo l => l.wf
  | .showLo l => l.wf
  | .showLoCheck l => l.wf
  | .watchLo l => l.wf
  | .streamLo l => l.wf
  | .clearLo l => l.wf
  | .doLoReinit l => l.wf
  | .loRbRead _ i => i < 8
  | .comparatorFiring i _ _ => i < 8
  | .postTriggerFillComplete _ _ => true
  | .autoarmExpiry _ => true
  | .setGrid l => l.wf
  | .getGrid l => l.wf
  | .showGrid l => l.wf
  | .streamGrid l => l.wf
  | .doGridReinit l => l.wf
  | .setTrans l => l.wf
  | .doTransArm l => l.wf
  | .doTransDisarm l => l.wf
  | .transCtrlArm _ => true
  | .transCtrlDisarm _ => true
  | .getTrans l => l.wf
  | .showTrans l => l.wf
  | .watchTrans l => l.wf
  | .doTransDump l => l.wf
  | .doTransReinit l => l.wf
  | .gridRepsecRead _ => true
  | .onDelayExpiry i => i < 1024
  | .offDelayExpiry i => i < 1024
  | .blockRelease g => g < 64
  | .shelvingExpiry i => i < 1024
  | .ackPin g => g < 64
  | .ackFrame f => f.wf
  | .callEscalation g => g < 64
  | .callPulseEnd _ => true
  | .callFrameRepeat g => g < 64
  | .peerValueAge i => i < 1024
  | .setAp l => l.wf
  | .setApEngine l => l.wf
  | .setAg l => l.wf
  | .setCall l => l.wf
  | .setCallLine l => l.wf
  | .getAp l => l.wf
  | .getAg l => l.wf
  | .getCall l => l.wf
  | .showAp l => l.wf
  | .showAg l => l.wf
  | .showCall l => l.wf
  | .doApAck l => l.wf
  | .doAgAck l => l.wf
  | .almAckWrite _ => true
  | .doApShelve l => l.wf
  | .doApUnshelve l => l.wf
  | .doAgForeset l => l.wf
  | .watchAp l => l.wf
  | .doApReinit l => l.wf
  | .doAgReinit l => l.wf
  | .doCallReinit l => l.wf
  | .tokenGain c => c < 512
  | .checkpoint => true
  | .arcFind _ _ => true
  | .arcFindDone _ => true
  | .arcCodeWrite _ c _ => c < 512
  | .arcOpmsloRead _ => true
  | .setArc l => l.wf
  | .setArcCode l => l.wf
  | .getArc l => l.wf
  | .showArc l => l.wf
  | .showArcCode l => l.wf
  | .doArcLog l => l.wf
  | .watchArc l => l.wf
  | .clearArcGallery l => l.wf
  | .doArcReseal l => l.wf
  | .resealPhase _ => true
  | .doArcReinit l => l.wf
  | .frameConfirmed p f _ _ _ => p < 2 && f.wf
  | .earlyMatch p f _ _ _ _ => p < 2 && f.wf
  | .frameError p _ _ _ => p < 2
  | .arbitrationLost p _ => p < 2
  | .frameSent p _ => p < 2
  | .busOffRecovery p _ => p < 2
  | .gatePulseEnd p g _ => p < 2 && g < 4
  | .caravanGapTimeout p _ => p < 2
  | .doorbellFrame p f => p < 2 && f.wf
  | .valueFrame f => f.wf
  | .valuePublish v => v < 256
  | .tunnelTimeout _ => true
  | .busPortOff p _ => p < 2
  | .setBusPort l => l.wf
  | .setBusFilter l => l.wf
  | .setBusGate l => l.wf
  | .setBusVal l => l.wf
  | .setBusAlmto l => l.wf
  | .getBus l => l.wf
  | .showBus l => l.wf
  | .showBusTrim l => l.wf
  | .doBusSend l => l.wf
  | .doBusAbort l => l.wf
  | .doBusTunnel l => l.wf
  | .doBusGateReset l => l.wf
  | .doBusTrimclr l => l.wf
  | .setBusTrimlock l => l.wf
  | .watchBus l => l.wf
  | .doBusReinit l => l.wf
  | .mailboxReq p k => p < 2 && k < 64
  | .mailboxAbort p k => p < 2 && k < 64
  | .fifoPop p _ => p < 2
  | .caravanRelease p _ => p < 2
  | .earlyViewRelease p _ => p < 2
  | .gateResetWrite p g _ => p < 2 && g < 4
  | .doSurveyStart l => l.wf
  | .begin p f _ _ => p < 2 && f.wf
  | .query p f _ _ => p < 2 && f.wf
  | .bid p f _ _ => p < 2 && f.wf
  | .bidWindowExpiry p _ => p < 2
  | .assign p f _ _ => p < 2 && f.wf
  | .assigned p f _ _ => p < 2 && f.wf
  | .ping p f _ _ => p < 2 && f.wf
  | .pong p f _ _ => p < 2 && f.wf
  | .pongFollowUp p f _ _ => p < 2 && f.wf
  | .delay p f _ _ => p < 2 && f.wf
  | .surveyEnd p f _ _ => p < 2 && f.wf
  | .announce p f _ _ => p < 2 && f.wf
  | .surveyMemberTimeout p _ => p < 2
  | .listenEnd p => p < 2
  | .markRequest p _ => p < 2
  | .markAbandon p _ => p < 2
  | .majorMark p f _ _ => p < 2 && f.wf
  | .minorMark p f _ _ => p < 2 && f.wf
  | .markFollowUp p f _ _ => p < 2 && f.wf
  | .followUpTimeout p _ => p < 2
  | .tportFallback _ => true
  | .pairPortSilent p _ => p < 2
  | .doSurveyAbort l => l.wf
  | .setSurvey l => l.wf
  | .setBusLink l => l.wf
  | .showSurvey l => l.wf
  | .showSurveyMap l => l.wf
  | .showBusMark l => l.wf
  | .showBusDelay l => l.wf
  | .getBusLink l => l.wf
  | .doBusSleep l => l.wf
  | .portSleep p _ => p < 2
  | .wakePattern p => p < 2
  | .wakeFrame p f => p < 2 && f.wf
  | .portWake p _ => p < 2
  | .doBusWake l => l.wf
  | .doBusWakeup l => l.wf
  | .pinEdge i _ _ => i < 48
  | .bankClassChange b cls _ _ => b < 2 && cls < 3
  | .lifeToggle _ => true
  | .gpoutWrite _ k _ => k < 2
  | .hwrefresh _ _ => true
  | .gplockWrite _ _ _ => true
  | .setGp l => l.wf
  | .setGpMask l => l.wf
  | .doGpToggle l => l.wf
  | .getGp l => l.wf
  | .getGpBank l => l.wf
  | .showGp l => l.wf
  | .doGpLock l => l.wf
  | .watchGp l => l.wf
  | .watchGpBank l => l.wf
  | .doGpReinit l => l.wf
  | .setTw l => l.wf
  | .doTwWrite l => l.wf
  | .doTwRead l => l.wf
  | .doTwClear l => l.wf
  | .getTw l => l.wf
  | .clearTw l => l.wf
  | .doTwReinit l => l.wf
  | .twCmdStart _ _ _ => true
  | .twCmdClear _ _ _ => true
  | .twTransferEnd _ _ _ => true
  | .twClockStretchTimeout _ _ => true
  | .twBusClearEnd _ _ _ => true
  | .twDrained _ _ => true
  | .doDispUpdate l => l.wf
  | .snapshotEnd _ => true
  | .railPowerUpStep _ _ => true
  | .dispFrameStart _ => true
  | .railPowerDownStep _ _ => true
  | .railFault k _ _ => k < 5
  | .railholdExpiry _ => true
  | .displayUndervoltage _ => true
  | .fastDischargeStep _ => true
  | .doDispLoad l => l.wf
  | .setDisp l => l.wf
  | .setDispWaveLen l => l.wf
  | .setDispWaveData l => l.wf
  | .doDispRails l => l.wf
  | .setDispCom l => l.wf
  | .getDisp l => l.wf
  | .showDisp l => l.wf
  | .showDispWave l => l.wf
  | .watchDisp l => l.wf
  | .doDispReinit l => l.wf
  | .dispCmdUpdate _ _ _ => true
  | .dispCmdRailsOn _ _ _ => true
  | .dispCmdRailsOff _ _ _ => true
  | .lcdCommit _ _ => true
  | .lcdFrameStart _ => true
  | .annexInstruction _ => true
  | .mret _ => true
  | .wfi _ => true
  | .annexWatchdogExpiry _ => true
  | .awdserveWrite _ _ _ => true
  | .doNodeLoad l => l.wf
  | .doNodeStart l => l.wf
  | .doNodeStop l => l.wf
  | .setNode l => l.wf
  | .showNodeAnnex l => l.wf
  | .watchNode l => l.wf
  | .annexBootReadEnd _ _ => true
  | .mailboxGo _ _ _ => true
  | .rxrdWrite _ _ => true
  | .rxcfgEnable _ _ => true
  | .doorbellWrite _ _ => true
  | .doDicRing l => l.wf
  | .doDicClear l => l.wf
  | .interruptAcceptance _ => true
  | .completeWrite _ _ _ => true
  | .doDicDone l => l.wf
  | .doDicTake l => l.wf
  | .moderationHoldEnd g _ => g < 8
  | .gdisWrite _ _ => true
  | .strayclrWrite _ _ => true
  | .setDic l => l.wf
  | .getDic l => l.wf
  | .showDic l => l.wf
  | .clearDic l => l.wf
  | .doDicReinit l => l.wf
  | .watchUnitWake _ _ => true
  | .powerOn => true
  | .firstPrompt => true
  | .configStoreLoaded => true
  | .holdokChange _ _ => true
  | .avsStep _ _ => true
  | .coreUndervoltage => true
  | .resetPin => true
  | .nodeCoreWatchdog => true
  | .doSysCommit l => l.wf
  | .doSysFactory l => l.wf
  | .showSysStore l => l.wf
  | .getSysPower l => l.wf
  | .getSysRstcause l => l.wf
  | .setSysPower l => l.wf
  | .doNodeQuiet l => l.wf
  | .doNodeFull l => l.wf
  | .doNodeDormant l => l.wf
  | .dormantEntryComplete => true
  | .dormantTimerExpiry => true
  | .pcmdQuiet _ => true
  | .pcmdFull _ => true
  | .pcmdDormant _ => true
  | .powerFailWarning _ _ _ _ => true
  | .agraceExpiry _ => true
  | .park _ _ => true
  | .powerFailRestart => true
  | .doNodePwrcyc l => l.wf
  | .pwrcycPulseEnd => true
  | .pwrcycSelfReset => true
  | .showNodeModes l => l.wf
  | .characterSent _ => true
  | .transmissionStart p _ => p < 2
  | .resetNRelease => true

end Sys2Proof
end

