-- ==== Sys2Proof/Safety.lean ====
section
/-! DEFINITION. What holds of the node whatever is commanded, and the words in which statements about a command are
made: when its port may execute it, what stands in its way, and how it is answered. -/
namespace Sys2Proof.Machine

/-- What every step of the node keeps: memory in its canonical form, at most 32 leases (R48), at most 8 streams (R472)
and at most 16 entries on the return stack of the DIC (R380). -/
structure Sound (n : Node) : Prop where
  mem : Memory.wf n.mem = true
  leases : n.cmd.leases.length ≤ 32
  streams : n.cmd.streams.length ≤ 8
  stack : n.dic.stack.length ≤ 16
/-- The port of the line may execute it (R41) and the stored settings have loaded (R402). -/
structure Live (s : State) (l : Line) : Prop where
  ready : s.node.portReady l.port = true
  loaded : s.node.sys.phase = .loaded

/-- The node once the line has been taken from its port's waiting lines. -/
abbrev taken (s : State) (l : Line) : Node := s.node.takeLine l

/-- No micro-routine and no lease of another port holds the items the line writes (step 13 of R470). -/
def Unheld (s : State) (l : Line) (o : Obj) : Prop := (taken s l).mayWrite l.port o l.idx = .ok ()

/-- The line may execute on the node `n`: its port may execute it, and nothing holds the items of `o` it writes. -/
structure MayRun (s : State) (l : Line) (o : Obj) (n : Node) : Prop where
  live : Live s l
  node : taken s l = n
  free : Unheld s l o

/-- A line with neither an index nor a key. -/
structure Plain (l : Line) : Prop where
  idx : l.idx = none
  keys : l.keys = []

/-- The outcome in which the line's effect has made the node `n` and its reply is the data lines `d` and the completion line. -/
def answers (s : State) (n : Node) (l : Line) (d : List (List Item)) : Host.Outcome State Fault Refusal :=
  .next { s with node := n.replyOk l d }
/-- The outcome in which the line is refused: its reply is the error line, and nothing else changes. -/
def refuses (s : State) (l : Line) (e : Err) : Host.Outcome State Fault Refusal :=
  .next { s with node := (taken s l).replyErr l e }
/-- The outcome in which the node is `n` and the queue of commands is as before. -/
def becomes (s : State) (n : Node) : Host.Outcome State Fault Refusal := .next { s with node := n }

/-- Nothing but the output and the bookkeeping of the command ports differs. -/
structure OnlyPorts (a b : Node) : Prop where
  same : b = { a with cmd := { a.cmd with ports := b.cmd.ports } }

end Sys2Proof.Machine
end

