-- ==== Sys2Proof/Certificates/Slice0/Obligations.lean ====
section
/-! DEFINITION. The statements for the provers. A statement of what a command does says for which states and operands it completes and
what state it then leaves: the words `answers`, `refuses` and `becomes` of Safety give that state whole, so whatever they do not name is
unchanged. The operands of the rows of events, and the names of the operations cited, are the model's (log entry 1); what each operation
does follows the rules its own docstring cites. -/

open Sys2Proof Sys2Proof.Machine

/-! ### The queue and the outcomes -/

/-- Step takes the command at the front of the queue and executes it with the queue's rest. -/
def Obligations.StepRunsFrontCommand : Prop :=
  ∀ (c : Instr) (rest : List Instr) (s : State), s.pending = c :: rest → step s = exec c { s with pending := rest }

/-- On an empty queue the block idles: the state stays as it is. The spec speaks of no queue; idling is the model's
choice (log entry 3). A command that a word spells goes to the front of the queue; the table gives no row bits, so
no word spells one. -/
def Obligations.EmptyQueueIdlesAndNoWordSpells : Prop :=
  (∀ s : State, s.pending = [] → step s = .next s) ∧
  (∀ (s : State) (nbits w : Nat), decodeTableWord nbits w = none ∧ s.withFetchWord nbits w = s)

/-- Every command completes: exec answers a next state, and it leaves the queue as it is. -/
def Obligations.EveryCommandAnswers : Prop :=
  ∀ (c : Instr) (s : State), ∃ t, exec c s = .next t ∧ t.pending = s.pending

/-! ### What every step keeps -/

/-- Every step keeps memory in its canonical form, at most 32 leases (R48), at most 8 streams (R472) and at most 16
entries on the return stack (R380), from every state in which they hold, whatever command is next. -/
def Obligations.EveryStepKeepsSound : Prop := ∀ s t : State, Sound s.node → step s = .next t → Sound t.node

/-- They hold after reset. -/
def Obligations.ResetIsSound : Prop := Sound State.reset.node ∧ State.reset.pending = []

/-! ### Reads that take neither an index nor a key -/

/-- `GET SYS DEVID`, `GET SYS UID` and `GET SYS ROMVER`: one data line with the register's value in hex, then the
completion line; a key is refused with `?E104`, an index with `?E113`; they hold no lease and need none. -/
def Obligations.IdentityReads : Prop :=
  ∀ (s : State) (l : Line), s.node.portReady l.port = true →
    (Plain l →
      exec (.getSysDevid l) s = answers s (taken s l) l [[.w "SYS", .w "DEVID", .h s.node.devid 8]] ∧
      exec (.getSysUid l) s = answers s (taken s l) l [[.w "SYS", .w "UID", .h Node.uid 16]] ∧
      exec (.getSysRomver l) s = answers s (taken s l) l [[.w "SYS", .w "ROMVER", .h s.node.romver 8]]) ∧
    (s.node.sys.phase = .loaded → l.idx = none → l.keys ≠ [] → ∀ c ∈ [Instr.getSysDevid l, .getSysUid l, .getSysRomver l],
      exec c s = refuses s l ⟨104, []⟩) ∧
    (s.node.sys.phase = .loaded → l.idx ≠ none → ∀ c ∈ [Instr.getSysDevid l, .getSysUid l, .getSysRomver l],
      exec c s = refuses s l ⟨113, []⟩)

/-- `GET TIME` replies with node time at the start of stage S7 of the beat in which the line executes. -/
def Obligations.GetTimeReply : Prop :=
  ∀ (s : State) (l : Line) (n : Node), taken s l = n → Live s l → Plain l →
    exec (.getTime l) s = answers s n l
      [[.w "TIME NOW SEC", .n (secOf (n.stageAt 7)), .w "QNS", .n (qnsOf (n.stageAt 7)), .w "BEAT", .n n.idx,
        .w "STATE", .w (stateName (n.fd Fd.TIME_STATUS_STATE)), .w "SOURCE",
        .w (sourceName (n.fd Fd.TIME_STATUS_SOURCE)), .w "EST", .n (n.fd Fd.TIME_EST_EST)]]

/-- `SHOW BEAT` replies with its three lines; `CLEAR BEAT` leaves every overrun counter and every LATE bit at 0. -/
def Obligations.BeatShownAndCleared : Prop :=
  ∀ (s : State) (l : Line) (n : Node), taken s l = n → Live s l → Plain l →
    exec (.showBeat l) s = answers s n l
      [[.w "BEAT INDEX", .n n.idx, .w "STEPSEQ", .n (n.fd Fd.TIME_STATUS_STEPSEQ), .w "LAST",
          .w (if n.on Fd.BEAT_STATUS_STRETCH then "STRETCHED" else if n.on Fd.BEAT_STATUS_SHORT then "SHORTENED" else "NONE"),
          .n (n.fd Fd.BEAT_ADJ_LEN), .w "NUMBER", .n (n.fd Fd.BEAT_ADJ_NUMBER), .w "SEC", .n (n.fd Fd.BEAT_ADJSEC_SEC)],
        .w "BEAT OVR" :: ovrItems (fun k => n.fd (ovrFd k)),
        [.w "BEAT LATE", listItem (((List.range 7).filter (fun k => n.bit Ad.BEAT_LATE k)).map slotName)]] ∧
    (Unheld s l .beat → ∃ m : Node, exec (.clearBeat l) s = answers s m l [] ∧
      (∀ k < 7, m.fd (ovrFd k) = 0) ∧ m.fd Fd.BEAT_LATE_LATE = 0)

/-- The other reads of the node as a whole complete and answer with the data lines written here: `SHOW NODE`, `SHOW NODE ANNEX`,
`SHOW NODE MODES`, `GET SYS POWER` and `GET SYS RSTCAUSE` in every state in which the line's port may execute it (R41), and
`SHOW SYS LEASE`, `SHOW SYS MR`, `SHOW SYS PORT` and `SHOW SYS STORE` once the stored settings have loaded (R402); the node is
otherwise as it was. -/
def Obligations.NodeReads : Prop :=
  ∀ (s : State) (l : Line) (n : Node), taken s l = n → s.node.portReady l.port = true → Plain l →
    exec (.showNode l) s = answers s n l
      [[.w "NODE", .w "PART", .h (n.fd Fd.SYS_DEVID_PART) 4, .w "REV", .c (revWord (n.fd Fd.SYS_DEVID_REV)), .w "MINOR",
        .n (n.fd Fd.SYS_DEVID_MINOR), .w "ROM", .c (decCodes (n.fd Fd.SYS_ROMVER_MAJOR) ++ 46 :: decCodes (n.fd Fd.SYS_ROMVER_MINOR))],
       [.w "NODE", .w "UID", .h Node.uid 16],
       [.w "NODE", .w "STATION", .n n.station, .w "STATE", .w n.powerWord, .w "ANNEX", .w (annexStateName n.annexState)],
       [.w "NODE", .w "SOURCE", .w (sourceName (n.fd Fd.TIME_STATUS_SOURCE))]] ∧
    exec (.showNodeAnnex l) s = answers s n l
      [[.w "NODE", .w "ANNEX", .w (annexStateName n.annexState), .w "ENTRY", .h (n.rd Ad.SYS_AENTRY).toNat 8, .w "LEN",
        .n (n.rd Ad.SYS_ALEN).toNat, .w "CHECK", .h (n.rd Ad.SYS_ACRC).toNat 8, .w "VERSION", .h (n.rd Ad.SYS_AVER).toNat 8, .w "FAULT",
        if n.fd Fd.SYS_ASTAT_CAUSE = 0 then .w "NONE" else .n (n.fd Fd.SYS_ASTAT_CAUSE), .w "PC", .h (n.rd Ad.SYS_AFPC).toNat 8,
        .w "VAL", .h (n.rd Ad.SYS_AFVAL).toNat 8, .w "RESTARTS", .n (n.fd Fd.SYS_ASTAT_RESTARTS)]] ∧
    exec (.showNodeModes l) s = answers s n l
      [[.w "NODE", .w "MODES", .w "STATE", .w n.powerWord, .w "GEN", .w "A", .w (genWord (n.genMax 0)), .w "B",
        .w (genWord (n.genMax 1)), .w "LINK", .w (linkWord (n.fd Fd.BUS_LINK_MODE)), .w "ANNEX", .w (annexStateName n.annexState),
        .w "HOST", .w (if n.on Fd.CMD_HBCFG_AUTONOMOUS then "LOST" else "PRESENT"), .w "LOCKED", .w "A", .n (n.lockedPins 0),
        .w "B", .n (n.lockedPins 1)]] ∧
    exec (.getSysPower l) s = answers s n l
      [[.w "SYS", .w "POWER", .w "STATE", .w n.powerWord, .w "VSYS", volts1 (n.fd Fd.SYS_VSYS_MV), .w "HOLD",
        volts1 (n.fd Fd.SYS_HOLD_MV), .w "HOLDOK", .n (n.fd Fd.SYS_PWRSTAT_HOLDOK), .w "VCORE",
        .d ((720 + 5 * n.fd Fd.SYS_CORE_STEP : Nat) : Int) 3, .w "AVS", onOffWord (n.on Fd.SYS_CORE_AVS), .w "LIMIT",
        .n (n.fd Fd.SYS_CORE_LIMIT)]] ∧
    exec (.getSysRstcause l) s = answers s n l [[.w "SYS", .w "RSTCAUSE", .h (n.rd Ad.SYS_RSTCAUSE).toNat 8,
      .w (String.intercalate "+" (((List.range 8).filter (fun k => (n.rd Ad.SYS_RSTCAUSE).getLsbD k)).map (fun k => causeWords.getD k "")))]] ∧
    (s.node.sys.phase = .loaded →
      exec (.showSysLease l) s = answers s n l (n.cmd.leases.map (fun x =>
        [.w "SYS", .w "LEASE", .w (objName x.obj), leaseIdx x.idx, .w (portName x.port), .w "LEFT",
         match x.left with
         | some t => .n ((t - n.cmd.clock + 49999) / 50000)
         | none => .w "NONE"])) ∧
      exec (.showSysMr l) s = answers s n l (allPorts.filterMap (fun p => (n.port p).mr.map (fun m =>
        [.w "SYS", .w "MR", .w (portName p), .w "TAG", .n (tagNum m.tag), .w (verbs.getD m.verb ""), .w (objName m.obj), .w "AT",
         .n m.pos, .w "OF", .n m.units.length, .w (if m.paused then "PAUSED" else "RUNNING")]))) ∧
      exec (.showSysPort l) s = answers s n l
        [[.w "SYS", .w "PORT", .w "HOST", .w "PHY", .w (if Fd.CMD_HOSTCFG_PHY.get (n.port .host).cfgInForce = 1 then "RS485" else "UART"),
          .w "BAUD", .n (Fd.CMD_HOSTCFG_BAUD.get (n.port .host).cfgInForce), .w "PAR",
          .w (if Fd.CMD_HOSTCFG_PAR.get (n.port .host).cfgInForce = 1 then "EVEN"
            else if Fd.CMD_HOSTCFG_PAR.get (n.port .host).cfgInForce = 2 then "ODD" else "NONE"),
          .w "STOP", .n (Fd.CMD_HOSTCFG_STOP2.get (n.port .host).cfgInForce + 1), .w "AUTO", onOffWord (n.on Fd.CMD_HOSTCFG_AUTO),
          .w "ARMED", .n (n.fd Fd.CMD_HOSTCFG_ARMED), .w "ECHO", onOffWord (n.on Fd.CMD_HOSTCFG_ECHO), .w "TURN",
          .n (n.fd Fd.CMD_HBCFG_TURN), .w "HBEAT", .n (n.fd Fd.CMD_HBCFG_HBEAT), .w "NOTE", n.noteItem .host, .w "ERR", .n (n.port .host).err],
         [.w "SYS", .w "PORT", .w "SERVICE", .w "BAUD", .n (Fd.CMD_HOSTCFG_BAUD.get (n.port .service).cfgInForce), .w "NOTE",
          n.noteItem .service, .w "ERR", .n (n.port .service).err],
         [.w "SYS", .w "PORT", .w "BUS", .w "BNOTE", .n (n.k Kid.bnote).toNat, .w "BPOKE", onOffWord (n.k Kid.bpoke != 0#32), .w "NOTE",
          n.noteItem .bus, .w "ERR", .n (n.port .bus).err],
         [.w "SYS", .w "PORT", .w "ANNEX", .w "NOTE", n.noteItem .annex, .w "ERR", .n (n.port .annex).err]] ∧
      exec (.showSysStore l) s = answers s n l
        [[.w "SYS", .w "STORE", .w "COPY", copyWord n, .w "GEN", .n (n.rd Ad.SYS_STOREGEN).toNat, .w "LEN", .n (n.fd Fd.SYS_STORE_LEN),
          .w "RUNLEN", .n (Config.imageLen n.running), .w "DIRTY", .n (n.fd Fd.SYS_STORE_DIRTY)]])

/-- The reads of the helpers that take no index complete and answer with the data lines written here, once the stored settings have
loaded and where the line's port may execute it: `SHOW UC QUAD`, `SHOW LO CHECK`, `GET GRID`, `SHOW GRID`, `GET TRANS`, `GET CALL`,
`SHOW CALL`, `SHOW AP`, `SHOW ARC`, `SHOW SURVEY`, `SHOW SURVEY MAP`, `GET BUS LINK`, `GET GP BANK`, `GET TW`, `GET DISP`, `SHOW
DISP`, `GET DIC`, `SHOW DIC` and `GET ARC`; the node is otherwise as it was. `GET ARC` with an accession, a direction and a count
answers with the records from there on, and `?E206` where there is none to read. -/
def Obligations.HelperReads : Prop :=
  (∀ (s : State) (l : Line) (n : Node), taken s l = n → Live s l → Plain l →
    exec (.showUcQuad l) s = answers s n l ((List.range 6).map (fun k => ([.w "UC QUAD", .w (quadName k)] : List Item) ++
        (match n.fd (qFd k) with
         | 0 => [.w "OK"]
         | 1 => [.w "MIGRATED CAUSE", .w (causeName ((n.quad k).cause.getD 0))]
         | _ => [.w "NORESERVE CAUSE", .w (causeName ((n.quad k).cause.getD 0))]) ++
        ([.w "LOAD", .n (n.load k), .w "PASS", .n (n.quad k).pass] : List Item)) ++
      ([([.w "UC QUAD QX"] : List Item) ++
        (match n.fd Fd.UC_QSTAT_QX with
         | 0 => [.w "IDLE"]
         | 1 => [.w "SERVING", .w (quadName (n.fd Fd.UC_QSTAT_QXFOR))]
         | _ => [.w "FAILED"]) ++
        ([.w "LOAD", .n (if n.fd Fd.UC_QSTAT_QX = 1 then n.load (n.fd Fd.UC_QSTAT_QXFOR) else 0), .w "PASS", .n (n.quad 6).pass] : List Item)] : List (List Item))) ∧
    exec (.showLoCheck l) s = answers s n l
      [[.w "LO CHECK", .w (if n.on Fd.LO_CHK_FAILED then "FAILED" else "OK"), .w "PASS", .n (n.fd Fd.LO_CHK_PASS)]] ∧
    (n.rd Ad.GRID_REPEST = 0xFFFFFFFF#32 → n.rd Ad.GRID_REPSEC = 0#32 → n.rd Ad.GRID_REPQNS = 0#32 →
      exec (.getGrid l) s = answers s n l [[.w "GRID NOREPORT"]]) ∧
    (n.rd Ad.GRID_REPEST ≠ 0xFFFFFFFF#32 ∨ n.rd Ad.GRID_REPSEC ≠ 0#32 ∨ n.rd Ad.GRID_REPQNS ≠ 0#32 →
      exec (.getGrid l) s = answers s n l (([([.w "GRID REP SEC", .n n.grid.repSec, .w "QNS", .n (n.rd Ad.GRID_REPQNS).toNat, .w "EST",
          .n (n.rd Ad.GRID_REPEST).toNat, .w "FLAGS"] : List Item) ++ gridFlagItems (n.rd Ad.GRID_RFLAGS)] : List (List Item)) ++
        ((List.range 8).filter (fun i => n.on (Fd.GRID_INCFG_ON i))).map (fun i =>
          [.w "GRID", .n i, .w "MAG", .f (n.rd (Ad.GRID_MAG i)), .w "ANG", .f (n.rd (Ad.GRID_ANG i))]) ++
        ([[.w "GRID SEQ", .w "V1", .f (n.rd (Ad.GRID_SEQ 0)), .f (n.rd (Ad.GRID_SEQ 1)), .w "V2", .f (n.rd (Ad.GRID_SEQ 2)),
          .f (n.rd (Ad.GRID_SEQ 3)), .w "V0", .f (n.rd (Ad.GRID_SEQ 4)), .f (n.rd (Ad.GRID_SEQ 5)), .w "I1", .f (n.rd (Ad.GRID_SEQ 6)),
          .f (n.rd (Ad.GRID_SEQ 7)), .w "I2", .f (n.rd (Ad.GRID_SEQ 8)), .f (n.rd (Ad.GRID_SEQ 9)), .w "I0", .f (n.rd (Ad.GRID_SEQ 10)),
          .f (n.rd (Ad.GRID_SEQ 11))],
         [.w "GRID FREQ", .f (n.rd Ad.GRID_FREQ), .w "ROCOF", .f (n.rd Ad.GRID_ROCOF)]] : List (List Item)))) ∧
    exec (.showGrid l) s = answers s n l (([([.w "GRID"] : List Item) ++ n.showKeys gridSpecs 0 ++ ([.w "FS", .n n.gridFs] : List Item)] : List (List Item)) ++
      (List.range 8).map (fun i => ([.w "GRID", .n i] : List Item) ++ n.showKeys gridInSpecs i)) ∧
    (∀ shown : Bool, (n.tState == tsTriggered || n.tState == tsHeld || n.on Fd.TRANS_STAT_KEPT) = shown →
      exec (.getTrans l) s = answers s n l ((([.w "TRANS STATE", .w (tsName n.tState)] : List Item) ++
          (if shown then [.w "TRIG", .n (n.fd Fd.TRANS_STAT_TRIGIN), .w "SEC", .n (secOf n.trans.trigAt), .w "QNS",
            .n (n.fd Fd.TRANS_TRIGQNS_QNS), .w "EST", .n n.trans.trigEst] else []) ++
          ([.w "EVENTS", .n (n.fd Fd.TRANS_STAT_EVENTS)] : List Item)) ::
        (List.range 8).map (fun i =>
          if !n.on (Fd.TRANS_CFG_ON i) then [.w "TRANS", .n i, .w "OFF"]
          else if shown && n.bit Ad.TRANS_STAT (8 + i) then
            [.w "TRANS", .n i, .w "ARR SEC", .n (secOf (Bank.get 0 n.trans.arrStamp i)), .w "QNS", .n (n.rd (Ad.TRANS_ARRQNS i)).toNat,
             .w "POL", .w (if n.bit Ad.TRANS_ARRPOL i then "POS" else "NEG"), .w "THR", mVItem (Bank.get 0 n.trans.arrThr i)]
          else [.w "TRANS", .n i, .w "NONE"]))) ∧
    exec (.getCall l) s = answers s n l
      [[.w "CALL LINES", listItem (((List.range 8).filter (fun k => (n.fd Fd.CALL_LINES_LINES).testBit k)).map (fun k => "CL" ++ toString k))]] ∧
    exec (.showCall l) s = answers s n l (([([.w "CALL"] : List Item) ++ n.showKeys callSpecs 0] : List (List Item)) ++
      (List.range 8).map (fun k => ([.w "CALL", .n k] : List Item) ++ n.showKeys callLineSpecs k)) ∧
    exec (.showAp l) s = answers s n l [.w "AP" :: n.showKeys engineSpecs 0] ∧
    exec (.showArc l) s = answers s n l
      [[.w "ARC STATE", .w (arcStateName (n.fd Fd.ARC_STAT_STATE)), .w "SEALED", .w (if n.on Fd.ARC_STAT_SEALED then "YES" else "NO"),
        .w "RESEALS", .n n.nv.reseals, .w "VLAST", .n (n.rd Ad.ARC_VLAST).toNat, .w "OLDEST", .n (n.rd Ad.ARC_OLDEST).toNat, .w "NEWEST",
        .n (n.rd Ad.ARC_NEWEST).toNat, .w "QUEUE", .n n.arc.queue.length, .w "LOST", .n (n.rd Ad.ARC_LOST).toNat, .w "CHG",
        .n (n.rd Ad.ARC_CHG).toNat]] ∧
    exec (.showSurvey l) s = answers s n l
      [[.w "SURVEY STATE", .w (svStateName (n.fd Fd.BUS_SVSTAT_STATE)), .w "PORT", .w (busName (n.fd Fd.BUS_SVSTAT_PORT)),
        .w "RESULT", .w (resultName (n.fd Fd.BUS_SVSTAT_RESULT)), .w "ASSIGNED", .n (n.fd Fd.BUS_SVCNT_ASSIGNED),
        .w "VANISHED", .n (n.fd Fd.BUS_SVCNT_VANISHED), .w "JOINED", .n (n.fd Fd.BUS_SVCNT_JOINED),
        .w "DELAYS", .n (n.fd Fd.BUS_SVDLY_MEASURED), .w "OF", .n (n.fd Fd.BUS_SVDLY_EXPECTED)],
       [.w "SURVEY STATION", .n n.station, .w "REQUEST", .n (n.fd Fd.BUS_STATION_REQUEST)]] ∧
    exec (.showSurveyMap l) s = answers s n l (n.srv.map.map (fun e =>
      [.w "SURVEY MAP", .n e.station, .w "UID", .h e.uid 16, .w "SEGMENT", .w (busName e.seg), .w "FLAGS", .w (flagWord (e.flags % 4))])) ∧
    exec (.getBusLink l) s = answers s n l
      [[.w "BUS LINK", .w (linkName (n.fd Fd.BUS_LINK_MODE)), .w "TPORT", .w (busName (n.fd Fd.BUS_LINK_TPORT)), .w "DUP",
        .n (n.fd Fd.BUS_DUPCNT_DUP), .w "DROPAB", .n (n.fd Fd.BUS_WAYCNT_DROPAB), .w "DROPBA", .n (n.fd Fd.BUS_WAYCNT_DROPBA)]] ∧
    exec (.getGpBank l) s = answers s n l [[.w "GP BANK A", .w (className (n.bank 0)), .w "B", .w (className (n.bank 1))]] ∧
    exec (.getTw l) s = answers s n l
      [[.w "TW STATE", .w (twStateName n.twState), .w "RATE", .n (twRate (n.fd Fd.TW_CTRL_RATE)), .w "SDA", .n (n.fd Fd.TW_STAT_SDA),
        .w "SCL", .n (n.fd Fd.TW_STAT_SCL), .w "NACK", .n (n.fd Fd.TW_CNT_NACK), .w "STUCK", .n (n.fd Fd.TW_CNT_STUCK), .w "CLEARED",
        .n (n.fd Fd.TW_CNT_CLEARED)]] ∧
    (∀ st : Nat → String, (∀ k, st k = if k = 0 then "OFF" else if k = 1 then "ON" else "DRAINING") →
      exec (.getDisp l) s = answers s n l
        [[.w "DISP STATE", .w (st n.dispState), .w "BUSY", .n (n.fd Fd.DISP_STAT_BUSY), .w "LAST",
          .w (match n.fd Fd.DISP_STAT_LAST with | 0 => "NONE" | 1 => "DONE" | 2 => "ABANDONED" | _ => "REFUSED"), .w "MODE",
          .w (if n.fd Fd.DISP_LAST_MODE = 0 then "FULL" else "PART"), .w "FRAMES", .n (n.fd Fd.DISP_LAST_FRAMES), .w "BAND",
          .n (n.fd Fd.DISP_STAT_BAND), .w "TEMP", .i (signed 8 (n.fd Fd.DISP_LAST_TEMP)), .w "IMAGE",
          .w (if n.on Fd.DISP_STAT_IMGUNK then "UNKNOWN" else "KNOWN"), .w "PARTS", .n (n.fd Fd.DISP_CNT_PARTS), .w "UPDATES",
          .n (n.fd Fd.DISP_CNT_UPDATES)],
         [.w "DISP RAILS VGL", .d (signed 16 (n.fd (Fd.DISP_RAIL_MV 0))) 3, .w "VGH", .d (signed 16 (n.fd (Fd.DISP_RAIL_MV 1))) 3,
          .w "VSL", .d (signed 16 (n.fd (Fd.DISP_RAIL_MV 2))) 3, .w "VSH", .d (signed 16 (n.fd (Fd.DISP_RAIL_MV 3))) 3, .w "VCOM",
          .d (signed 16 (n.fd (Fd.DISP_RAIL_MV 4))) 3],
         [.w "DISP LCD", .w (st (n.fd Fd.LCD_STAT_STATE)), .w "PENDING", .n (n.fd Fd.LCD_STAT_PENDING)]]) ∧
    exec (.showDisp l) s = answers s n l [.w "DISP" :: n.showKeys dispSpecs 0] ∧
    exec (.getDic l) s = answers s n l
      [([.w "DIC BANDS", .n (bitCount n.bandMap 256), .w "GDIS", gdisItem ((⟨Ad.DIC_GDIS, 1, 0⟩ : Fd).get (n.rd Ad.DIC_GDIS)),
        .w "DEPTH", .n n.dic.stack.length, .w "INNER",
        (match n.dic.stack with
         | e :: _ => .n e.src
         | [] => .w "NONE"),
        .w "WFI", .n (if n.annex.wfi then 1 else 0), .w "STRAY", .n (n.fd Fd.DIC_STRAYCNT_COUNT), .w "LASTSTRAY"] : List Item) ++
       (if n.dic.strayed then [.n (n.fd Fd.DIC_STRAYSRC_SRC), .w (if n.on Fd.DIC_STRAYSRC_REQ then "COMMAND" else "ANNEX")]
        else [.w "NONE"])] ∧
    (∀ es, (List.range 256).filter (fun v => v != 0 && n.bandMap.testBit v) = es → exec (.showDic l) s = answers s n l
      [([.w "DIC EDGES"] : List Item) ++ ([if es.length = 255 then .w "ALL" else listItem (es.map toString)] : List Item) ++
        (List.range 8).flatMap (fun k => [.w ("MODT" ++ toString k), .n (n.fd (Fd.DIC_MODT_MODT k))]) ++
        ([.w "GDIS", gdisItem ((⟨Ad.DIC_GDIS, 1, 0⟩ : Fd).get (n.rd Ad.DIC_GDIS))] : List Item) ++
        (List.range 16).flatMap (fun k => [.w ("WATCH" ++ toString k),
          if n.on (Fd.DIC_WATCH_EN k) then .n (n.fd (Fd.DIC_WATCH_SRC k)) else .w "NONE"])])) ∧
  (∀ (s : State) (l : Line) (n : Node), taken s l = n → Live s l → l.idx = none → checkKeys getArcSpecs [] l.keys = .ok () →
    ∀ a, (keyNum getArcSpecs l.keys "ACC").getD (n.rd Ad.ARC_NEWEST).toNat = a →
      (n.readable a = true → exec (.getArc l) s = answers s n l
        (n.recordLines a (keyNum getArcSpecs l.keys "DIR" != some 1) ((keyNum getArcSpecs l.keys "COUNT").getD 1))) ∧
      (n.readable a = false → exec (.getArc l) s = refuses s l ⟨206, []⟩))

/-- `GET` and `SHOW` of indexed items complete and answer one line for each item named, with the items written here, once the stored
settings have loaded and where the line's port may execute it; the node is otherwise as it was: `UC`, `LO`, `TRANS`, `AP`, `AG`,
`ARC` codes, `GP` and `DIC` sources. `SHOW ARC` of a code that is not assigned is refused with `?E206`. -/
def Obligations.ItemReads : Prop :=
  ∀ (s : State) (l : Line) (n : Node) (is : List Nat), taken s l = n → Live s l → l.keys = [] →
    (l.items 24 = .ok is → exec (.getUc l) s = answers s n l (is.map (fun i =>
        if (n.chan i).mode = 0 then [.w "UC", .n i, .w "OFF"]
        else ([.w "UC", .n i, .w "VAL", .f (n.rd (Ad.UC_VAL i)), .w "PHYS", .f (n.rd (Ad.UC_PHYS i)), .w "FLAGS"] : List Item) ++
          flagItems (n.chan i).flags ++ ([.w "BEAT", .n (n.chan i).stamp] : List Item))) ∧
      exec (.showUc l) s = answers s n l (is.map (fun i =>
        ([.w "UC", .n i] : List Item) ++ n.showKeys ((ucSpecs (n.fd (Fd.UC_CFG_MODE i))).filter (fun k => keyFits k.key (n.fd (Fd.UC_CFG_MODE i)))) i))) ∧
    (l.items 8 = .ok is → (∀ head : Nat → Q, (∀ i, head i = if (n.loop i).stage = 1
        then Q.sub (f32Q (n.rd (Ad.LO_SUP i))) (f32Q (n.rd (Ad.LO_PIN i))) else f32Q (n.rd (Ad.LO_PIN i))) →
      exec (.getLo l) s = answers s n l (is.map (fun i =>
        if n.loState i = loOff && (n.loop i).stage = 0 then [.w "LO", .n i, .w "OFF"]
        else ([.w "LO", .n i, .w "OUT", checkItem (n.rd (Ad.LO_OUT i)) 3, .w "RB", checkItem (n.rd (Ad.LO_RB i)) 3,
           .w "PIN", checkItem (n.rd (Ad.LO_PIN i)) 3, .w "SUP", checkItem (n.rd (Ad.LO_SUP i)) 1, .w "HEAD",
           (if f32IsNaN (n.rd (Ad.LO_PIN i)) then .f f32NaN else .d (Q.round (Q.mul (head i) (q 10))) 1),
           .w "TEMP", checkItem (n.rd (Ad.LO_TEMP i)) 1, .w "FLAGS"] : List Item) ++ n.loFlagItems i ++
          ([.w "STATE", .w (match n.loState i with
             | 0 => "OFF" | 1 => "ON" | _ => "DRAINING"),
           .w "BEAT", .n (n.fd (Fd.LO_STAT_BEAT i))] : List Item)))) ∧
      exec (.showLo l) s = answers s n l (is.map (fun i => ([.w "LO", .n i] : List Item) ++ n.showKeys loSpecs i)) ∧
      exec (.showTrans l) s = answers s n l (is.map (fun i => ([.w "TRANS", .n i, .w "THR", mVItem (n.fd (Fd.TRANS_THR_THR i)),
        .w "RMS", mVItem (n.fd (Fd.TRANS_THR_RMS i))] : List Item) ++ n.showKeys transInSpecs i))) ∧
    (l.items 1024 = .ok is → exec (.getAp l) s = answers s n l (is.map n.apLine)) ∧
    (l.items 64 = .ok is →
      exec (.getAg l) s = answers s n l (is.map (fun g => [.w "AG", .n g, .w "STAGE", .w (stageName (n.fd (Fd.ALM_AGSTAT_STAGE g))),
        .w "BLOCK", .w (if n.on (Fd.ALM_AGSTAT_BLOCKED g) then "BLOCKED" else if n.on (Fd.ALM_AGSTAT_RELEASING g) then "RELEASING" else "NONE"),
        .w "FO", .w (if n.on (Fd.ALM_AGSTAT_FOVALID g) then "AP" ++ toString (n.fd (Fd.ALM_AGSTAT_FOPOINT g)) else "NONE"),
        .w "UNACK", .n (n.fd (Fd.ALM_AGSTAT_UNACK g))])) ∧
      exec (.showAg l) s = answers s n l (is.map (fun g => ([.w "AG", .n g] : List Item) ++ n.showKeys agSpecs g ++ ([.w "BLKSRC"] : List Item) ++
        Form.blk.shows (if n.on (Fd.ALM_AGCFG_BLKEN g) then
          1 + n.fd (Fd.ALM_AGCFG_BLKKIND g) * 65536 + n.fd (Fd.ALM_AGCFG_BLKSRC g) else 0)))) ∧
    (l.items 512 = .ok is → is.all assigned = false → exec (.showArcCode l) s = refuses s l ⟨206, []⟩) ∧
    (l.items 512 = .ok is → is.all assigned = true → exec (.showArcCode l) s = answers s n l (is.map (fun c =>
      ([.w "ARC", .n c, .w (codeName c)] : List Item) ++ n.showKeys codeSpecs c ++ ([.w "SUPP", .n (n.fd (suppFd c))] : List Item)))) ∧
    (l.items 48 = .ok is → exec (.showGp l) s = answers s n l (is.map (fun i => ([.w "GP", .n i] : List Item) ++ n.showKeys gpSpecs i)) ∧
      exec (.getGp l) s = answers s n l (is.map (fun i => [.w "GP", .n i, .w "IN", .n (if n.on (inFd i) then 1 else 0), .w "OUT",
        .n (if n.on (outFd i) then 1 else 0), .w "FN", .w (nameOf fnNames (n.fd (Fd.GP_FN_FSEL i))), .w "ALT",
        .w (nameOf altNames (n.fd (Fd.GP_FN_ALT i))), .w "MODE", .w (nameOf pinModes (n.fd (Fd.GP_FN_MODE i))), .w "OWNER",
        .w (if n.owned i then "HW" else "SW"), .w "LOCK", .n (if n.gpLocked i then 1 else 0)]))) ∧
    (l.idx ≠ none → l.items 256 = .ok is →
      exec (.getDic l) s = answers s n l (is.map (fun i => [.w "DIC", .n i, .w "PEND", .n (if n.pend i then 1 else 0), .w "ENA",
        .n (if n.ena i then 1 else 0), .w "ACTIVE", .n (if n.act i then 1 else 0), .w "PRIO", .h (n.prio i) 2, .w "TARGET",
        .w (targetName (n.target i)), .w "MOD", n.modItem i, .w "VECT", .h (n.rd (Ad.DIC_VECT i)).toNat 8])) ∧
      exec (.showDic l) s = answers s n l (is.map (fun i => [.w "DIC", .n i, .w "PRIO", .n (n.prio i), .w "TARGET",
        .w (targetName (n.target i)), .w "MOD", n.modItem i, .w "ENA", .w (if n.ena i then "ON" else "OFF"), .w "VECT",
        .h (n.rd (Ad.DIC_VECT i)).toNat 8])))

/-- The reads of a bus port, which its PORT key names, and `SHOW DISP WAVE` complete and answer with the data lines written here, once
the stored settings have loaded and where the line's port may execute it; the node is otherwise as it was. -/
def Obligations.PortReads : Prop :=
  ∀ (s : State) (l : Line) (n : Node) (p : Nat), taken s l = n → Live s l → l.idx = none →
    (portOnly [] [] l.keys = .ok () → keyPort l.keys = p →
      exec (.getBus l) s = answers s n l [[.w "BUS", .w (busName p), .w "STATE", .w (stateWord (n.busState p)), .w "ERR",
        .w (if n.fd (Fd.BUS_STAT_ERR p) = 0 then "ACTIVE" else if n.fd (Fd.BUS_STAT_ERR p) = 1 then "PASSIVE" else "BUSOFF"), .w "TEC",
        .n (n.fd (Fd.BUS_ERRCNT_TEC p)), .w "REC", .n (n.fd (Fd.BUS_ERRCNT_REC p)), .w "BUSOFF", .n (n.fd (Fd.BUS_ERRCNT_BUSOFF p)),
        .w "GEN", .w (genName (n.genMax p)), .w "FALLBACK", .w (if n.on (Fd.BUS_STAT_FALLBACK p) then "YES" else "NO"), .w "FIFO",
        .n (n.fd (Fd.BUS_FIFO_COUNT p)), .w "LOST", .n (n.fd (Fd.BUS_RXLOST_LOST p)), .w "EVMISS", .n (n.fd (Fd.BUS_EVMISS_MISS p))]] ∧
      exec (.showBus l) s = answers s n l [[.w "BUS", .w (busName p)] ++ n.showKeys busPortSpecs p ++
        [.w "WDATA", wideItem (n.rd (Ad.BUS_WDATA p 0)) (n.rd (Ad.BUS_WDATA p 1)), .w "WDMASK",
         wideItem (n.rd (Ad.BUS_WDMASK p 0)) (n.rd (Ad.BUS_WDMASK p 1))]] ∧
      exec (.showBusTrim l) s = answers s n l (((List.range 64).filter (fun k => n.on (Fd.BUS_TRIM_VALID p k))).map (fun k =>
        [.w "BUS TRIM", .n k, .w "STATION", .n (n.fd (Fd.BUS_TRIM_STATION p k)), .w "OFFSET", .i (signed 8 (n.fd (Fd.BUS_TRIM_OFFSET p k))),
         .w "FRAMES", .n (n.fd (Fd.BUS_TRIM_FRAMES p k)), .w "LOCK", .n (n.fd (Fd.BUS_TRIM_LOCK p k))])) ∧
      (∀ st, n.fd (Fd.BUS_MARK_SENDER p) = st → exec (.showBusMark l) s = answers s n l
        [[.w "BUS MARK", .w (busName p), .w "SENDER", .n st, .w "GRADE", .n (n.fd (Fd.BUS_MARK_GRADE p)), .w "DELAY",
          .d (((n.delayOf p st).getD 0 * 25 : Nat) : Int) 2, .w "SEQ", .n (n.fd (Fd.BUS_MARK_SEQ p)), .w "SENDING",
          .w (if n.on (Fd.BUS_MARK_SENDING p) then "YES" else "NO")]]) ∧
      exec (.showBusDelay l) s = answers s n l (((List.range 4).filter (fun k => n.on (Fd.BUS_DLYSTA_VALID p k))).map (fun k =>
        [.w "BUS DELAY", .n (n.fd (Fd.BUS_DLYSTA_STATION p k)), .d ((n.fd (Fd.BUS_DLY_DELAY p k) * 25 : Nat) : Int) 2, .w "SPREAD",
         .d ((n.fd (Fd.BUS_DLY_SPREAD p k) * 25 : Nat) : Int) 2]))) ∧
    (onlyKeys ["MODE", "BAND"] ["MODE", "BAND"] l.keys = .ok () → checkKeys waveSpecs [] l.keys = .ok () →
      exec (.showDispWave l) s = answers s n l ([.w "DISP WAVE LEN", .n (n.waveLen (waveBand l.keys))] ::
        (List.range 16).map (fun p => [.w "DISP WAVE FROM", .n (p / 4), .w "TO", .n (p % 4), .w "DATA",
          .b (n.waveBytes (waveBand l.keys) (p / 4) (p % 4))])))

/-- `GET SYS` replies with the values of the keys named, or of all; `HELP` with the verbs, with the objects of a verb or with the verbs
of an object, and `?E102` for another word; a typed query at the head of the waiting lines with the words that may stand in the place of
its `?` (log entry 85 for both word lists). -/
def Obligations.SettingsAndHelp : Prop :=
  ∀ (s : State) (l : Line), s.node.portReady l.port = true →
    (Plain l → ∀ names : List String, names.all (fun k => (specOf (sysSpecs.take 12) k).isSome) = true →
      exec (.getSys l names) s = answers s (taken s l) l [.w "SYS" :: (taken s l).showKeys
        (if names.isEmpty then sysSpecs.take 12 else (sysSpecs.take 12).filter (fun k => names.contains k.key)) (portNum l.port)]) ∧
    exec (.help l none) s = answers s (taken s l) l (verbs.map (fun w => [.w "HELP", .w w])) ∧
    (∀ w, verbs.contains w → exec (.help l (some w)) s = answers s (taken s l) l
      ((helpWords [codesOf w]).map (fun x => [.w "HELP", .w x]))) ∧
    (∀ w, objects.contains w → verbs.contains w = false → exec (.help l (some w)) s = answers s (taken s l) l
      ((verbs.filter (fun v => (verbForms v).any (fun x => x.1 == w))).map (fun x => [.w "HELP", .w x]))) ∧
    (∀ w, verbs.contains w = false → objects.contains w = false → s.node.sys.phase = .loaded →
      exec (.help l (some w)) s = refuses s l ⟨102, []⟩) ∧
    (∀ (w : Waiting) (t : List Waiting), (s.node.port l.port).waiting = w :: t → isHelpQuery w.chars = true → l.port ≠ .bus →
      exec (.typedHelpQuery l.port) s = answers s (taken s ⟨l.port, w.tag, none, []⟩) ⟨l.port, w.tag, none, []⟩ 
        ((helpWords (itemsOf false [] w.chars).dropLast).map (fun x => [.w "HELP", .w x])))

/-! ### Settings of a helper as a whole -/

/-- `SET` on a helper as a whole, its keys in order: the keys' settings take their values (`setKeys`), the helper
follows the change, and the completion line is the whole reply. One clause for each of `SET SYS`, `SET SYS` with
power keys, `SET TIME`, `SET GRID`, `SET TRANS`, `SET AP ENGINE=`, `SET CALL`, `SET ARC`, `SET SURVEY`, `SET BUS
LINK=`, `SET TW`, `SET DISP`, `SET NODE` and `SET DIC`. -/
def Obligations.SettingsWritten : Prop :=
  ∀ (s : State) (l : Line) (n : Node), l.idx = none →
    (MayRun s l .sys n → checkKeys sysSpecs [] l.keys = .ok () → ∀ c ∈ [Instr.setSys l, .setSysPower l],
      exec c s = answers s (Node.cmdChanged n (n.setKeys sysSpecs (portNum l.port) l.keys) (some l.port) 70000) l []) ∧
    (MayRun s l .time n → checkKeys timeSpecs [] l.keys = .ok () →
      exec (.setTime l) s = answers s (Node.timeChanged n (n.setKeys timeSpecs 0 l.keys)) l []) ∧
    (MayRun s l .grid n → checkKeys gridSpecsFs [] l.keys = .ok () → ∀ m, n.gridApply l.keys = some m →
      (hasKey l.keys "FRAMES" && !n.framesOk (m.fd Fd.GRID_CTRL_FRAMES)) = false → gridLocked n m = false →
      exec (.setGrid l) s = answers s m l []) ∧
    (MayRun s l .trans n → checkKeys transSpecs [] l.keys = .ok () →
      exec (.setTrans l) s = answers s (n.setKeys transSpecs 0 l.keys) l []) ∧
    (MayRun s l .ap n → checkKeys engineSpecs ["ENGINE"] l.keys = .ok () →
      ¬ (n.fd Fd.ALM_STAT_STATE = 0 ∧ keyNum engineSpecs l.keys "ENGINE" = some 0) →
      exec (.setApEngine l) s = answers s ((n.setKeys engineSpecs 0 l.keys).engineSet
        ((n.setKeys engineSpecs 0 l.keys).on Fd.ALM_CTRL_ENGINE)) l []) ∧
    (MayRun s l .call n → checkKeys callSpecs [] l.keys = .ok () → (n.setKeys callSpecs 0 l.keys).callTimesOk = true →
      engineNeeded n = .ok () → exec (.setCall l) s = answers s (n.setKeys callSpecs 0 l.keys) l []) ∧
    (MayRun s l .arc n → arcCheck l.keys n = .ok () →
      exec (.setArc l) s = answers s (Node.arcChanged n (n.setKeys arcSpecs 0 l.keys)) l []) ∧
    (MayRun s l .survey n → checkKeys surveySpecs [] l.keys = .ok () → (hasKey l.keys "STATION" && n.srv.running) = false →
      exec (.setSurvey l) s = answers s (n.setKeys surveySpecs 0 l.keys) l []) ∧
    (MayRun s l .bus n → checkKeys linkSpecs [] l.keys = .ok () → (hasKey l.keys "LINK" && n.srv.running) = false →
      exec (.setBusLink l) s = answers s (Node.busChanged n (n.setKeys linkSpecs 0 l.keys) 70000) l []) ∧
    (MayRun s l .tw n → checkKeys twSpecs [] l.keys = .ok () →
      exec (.setTw l) s = answers s (Node.twChanged n (n.setKeys twSpecs 0 l.keys)) l []) ∧
    (MayRun s l .disp n → n.dispCheck l.keys = .ok () →
      exec (.setDisp l) s = answers s (Node.dispChanged n (n.setKeys dispSpecs 0 l.keys)) l []) ∧
    (MayRun s l .node n → checkKeys nodeSpecs [] l.keys = .ok () → (n.putKeys nodeSpecs 0 l.keys).nodeRegOk = true →
      exec (.setNode l) s = answers s (Node.nodeChanged n (n.setKeys nodeSpecs 0 l.keys) 70000) l []) ∧
    (MayRun s l .dic n → dicCheck l.keys = .ok () → exec (.setDic l) s = answers s (n.setDic l.keys) l [])

/-- `SET BUS` on a port, a gate, a published value, an alarm frame's destination and a trim entry; `SET GP MASK0=`;
`SET UC CTAB=`: each key's setting takes its value; the completion line is the whole reply. `SET DISP WAVE` for a
length and for one transition's data, and `SET DISP COM=`: the waveform's frame count, its words, the common's
segments; the completion line is the whole reply. -/
def Obligations.NamedItemsWritten : Prop :=
  (∀ (s : State) (l : Line) (n : Node), l.idx = none →
    (MayRun s l .bus n → ∀ p, keyPort l.keys = p →
      (checkKeys busPortAll ["PORT"] l.keys = .ok () → wideBad l.keys = false →
        (∀ c, keyNum busPortAll l.keys "CRATE" = some c → (n.bp p).count ≤ crateLimit c) →
        (∀ c, keyNum busPortAll l.keys "BRATE" = some c → (n.bp p).count ≤ brateLimit c) →
        (l.keys.any (fun x => wakeKeys.contains x.1) && n.surveyOn p) = false →
        ∀ m, ((n.setKeys busPortSpecs p (Keys.without l.keys ["PORT", "WDATA", "WDMASK"])).putWide l.keys "WDATA"
            (Ad.BUS_WDATA p)).putWide l.keys "WDMASK" (Ad.BUS_WDMASK p) = m →
        exec (.setBusPort l) s = answers s (Node.busChanged n
          (if hasKey l.keys "WDATA" || hasKey l.keys "WDMASK" then m.dirty else m) 70000) l []) ∧
      (portOnly (gateKey :: gateSpecs p) ["GATE"] l.keys = .ok () →
        exec (.setBusGate l) s = answers s (n.setKeys (gateSpecs p) ((keyNum [gateKey] l.keys "GATE").getD 0)
          (Keys.without l.keys ["PORT", "GATE"])) l []) ∧
      (portOnly [stationKey "TRIMLOCK"] ["TRIMLOCK"] l.keys = .ok () →
        ∀ k, n.trimFind p ((keyNum [stationKey "TRIMLOCK"] l.keys "TRIMLOCK").getD 0) = some k →
        exec (.setBusTrimlock l) s = answers s (n.setOn (Fd.BUS_TRIM_LOCK p k) true) l [])) ∧
    (MayRun s l .bus n → checkKeys (valKey :: valSpecs) ["VAL"] l.keys = .ok () →
      (∀ c, keyNum valSpecs l.keys "SRC" = some c → ¬ (c ≠ 0 ∧ (c - 1) / 65536 = 4)) →
      (∀ c, keyNum valSpecs l.keys "PERIOD" = some c → c % 10 = 0) →
      ∀ v m, (keyNum [valKey] l.keys "VAL").getD 0 = v → n.setKeys valSpecs v (Keys.without l.keys ["VAL"]) = m →
      ∀ vals, (m.bus.vals.filter (fun x => x.1 != v)) ++ (if m.k (Kid.valSrc v) = 0#32 then [] else [(v, ⟨m.tick, 4⟩)]) = vals →
      exec (.setBusVal l) s = answers s { m with bus := { m.bus with vals := vals } } l []) ∧
    (MayRun s l .bus n → checkKeys almToSpecs ["ALMTO"] l.keys = .ok () →
      exec (.setBusAlmto l) s = answers s (n.setKeys almToSpecs 0 l.keys) l []) ∧
    (MayRun s l .gp n → ∀ m0 v0 m1 v1 : Nat, checkKeys gpMaskSpecs (["MASK0", "VAL0"] ++
        (if hasKey l.keys "MASK1" then ["VAL1"] else []) ++ (if hasKey l.keys "VAL1" then ["MASK1"] else [])) l.keys = .ok () →
      (keyNum gpMaskSpecs l.keys "MASK0").getD 0 = m0 → (keyNum gpMaskSpecs l.keys "VAL0").getD 0 = v0 →
      (keyNum gpMaskSpecs l.keys "MASK1").getD 0 = m1 → (keyNum gpMaskSpecs l.keys "VAL1").getD 0 = v1 →
      BitVec.ofNat 32 m0 &&& n.rd Ad.GP_HWMASK0 = 0#32 → BitVec.ofNat 32 m1 &&& n.rd Ad.GP_HWMASK1 = 0#32 →
      exec (.setGpMask l) s = answers s ((n.maskWrite Ad.GP_GPOUT0 m0 v0).maskWrite Ad.GP_GPOUT1 m1 v1) l []) ∧
    (MayRun s l .uc n → ∀ t i r c, checkKeys ctabSpecs ["CTAB"] l.keys = .ok () → (keyNum ctabSpecs l.keys "CTAB").getD 0 = t →
      keyNum ctabSpecs l.keys "NPT" = none → keyNum ctabSpecs l.keys "POINT" = some i → keyNum ctabSpecs l.keys "OHM" = some r →
      keyNum ctabSpecs l.keys "DEGC" = some c → (List.range 24).any (fun j => n.usesTable j t) = false →
      exec (.setUcCtab l) s = answers s ((n.wr (ctabOhm t i) (BitVec.ofNat 32 r)).wr (ctabDeg t i) (BitVec.ofNat 32 c)).dirty l [])) ∧
  (∀ (s : State) (l : Line) (n : Node), l.idx = none → MayRun s l .disp n → n.dispOpen l.keys = .ok () →
    (onlyKeys ["MODE", "BAND", "LEN"] ["MODE", "BAND", "LEN"] l.keys = .ok () → checkKeys waveSpecs [] l.keys = .ok () →
      exec (.setDispWaveLen l) s = answers s
        (n.setK (Kid.waveLen (waveBand l.keys)) (BitVec.ofNat 32 (waveNum l.keys "LEN"))).dirty l []) ∧
    (∀ ds, onlyKeys ["MODE", "BAND", "FROM", "TO", "DATA"] ["MODE", "BAND", "FROM", "TO", "DATA"] l.keys = .ok () →
      waveDigits (keyVal l.keys "DATA") = .ok ds → checkKeys waveSpecs [] (l.keys.filter (fun p => p.1 != "DATA")) = .ok () →
      exec (.setDispWaveData l) s = answers s ((List.range 4).foldl (fun m k => m.setWave (waveBand l.keys) (waveNum l.keys "FROM")
        (waveNum l.keys "TO") k ((waveWords ds).getD k 0#32)) n).dirty l []) ∧
    (∀ c lo hi, checkKeys comSpecs ["COM", "SEGLO", "SEGHI"] l.keys = .ok () → keyNum comSpecs l.keys "COM" = some c →
      keyNum comSpecs l.keys "SEGLO" = some lo → keyNum comSpecs l.keys "SEGHI" = some hi → hasKey l.keys "BLINKLO" = false →
      hasKey l.keys "BLINKHI" = false → keyNum comSpecs l.keys "BLINKLO" = none → keyNum comSpecs l.keys "BLINKHI" = none →
      exec (.setDispCom l) s = answers s ((n.setFd (Fd.LCD_SEGLO_SEG c) lo).setFd (Fd.LCD_SEGHI_SEG c) hi).lcdCommit l []))

/-! ### Actions on a helper as a whole -/

/-- `CLEAR TW` clears the transfer counters, `CLEAR DIC` the stray count, `DO TIME SET` holds the new time until the
second it names, `DO UC QUAD= FAIL` notes the quad to be failed, `DO UC QUAD= RESTORE` begins the migration back,
`DO TRANS ARM` and `DISARM` change the recorder's state where it allows; the completion line is the whole reply. -/
def Obligations.InputActions : Prop :=
  ∀ (s : State) (l : Line) (n : Node), l.idx = none →
    (MayRun s l .tw n → l.keys = [] → exec (.clearTw l) s = answers s (n.wr Ad.TW_CNT 0#32) l []) ∧
    (MayRun s l .dic n → l.keys = [] → exec (.clearDic l) s = answers s (n.setFd Fd.DIC_STRAYCNT_COUNT 0) l []) ∧
    (MayRun s l .time n → ∀ sec qns a : Nat, checkKeys timeSetSpecs ["SEC", "QNS", "AT"] l.keys = .ok () →
      (keyNum timeSetSpecs l.keys "SEC").getD 0 = sec → (keyNum timeSetSpecs l.keys "QNS").getD 0 = qns →
      (keyNum timeSetSpecs l.keys "AT").getD 0 = a → n.stageAt 7 + 40000000 ≤ a * qnsSec →
      a * qnsSec ≤ n.stageAt 7 + 60 * qnsSec →
      n.fd Fd.TIME_STATUS_STATE = stUnset ∨ n.fd Fd.TIME_STATUS_STATE = stHoldover →
      exec (.doTimeSet l) s = answers s (Node.setOn { n with tm := { n.tm with setPend := some (sec * qnsSec + qns, a) } }
        Fd.TIME_STATUS_SETPEND true) l []) ∧
    (MayRun s l .uc n → checkKeys quadSpecs ["QUAD"] l.keys = .ok () → n.fd Fd.UC_QSTAT_QX = 0 → n.uc.forced = none →
      exec (.doUcQuadFail l) s = answers s { n with uc := { n.uc with forced := keyNum quadSpecs l.keys "QUAD" } } l []) ∧
    (MayRun s l .uc n → checkKeys quadSpecs ["QUAD"] l.keys = .ok () → ∀ k, keyNum quadSpecs l.keys "QUAD" = some k →
      n.fd (qFd k) ≠ 0 → 16 ≤ (n.quad k).pass → ∀ r, n.putMig ⟨k, n.tick + 1, true⟩ = r →
      exec (.doUcQuadRestore l) s = answers s (((List.range 4).foldl (fun (m : Node) (j : Nat) =>
        if streamsOf (m.chan (4 * k + j)).mode = 0 then m
        else m.setChan (4 * k + j) { (m.dropWindow (4 * k + j)).chan (4 * k + j) with staleDue := true }) r).pauseMrs false) l []) ∧
    (MayRun s l .trans n → l.keys = [] →
      (∀ m, n.doArm (n.stageAt 7) = some m → exec (.doTransArm l) s = answers s m l []) ∧
      (∀ m, n.doDisarm = some m → exec (.doTransDisarm l) s = answers s m l []))

/-- The actions on the bus and on surveys that answer at once: `DO BUS ABORT`, `GATE=`, `TRIMCLR`, `SLEEP`, `WAKE`,
`WAKEUP`, `DO SURVEY START` and `ABORT`; the completion line is the whole reply. `DO SURVEY START` begins a survey
as its controller, on port A where the ports are linked (pair or waystation) and on the port named otherwise; `DO SURVEY ABORT` ends every
survey this node controls with result 4. -/
def Obligations.BusActions : Prop :=
  (∀ (s : State) (l : Line) (n : Node) (p : Nat), l.idx = none → keyPort l.keys = p → MayRun s l .bus n →
    (∀ k, portOnly [kk "MB" (.int 16 63) (fun _ => 0)] ["MB"] l.keys = .ok () → n.busState p = 1 →
      (keyNum sendSpecs l.keys "MB").getD 0 = k → exec (.doBusAbort l) s = answers s (n.abortMb p k) l []) ∧
    (∀ g, portOnly [gateKey] ["GATE"] l.keys = .ok () → (keyNum [gateKey] l.keys "GATE").getD 0 = g →
      exec (.doBusGateReset l) s = answers s (n.gateReset p g) l []) ∧
    (portOnly [stationKey "STATION"] [] l.keys = .ok () → keyNum [stationKey "STATION"] l.keys "STATION" = none →
      exec (.doBusTrimclr l) s = answers s ((List.range 64).foldl (fun m k => m.trimDrop p k) n) l []) ∧
    (∀ st k, portOnly [stationKey "STATION"] [] l.keys = .ok () → keyNum [stationKey "STATION"] l.keys "STATION" = some st →
      n.trimFind p st = some k → exec (.doBusTrimclr l) s = answers s (n.trimDrop p k) l []) ∧
    (portOnly [] [] l.keys = .ok () → n.surveyOn p = false → exec (.doBusSleep l) s = answers s
      (if n.pairOn then (n.sleepAsk 0 0).sleepAsk 1 0 else n.sleepAsk p 0) l []) ∧
    (portOnly [] [] l.keys = .ok () → exec (.doBusWake l) s = answers s (n.wakeBoth p 2) l []) ∧
    (∀ dst mask data o, portOnly [stationKey "TO"] [] l.keys = .ok () → n.busState p = 1 →
      (keyNum [stationKey "TO"] l.keys "TO").getD 255 = dst →
      bytesLE 4 (n.rd (Ad.BUS_WDMASK p 0)).toNat ++ bytesLE 4 (n.rd (Ad.BUS_WDMASK p 1)).toNat = mask →
      bytesLE 4 (n.rd (Ad.BUS_WDATA p 0)).toNat ++ bytesLE 4 (n.rd (Ad.BUS_WDATA p 1)).toNat = data →
      OutMsg.mk (ident 0 0x310 n.station dst) (if mask.all (· == 0#8) then [] else data) true none = o →
      exec (.doBusWakeup l) s = answers s (if n.pairOn then n.sendBoth o else n.queueMsg p o) l [])) ∧
  (∀ (s : State) (l : Line) (n : Node), l.idx = none → MayRun s l .survey n →
    (∀ p, (if n.bus.linkF = 0 then keyPort l.keys else 0) = p → checkKeys surveyStartSpecs [] l.keys = .ok () → n.surveyOn p = false →
      n.busState p = 1 → (n.bp p).sleep = 0 → n.busOff p = false →
      exec (.doSurveyStart l) s = answers s (Node.svStart { n with srv := { n.srv with wayNext := n.wayOn, used := [] } } p
        ((keyNum surveyStartSpecs l.keys "MODE").getD 0 == 1)) l []) ∧
    (l.keys = [] → (n.sv 0).role = 1 ∨ (n.sv 1).role = 1 → exec (.doSurveyAbort l) s = answers s
      ([0, 1].foldl (fun m p => if (m.sv p).role = 1 then (m.withdraw p).svEnd p 4 else m) n) l []))

/-- `DO GP LOCK` writes the bank and the mask behind both lock keys; `DO DISP LOAD` stores its data in the image at
the address its X and Y give, four pixels to the byte, after the snapshot while one is being taken; `DO SYS REINIT
PORT=` starts a port afresh. `DO NODE LOAD` stores its bytes in the annex's memory and leaves the annex in state 0;
`DO NODE STOP` stops the annex with cause 0; `DO NODE QUIET` and `FULL` change the power state; `DO DIC TAKE` takes
the deliverable interrupt of the host that stands first and replies with it, or says that there is none. -/
def Obligations.OutputActions : Prop :=
  (∀ (s : State) (l : Line) (n : Node), l.idx = none →
    (MayRun s l .gp n → checkKeys gpLockSpecs ["BANK", "MASK"] l.keys = .ok () → ∀ t, n.stageAt 7 = t →
      exec (.doGpLock l) s = answers s (((n.gplock .cmd 0xA5C3#32 t).gplock .cmd 0x3C5A#32 (t + 20)).gplock .cmd
        (BitVec.ofNat 32 ((keyNum gpLockSpecs l.keys "BANK").getD 0 * 2 ^ 31 + (keyNum gpLockSpecs l.keys "MASK").getD 0))
        (t + 40)) l []) ∧
    (MayRun s l .disp n → ∀ d x y a, onlyKeys ["X", "Y", "DATA"] ["X", "Y", "DATA"] l.keys = .ok () → dataKey l.keys 32 = .ok d →
      checkKeys loadSpecs [] (l.keys.filter (fun p => p.1 != "DATA")) = .ok () → (keyNum loadSpecs l.keys "X").getD 0 = x →
      (keyNum loadSpecs l.keys "Y").getD 0 = y → x + 4 * d.length ≤ n.dispW → y < n.dispH → x % 4 = 0 → n.dispOpen l.keys = .ok () →
      n.fd Fd.DISP_BASE_BASE + y * (n.dispW / 4) + x / 4 = a →
      exec (.doDispLoad l) s = answers s
        (if n.on Fd.DISP_STAT_SNAP then { n with disp := { n.disp with loads := n.disp.loads ++ [(a, d)] } } else n.setBytes a d) l []) ∧
    (MayRun s l .sys n → checkKeys reinitPortSpecs ["PORT"] l.keys = .ok () → ∀ p, p = (match keyNum reinitPortSpecs l.keys "PORT" with
        | some 0 => Port.host
        | some 1 => .service
        | _ => .bus) → exec (.doSysReinitPort l) s = answers s (n.reinitPort p l.port) l [])) ∧
  (∀ (s : State) (l : Line) (n : Node), l.idx = none →
    (MayRun s l .node n → ∀ d a, onlyKeys ["ADDR", "DATA"] ["ADDR", "DATA"] l.keys = .ok () → (∃ v, keyVal l.keys "DATA" = some v ∧
        (hexData v).isSome = true) → checkKeys nodeLoadSpecs [] (l.keys.filter (fun k => k.1 == "ADDR")) = .ok () →
      dataKey l.keys 64 = .ok d → bigKey l.keys "ADDR" = a → a + d.length ≤ 0x10100000 → n.sys.power ≠ .quiet → n.annexRuns = false →
      exec (.doNodeLoad l) s = answers s ((n.setBytes a d).annexTo 0 []) l []) ∧
    (MayRun s l .node n → l.keys = [] → 2 ≤ n.annexState → exec (.doNodeStop l) s = answers s (n.annexStop 0 70000) l []) ∧
    (MayRun s l .node n → l.keys = [] → n.sys.power ≠ .quiet → exec (.doNodeQuiet l) s = answers s (n.goQuiet 0 70000) l []) ∧
    (MayRun s l .node n → l.keys = [] → n.sys.power ≠ .full → exec (.doNodeFull l) s = answers s (n.goFull 0 70000) l []) ∧
    (MayRun s l .dic n → l.keys = [] → n.winner (n.deliverable 1) = none →
      exec (.doDicTake l) s = answers s n l [[.w "DIC TAKE NONE"]]) ∧
    (MayRun s l .dic n → l.keys = [] → ∀ k, n.winner (n.deliverable 1) = some k →
      ∃ m : Node, exec (.doDicTake l) s = answers s m l [[.w "DIC TAKE", .n k, .w "PRIO", .n (n.prio k)]] ∧ k ∈ m.dic.actHost))

/-! ### Commands on indexed items -/

/-- `SET` of one item, its keys in order: its settings take the values (`setKeys`, or the helper's own `ucApply`,
`apApply`, `agApply`), the helper follows the change, and the completion line is the whole reply. One clause for
each of `SET UC`, `SET LO`, `SET TIME n`, `SET GRID n`, `SET TRANS n`, `SET AP`, `SET AG`, `SET CALL n`, `SET ARC
code`, `SET BUS f`, `SET GP` and `SET DIC n`. -/
def Obligations.ItemSettingsWritten : Prop :=
  ∀ (s : State) (l : Line) (n : Node) (i : Nat),
    (MayRun s l .uc n → l.items 24 = .ok [i] → s.node.deferTicks i = 0 → ucCheck l.keys n [i] = .ok () → ∀ m, n.ucApply l.keys i = m →
      exec (.setUc l) s = answers s (Node.ucChanged n (if hasKey l.keys "OUT" && !(m.chan i).drain
        then m.setChan i { m.chan i with goal := none } else m) i) l []) ∧
    (MayRun s l .lo n → l.items 8 = .ok [i] → loCheckKeys l.keys n [i] = .ok () → exec (.setLo l) s = answers s
      (Node.loChanged n (n.setKeys loSpecs i l.keys) i (hasKey l.keys "OUT") (hasKey l.keys "MODE")) l []) ∧
    (MayRun s l .time n → l.items 8 = .ok [i] → checkKeys captureSpecs [] l.keys = .ok () → ∀ m, n.setKeys captureSpecs i l.keys = m →
      exec (.setTimeCapture l) s = answers s
        (if hasKey l.keys "PIN" then m.setOn (Fd.TIME_CAPCFG_ENABLE i) (m.fd (Fd.TIME_CAPCFG_SEL i) != 63) else m) l []) ∧
    (MayRun s l .grid n → l.items 8 = .ok [i] → checkKeys gridInSpecs [] l.keys = .ok () →
      exec (.setGrid l) s = answers s (n.setKeys gridInSpecs i l.keys) l []) ∧
    (MayRun s l .trans n → l.items 8 = .ok [i] → checkKeys transInSpecs [] l.keys = .ok () →
      exec (.setTrans l) s = answers s (n.setKeys transInSpecs i l.keys) l []) ∧
    (MayRun s l .ap n → l.items 1024 = .ok [i] → apCheck l.keys n [i] = .ok () →
      exec (.setAp l) s = answers s (Node.apChanged n (n.apApply l.keys i) i) l []) ∧
    (MayRun s l .ag n → l.items 64 = .ok [i] → agCheck l.keys n [i] = .ok () → exec (.setAg l) s = answers s (n.agApply l.keys i) l []) ∧
    (MayRun s l .call n → l.items 8 = .ok [i] → checkKeys callLineSpecs [] l.keys = .ok () → n.fd Fd.ALM_STAT_STATE ≠ 0 →
      exec (.setCallLine l) s = answers s (n.setKeys callLineSpecs i l.keys) l []) ∧
    (MayRun s l .arc n → l.items 512 = .ok [i] → codeCheck l.keys n [i] = .ok () → ∀ m, n.setKeys codeSpecs i l.keys = m →
      exec (.setArcCode l) s = answers s
        (if hasKey l.keys "RULE" || hasKey l.keys "RATE" || hasKey l.keys "BURST" then m.refill i else m) l []) ∧
    (MayRun s l .bus n → l.items 128 = .ok [i] → portOnly (filterSpecs (keyPort l.keys)) [] l.keys = .ok () →
      exec (.setBusFilter l) s = answers s (n.setKeys (filterSpecs (keyPort l.keys)) i (Keys.without l.keys ["PORT"])) l []) ∧
    (MayRun s l .gp n → l.items 48 = .ok [i] → checkKeys gpSpecs [] l.keys = .ok () → gpCheck l.keys n i = .ok () →
      exec (.setGp l) s = answers s ((Node.gpChanged n (n.setKeys gpSpecs i (l.keys.filter (fun p => p.1 != "OUT"))) i true).putKeys gpSpecs i
        (l.keys.filter (fun p => p.1 == "OUT"))) l []) ∧
    (MayRun s l .dic n → l.idx ≠ none → l.items 256 = .ok [i] → dicSrcCheck l.keys = .ok () →
      ∀ m, n.setKeys dicSrcSpecs i (l.keys.filter (fun p => p.1 != "MOD")) = m →
      (keyNum dicSrcSpecs l.keys "MOD" = none → exec (.setDic l) s = answers s m l []) ∧
      (∀ v, keyNum dicSrcSpecs l.keys "MOD" = some v →
        exec (.setDic l) s = answers s (m.setFd ⟨Ad.DIC_SRC i, 14, 11⟩ (modCode v)).dirty l []))

/-- An action on one item. `DO TIME n TAKE` replies with the stamps held, oldest first, then the overflow mark, and
clears both; `DO AP ACK`, `SHELVE`, `UNSHELVE`, `DO AG ACK` and `FORESET` act on the point or the group; `DO GP
TOGGLE` inverts the output latch of a pin that software owns; `CLEAR LO` clears the output's event bits. -/
def Obligations.ItemActions : Prop :=
  ∀ (s : State) (l : Line) (n : Node) (i : Nat),
    (MayRun s l .time n → l.items 8 = .ok [i] → l.keys = [] → exec (.doTimeTake l) s = answers s
      ((n.setCap i []).setOn (ovfFd i) false) l ((Bank.get [] n.tm.caps i).map (fun t => [.w "TIME", .n i, .w "SEC", .n (secOf t),
        .w "QNS", .n (qnsOf t)]) ++ [[.w "TIME", .n i, .w "OVF", .n (n.fd (ovfFd i))]])) ∧
    (MayRun s l .ap n → l.items 1024 = .ok [i] →
      (apAckCheck l.keys n [i] = .ok () → exec (.doApAck l) s = answers s (n.ack i 1 .cmd) l []) ∧
      (∀ t, checkKeys apShelveSpecs ["TIME"] l.keys = .ok () → n.fd Fd.ALM_STAT_STATE ≠ 0 → keyNum apShelveSpecs l.keys "TIME" = some t →
        exec (.doApShelve l) s = answers s (n.shelve i t 1 .cmd) l []) ∧
      (l.keys = [] → n.fd Fd.ALM_STAT_STATE ≠ 0 → exec (.doApUnshelve l) s = answers s
        (if (n.pt i).shelf.isSome then n.unshelve i 1 .cmd else n) l [])) ∧
    (MayRun s l .ag n → l.items 64 = .ok [i] → l.keys = [] → n.fd Fd.ALM_STAT_STATE ≠ 0 →
      exec (.doAgAck l) s = answers s (n.ackGroup i 1 .cmd) l [[.w "ACKED", .w ("AG" ++ toString i), .n (n.ackable i).length]] ∧
      exec (.doAgForeset l) s = answers s (n.clearFo i 1 .cmd) l []) ∧
    (MayRun s l .gp n → l.items 48 = .ok [i] → l.keys = [] → n.owned i = false →
      exec (.doGpToggle l) s = answers s (n.setOn (outFd i) (!n.on (outFd i))) l []) ∧
    (MayRun s l .lo n → l.items 8 = .ok [i] → l.keys = [] → exec (.clearLo l) s = answers s
      ([i, 8 + i, 16 + i, 24 + i].foldl (fun m b => m.clrBit Ad.LO_EVT0 b) (n.clrBit Ad.LO_EVT1 i)) l [])

/-- `DO DIC n RING`, `CLEAR` and `DONE` of one source: `RING` rings it, `CLEAR` ends its pending, and `DONE` ends
its service where the host had taken it; where it had not, `DONE` is refused with `?E308` and counted as stray. -/
def Obligations.InterruptActions : Prop :=
  ∀ (s : State) (l : Line) (n : Node) (i : Nat), MayRun s l .dic n → l.items 256 = .ok [i] → l.keys = [] →
    exec (.doDicRing l) s = answers s (n.ring i) l [] ∧
    exec (.doDicClear l) s = answers s (n.clrBit (Ad.DIC_PEND (i / 32)) (i % 32)) l [] ∧
    (n.act i = true → n.dic.actHost.contains i = true →
      ∃ m : Node, exec (.doDicDone l) s = answers s m l [] ∧ m.dic.actHost = n.dic.actHost.filter (· != i)) ∧
    ((n.act i && n.dic.actHost.contains i) = false →
      exec (.doDicDone l) s = becomes s ((n.replyErr l ⟨308, []⟩).stray i 1 0))

/-- A command on two items or more starts a micro-routine over them, in ascending order, on the line's port; its
first unit is still to come. -/
def Obligations.ManyItemsStartMicroRoutine : Prop :=
  ∀ (s : State) (l : Line) (n : Node) (is : List Nat), 2 ≤ is.length →
    (MayRun s l .lo n → l.items 8 = .ok is → (loCheckKeys l.keys n is = .ok () →
        exec (.setLo l) s = becomes s (n.startMr l verbSet .lo (.set .lo l.keys) is true)) ∧
      (l.keys = [] → exec (.clearLo l) s = becomes s (n.startMr l verbClear .lo (.clear .lo) is true))) ∧
    (MayRun s l .uc n → l.items 24 = .ok is → ucCheck l.keys n is = .ok () →
      exec (.setUc l) s = becomes s (n.startMr l verbSet .uc (.set .uc l.keys) is true)) ∧
    (MayRun s l .time n → l.items 8 = .ok is → (checkKeys captureSpecs [] l.keys = .ok () →
        exec (.setTimeCapture l) s = becomes s (n.startMr l verbSet .time (.set .time l.keys) is true)) ∧
      (l.keys = [] → exec (.doTimeTake l) s = becomes s (n.startMr l verbDo .time (.act .time "TAKE" []) is true))) ∧
    (MayRun s l .ap n → l.items 1024 = .ok is → (apCheck l.keys n is = .ok () →
        exec (.setAp l) s = becomes s (n.startMr l verbSet .ap (.set .ap l.keys) is true)) ∧
      (apAckCheck l.keys n is = .ok () → exec (.doApAck l) s = becomes s (n.startMr l verbDo .ap (.act .ap "ACK" l.keys) is true))) ∧
    (MayRun s l .ag n → l.items 64 = .ok is → agCheck l.keys n is = .ok () →
      exec (.setAg l) s = becomes s (n.startMr l verbSet .ag (.set .ag l.keys) is true)) ∧
    (MayRun s l .arc n → l.items 512 = .ok is → codeCheck l.keys n is = .ok () →
      exec (.setArcCode l) s = becomes s (n.startMr l verbSet .arc (.set .arc l.keys) is true)) ∧
    (MayRun s l .dic n → l.items 256 = .ok is → l.keys = [] →
      exec (.doDicRing l) s = becomes s (n.startMr l verbDo .dic (.act .dic "RING" []) is true))

/-! ### Lines that answer later: reloads, transfers, updates, resets -/

/-- `DO <helper> REINIT` starts a micro-routine that reloads the helper's stored settings: over the items named, or,
without an index, over the helper as a whole (all channels of `UC` and then the helper itself, all outputs of `LO`
and then the helper, all pins of `GP`). `DO BUS REINIT PORT=` starts the micro-routine that reloads the port's
stored settings. -/
def Obligations.ReinitStartsMicroRoutine : Prop :=
  (∀ (s : State) (l : Line) (n : Node), l.keys = [] →
    (l.idx = none →
      (MayRun s l .time n → exec (.doTimeReinit l) s = becomes s (n.startMr l verbDo .time (.reinit .time) [0] false)) ∧
      (MayRun s l .uc n → (List.range 24).any (fun i => n.noReserve (i / 4)) = false →
        exec (.doUcReinit l) s = becomes s (n.startMr l verbDo .uc (.reinit .uc) (List.range 25) true)) ∧
      (MayRun s l .lo n → exec (.doLoReinit l) s = becomes s (n.startMr l verbDo .lo (.reinit .lo) (List.range 9) true)) ∧
      (MayRun s l .grid n → exec (.doGridReinit l) s = becomes s (n.startMr l verbDo .grid (.reinit .grid) [0] false)) ∧
      (MayRun s l .trans n → exec (.doTransReinit l) s = becomes s (n.startMr l verbDo .trans (.reinit .trans) [0] false)) ∧
      (MayRun s l .call n → n.fd Fd.ALM_STAT_STATE ≠ 0 →
        exec (.doCallReinit l) s = becomes s (n.startMr l verbDo .call (.reinit .call) [0] false)) ∧
      (MayRun s l .arc n → exec (.doArcReinit l) s = becomes s (n.startMr l verbDo .arc (.reinit .arc) [0] false)) ∧
      (MayRun s l .gp n → exec (.doGpReinit l) s = becomes s (n.startMr l verbDo .gp (.reinit .gp) (List.range 48) true)) ∧
      (MayRun s l .tw n → exec (.doTwReinit l) s = becomes s (n.startMr l verbDo .tw (.reinit .tw) [0] false)) ∧
      (MayRun s l .disp n → n.dispState ≠ 2 →
        exec (.doDispReinit l) s = becomes s (n.startMr l verbDo .disp (.reinit .disp) [0] false)) ∧
      (MayRun s l .dic n → exec (.doDicReinit l) s = becomes s (n.startMr l verbDo .dic (.reinit .dic) [0] false))) ∧
    (∀ is, (MayRun s l .uc n → l.idx ≠ none → l.items 24 = .ok is → is.any (fun i => n.noReserve (i / 4)) = false →
        exec (.doUcReinit l) s = becomes s (n.startMr l verbDo .uc (.reinit .uc) is true)) ∧
      (MayRun s l .lo n → l.items 8 = .ok is → exec (.doLoReinit l) s = becomes s (n.startMr l verbDo .lo (.reinit .lo) is true)) ∧
      (MayRun s l .ap n → l.items 1024 = .ok is → n.fd Fd.ALM_STAT_STATE ≠ 0 →
        exec (.doApReinit l) s = becomes s (n.startMr l verbDo .ap (.reinit .ap) is true)) ∧
      (MayRun s l .ag n → l.items 64 = .ok is → n.fd Fd.ALM_STAT_STATE ≠ 0 →
        exec (.doAgReinit l) s = becomes s (n.startMr l verbDo .ag (.reinit .ag) is true)) ∧
      (MayRun s l .gp n → l.items 48 = .ok is → exec (.doGpReinit l) s = becomes s (n.startMr l verbDo .gp (.reinit .gp) is true)))) ∧
  (∀ (s : State) (l : Line) (n : Node), l.idx = none → MayRun s l .bus n → portOnly [] [] l.keys = .ok () →
    exec (.doBusReinit l) s = becomes s (n.startMr l verbDo .bus (.reinit .bus) [keyPort l.keys] false))

/-- `DO TW WRITE`, `READ` and `CLEAR` put their transfer in the queue, or look at the wires, and their reply comes
when it has ended. `DO DISP UPDATE` starts an update where one can start and answers at once, or with `WAIT=ON` when
the update has ended; `DO DISP RAILS=ON` asks for the rails and answers when they are up, `RAILS=OFF` lets them fall
and answers at once. -/
def Obligations.TransfersAndDisplayActions : Prop :=
  (∀ (s : State) (l : Line) (n : Node), l.idx = none → MayRun s l .tw n → n.twState = 1 →
    (∀ d a, onlyKeys ["ADDR", "DATA"] ["ADDR", "DATA"] l.keys = .ok () → dataKey l.keys 32 = .ok d →
      checkKeys twAddrSpecs ["ADDR"] (l.keys.filter (fun p => p.1 != "DATA")) = .ok () → keyNum twAddrSpecs l.keys "ADDR" = some a →
      exec (.doTwWrite l) s = becomes s (n.twAsk l ⟨some l.port, false, a, none, d.length, d⟩)) ∧
    (∀ a c, checkKeys twAddrSpecs ["ADDR", "COUNT"] l.keys = .ok () → keyNum twAddrSpecs l.keys "ADDR" = some a →
      keyNum twAddrSpecs l.keys "COUNT" = some c →
      exec (.doTwRead l) s = becomes s (n.twAsk l ⟨some l.port, true, a, keyNum twAddrSpecs l.keys "REG", c, []⟩)) ∧
    (l.keys = [] → n.tw.phase = .idle → exec (.doTwClear l) s = becomes s
      ((n.setPort l.port { n.port l.port with await := some ⟨l.tag, .tw, n.tick⟩, replyOpen := true }).twClear (some l.port)))) ∧
  (∀ (s : State) (l : Line) (n : Node), l.idx = none → MayRun s l .disp n →
    (∀ m forced data, checkKeys updSpecs [] l.keys = .ok () →
      data = (if forced then [[Item.w "DISP FORCED FULL"]] else []) →
      (keyNum updSpecs l.keys "WAIT" ≠ some 1 → n.updStart (keyNum updSpecs l.keys "MODE" == some 0) (keyNum updSpecs l.keys "GREY")
          none 70000 = .ok (m, forced) → exec (.doDispUpdate l) s = answers s m l data) ∧
      (keyNum updSpecs l.keys "WAIT" = some 1 → n.updStart (keyNum updSpecs l.keys "MODE" == some 0) (keyNum updSpecs l.keys "GREY")
          (some l.port) 70000 = .ok (m, forced) → ∀ m', m.send l.port l.tag (data.map (fun i => (.data, i))) false = m' →
        exec (.doDispUpdate l) s = becomes s (m'.setPort l.port { m'.port l.port with await := some ⟨l.tag, .disp, n.tick⟩ }))) ∧
    (checkKeys railsSpecs ["RAILS"] l.keys = .ok () → n.dispOpen l.keys = .ok () →
      (keyNum railsSpecs l.keys "RAILS" ≠ some 1 → exec (.doDispRails l) s = answers s (n.railsOff (n.mono 70000)) l []) ∧
      (∀ m, keyNum railsSpecs l.keys "RAILS" = some 1 → n.disp.held = false → n.railsOn (some l.port) = .ok (m, false) →
        exec (.doDispRails l) s = becomes s
          (m.setPort l.port { m.port l.port with await := some ⟨l.tag, .disp, n.tick⟩, replyOpen := true }))))

/-- `DO NODE RESET` answers and lets the output drain before the reset; `DO NODE START` starts the annex where the
loaded image's check word agrees, and refuses it with `?E308` and the check word found where it does not; `DO NODE
DORMANT` answers and begins the entry; `DO SYS COMMIT` notes the image to be written and starts its micro-routine,
or is refused with `?E201 STORE` and the image's length where that exceeds 31,712 bytes. -/
def Obligations.NodeLifecycle : Prop :=
  ∀ (s : State) (l : Line) (n : Node), l.idx = none →
    (MayRun s l .node n → l.keys = [] → exec (.doNodeReset l) s = becomes s (n.drainReset l 8)) ∧
    (MayRun s l .node n → ∀ e k c, checkKeys startSpecs ["ENTRY", "LEN", "CHECK"] l.keys = .ok () → bigKey l.keys "ENTRY" = e →
      bigKey l.keys "LEN" = k → bigKey l.keys "CHECK" = c → entryIn e k = true → n.sys.power ≠ .quiet → n.annexRuns = false →
      (n.tcmCrc k = c → ∀ m, ((n.wr Ad.SYS_AENTRY (BitVec.ofNat 32 e)).wr Ad.SYS_ALEN (BitVec.ofNat 32 k)).wr Ad.SYS_ACRC
          (BitVec.ofNat 32 c) = m →
        exec (.doNodeStart l) s = answers s (m.annexStart e c 0 (fun m p => m.raiseCmd 0x0B1 p)) l []) ∧
      (n.tcmCrc k ≠ c → exec (.doNodeStart l) s = becomes s ((n.annexTo 0 []).replyErr l ⟨308, [.w "CHECK", .h (n.tcmCrc k) 8]⟩))) ∧
    (MayRun s l .node n → ∀ t, checkKeys dormantSpecs [] l.keys = .ok () → (keyNum dormantSpecs l.keys "TIME").getD 0 = t →
      n.sleepRefused t = none → exec (.doNodeDormant l) s = becomes s ((n.replyOk l []).sleepBegin t false 70000)) ∧
    (MayRun s l .sys n → l.keys = [] → ∀ k, Config.imageLen n.running = k → n.sys.commit = none → ∀ m : Node,
      m = { n with sys := { n.sys with commit := some ⟨n.commitTarget.1, n.commitTarget.2, k, n.running⟩ } } →
      exec (.doSysCommit l) s = if k ≤ 31712 then
        becomes s ((m.setFd Fd.SYS_STORE_BUSY 1).startMr l verbDo .sys .commit (List.range (blocksOf k + 1)) false)
        else refuses s l ⟨201, [.w "STORE", .n k]⟩)

/-- A command that needs confirming (`DO ARC RESEAL`, `DO SYS FACTORY`, `DO NODE PWRCYC`): without `CONFIRM` it
replies with a code of four digits, which is free (log entry 2), and holds it for 30 s; with that code, from the
very next line, `DO SYS FACTORY` clears the store and drains, `DO NODE PWRCYC` begins the power cycle and `DO ARC
RESEAL` its micro-routine, whose first phase follows at once unless it is paused; with no code held it is refused
with `?E305`. -/
def Obligations.ConfirmedCommands : Prop :=
  ∀ (s : State) (l : Line) (n : Node), Live s l → taken s l = n → l.idx = none →
    (l.keys = [] → ∀ (code : Nat) (m : Nat → Node), Config.confirmCode n.free % 10000 = code →
      (∀ what, m what = Node.setPort { n with free := n.free + 1 } l.port
        { n.port l.port with confirm := some ⟨what, code, n.tick + 1500000⟩ }) →
      (n.mayWrite l.port .arc none = .ok () → n.fd Fd.ARC_STAT_STATE = 1 → n.on Fd.ARC_STAT_CLEARING = false →
        n.on Fd.ARC_STAT_RESEALING = false → exec (.doArcReseal l) s = answers s (m 0) l [[.w "CONFIRM", .c (fourDigits code)]]) ∧
      (n.mayWrite l.port .node none = .ok () → exec (.doNodePwrcyc l) s = answers s (m 1) l [[.w "CONFIRM", .c (fourDigits code)]]) ∧
      (n.mayWrite l.port .sys none = .ok () → exec (.doSysFactory l) s = answers s (m 2) l [[.w "CONFIRM", .c (fourDigits code)]])) ∧
    (∀ c : Nat, c ≤ 9999 → l.keys = [("CONFIRM", .int c)] →
      (∀ u, (s.node.port l.port).confirm = some ⟨2, c, u⟩ → n.tick ≤ u → n.mayWrite l.port .sys none = .ok () →
        exec (.doSysFactory l) s = becomes s (n.factoryClear.drainReset l 0x20)) ∧
      (∀ u, (s.node.port l.port).confirm = some ⟨1, c, u⟩ → n.tick ≤ u → n.mayWrite l.port .node none = .ok () →
        exec (.doNodePwrcyc l) s = becomes s { (n.replyOk l []) with sys := { n.sys with pwrcyc := some 0, pwrcycAt := n.tick } }) ∧
      (∀ u r m, (s.node.port l.port).confirm = some ⟨0, c, u⟩ → n.tick ≤ u → n.mayWrite l.port .arc none = .ok () →
        n.fd Fd.ARC_STAT_STATE = 1 → n.on Fd.ARC_STAT_CLEARING = false → n.on Fd.ARC_STAT_RESEALING = false →
        n.startMr l verbDo .arc .reseal [0, 1, 2] false = r → (r.port l.port).mr = some m →
        exec (.doArcReseal l) s = becomes s (if m.paused then r
          else (r.setPort l.port { r.port l.port with mr := some { m with pos := 1 } }).reseal0)) ∧
      ((s.node.port l.port).confirm = none → ∀ i ∈ [Instr.doArcReseal l, .doSysFactory l, .doNodePwrcyc l],
        exec i s = refuses s l ⟨305, []⟩))

/-! ### Leases, watches, streams -/

/-- `HOLD` gives the port a lease on the items, for 60 s where no `TIME` is given, in the place of its own lease on
the same items; it is refused with `?E403` where 32 leases stand and with `?E401` and the holder's name where
another port's lease meets the items. `FREE` ends the leases of the port on the items, or on the whole helper, and
is refused with `?E402` where there is none. -/
def Obligations.LeasesGivenAndEnded : Prop :=
  ∀ (s : State) (l : Line) (n : Node) (o : Obj), Live s l → taken s l = n → l.keys = [] → leaseIndex l o = .ok () →
    (∀ rest, n.cmd.leases.filter (fun x => !(x.port == l.port && x.obj == o && sameIdx x.idx l.idx)) = rest →
      (rest.length < 32 → (∀ x ∈ n.cmd.leases, x.port ≠ l.port → x.obj = o → idxMeet x.idx l.idx = false) →
        exec (.hold l o) s = answers s { n with cmd := { n.cmd with leases :=
          rest ++ [⟨l.port, o, l.idx, some (n.cmd.clock + 60 * 50000), (n.port l.port).station⟩] } } l []) ∧
      (32 ≤ rest.length → exec (.hold l o) s = refuses s l ⟨403, []⟩) ∧
      (∀ x, rest.length < 32 → n.cmd.leases.find? (fun x => x.port != l.port && x.obj == o && idxMeet x.idx l.idx) = some x →
        exec (.hold l o) s = refuses s l ⟨401, [.w "HELD BY", .w (portName x.port)]⟩)) ∧
    (∀ gone : Lease → Bool, (∀ x, gone x = (x.port == l.port && x.obj == o && (l.idx.isNone || idxWithin (objCap o) x.idx l.idx))) →
      (n.cmd.leases.any gone = true → exec (.free l o) s = answers s
        { n with cmd := { n.cmd with leases := n.cmd.leases.filter (fun x => !gone x) } } l []) ∧
      (n.cmd.leases.any gone = false → exec (.free l o) s = refuses s l ⟨402, []⟩))

/-- `WATCH` adds the items to the port's watch list, each once, and `WATCH … OFF` takes them out; a list that would
grow beyond 32 entries is refused with `?E407`. It holds of every object that can be watched. `WATCH BUS PORT=p`
does the same for a bus port. -/
def Obligations.WatchListKept : Prop :=
  (∀ (s : State) (l : Line) (n : Node) (c : Instr) (o : Obj) (sub : String) (is : List (Option Nat)), Live s l → taken s l = n →
    ((c = .watchTime l ∧ o = .time ∧ sub = "" ∧ l.optItems 8 = .ok is) ∨
     (c = .watchBeat l ∧ o = .beat ∧ sub = "" ∧ l.idx = none ∧ is = [none]) ∨
     (c = .watchUc l ∧ o = .uc ∧ sub = "" ∧ ∃ js, l.items 24 = .ok js ∧ is = js.map some) ∨
     (c = .watchLo l ∧ o = .lo ∧ sub = "" ∧ ∃ js, l.items 8 = .ok js ∧ is = js.map some) ∨
     (c = .watchTrans l ∧ o = .trans ∧ sub = "" ∧ l.idx = none ∧ is = [none]) ∨
     (c = .watchAp l ∧ o = .ap ∧ sub = "" ∧ ∃ js, l.items 1024 = .ok js ∧ is = js.map some) ∨
     (c = .watchArc l ∧ o = .arc ∧ sub = "" ∧ l.idx = none ∧ is = [none]) ∨
     (c = .watchGp l ∧ o = .gp ∧ sub = "" ∧ ∃ js, l.items 48 = .ok js ∧ is = js.map some) ∨
     (c = .watchGpBank l ∧ o = .gp ∧ sub = "BANK" ∧ l.idx = none ∧ is = [none]) ∨
     (c = .watchDisp l ∧ o = .disp ∧ sub = "" ∧ l.idx = none ∧ is = [none]) ∨
     (c = .watchNode l ∧ o = .node ∧ sub = "" ∧ l.idx = none ∧ is = [none])) →
    ∀ ws rest, is.map (fun i => (⟨o, sub, i⟩ : Watch)) = ws → (n.port l.port).watches.filter (fun w => !ws.contains w) = rest →
      (l.keys = [("OFF", .int 1)] → exec c s = answers s (n.setPort l.port { n.port l.port with watches := rest }) l []) ∧
      (l.keys = [] → rest.length + ws.length ≤ 32 → exec c s = answers s (n.setPort l.port { n.port l.port with watches := rest ++ ws }) l []) ∧
      (l.keys = [] → 32 < rest.length + ws.length → exec c s = refuses s l ⟨407, []⟩)) ∧
  (∀ (s : State) (l : Line) (n : Node) (v : Val), Live s l → taken s l = n → l.idx = none → l.keys = [("PORT", v)] →
    portOnly [] [] l.keys = .ok () → ∀ p rest, keyPort l.keys = p → (n.port l.port).watches.filter (fun w => w != ⟨.bus, "", some p⟩) = rest →
      rest.length < 32 → exec (.watchBus l) s = answers s
        (n.setPort l.port { n.port l.port with watches := rest ++ [⟨.bus, "", some p⟩] }) l [])

/-- `STREAM` with a rate the item can be published at starts a stream on each item in the place of the port's stream
on it, refuses with `?E406` where more than 8 would run, and with rate 0 ends them. -/
def Obligations.StreamsKept : Prop :=
  ∀ (s : State) (l : Line) (n : Node) (c : Instr) (o : Obj) (is : List (Option Nat)) (r : Nat), Live s l → taken s l = n →
    l.keys = [("RATE", .int r)] →
    ((c = .streamUc l ∧ o = .uc ∧ ∃ js, l.items 24 = .ok js ∧ is = js.map some ∧ ∀ i ∈ js, r ≤ s.node.pubRate i) ∨
     (c = .streamLo l ∧ o = .lo ∧ r ≤ 5000 ∧ ∃ js, l.items 8 = .ok js ∧ is = js.map some) ∨
     (c = .streamGrid l ∧ o = .grid ∧ l.optItems 8 = .ok is ∧
       (r ≠ 0 → (fsRow 0 ++ fsRow 1).contains r = true ∧ r ≤ s.node.gridFs ∧ s.node.gridFs % r = 0))) →
    ∀ rest, n.cmd.streams.filter (fun t => !(t.port == l.port && t.obj == o && is.contains t.idx)) = rest →
      (r = 0 → exec c s = answers s { n with cmd := { n.cmd with streams := rest } } l []) ∧
      (r ≠ 0 → rest.length + is.length ≤ 8 → exec c s = answers s
        { n with cmd := { n.cmd with streams := rest ++ is.map (fun i => ⟨l.port, o, i, r, 0⟩) } } l []) ∧
      (r ≠ 0 → 8 < rest.length + is.length → exec c s = refuses s l ⟨406, []⟩)

/-! ### Registers and memory by line -/

/-- `REG name?` and `REG name.field?` read the register as a command does and reply with its hex digits, before the
stored settings have loaded too. `REG name=value` and `REG name.field=value` write the register as a command does,
and reply with the bits that a lock kept as they were. -/
def Obligations.RegisterLines : Prop :=
  (∀ (s : State) (l : Line) (n m : Node), s.node.portReady l.port = true → taken s l = n → l.keys = [] → ∀ (reg : String) r a,
    regNamed reg = some (r, a) → n.regRead .cmd a 70000 = m →
    exec (.regRead l reg) s = answers s m l [[.w "REG", .w reg, .h m.rdata.toNat 8]] ∧
    (∀ fld f, r.field fld = some f → exec (.regFieldRead l reg fld) s = answers s m l
      [[.w "REG", .w (reg ++ "." ++ fld), .h ((⟨a, f.hi, f.lo⟩ : Fd).get m.rdata) (hexLen (⟨a, f.hi, f.lo⟩ : Fd).width)]])) ∧
  (∀ (s : State) (l : Line) (n : Node) (reg : String) (r : RegRow) (a : Nat), Live s l → taken s l = n → valueKey l.keys = .ok () →
    regNamed reg = some (r, a) → n.mayWriteReg l.port a = .ok () →
    (∀ v, valueOf l.keys 32 = .ok v → exec (.regWrite l reg) s = answers s
      (n.regWrite .cmd (some l.port) a (BitVec.ofNat 32 v) 70000) l (n.lineWrite l a (BitVec.ofNat 32 v)).2) ∧
    (∀ fld f v w, r.field fld = some f → valueOf l.keys (f.hi + 1 - f.lo) = .ok v → n.fieldWord r a f v = w →
      exec (.regFieldWrite l reg fld) s = answers s (n.regWrite .cmd (some l.port) a w 70000) l (n.lineWrite l a w).2))

/-- `PEEK` reads words of the address space; `POKE` writes one: in the annex's memory and the caravan buffers it
stores the four bytes, least significant first, a register is written as a command writes it, the archive memory is
refused with `?E210`, an unmapped address with `?E207` and one that is no multiple of 4 with `?E208`. -/
def Obligations.PeekAndPoke : Prop :=
  ∀ (s : State) (l : Line) (n : Node) (a : Nat), taken s l = n →
    (s.node.portReady l.port = true → l.keys = [] → a % 4 = 0 → region a ≠ .unmapped →
      exec (.peek l a) s = answers s (n.peekLines a 1).1 l (n.peekLines a 1).2) ∧
    (Live s l → valueKey l.keys = .ok () → ∀ v, valueOf l.keys 32 = .ok v →
      (a % 4 = 0 → region a = .tcm ∨ region a = .sram → exec (.poke l a) s = answers s (n.setBytes a (bytesLE 4 v)) l []) ∧
      (a % 4 = 0 → region a = .caravan → exec (.poke l a) s = answers s (n.memWrite a (bytesLE 4 v)) l []) ∧
      (a % 4 = 0 → region a = .regs → n.mayWriteReg l.port a = .ok () → exec (.poke l a) s = answers s
        (n.regWrite .cmd (some l.port) a (BitVec.ofNat 32 v) 70000) l (n.lineWrite l a (BitVec.ofNat 32 v)).2) ∧
      (a % 4 = 0 → region a = .nv → exec (.poke l a) s = refuses s l ⟨210, []⟩) ∧
      (a % 4 = 0 → region a = .unmapped → exec (.poke l a) s = refuses s l ⟨207, []⟩) ∧
      (a % 4 ≠ 0 → exec (.poke l a) s = refuses s l ⟨208, []⟩))

/-! ### Records by line -/

/-- `DO ARC LOG` raises a record of a code from 256 to 511; `CLEAR ARC GALLERY` answers at once while nothing is
sealed, and otherwise raises record 0x007 and starts the clearing's micro-routine over the 191 pages. `DO BUS SEND`
places a frame in a free mailbox, requests it and replies with the mailbox; `DO BUS TUNNEL` queues its line for the
station and its reply comes from there. -/
def Obligations.RecordsAndFramesByLine : Prop :=
  (∀ (s : State) (l : Line) (n : Node), Live s l → taken s l = n → l.idx = none → n.fd Fd.ARC_STAT_STATE = 1 →
    (∀ (c : Nat) m r, 256 ≤ c → c ≤ 511 → onlyKeys ["CODE", "TEXT", "DATA"] ["CODE"] l.keys = .ok () → l.key "CODE" = some (.int c) →
      l.keys.findSome? (fun x => logErr x.1 x.2) = none → (hasKey l.keys "TEXT" && hasKey l.keys "DATA") = false →
      n.mayWrite l.port .arc (some [(c, c)]) = .ok () → n.raiseAt c (logPayload l.keys) 8 0 (n.stageAt 7) = (m, r) →
      exec (.doArcLog l) s = answers s m l (match r with
        | .suppressed k => [[.w "ARC SUPPRESSED", .n k]]
        | .lost => [[.w "ARC LOST"]]
        | _ => [])) ∧
    (l.keys = [] → n.mayWrite l.port .arc none = .ok () → n.on Fd.ARC_STAT_RESEALING = false → n.on Fd.ARC_STAT_CLEARING = false →
      (n.on Fd.ARC_STAT_SEALED = false → exec (.clearArcGallery l) s = becomes s (n.replyOk l [])) ∧
      (n.on Fd.ARC_STAT_SEALED = true → ∀ m, n.raiseHead 0x007 (bytesLE 4 (n.rd Ad.ARC_OLDEST).toNat ++ bytesLE 4 (n.rd Ad.ARC_NEWEST).toNat)
          8 (n.stageAt 7) = m → ∀ m' : Node, m' = { m with arc := { m.arc with newPage := true, cleared := [], firstClear := pageNext m.writerPage } } →
        exec (.clearArcGallery l) s = becomes s
          ((m'.setOn Fd.ARC_STAT_CLEARING true).startMr l verbClear .arc .clearGallery (List.range 191) false)))) ∧
  (∀ (s : State) (l : Line) (n : Node) (p : Nat), l.idx = none → MayRun s l .bus n → keyPort l.keys = p → n.busState p = 1 →
    (∀ (ws : List Nat) (num : String → Nat → Nat) (k : Nat) (m : Node),
      onlyKeys ["PORT", "MB", "ID", "IDE", "GEN", "LEN", "DATA", "RING", "WAIT"] ["PORT", "ID", "LEN"] l.keys = .ok () →
      (match keyVal l.keys "DATA" with
        | none => ws = []
        | some v => dataWords v = some ws ∧ ws.length ≤ 16) →
      checkKeys (portKey :: sendSpecs) ["PORT", "ID", "LEN"] (Keys.without l.keys ["DATA"]) = .ok () →
      (∀ x d, num x d = (keyNum sendSpecs l.keys x).getD d) → n.genBad p (num "GEN" 3) (num "LEN" 0) false = false →
      (match keyNum sendSpecs l.keys "MB" with
        | some j => k = j ∧ n.mbStatus p j ≠ 1
        | none => ((List.range 64).drop 16).find? (fun j => n.mbStatus p j != 1) = some k) →
      Node.setFds (if ws.isEmpty then n else n.setBytes (mbAddr p k) (ws.flatMap (bytesLE 4))) [(Fd.BUS_MBCTL_LEN p k, num "LEN" 0),
        (Fd.BUS_MBCTL_GEN p k, num "GEN" 3), (Fd.BUS_MBCTL_CARAVAN p k, 0), (Fd.BUS_MBCTL_RING p k, num "RING" 0),
        (Fd.BUS_MBID_IDE p k, num "IDE" 1), (Fd.BUS_MBID_ID p k, num "ID" 0)] = m →
      (num "WAIT" 0 ≠ 1 → exec (.doBusSend l) s = answers s (m.request p k) l [[.w "BUS SEND MB", .n k]]) ∧
      (num "WAIT" 0 = 1 → ∀ m', (m.request p k).send l.port l.tag [(.data, [.w "BUS SEND MB", .n k])] false = m' →
        exec (.doBusSend l) s = becomes s (m'.setPort l.port { m'.port l.port with await := some ⟨l.tag, .busSend p k, m'.tick⟩ }))) ∧
    (∀ dst cs m, portOnly [kk "TO" (.int 1 255) (fun _ => 0), kk "LINE" .text (fun _ => 0)] ["TO", "LINE"] l.keys = .ok () →
      keyNum [kk "TO" (.int 1 255) (fun _ => 0), kk "LINE" .text (fun _ => 0)] l.keys "TO" = some dst → n.genMax p ≠ 0 → n.busOff p = false →
      keyVal l.keys "LINE" = some (.quoted cs) →
      n.sendLink p ⟨ident 3 0 n.station dst, cs.map (BitVec.ofNat 8), false, some 0⟩ = m →
      exec (.doBusTunnel l) s = becomes s
        (m.setPort l.port { m.port l.port with await := some ⟨l.tag, .tunnel p dst, m.tick⟩, replyOpen := true })))

/-- `DO TRANS n DUMP` replies with the blocks asked for, counted from the oldest, which lies 5,000 slots behind the
trigger's slot of the ring of 10,000 (R176); its node is otherwise as it was. -/
def Obligations.DumpReplies : Prop :=
  ∀ (s : State) (l : Line) (n : Node) (i k c : Nat), MayRun s l .trans n → l.item 8 = .ok i → checkKeys dumpSpecs ["FROM", "COUNT"] l.keys = .ok () →
    keyNum dumpSpecs l.keys "FROM" = some k → keyNum dumpSpecs l.keys "COUNT" = some c → k + c ≤ 10000 → n.tState = tsHeld →
    exec (.doTransDump l) s = answers s n l ((List.range c).map (fun j =>
      ([.w "TRANS", .n i, .w "BLK", .n (k + j), .w "SH", .n ((n.byte (slotAddr i ((n.fd Fd.TRANS_TRIGBLK_SLOT + 5000 + k + j) % 10000))).toNat % 8)] : List Item) ++
        (n.bytes (slotAddr i ((n.fd Fd.TRANS_TRIGBLK_SLOT + 5000 + k + j) % 10000) + 1) 25).map (fun b => .i b.toInt)))

/-! ### The beat and its stages -/

/-- A beat begins: slots still late lose their beat, overruns are counted, the beat number advances, and, in a
working node, the recorder's ring takes the beat's samples and the alarm engine's minute moves; the display, the
annex and its messages follow. Stages S0 to S7 do their helpers' work in the order of Table 2-6, a slot that is late
being marked so. -/
def Obligations.BeatRuns : Prop :=
  ∀ (s : State) (n : Node), s.node = n → n.awake = true →
    (∀ c m, (n.tm.lateWork.foldl (fun (k : Node) (i : Nat) => k.slotLost c.begun i) n).overruns = m → ∀ b,
      m.beatAdvance.setOn Fd.BEAT_STATUS_ADJNOW false = b →
      exec (.beatStart c) s = becomes s
        (((if b.working then b.transBeat m.tm.t0 c.hf else b).almBeat.dispBeat.annexBegin).annexTell).annexFlush) ∧
    (∀ inp m, ((inp.rails.zipIdx).foldl (fun (m : Node) (x : Int × Nat) => m.railMv x.2 x.1)
        (n.setFds [(Fd.SYS_VSYS_MV, inp.vsys), (Fd.SYS_HOLD_MV, inp.hold)])).twS0 inp = m → m.working = true → ∀ k, (m.ucS0 inp).loS0 = k →
      exec (.stageS0 inp) s = becomes s (Node.gridS0 { k with tm := { k.tm with watchStep := false } })) ∧
    (n.working = true →
      (∀ codes, exec (.stageS1 codes) s = becomes s (Node.gridFold { n with grid := { n.grid with lost := false } }
        (if n.grid.lost then none else some codes))) ∧
      (∀ late, exec (.stageS2 late) s = becomes s (if late.contains 1 then n.markLate 1 else n.gridS2)) ∧
      (∀ late, exec (.stageS3 late) s = becomes s (if late.contains 0 then n.markLate 0 else n.ucS3)) ∧
      (∀ late, exec (.stageS4 late) s = becomes s (if late.contains 2 then n.almHold else n.almS4.busFlush)) ∧
      (∀ late lo m, n.sys.power ≠ .powerfail → (if late.contains 3 then n.loLate lo else n.loS5 lo).almS5 = m →
        exec (.stageS5 late lo) s = becomes s (if late.contains 4 then m.linesLate else m.driveLines m.linesNow))) ∧
    (∀ late bad m k, (if n.working then n.transS6 else n).intakeStaged = m → { m with tm := { m.tm with lateBad := bad } } = k →
      exec (.stageS6 late bad) s = becomes s
        (if late.contains 5 ∧ k.sys.power ≠ .powerfail then k.markLate 5 else ((k.writer bad).pwrcycCommit bad).busFlush)) ∧
    (∀ cut bad m k, n.sys.power ≠ .powerfail → n.irqNotices.gpS7.dispS7.almS7 = m →
      (if m.lively then allPorts.foldl (fun (k : Node) (p : Port) => k.mrS7 p cut bad) m else m) = k →
      exec (.stageS7 cut bad) s = becomes s (((allPorts.foldl (fun (k : Node) (p : Port) => k.serve p 6)
        ((if cut.isSome ∧ 80000 ≤ k.tm.t1 - k.tm.t0 then k.markLate 6 else k).reqCopy 70000)).sleepStep.annexFlush).busFlush)) ∧
    (∀ slot m k, n.tm.lateWork.contains slot = true → (n.working = true ∨ slot = 5) →
      Node.lateWork { n with tm := { n.tm with lateWin := some (windowOf m) } } slot = k →
      exec (.helperLatePublication slot m) s = becomes s (Node.latePublished { k with tm := { k.tm with lateWin := none } } slot))

/-! ### Node time -/

/-- A second of node time does the second's work and raises the second pulse; the pulse falls when its width has
passed; a time step moves node time by the step pending and tells the grid and the recorder; an edge in range is
taken by the receiver it belongs to; a missing edge and a timeout end what waited for them. -/
def Obligations.TimeEvents : Prop :=
  ∀ (s : State) (n : Node) (m : Moment), s.node = n → n.awake = true →
    (n.sys.power ≠ .powerfail →
      (n.tm.secDue ≠ 0 → exec .nodeTimeSecond s = becomes s ((n.secondWork n.secMoment).pulseUp n.secMoment)) ∧
      (n.tm.pulse = true → n.tm.pulseAt + n.pulseTime ≤ n.mono m →
        exec (.secondPulseEnd m) s = becomes s { n with tm := { n.tm with pulse := false } }) ∧
      (∀ k, n.timeStep = (k, true) → exec .timeStep s = becomes s
        ((k.gridStep n.tm.t0 k.tm.t0).transStep ((k.tm.t0 : Int) - (n.tm.t0 : Int)))) ∧
      (∀ k, n.timeStep = (k, false) → exec .timeStep s = becomes s k)) ∧
    (n.working = true →
      (∀ rise w, n.padOn 48 = true → (rise = true ↔ Fd.TIME_CTRL_PPSEDGE.get n.tm.ctrlF = 0) → 1000 ≤ w → w ≤ 500000000 →
        exec (.ppsEdge rise w m) s = becomes s (n.ppsEdge m)) ∧
      exec (.ppsEdgeMissing m) s = becomes s n.ppsMissing ∧
      (∀ label dist ok, n.padOn 49 = true → exec (.irigFrame label dist ok m) s = becomes s (n.irigFrame label dist ok m))) ∧
    (n.on Fd.TIME_STATUS_FINUTOK = true → n.tm.markAt + 120000000 ≤ n.now m → ∀ k, n.setOn Fd.TIME_STATUS_FINUTOK false = k →
      exec (.finutInvalid m) s = becomes s { k with tm := { n.tm with majorRun := 0 } }) ∧
    (n.fd Fd.TIME_STATUS_STATE = stCoarse → n.tm.coarseTick + 100000 ≤ n.tick → n.selected = 0 →
      exec (.coarseTimeout m) s = becomes s (n.servoTo stHoldover 0 m)) ∧
    (n.sys.oscInt = false → ∀ k st, Node.dropServoStep { n with sys := { n.sys with oscInt := true } } = k →
      k.fd Fd.TIME_STATUS_STATE = st → st ≠ stHoldover →
      exec (.referenceLoss m) s = becomes s ((((k.setEst 0xFFFFFFFF).servoTo stHoldover 0 m).raiseM 0x023 [] m helpTime).ring 1)) ∧
    (∀ sel rise, n.padOn sel = true → exec (.edgeCapture sel rise m) s = becomes s (n.edgeCapture sel rise m)) ∧
    (∀ rq v, exec (.capturePop rq v) s = becomes s (n.capPop v)) ∧
    (∀ rq v, exec (.overrunClear rq v) s = becomes s (n.ovrClear v)) ∧
    (∀ rq, exec (.timeQnsRead rq m) s = becomes s (n.readQns rq m))

/-! ### Universal channels, loop outputs, grid and transient inputs -/

/-- The events of the universal channels and the loop outputs: a quad's crossbar switches and its migration or
restoration ends two beats after it began, a channel goes stale after four windows, a digital input takes its
debounced level, a channel and an output that drained go off, and a thermal limit folds an output back until it is
released. -/
def Obligations.AnalogEvents : Prop :=
  ∀ (s : State) (n : Node) (i : Nat), s.node = n → n.awake = true →
    exec .crossbarSwitch s = becomes s ((n.uc.migs.filter (fun g => g.f + 1 ≤ n.tick)).foldl (fun m g =>
      (List.range 4).foldl (fun m j => m.dropWindow (4 * g.quad + j)) m) n) ∧
    (∀ g, n.uc.migs.find? (fun g => !g.restore && g.f + 2 ≤ n.tick) = some g →
      exec .quadMigrated s = becomes s (Node.notify (Node.raise ((((Node.setFd
          { n with uc := { n.uc with migs := n.uc.migs.erase g } } (qFd g.quad) 1).setBit Ad.UC_QEVT (8 + g.quad)).ring 44))
        0x031 [BitVec.ofNat 8 g.quad] 0 helpUc) .quad [.w "QUAD", .w (quadName g.quad), .w "MIGRATED"])) ∧
    (∀ g k j, n.uc.migs.find? (fun g => g.restore && g.f + 2 ≤ n.tick) = some g →
      Node.setQuad { n with uc := { n.uc with migs := n.uc.migs.erase g } } g.quad { n.quad g.quad with cause := none, dev := 0 } = k →
      ((k.setFd (qFd g.quad) 0).setBit Ad.UC_QEVT (16 + g.quad)).ring 43 = j →
      exec .quadRestored s = becomes s (Node.notify (Node.raise
          (if n.fd (qFd g.quad) = 1 then j.setFds [(Fd.UC_QSTAT_QX, 0), (Fd.UC_QSTAT_QXFOR, 7)] else j)
        0x032 [BitVec.ofNat 8 g.quad] 0 helpUc) .quad [.w "QUAD", .w (quadName g.quad), .w "RESTORED"])) ∧
    (i < 24 → ∀ c, n.chan i = c →
      (n.working = true → isConv c.mode = true → c.flags.getLsbD fSTALE = false → c.since + 4 * n.window i ≤ n.tick →
        exec (.channelStale i) s = becomes s (n.putFlags i (putFlag c.flags fSTALE true))) ∧
      (n.working = true → c.mode = 8 → c.diIn ≠ c.di → Nat.max 1 (n.fd (Fd.UC_OPT_DEB i) * 50) ≤ c.diCnt →
        exec (.diDebounce i) s = becomes s ((n.setChan i { c with di := c.diIn, diCnt := 0 }).ring (16 + i))) ∧
      (c.drain = true → c.goal = none → exec (.ucDrainComplete i) s = becomes s
        ((((n.wr (Ad.UC_VAL i) f32NaN).wr (Ad.UC_PHYS i) f32NaN).putFlags i 0#32).setChan i { stamp := c.stamp })) ∧
      (∀ rq, exec (.ucValRead rq i) s = becomes s (n.readUcVal rq i))) ∧
    (i < 8 → ∀ c, n.loop i = c →
      (exec (.thermalFoldback i) s = becomes s (n.setLoop i { c with fold := true, limit := some loFlow })) ∧
      (c.fold = true → exec (.thermalRelease i) s = becomes s
        (n.setLoop i { c with fold := false, limit := if (f32Q (n.rd (Ad.LO_RAMP i))).num ≤ 0 then none else c.limit })) ∧
      (c.doneTold = false → sameQ c.level c.goal = true → exec (.loActionEnd i) s = becomes s (n.loTellDone i)) ∧
      (n.loState i = loDraining → sameQ c.level c.goal = true → n.on (Fd.LO_CFG_DISACT i) = false →
        ∀ m, (n.loTellDone i).setFd (Fd.LO_STAT_STATE i) loOff = m → m.on (Fd.LO_CFG_DISACT i) = false →
        exec (.loDrainComplete i) s = becomes s (Node.loNote n m i)) ∧
      (∀ rq, exec (.loRbRead rq i) s = becomes s (n.readLoRb rq i)))

/-- The events of the transient recorder and the grid: a comparator that fires in ARMED on a triggering input counts
the event, notes its arrival, triggers and changes the state, in TRIGGERED notes its arrival (a lower input of the same
instant becomes the trigger), and in HELD is counted as missed; the fill that ends makes the record; the recorder arms
itself again when its time has passed; the control register takes its AUTOARM, arms and disarms, and sets CFGERR where
the command would be refused; a read of the report's second latches the 33 words after it. -/
def Obligations.RecorderEvents : Prop :=
  ∀ (s : State) (n : Node) (i : Nat) (m : Moment), s.node = n → n.awake = true →
    (n.working = true →
      (∀ pos k st, i < 8 → n.trans.onF.testBit i = true → n.tState = tsArmed → n.trans.trigF.testBit i = true →
        (n.bump Fd.TRANS_STAT_EVENTS 1).tArrive i (n.now m) pos = (k, st) →
        exec (.comparatorFiring i m pos) s = becomes s
          ((((k.tTrigger i (n.now m) st).setOn Fd.TRANS_EVT_TRIGGERED true).ring 64).tEnter tsTriggered)) ∧
      (∀ pos k st, i < 8 → n.trans.onF.testBit i = true → n.tState = tsTriggered → n.bit Ad.TRANS_STAT (8 + i) = false →
        n.tArrive i (n.now m) pos = (k, st) →
        exec (.comparatorFiring i m pos) s = becomes s
          (if k.trans.trigF.testBit i = true ∧ i < k.fd Fd.TRANS_STAT_TRIGIN ∧ n.now m / 2 = k.trans.trigRaw / 2
            then k.tTrigger i (n.now m) st else k)) ∧
      (∀ pos, i < 8 → n.tState = tsTriggered → n.bit Ad.TRANS_STAT (8 + i) = true → exec (.comparatorFiring i m pos) s = becomes s n) ∧
      (∀ pos, i < 8 → n.trans.onF.testBit i = true → n.tState = tsHeld → exec (.comparatorFiring i m pos) s = becomes s
        (((n.bump Fd.TRANS_MISSED_MISSED 1).setOn Fd.TRANS_EVT_MISSED true).ring 67)) ∧
      (∀ hf k, n.tState = tsTriggered → n.trans.fillEnd ≤ n.now m → (n.ringWrite n.tm.t0 hf).clearOldArr.tMasks = k →
        exec (.postTriggerFillComplete m hf) s = becomes s
          (((Node.setOn { k with trans := { k.trans with heldTick := k.tick, record := some (k.tPayload, k.trans.trigAt) } }
            Fd.TRANS_EVT_HELD true).ring 65).tEnter tsHeld)) ∧
      (∀ a, n.tState = tsHeld → n.fd Fd.TRANS_CTRL_AUTOARM = a → a ≠ 0 → n.trans.heldTick + a * 50000 ≤ n.tick →
        exec (.autoarmExpiry m) s = becomes s (n.tArm (n.now m))) ∧
      (∀ (v : Word) (a : Nat), v.toNat / 65536 = a →
        (3600 < a → v.getLsbD 0 = true → exec (.transCtrlArm v) s = becomes s n.transCfgErr) ∧
        (3600 < a → v.getLsbD 1 = true → exec (.transCtrlDisarm v) s = becomes s n.transCfgErr) ∧
        (a ≤ 3600 → ∀ k, (if a = n.fd Fd.TRANS_CTRL_AUTOARM then n else (n.setFd Fd.TRANS_CTRL_AUTOARM a).dirty) = k →
          (v.getLsbD 0 = true → v.getLsbD 1 = false →
            (k.tState ≠ tsArmed → k.tState ≠ tsTriggered → exec (.transCtrlArm v) s = becomes s (k.tArm (k.stageAt 7))) ∧
            (k.tState = tsArmed ∨ k.tState = tsTriggered → exec (.transCtrlArm v) s = becomes s k.transCfgErr)) ∧
          (v.getLsbD 1 = true → v.getLsbD 0 = false →
            (k.tState = tsArmed → exec (.transCtrlDisarm v) s = becomes s ((k.tCut (k.stageAt 7)).tEnter tsDisarmed)) ∧
            (k.tState = tsTriggered → exec (.transCtrlDisarm v) s = becomes s { k with trans := { k.trans with disarm := true } }) ∧
            (k.tState ≠ tsArmed → k.tState ≠ tsTriggered → exec (.transCtrlDisarm v) s = becomes s k.transCfgErr)) ∧
          (v.getLsbD 0 = true → v.getLsbD 1 = true →
            exec (.transCtrlArm v) s = becomes s (n.transCtrl v) ∧ exec (.transCtrlDisarm v) s = becomes s (n.transCtrl v))))) ∧
    (∀ rq k, (List.range 33).foldl (fun (j : Node) (i : Nat) => j.setLat rq (Ad.GRID_REPQNS + 4 * i) (n.rd (Ad.GRID_REPQNS + 4 * i))) n = k →
      exec (.gridRepsecRead rq) s = becomes s { k with rdata := n.rd Ad.GRID_REPSEC })

/-! ### Alarms and the archive -/

/-- The events of the alarm engine: a delay that ends evaluates its point, a block released, a shelving that ends
unshelves, an acknowledgement by pin, frame or register is taken, calls escalate, end their pulse and repeat their
frame, and a peer's value that ages marks its point. -/
def Obligations.AlarmEvents : Prop :=
  ∀ (s : State) (n : Node) (i g : Nat), s.node = n → n.working = true →
    (n.delayDue i 1 = true → exec (.onDelayExpiry i) s = becomes s (n.evalPoint i)) ∧
    (n.delayDue i 2 = true → exec (.offDelayExpiry i) s = becomes s (n.evalPoint i)) ∧
    (n.almOn = true → g < 64 → exec (.blockRelease g) s = becomes s (n.blkRelease g)) ∧
    (∀ t, n.almOn = true → i < 1024 → (n.pt i).shelf = some t → t ≤ n.tick →
      exec (.shelvingExpiry i) s = becomes s ((n.unshelve i 5 .s4).almRing 76)) ∧
    (g < 64 → 1000 ≤ (n.grp g).pinCnt → exec (.ackPin g) s = becomes s
      ((n.setGrp g { n.grp g with pinCnt := 0 }).queueAck ⟨1, true, g, none⟩)) ∧
    (∀ f, f.ext = true → n.toMe f = true → idClass f.id = 1 → exec (.ackFrame f) s = becomes s (n.ackFrame f)) ∧
    (n.almOn = true → g < 64 → n.fd (Fd.ALM_AGSTAT_STAGE g) ≠ 0 → n.calling g = true →
      n.callsHeld = false → (n.grp g).again = false → exec (.callEscalation g) s = becomes s (n.callStage g (n.stageNow g) 0 .s4)) ∧
    (∀ m, 2000000000 ≤ qnsOf (n.now m) → exec (.callPulseEnd m) s = becomes s { n with alm := { n.alm with pulse := false } }) ∧
    (∀ st, n.almOn = true → g < 64 → n.fd (Fd.ALM_AGSTAT_STAGE g) = st → st ≠ 0 → n.callsHeld = false →
      (n.grp g).sentAt + n.fd Fd.CALL_TO_CALLREP * 50000 ≤ n.tick → exec (.callFrameRepeat g) s = becomes s (n.callFrame g st)) ∧
    (n.almOn = true → i < 1024 → n.on (Fd.ALM_PCFG_ENABLE i) = true → (n.pt i).aged = false → (n.pointSrc i).aged = true →
      exec (.peerValueAge i) s = becomes s ((n.putPt i { n.pt i with aged := true }).almRing 80)) ∧
    (∀ v, exec (.almAckWrite v) s = becomes s (n.ackWrite v))

/-- The events of the archive: a suppressed code gains a token when its time has come, a checkpoint is written when
an operating second has ended, a find starts and ends, the code table and the operating time are written and read,
and a reseal's phases follow one another. -/
def Obligations.ArchiveEvents : Prop :=
  ∀ (s : State) (n : Node), s.node = n → n.awake = true →
    (∀ c t0 k, Bank.get (n.arc.loadTick, 0) n.arc.gain c = (t0, k) → n.fd (Fd.ARC_CODE_RULE c) = 1 →
      t0 * n.fd (Fd.ARC_CODE_RATE c) + (k + 1) * 3000000 ≤ n.tick * n.fd (Fd.ARC_CODE_RATE c) →
      ∀ gain used, Bank.set (n.arc.loadTick, 0) n.arc.gain c (t0, k + 1) = gain →
        Bank.set 0 n.arc.used c (Bank.get 0 n.arc.used c - 1) = used →
      exec (.tokenGain c) s = becomes s { n with arc := { n.arc with gain := gain, used := used } }) ∧
    (n.sys.phase ≠ .por → n.sys.power ≠ .off → n.arc.ckpt < n.arc.opMs / 1000 → exec .checkpoint s = becomes s n.checkpoint) ∧
    (∀ rq acc, exec (.arcFind rq acc) s = becomes s (n.findStart rq acc)) ∧
    (∀ rq, exec (.arcFindDone rq) s = becomes s (n.findDone rq)) ∧
    (∀ rq c v, c < 512 → exec (.arcCodeWrite rq c v) s = becomes s (n.codeWrite c v)) ∧
    (∀ rq, exec (.arcOpmsloRead rq) s = becomes s (n.readOpms rq)) ∧
    (∀ bad p m, n.resealPort = some (p, m) → m.paused = false →
      (m.pos = 0 → exec (.resealPhase bad) s = becomes s (n.setPort p { n.port p with mr := some { m with pos := 1 } }).reseal0) ∧
      (m.pos = 1 → n.arc.resealTick + 64 ≤ n.tick →
        (badIn (pageAt 0) 16 bad = none → exec (.resealPhase bad) s = becomes s
          (n.setPort p { n.port p with mr := some { m with pos := 2 } }).resealV0) ∧
        (badIn (pageAt 0) 16 bad ≠ none → exec (.resealPhase bad) s = becomes s
          (((n.putHeader 0 1 1).resealFail (bad.filter (fun w => decide (pageAt 0 ≤ w) && decide (w < pageAt 0 + 16)))).failMr p ⟨503, []⟩))))

/-! ### Allieno ports -/

/-- The events of a bus port's frames: a frame confirmed or matched early is taken by a port that hears, an error
frame raises the error counter (8 for a transmission), a lost arbitration and a frame sent end the transmission,
recovery from bus-off clears the counters, and doorbells, values and caravans have their effects. -/
def Obligations.FrameEvents : Prop :=
  ∀ (s : State) (n : Node) (p : Nat) (m : Moment), s.node = n → n.awake = true → p < 2 →
    (n.mayHear p = true →
      (∀ f q e, exec (.frameConfirmed p f q e m) s = becomes s (n.confirmed p f ((n.now m - q) / 2 * 2) e m)) ∧
      (∀ f k bs q, (n.bp p).rx = none → exec (.earlyMatch p f k bs q m) s = becomes s
        ((n.earlyMatch p f k ((n.now m - q) / 2 * 2)).earlyBytes p bs m)) ∧
      (∀ f, f.ext = true → n.toMe f = true → idClass f.id = 1 → idType f.id = 8 →
        exec (.doorbellFrame p f) s = becomes s (n.doorbellFrame p f))) ∧
    (n.busState p ≠ 0 → n.busOff p = false → ∀ j k, n.earlyEnd p false m = j → (if j.home p = p then j.windowError p else j) = k →
      (∀ t brs k' tec, (k.bp p).tx = some t → (k.txUndone p t).guardStep p t.frame.gen brs m = k' → k.fd (Fd.BUS_ERRCNT_TEC p) = tec →
        tec + 8 < 256 → exec (.frameError p brs false m) s = becomes s
          ((k'.setFd (Fd.BUS_ERRCNT_TEC p) (tec + 8)).errState p)) ∧
      (∀ brs, (k.bp p).tx = none → exec (.frameError p brs false m) s = becomes s
        (((k.setFd (Fd.BUS_ERRCNT_REC p) (Nat.min 255 (k.fd (Fd.BUS_ERRCNT_REC p) + 1))).errState p).busIdle p))) ∧
    (∀ t, (n.bp p).tx = some t →
      exec (.arbitrationLost p m) s = becomes s (((n.earlyEnd p false m).txUndone p t).guardStep p t.frame.gen false m) ∧
      exec (.frameSent p m) s = becomes s (n.txDone p t m)) ∧
    (n.busOff p = true → exec (.busOffRecovery p m) s = becomes s ((((Node.busEvt (n.setFds [(Fd.BUS_STAT_ERR p, 0),
      (Fd.BUS_ERRCNT_TEC p, 0), (Fd.BUS_ERRCNT_REC p, 0)]) Fd.BUS_EVT_RECOVER p).busRec 0x071 [p, 0, 0] p m).busRing p 9).busWatch p "ERR" "ACTIVE")) ∧
    (∀ g x, (n.bp p).gateEnd.find? (fun x => x.1 == g) = some x → x.2 ≤ n.now m →
      exec (.gatePulseEnd p g m) s = becomes s ((n.gateOff p g).hwGates p)) ∧
    (∀ (old : CarRx → Bool), (∀ c, old c = decide (c.last + 5000 < n.tick)) →
      ∀ k, n.setBp p { n.bp p with cars := (n.bp p).cars.filter (fun c => !old c), cmds := (n.bp p).cmds.filter (fun c => !old c) } = k →
      exec (.caravanGapTimeout p m) s = becomes s
        ((((n.bp p).cars ++ (n.bp p).cmds).filter old).foldl (fun j c => j.carDiscard p 2 (idSrc c.id) c.num m) k)) ∧
    (∀ f, n.working = true → f.ext = true → n.toMe f = true → idClass f.id = 2 → idType f.id < 256 →
      exec (.valueFrame f) s = becomes s (n.valueFrame f)) ∧
    (∀ v, n.working = true → exec (.valuePublish v) s = becomes s (n.valuePublish v)) ∧
    (∀ c tag q d since, (n.port c).await = some ⟨tag, .tunnel q d, since⟩ → since + 50000 ≤ n.tick →
      exec (.tunnelTimeout c) s = becomes s ((n.setPort c { n.port c with await := none }).send c tag [(.error 602, [.w (errText 602)])] true)) ∧
    (n.busState p = 2 → (n.bp p).tx = none → (n.bp p).rx = none → exec (.busPortOff p m) s = becomes s (n.portOff p m)) ∧
    exec (.transmissionStart p m) s = becomes s (n.txStart p m)

/-- The accesses to registers complete on a node that runs. A write to an offset that no register occupies, or to a register of which
no field takes a write, is ignored (R4, R364); a write to another register leaves its fields as their access codes say (`RegRow.written`,
without the W1C bits that hardware has set in the same cycle, R10) and is handed to the block its address lies in. A read returns the
word the register shows its requester, without what hardware has counted in its RC fields in the same cycle, which is what the read
leaves in them (R10, R11), and changes nothing else; the five registers that latch others do what their own rows say. The writes of a
bus port's own rows are a mailbox request and abort, a pop of the receive queue, the release of caravans (their bits of the done
register clear) and of early views, and a gate's reset bit. -/
def Obligations.RegisterAccesses : Prop :=
  (∀ (s : State) (n : Node) (p : Nat) (v : Word), s.node = n → n.awake = true → p < 2 →
    (∀ k e, 16 ≤ k → k < 64 →
      n.reqErr p k (n.fd (Fd.BUS_MBCTL_GEN p k)) (n.fd (Fd.BUS_MBCTL_LEN p k)) (n.on (Fd.BUS_MBCTL_CARAVAN p k)) = e →
      (e = none → (n.on (Fd.BUS_MBCTL_CARAVAN p k) = true → 4 ≤ n.fd (Fd.BUS_MBCTL_CARBUF p k)) →
        exec (.mailboxReq p k) s = becomes s (n.request p k)) ∧
      (e ≠ none → exec (.mailboxReq p k) s = becomes s (n.busCfgErr p)) ∧
      (n.busState p = 1 → exec (.mailboxAbort p k) s = becomes s (n.abortMb p k)) ∧
      (n.busState p ≠ 1 → exec (.mailboxAbort p k) s = becomes s (n.busCfgErr p))) ∧
    (∀ k, k < 16 → exec (.mailboxReq p k) s = becomes s (n.busCfgErr p) ∧ exec (.mailboxAbort p k) s = becomes s (n.busCfgErr p)) ∧
    (∀ c h, v.getLsbD 0 = true → n.fd (Fd.BUS_FIFO_COUNT p) = c → n.fd (Fd.BUS_FIFO_HEAD p) = h →
      (c = 0 → exec (.fifoPop p v) s = becomes s n) ∧
      (c ≠ 0 → exec (.fifoPop p v) s = becomes s
        (n.setFds [(Fd.BUS_FIFO_COUNT p, c - 1), (Fd.BUS_FIFO_HEAD p, (h + 1) % 512)]))) ∧
    exec (.caravanRelease p v) s = becomes s (n.setFd (Fd.BUS_CARDONE_DONE p) ((n.rd (Ad.BUS_CARDONE p) &&& ~~~v).toNat % 256)) ∧
    exec (.earlyViewRelease p v) s = becomes s (n.evRelease p v) ∧
    (∀ g, g < 4 → v.getLsbD 16 = true → n.on (Fd.BUS_GATECFG_ACTIVE p g) = true → (Fd.BUS_GATECFG_LATCH p g).get (n.gateCfg p g).1 = 1 →
      exec (.gateResetWrite p g v) s = becomes s ((n.gateOff p g).hwGates p)) ∧
    (∀ g, g < 4 → v.getLsbD 16 = true → n.on (Fd.BUS_GATECFG_ACTIVE p g) = false ∨ (Fd.BUS_GATECFG_LATCH p g).get (n.gateCfg p g).1 ≠ 1 →
      exec (.gateResetWrite p g v) s = becomes s n)) ∧
  (∀ (s : State) (n : Node) (rq : Rq) (a : Nat) (v : Word) (c : Access), s.node = n → n.awake = true →
    (regRow a = none → exec (.registerWrite rq a v c) s = becomes s n ∧
      exec (.readClearRead rq a c) s = becomes s { n with rdata := 0#32 }) ∧
    (∀ r, regRow a = some r →
      (r.writable = false → exec (.registerWrite rq a v c) s = becomes s n) ∧
      (∀ w g, r.writable = true → v &&& ~~~(c.keep &&& r.mask .W1C) = w → n.wr a (r.written (n.regLocked a) (n.rd a) w) = g →
        exec (.registerWrite rq a v c) s = becomes s (match (a - 0x40000000) / 0x10000 with
          | 0 => n.dicReg g rq r a w c.at_
          | 1 => n.gpReg g rq r a w c.at_
          | 2 => n.twReg g r a w
          | 3 => n.timeReg g r a w
          | 4 => n.ucReg g r a
          | 5 => n.loReg g a
          | 6 => n.gridReg g r a w
          | 7 => n.almReg g r a w
          | 8 => n.arcReg g rq r a w
          | 9 => n.busReg g r a w c.at_
          | 10 => n.dispReg g r a w c.at_
          | 11 => n.sysReg g rq r a w c.at_
          | _ => n.cmdReg g rq none r a w c.at_) ∧
        ((a - 0x40000000) / 0x10000 = 0 → r.name = "DIC.MODT" ∨ r.name = "DIC.ENA" ∨ r.name = "DIC.SRC" →
          exec (.registerWrite rq a v c) s = becomes s (Node.dirtyIf n g a)) ∧
        ((a - 0x40000000) / 0x10000 = 0 → r.name = "DIC.DOORBELL" →
          exec (.registerWrite rq a v c) s = becomes s (n.ring (Fd.DIC_DOORBELL_SRC.get w))) ∧
        ((a - 0x40000000) / 0x10000 = 2 → r.name ≠ "TW.CTRL" → r.name ≠ "TW.CMD" → exec (.registerWrite rq a v c) s = becomes s g) ∧
        ((a - 0x40000000) / 0x10000 = 2 → r.name = "TW.CTRL" →
          (g.twRegOk = true → exec (.registerWrite rq a v c) s = becomes s (Node.twChanged n (Node.dirtyIf n g a))) ∧
          (g.twRegOk = false → exec (.registerWrite rq a v c) s = becomes s n.twCfgErr)) ∧
        ((a - 0x40000000) / 0x10000 = 3 → r.name = "TIME.CAPSTAT" ∨ r.name = "BEAT.LATE" →
          exec (.registerWrite rq a v c) s = becomes s g)) ∧
      (["TIME.QNS", "UC.VAL", "LO.RB", "GRID.REPSEC", "ARC.OPMSLO"].contains r.name = false →
        exec (.readClearRead rq a c) s = becomes s
          { (if r.mask .RC = 0#32 then n else n.wr a (r.kept (n.rd a) c.keep)) with rdata := r.before (n.regView rq a c.at_) c.keep }) ∧
      (r.name = "TIME.QNS" → exec (.readClearRead rq a c) s = becomes s (n.readQns rq c.at_)) ∧
      (r.name = "UC.VAL" → exec (.readClearRead rq a c) s = becomes s (n.readUcVal rq (r.index a))) ∧
      (r.name = "LO.RB" → exec (.readClearRead rq a c) s = becomes s (n.readLoRb rq (r.index a))) ∧
      (r.name = "GRID.REPSEC" → exec (.readClearRead rq a c) s = becomes s (n.readRepSec rq)) ∧
      (r.name = "ARC.OPMSLO" → exec (.readClearRead rq a c) s = becomes s (n.readOpms rq))))

/-- A frame of the survey or the marks that a hearing port confirms acts through its type (`protoFrame`), which the
row names: extended, class 0. A frame of another type is not such a row's frame and changes nothing. -/
def Obligations.SurveyFrames : Prop :=
  ∀ (s : State) (n : Node) (p : Nat) (f : Frame) (q : Nat) (m : Moment), s.node = n →
    (n.mayHear p = true → f.ext = true → idClass f.id = 0 → ∀ k, n.protoFrame p f ((n.now m - q) / 2 * 2) m = k →
      (idType f.id = 0x300 → exec (.begin p f q m) s = becomes s k) ∧
      (idType f.id = 0x301 → exec (.query p f q m) s = becomes s k) ∧
      (idType f.id = 0x302 → exec (.assign p f q m) s = becomes s k) ∧
      (idType f.id = 0x303 → exec (.assigned p f q m) s = becomes s k) ∧
      (idType f.id = 0x304 → exec (.ping p f q m) s = becomes s k) ∧
      (idType f.id = 0x305 → exec (.pong p f q m) s = becomes s k) ∧
      (idType f.id = 0x306 → exec (.pongFollowUp p f q m) s = becomes s k) ∧
      (idType f.id = 0x307 → exec (.delay p f q m) s = becomes s k) ∧
      (idType f.id = 0x308 → exec (.announce p f q m) s = becomes s k) ∧
      (idType f.id = 0x30F → exec (.surveyEnd p f q m) s = becomes s k) ∧
      (idType f.id = 0 → exec (.majorMark p f q m) s = becomes s k) ∧
      (idType f.id = 1 → exec (.minorMark p f q m) s = becomes s k) ∧
      (idType f.id = 2 → exec (.markFollowUp p f q m) s = becomes s k) ∧
      (0x380 ≤ idType f.id → idType f.id ≤ 0x3FF → exec (.bid p f q m) s = becomes s k)) ∧
    (∀ k ∈ [(Instr.begin p f q m, 0x300), (Instr.query p f q m, 0x301), (Instr.assign p f q m, 0x302), (Instr.assigned p f q m, 0x303), (Instr.ping p f q m, 0x304), (Instr.pong p f q m, 0x305), (Instr.pongFollowUp p f q m, 0x306), (Instr.delay p f q m, 0x307), (Instr.announce p f q m, 0x308), (Instr.surveyEnd p f q m, 0x30F), (Instr.majorMark p f q m, 0), (Instr.minorMark p f q m, 1), (Instr.markFollowUp p f q m, 2)], idType f.id ≠ k.2 → exec k.1 s = becomes s n)

/-- The timers of surveys, marks and sleep: a bid window that ends, a member that is silent, a listening that ends,
a mark asked for or abandoned, a follow-up that is late, the fall back to the other port, a pair's silent port, and
the steps into and out of sleep. -/
def Obligations.BusTimers : Prop :=
  ∀ (s : State) (n : Node) (p : Nat) (m : Moment), s.node = n → n.awake = true → p < 2 →
    (n.working = true →
      ((n.bp p).tx = none → (n.bp p).rx = none → exec (.bidWindowExpiry p m) s = becomes s (n.windowOver (n.home p) m)) ∧
      ((n.bp p).listen = 1 → (n.bp p).listenAt + 15000 ≤ n.tick → exec (.listenEnd p) s = becomes s (n.listenOff p)) ∧
      exec (.markRequest p m) s = becomes s (n.markRequest p m)) ∧
    ((n.sv p).role = 2 → (n.sv p).lastAt + 250000 ≤ n.tick → exec (.surveyMemberTimeout p m) s = becomes s (n.svAbort p m)) ∧
    exec (.markAbandon p m) s = becomes s (n.markAbandon p m) ∧
    exec (.followUpTimeout p m) s = becomes s (n.followUpsLate p m) ∧
    (∀ t, n.pairOn = true → n.fd Fd.BUS_LINK_TPORT = t → n.bus.tport = t → (n.bp t).markOk + 120000000 ≤ n.now m →
      exec (.tportFallback m) s = becomes s { n with bus := { n.bus with tport := 1 - t } }) ∧
    (n.pairOn = true → (n.bp p).silent = false → (n.bp p).seen + 50000 ≤ n.tick → n.tick < (n.bp (1 - p)).seen + 50000 →
      exec (.pairPortSilent p m) s = becomes s (((n.setBp p { n.bp p with silent := true }).busRec 0x07D [p, 1] p m).busRing p 15)) ∧
    (n.sys.phase ≠ .por →
      ((n.bp p).sleep = 1 → (n.bp p).tx = none → (n.bp p).rx = none → exec (.portSleep p m) s = becomes s (n.sleepReach p m)) ∧
      (n.on (Fd.BUS_SLEEP_WMODE p) = false → exec (.wakePattern p) s = becomes s (n.wakeBoth p 0)) ∧
      (∀ f, n.on (Fd.BUS_SLEEP_WMODE p) = true → n.wakeMatch p f = true → exec (.wakeFrame p f) s = becomes s (n.wakeBoth p 1)) ∧
      ((n.bp p).sleep = 3 → exec (.portWake p m) s = becomes s (n.wakeReach p m)))

/-! ### Pins, two-wire port, display -/

/-- The events of the pins: an edge on a pad that is on changes the input's level, raises the pin's event where its IRQ
names the edge, and is told once a beat; a bank takes its class; the life output toggles once a second where it is
served; the output and refresh registers act; and the lock register takes its two keys and then a mask, within 64 core
cycles of the first key, any other write setting LOCKERR. -/
def Obligations.PinEvents : Prop :=
  ∀ (s : State) (n : Node) (m : Moment) (rq : Rq) (v : Word), s.node = n →
    (∀ i b, i < 48 →
      (n.padOn i = false ∨ n.on (inFd i) = b → exec (.pinEdge i b m) s = becomes s n) ∧
      (n.padOn i = true → n.on (inFd i) ≠ b → ∀ k irq j, n.setOn (inFd i) b = k → k.fd (Fd.GP_FN_IRQ i) = irq →
        (if k.pinLive i = true ∧ irq ∈ (if b = true then [1, 3, 4] else [2, 3, 5]) then k.pinEvent i else k) = j →
        (j.awake = true → Bank.get 0 j.gp.told i ≠ j.tick + 1 → exec (.pinEdge i b m) s = becomes s
          (Node.notifyWatch { j with gp := { j.gp with told := Bank.set 0 j.gp.told i (j.tick + 1) } } .gp "" (some i)
            [.w "GP", .n i, .w "IN", .n (if b = true then 1 else 0), .w "BEAT", .n j.idx])) ∧
        (j.awake = false ∨ Bank.get 0 j.gp.told i = j.tick + 1 → exec (.pinEdge i b m) s = becomes s j))) ∧
    (∀ b c lv, b ≤ 1 → c ≤ 2 → n.bank b ≠ c →
      (n.sys.power = .off → exec (.bankClassChange b c lv m) s = becomes s (n.bankFound b c lv)) ∧
      (n.sys.power ≠ .off → n.sys.phase ≠ .por → c ≠ 0 → exec (.bankClassChange b c lv m) s = becomes s (n.bankTo b c lv m)) ∧
      (n.sys.power ≠ .off → n.sys.phase ≠ .por → c = 0 → exec (.bankClassChange b c lv m) s = becomes s ((n.bankGone b m).bankTo b c lv m))) ∧
    (n.awake = true →
      (n.sys.power ≠ .powerfail → n.tm.t0 % 2000000000 = 0 → n.gp.lifeTick ≠ n.tick + 1 → exec (.lifeToggle true) s = becomes s
        { n with gp := { n.gp with life := !n.gp.life, lifeTick := n.tick + 1 } }) ∧
      exec (.gpoutWrite rq 0 v) s = becomes s (n.setFd Fd.GP_GPOUT0_OUT v.toNat) ∧
      exec (.gpoutWrite rq 1 v) s = becomes s (n.setFd Fd.GP_GPOUT1_OUT v.toNat) ∧
      (v.getLsbD 0 = true → exec (.hwrefresh rq v) s = becomes s (n.hwWriteIf (fun _ => true))) ∧
      (n.gp.lockStep = 0 ∨ n.now m ≤ n.gp.lockAt + 1280 →
        (v = 0xA5C3#32 → n.gp.lockStep = 0 → exec (.gplockWrite rq v m) s = becomes s
          { n with gp := { n.gp with lockStep := 1, lockAt := n.now m } }) ∧
        (v = 0xA5C3#32 → n.gp.lockStep = 1 → exec (.gplockWrite rq v m) s = becomes s
          { n.lockErr with gp := { n.lockErr.gp with lockStep := 1, lockAt := n.now m } }) ∧
        (v = 0x3C5A#32 → n.gp.lockStep = 1 → exec (.gplockWrite rq v m) s = becomes s
          { n with gp := { n.gp with lockStep := 2 } }) ∧
        (∀ b mask k, n.gp.lockStep = 2 → v.toNat / 2 ^ 31 = b → v.toNat % 2 ^ 24 = mask →
          Node.lockPins { n with gp := { n.gp with lockStep := 0 } } b mask = k →
          exec (.gplockWrite .cmd v m) s = becomes s (k.raiseCmd 0x091 (BitVec.ofNat 8 b :: bytesLE 3 mask ++ [0#8])) ∧
          exec (.gplockWrite .annex v m) s = becomes s
            (k.raiseM 0x091 (BitVec.ofNat 8 b :: bytesLE 3 mask ++ [1#8]) (n.now m - k.tm.t0) helpPin)) ∧
        (n.gp.lockStep ≠ 2 → v ≠ 0xA5C3#32 → v ≠ 0x3C5A#32 ∨ n.gp.lockStep ≠ 1 →
          exec (.gplockWrite rq v m) s = becomes s n.lockErr)) ∧
      (n.gp.lockStep ≠ 0 → n.gp.lockAt + 1280 < n.now m →
        (v ≠ 0xA5C3#32 → exec (.gplockWrite rq v m) s = becomes s n.lockErr.lockErr) ∧
        (v = 0xA5C3#32 → exec (.gplockWrite rq v m) s = becomes s
          { n.lockErr with gp := { n.lockErr.gp with lockStep := 1, lockAt := n.now m } })))

/-- The events of the two-wire port: a start and a clear by register, which begin the transfer or the clear on an idle
bus in the right state and set CFGERR otherwise; the end of a transfer with its result, of a clock stretch, of a bus
clear with SDA freed or stuck, and of the draining. -/
def Obligations.TransferEvents : Prop :=
  ∀ (s : State) (n : Node) (m : Moment) (rq : Rq) (v : Word) (bs : List (BitVec 8)), s.node = n → n.awake = true →
    (Fd.TW_CMD_START.get v = 1 →
      (n.tw.phase = .idle → twCmdOk v = true → n.twState = 1 →
        ∀ k rd c reg, n.wr Ad.TW_CMD (v &&& 0x00FFBFFF#32) = k → Fd.TW_CMD_READ.get v = rd → Fd.TW_CMD_COUNT.get v = c →
          (if Fd.TW_CMD_USEREG.get v = 1 then some (Fd.TW_CMD_REG.get v) else none) = reg →
        ∀ q : TwJob, q = ⟨none, rd == 1, Fd.TW_CMD_ADDR.get v, reg, c, if rd = 1 then [] else n.twBytes c⟩ →
        exec (.twCmdStart rq v m) s = becomes s (Node.twCheck { k with tw := { k.tw with job := some q } })) ∧
      (n.tw.phase ≠ .idle ∨ twCmdOk v = false ∨ n.twState ≠ 1 → exec (.twCmdStart rq v m) s = becomes s n.twCfgErr)) ∧
    (Fd.TW_CMD_CLEAR.get v = 1 →
      (n.tw.phase = .idle → twCmdOk v = true → n.twState = 1 ∨ n.twState = 3 →
        exec (.twCmdClear rq v m) s = becomes s ((n.wr Ad.TW_CMD (v &&& 0x00FFBFFF#32)).twClear none)) ∧
      (n.tw.phase ≠ .idle ∨ twCmdOk v = false ∨ (n.twState ≠ 1 ∧ n.twState ≠ 3) →
        exec (.twCmdClear rq v m) s = becomes s n.twCfgErr)) ∧
    (n.tw.phase = .transfer → n.twState ≠ 2 →
      exec (.twTransferEnd .ok bs m) s = becomes s (((n.twPhase .idle).twEnd 0 0 bs).twNext) ∧
      exec (.twTransferEnd .nackAddr bs m) s = becomes s (((n.twPhase .idle).twEnd 1 0 []).twNext) ∧
      (∀ k, exec (.twTransferEnd (.nackData k) bs m) s = becomes s (((n.twPhase .idle).twEnd 2 k bs).twNext)) ∧
      exec (.twTransferEnd .contention bs m) s = becomes s ((n.twPhase .clear).twEnd 5 0 bs)) ∧
    (n.tw.phase = .transfer → n.twState = 1 →
      exec (.twClockStretchTimeout bs m) s = becomes s (((n.twPhase .idle).twEnd 3 0 bs).twNext)) ∧
    (n.tw.phase = .check → n.twState = 1 → n.tw.since + n.fd Fd.TW_CTRL_TIMEOUT * 4000000 ≤ n.mono m →
      exec (.twClockStretchTimeout bs m) s = becomes s (n.twStuck 1 0 m)) ∧
    (∀ k, n.tw.phase = .clear → n.twState ≠ 2 → exec (.twBusClearEnd k false m) s = becomes s (n.twStuck 0 9 m)) ∧
    (∀ k j, n.tw.phase = .clear → n.twState ≠ 2 → k ≤ 9 →
      ((((n.raiseM 0x093 [0#8, BitVec.ofNat 8 k] m helpTw).setFds [(Fd.TW_EVT_CLEARED, 1), (Fd.TW_STAT_STATE, 1), (Fd.TW_STAT_SDA, 1)]).bump
        Fd.TW_CNT_CLEARED 1).ring 196).twClearEnd (some k) = j →
      exec (.twBusClearEnd k true m) s = becomes s (Node.twGo { j with tw := { j.tw with stuckScl := false } }).twNext) ∧
    (n.twState = 2 → exec (.twDrained bs m) s = becomes s ((((n.twPhase .idle).twClearEnd none).twEnd 6 0 bs).twFlush 6).twOff) ∧
    (n.twState ≠ 2 → exec (.twDrained bs m) s = becomes s n)

/-- The events of the display: a snapshot that ends, rails that rise one by one and fall one by one, a rail that
fails ends the update and lets the rails fall, frames that follow one another until the update is done, a hold that
ends, an undervoltage that discharges fast, and the commands of the display and glass registers. -/
def Obligations.DisplayEvents : Prop :=
  ∀ (s : State) (n : Node) (m : Moment) (rq : Rq) (v : Word), s.node = n → n.awake = true →
    (∀ u, n.disp.upd = some u →
      (n.on Fd.DISP_STAT_SNAP = true → u.snapAt + n.imageBytes / 4 * 20 ≤ n.mono m → exec (.snapshotEnd m) s = becomes s n.snapDone) ∧
      (∀ f0, u.frame0 = some f0 → n.sys.power ≠ .powerfail → n.disp.rails = .up → u.over_ = false → n.frameAt f0 u.frames ≤ n.mono m →
        u.frames < u.len → exec (.dispFrameStart m) s = becomes s
          (Node.setFd { n with disp := { n.disp with upd := some { u with frames := u.frames + 1 } } } Fd.DISP_LAST_FRAMES (u.frames + 1)))) ∧
    (∀ k mv lo hi, n.disp.rails = .rising k → n.disp.railAt ≤ n.mono m → (n.railMv (k - 1) mv).railWindow (k - 1) = (lo, hi) → lo ≤ mv → mv ≤ hi →
      ∀ j, (n.railMv (k - 1) mv).railBit (k - 1) true = j →
      exec (.railPowerUpStep mv m) s = becomes s (if 5 ≤ k then j.railsUp n.disp.railAt
        else { j with disp := { j.disp with rails := .rising (k + 1), railAt := n.disp.railAt + ms1 } })) ∧
    (∀ r k t mv, n.disp.rails = .falling (r :: k :: t) → n.disp.railAt ≤ n.mono m → -1000 ≤ mv → mv ≤ 1000 → ∀ j, n.railMv r mv = j →
      exec (.railPowerDownStep mv m) s = becomes s
        (Node.railBit { j with disp := { j.disp with rails := .falling (k :: t), railAt := n.disp.railAt + ms1, faulted := false } } k false)) ∧
    (∀ r mv, n.disp.rails = .falling [r] → n.disp.railAt ≤ n.mono m → -1000 ≤ mv → mv ≤ 1000 →
      exec (.railPowerDownStep mv m) s = becomes s ((n.railMv r mv).railsDown n.disp.railAt)) ∧
    (∀ k mv j, n.disp.rails = .up → k < 5 → ((n.railMv k mv).railFault k 1 mv m).updAbandon 0#8 (railErr k mv) m = j →
      exec (.railFault k mv m) s = becomes s (Node.railsFall { j with disp := { j.disp with held := false } } allDown
        (Node.mono { j with disp := { j.disp with held := false } } m))) ∧
    (∀ t, n.disp.holdEnd = some t → n.disp.rails = .up → n.disp.upd = none → t ≤ n.mono m →
      exec (.railholdExpiry m) s = becomes s (n.railsFall allDown t)) ∧
    (n.disp.rails ≠ .down → n.disp.upd = none → exec (.displayUndervoltage m) s = becomes s
      ((n.updAbandon 0#8 (.error 504, [.w (errText 504)]) m).fastStart)) ∧
    (n.disp.rails = .fast 0 → exec (.fastDischargeStep m) s = becomes s
      (Node.railBit { n with disp := { n.disp with rails := .fast 1 } } 4 false)) ∧
    (n.disp.rails = .fast 1 → exec (.fastDischargeStep m) s = becomes s
      (Node.railBit { n with disp := { n.disp with rails := .fast 2 } } 1 false)) ∧
    (n.disp.rails = .fast 2 → exec (.fastDischargeStep m) s = becomes s ((n.railBit 0 false).railsDown ((n.railBit 0 false).mono m))) ∧
    (Fd.DISP_CMD_UPDATE.get v = 1 → exec (.dispCmdUpdate rq v m) s = becomes s (n.dispCmdUpdate v m)) ∧
    (Fd.DISP_CMD_RAILSON.get v = 1 → exec (.dispCmdRailsOn rq v m) s = becomes s n.dispCmdRailsOn) ∧
    (Fd.DISP_CMD_RAILSOFF.get v = 1 → exec (.dispCmdRailsOff rq v m) s = becomes s (n.dispCmdRailsOff m)) ∧
    (v.getLsbD 0 = true → exec (.lcdCommit rq v) s = becomes s n.lcdCommit) ∧
    (n.fd Fd.LCD_STAT_STATE ≠ 0 → n.disp.lcdAt ≤ n.mono m → exec (.lcdFrameStart m) s = becomes s (n.lcdFrame m))

/-! ### The annex and the interrupt controller -/

/-- The events of the annex: at an instruction's boundary the instruction at the pc runs, and the rows of MRET and
WFI run it where it is theirs; a watchdog that is not served in time faults; the boot read ends with its image or
without; the writes of its mailboxes and rings act for the annex's own accesses. The events of the interrupt
controller: a doorbell rings the source it names, the annex accepts the source that stands first, a completion ends
a source's service, a moderation hold ends, and the global disable and the stray count are written. -/
def Obligations.AnnexAndInterruptEvents : Prop :=
  (∀ (s : State) (n : Node) (m : Moment) (rq : Rq) (v : Word), s.node = n → n.awake = true →
    (n.atBoundary = true → exec (.annexInstruction m) s = becomes s (n.runInstr m) ∧
      (n.nextIs .mret = true → exec (.mret m) s = becomes s (n.runInstr m)) ∧
      (n.nextIs .wfi = true → exec (.wfi m) s = becomes s (n.runInstr m))) ∧
    (n.annexRuns = true → n.annex.startAt = false → n.dogTime ≠ 0 → n.annex.dog + n.dogTime ≤ n.mono m →
      exec (.annexWatchdogExpiry m) s = becomes s (n.annexFault 17 m)) ∧
    exec (.awdserveWrite rq v m) s = becomes s (n.dogServe v m) ∧
    (∀ image, n.annex.boot = true → n.tw.phase = .boot → exec (.annexBootReadEnd image m) s = becomes s (n.bootEnd image m)) ∧
    (∀ image, n.annex.boot = true → n.tw.phase ≠ .boot → n.twState = 3 ∨ n.twState = 0 →
      exec (.annexBootReadEnd image m) s = becomes s (n.bootEnd none m)) ∧
    exec (.mailboxGo .annex v m) s = becomes s (n.reqWrite v) ∧
    exec (.rxrdWrite .annex v) s = becomes s (n.rxrdWrite v) ∧
    exec (.rxcfgEnable .annex v) s = becomes s (n.rxcfgWrite v)) ∧
  (∀ (s : State) (n : Node) (m : Moment) (rq : Rq) (v : Word), s.node = n → n.awake = true →
    exec (.doorbellWrite rq v) s = becomes s (n.ring (Fd.DIC_DOORBELL_SRC.get v)) ∧
    (∀ k, n.acceptable = some k → exec (.interruptAcceptance m) s = becomes s (n.accept k n.annex.pc.toNat m)) ∧
    (n.acceptable = none → exec (.interruptAcceptance m) s = becomes s n) ∧
    exec (.completeWrite rq v m) s = becomes s (n.complete rq (Fd.DIC_COMPLETE_SRC.get v) m) ∧
    (∀ g e, Bank.get 0 n.dic.hold g = e → e ≠ 0 → e ≤ n.mono m → ∀ h, Bank.set 0 n.dic.hold g 0 = h →
      exec (.moderationHoldEnd g m) s = becomes s { n with dic := { n.dic with hold := h } }) ∧
    exec (.gdisWrite rq v) s = becomes s
      (n.setFds [(Fd.DIC_GDIS_HOST, Fd.DIC_GDIS_HOST.get v), (Fd.DIC_GDIS_ANNEX, Fd.DIC_GDIS_ANNEX.get v)]) ∧
    (Fd.DIC_CTRL_STRAYCLR.get v = 1 → exec (.strayclrWrite rq v) s = becomes s (n.setFd Fd.DIC_STRAYCNT_COUNT 0)))

/-! ### Power and reset -/

/-- Power comes up, from a park with its own cause and without warning after a loss that cuts a commit short; resets come
from the pin, the core's watchdog and its undervoltage, each with its cause bit, a reset's drain ends, the first prompt
opens the ports, and the stored settings load. How much of the commit in hand a reset cuts, and the time that passes
while no beat runs, are free values (log entry 2). -/
def Obligations.StartEvents : Prop :=
  ∀ (s : State) (n : Node), s.node = n →
    (n.sys.power = .off → exec .powerOn s = becomes s (n.powerUp 1)) ∧
    (n.sys.power ≠ .off → exec .powerOn s = becomes s ((n.tear true).powerUp 1)) ∧
    (n.sys.power = .off → n.sys.parked = true → exec .powerFailRestart s = becomes s (n.powerUp 2)) ∧
    (∀ k : Node, k = { n with sys := { n.sys with resetPin := true } } →
      (n.sys.phase ≠ .por → n.sys.power = .full ∨ n.sys.power = .quiet →
        exec .resetPin s = becomes s ((k.tear false).cutMrs.resetTo 4)) ∧
      (n.sys.phase ≠ .por → n.sys.power = .dormant → exec .resetPin s = becomes s (k.passSome.cutMrs.resetTo 4)) ∧
      (n.sys.phase = .por ∨ n.sys.power = .off ∨ n.sys.power = .powerfail → exec .resetPin s = becomes s k)) ∧
    (n.awake = true → exec .nodeCoreWatchdog s = becomes s ((n.tear false).resetTo 0x10)) ∧
    (n.awake = true → exec .coreUndervoltage s = becomes s ((n.tear false).resetTo 0x80)) ∧
    (n.sys.resetPin = true → n.sys.phase = .por → n.sys.power ≠ .off → exec .resetNRelease s = becomes s
      (Node.begin_ (Node.passSome { n with sys := { n.sys with resetPin := false } }) n.sys.cause)) ∧
    (∀ t, n.awake = true → n.sys.power ≠ .powerfail → n.cmd.resetDrain = some t → t + 2500 ≤ n.tick →
      exec .nodeResetDrainEnd s = becomes s (n.resetTo n.sys.cause)) ∧
    (n.sys.phase = .starting → n.sys.power = .full → ∀ k j : Node, k = { n.passSome with sys := { n.passSome.sys with phase := .prompt } } →
      allPorts.foldl (fun (i : Node) (p : Port) => i.setPort p { i.port p with cfgInForce := i.portCfg p, lastLine := i.cmd.clock }) k = j →
      exec .firstPrompt s = becomes s (Node.armAuto (j.setPort .service { j.port .service with echo := promptCodes }))) ∧
    (n.sys.phase = .prompt → n.awake = true → ∀ (i j k : Node) (cp gen len flags : Nat), n.loadAll = i →
      (match n.standing with
        | some c => (c, (i.copy c).gen, (i.copy c).len)
        | none => (2, 0, 0)) = (cp, gen, len) →
      i.setFds [(Fd.SYS_STORE_COPY, cp), (Fd.SYS_STORE_LEN, len), (Fd.SYS_STOREGEN_GEN, gen), (Fd.SYS_STORE_DIRTY, 0)] = j →
      (if n.standing = none then (j.setOn Fd.SYS_EVT_STOREDEF true).ring 8 else j) = k →
      (if (n.copy 0).valid = true then 0 else 1) + (if (n.copy 1).valid = true then 0 else 2) + (if i.running = n.image then 0 else 4) = flags →
      ∀ w, (if flags = 0 then k else
          k.raise 0x0C2 ([BitVec.ofNat 8 cp, BitVec.ofNat 8 flags] ++ bytesLE 4 gen ++ bytesLE 2 len) 0 helpCore).ring 10 = w →
      exec .configStoreLoaded s = becomes s (Node.arcStart { w with sys := { w.sys with phase := .loaded } }).bootBegin)

/-- The power commands by register, the entry into DORMANT, which waits for the ports and for the archive's queue, and
the ways out, the warning of a power fail, the annex's grace, the park, and the power cycle's steps. -/
def Obligations.PowerEvents : Prop :=
  ∀ (s : State) (n : Node) (m : Moment) (rq : Rq), s.node = n →
    (n.awake = true →
      exec (.pcmdQuiet rq) s = becomes s (n.pcmd 0 70000) ∧ exec (.pcmdFull rq) s = becomes s (n.pcmd 1 70000) ∧
      exec (.pcmdDormant rq) s = becomes s (n.pcmd 2 70000) ∧
      (∀ mv now k, (if n.on Fd.SYS_PWRSTAT_HOLDOK then decide (30000 ≤ mv) else decide (32000 ≤ mv)) = now →
        now ≠ n.on Fd.SYS_PWRSTAT_HOLDOK → (((n.setFd Fd.SYS_HOLD_MV mv).setOn Fd.SYS_PWRSTAT_HOLDOK now).ring 2).setOn
          (if now then Fd.SYS_EVT_HOLDOK else Fd.SYS_EVT_HOLDLOST) true = k →
        exec (.holdokChange mv m) s = becomes s (k.raiseM 0x0C3 ((if now then 1#8 else 0#8) :: bytesLE 2 mv) m helpCore)) ∧
      (∀ margin spare, n.sys.phase = .loaded → n.sys.avsAt = 0 ∨ n.sys.avsAt + 49 ≤ n.tick →
        exec (.avsStep margin spare) s = becomes s (n.avsStep margin spare)) ∧
      (n.sys.power ≠ .powerfail → ∀ v w spent, exec (.powerFailWarning v w spent m) s = becomes s (n.powerFail v w m)) ∧
      (n.sys.pwrcyc = some 1 → n.sys.pwrcycAt + 12500 ≤ n.tick →
        exec .pwrcycPulseEnd s = becomes s { n with sys := { n.sys with pwrcyc := some 2, pwrcycAt := n.tick } }) ∧
      (n.sys.power ≠ .powerfail → n.sys.pwrcyc = some 2 → n.sys.pwrcycAt + 2500 ≤ n.tick →
        exec .pwrcycSelfReset s = becomes s (n.resetTo 0x40))) ∧
    (∀ z, n.sys.sleep = some z →
      (n.awake = true → z.step = 7 → n.portsAsleep = true → n.queueDone = true → n.on Fd.DIC_WAKESRC_VALID = false →
        n.sys.power ≠ .powerfail → ∀ k, [0, 1].foldl (fun (j : Node) (p : Nat) =>
          (List.range 4).foldl (fun (i : Node) (g : Nat) => i.gateOff p g) j) n.loFreeze = k →
        exec .dormantEntryComplete s = becomes s { k with sys := { k.sys with power := .dormant, sleep := some { z with step := 8 } } }) ∧
      (z.step ≠ 7 ∨ n.portsAsleep = false ∨ n.queueDone = false ∨ n.on Fd.DIC_WAKESRC_VALID = true →
        exec .dormantEntryComplete s = becomes s n) ∧
      (∀ spent, n.awake = true → n.sys.phase ≠ .por → n.sys.power ≠ .dormant → n.sys.power ≠ .powerfail → n.on Fd.DIC_WAKESRC_VALID = true →
        exec (.watchUnitWake spent m) s = becomes s (n.sleepCancel z m)) ∧
      (n.sys.power = .dormant → z.timer ≠ 0 → n.on Fd.DIC_WAKESRC_VALID = false →
        exec .dormantTimerExpiry s = becomes s (n.wakeFull z 3 (z.timer * qnsSec))) ∧
      (∀ spent, n.sys.power = .dormant → n.sys.phase ≠ .por → n.on Fd.DIC_WAKESRC_VALID = true →
        exec (.watchUnitWake spent m) s = becomes s (n.wakeFull z 2 spent)) ∧
      (∀ v w spent, n.sys.power = .dormant → n.sys.phase ≠ .por →
        exec (.powerFailWarning v w spent m) s = becomes s ((n.wakeFull z 2 spent).powerFail v w m))) ∧
    (n.sys.power = .powerfail →
      (n.sys.graceOver = false → n.sys.warnAt + n.fd Fd.SYS_PFCFG_AGRACE * 4000 ≤ n.mono m → ∀ k, n.annexStop 4 m = k →
        exec (.agraceExpiry m) s = becomes s { k with sys := { k.sys with graceOver := true } }) ∧
      (∀ hold k, n.setFd Fd.SYS_HOLD_MV hold = k → k.parkReady = true ∨ hold < 25000 → exec (.park hold m) s = becomes s k.park))

/-! ### Command ports and registers -/

/-- The events of the command ports: characters and lines come in, characters go out, the driver turns around, port
settings take effect, a stored reply is sent again, whole or as `?E310` where it was over 64 lines, or given up, lost notices are told, streams emit, a paused
micro-routine resumes, a confirmation lapses, leases end by time and by silence, and a silent host is noticed. -/
def Obligations.PortEvents : Prop :=
  ∀ (s : State) (n : Node) (p : Port) (m : Moment), s.node = n →
    (n.hears p = true → n.on Fd.CMD_HOSTCFG_ARMED = false →
      (∀ ch, ch.stopOk = true → ch.parityOk = true → exec (.characterReceived p ch m) s = becomes s
        (((n.rxMark p m).setPort p { (n.rxMark p m).port p with frameRun := 0 }).charIn p (ch.code % 256) m)) ∧
      (∀ ch, ch.stopOk = false → exec (.characterReceived p ch m) s = becomes s ((n.rxMark p m).charBad p)) ∧
      (∀ cs, p = .host ∨ p = .service → exec (.lineReceived p cs m) s = becomes s
        ((cs ++ [13]).foldl (fun (k : Node) (c : Nat) => k.charIn p c m) (n.rxMark p m)))) ∧
    (∀ ch, n.hears .host = true → n.on Fd.CMD_HOSTCFG_ARMED = true →
      exec (.characterReceived .host ch m) s = becomes s ((n.rxMark .host m).autoBaud ch)) ∧
    (∀ cs, exec (.lineReceived .bus cs m) s = becomes s (n.lineIn .bus cs (n.port .bus).station (n.port .bus).via false m) ∧
      exec (.lineReceived .annex cs m) s = becomes s (n.lineIn .annex cs 0 0 false m)) ∧
    (n.sending p = true → exec (.characterSent p) s = becomes s ((n.nextOut p).charGone p)) ∧
    (n.awake = true → n.uartUp .host = true → Fd.CMD_HOSTCFG_PHY.get (n.port .host).cfgInForce = 1 → ((n.nextOut .host).port .host).out ≠ [] →
      n.turned m = true → exec (.hostDeTurnaround m) s = becomes s (n.setPort .host { n.port .host with de := true })) ∧
    (n.awake = true →
      (p = .host ∨ p = .service → exec (.portSettingsTakeEffect p) s = becomes s (n.takeSettings p)) ∧
      (∀ r, (n.port p).stored = some r →
        (r.again = true → r.ended.isSome = true → (n.port p).replyOpen = false → exec (.storedReplyResend p) s = becomes s
          (n.setPort p { n.port p with stored := some { r with again := false }, reply := (n.port p).reply ++
            (if 64 < r.count then [⟨r.tag, .error 310, [.w (errText 310)]⟩] else r.lines) })) ∧
        (∀ t, r.ended = some t → t + 100000 ≤ n.tick → r.again = false →
          exec (.storedReplyExpiry p) s = becomes s (n.setPort p { n.port p with stored := none }))) ∧
      ((n.port p).lost ≠ 0 → (n.port p).notices.length < 64 → exec (.lostNotice p) s = becomes s
        (n.setPort p { n.port p with lost := 0, notices := (n.port p).notices ++
          [⟨"", .notice, [.w "LOST", .n (n.port p).lost]⟩] })) ∧
      (∀ i t items pubs, n.ucStream i = (items, pubs) → n.cmd.streams.find? (fun t => t.port == p && t.obj == .uc && t.idx == some i) = some t →
        pubs ≠ 0 → pubs ≤ t.phase → ∀ ss, n.cmd.streams.map (fun (u : Stream) =>
          if u.port == p && u.obj == .uc && u.idx == some i then { u with phase := u.phase - pubs } else u) = ss →
        exec (.streamEmit p .uc (some i)) s = becomes s
          (Node.notifyPort { n with cmd := { n.cmd with streams := ss } } p .stream (.w "STREAM" :: items))) ∧
      (∀ c, (n.port p).confirm = some c → c.until_ < n.tick →
        exec (.confirmationExpiry p) s = becomes s (n.setPort p { n.port p with confirm := none })) ∧
      (∀ o idx, exec (.leaseTimeExpiry p o idx) s = becomes s (n.endLeases (fun x => leaseIs p o idx x && (match x.left with
        | some t => t ≤ n.cmd.clock
        | none => false))) ∧
        exec (.leaseSilenceExpiry p o idx) s = becomes s (n.endLeases (fun x => leaseIs p o idx x && n.leaseSilent x)))) ∧
    (n.lively = true →
      (n.hostSilent = true → exec (.hostHeartbeatExpiry m) s = becomes s (n.hostLost m)) ∧
      (∀ r, (n.port p).mr = some r → r.paused = true → n.coreWork = false → r.pauseSurvey = false →
        ∀ r' : Mr, r' = { r with paused := false, since := r.pos } → exec (.microRoutineResume p) s = becomes s
          ((n.setPort p { n.port p with mr := some r' }).send p r.tag [(.resume r.pos, [])] false)))

/-! ### Rules of the whole node -/

/-- Until the stored settings have loaded, every line but those of R402 is refused with `?E308 STARTING` and has no
effect. -/
def Obligations.StartingRefusesLines : Prop :=
  ∀ (s : State) (l : Line) (o : Obj) (reg fld : String) (a : Nat), s.node.portReady l.port = true → s.node.sys.phase ≠ .loaded →
    ∀ c ∈ [Instr.setSys l, .showSysLease l, .showSysMr l, .showSysPort l, .doSysReinitPort l, .doNodeReset l, .setTime l, .doTimeSet l, .getTime l,
      .setTimeCapture l, .doTimeTake l, .showBeat l, .clearBeat l, .watchTime l, .watchBeat l, .doTimeReinit l, .setUc l, .getUc l, .showUc l,
      .showUcQuad l, .doUcQuadFail l, .doUcQuadRestore l, .setUcCtab l, .watchUc l, .streamUc l, .doUcReinit l, .setLo l, .getLo l, .showLo l,
      .showLoCheck l, .watchLo l, .streamLo l, .clearLo l, .doLoReinit l, .setGrid l, .getGrid l, .showGrid l, .streamGrid l, .doGridReinit l,
      .setTrans l, .doTransArm l, .doTransDisarm l, .getTrans l, .showTrans l, .watchTrans l, .doTransDump l, .doTransReinit l, .setAp l,
      .setApEngine l, .setAg l, .setCall l, .setCallLine l, .getAp l, .getAg l, .getCall l, .showAp l, .showAg l, .showCall l, .doApAck l,
      .doAgAck l, .doApShelve l, .doApUnshelve l, .doAgForeset l, .watchAp l, .doApReinit l, .doAgReinit l, .doCallReinit l, .setArc l,
      .setArcCode l, .getArc l, .showArc l, .showArcCode l, .doArcLog l, .watchArc l, .clearArcGallery l, .doArcReseal l, .doArcReinit l,
      .setBusPort l, .setBusFilter l, .setBusGate l, .setBusVal l, .setBusAlmto l, .getBus l, .showBus l, .showBusTrim l, .doBusSend l,
      .doBusAbort l, .doBusTunnel l, .doBusGateReset l, .doBusTrimclr l, .setBusTrimlock l, .watchBus l, .doBusReinit l, .doSurveyStart l,
      .doSurveyAbort l, .setSurvey l, .setBusLink l, .showSurvey l, .showSurveyMap l, .showBusMark l, .showBusDelay l, .getBusLink l,
      .doBusSleep l, .doBusWake l, .doBusWakeup l, .setGp l, .setGpMask l, .doGpToggle l, .getGp l, .getGpBank l, .showGp l, .doGpLock l,
      .watchGp l, .watchGpBank l, .doGpReinit l, .setTw l, .doTwWrite l, .doTwRead l, .doTwClear l, .getTw l, .clearTw l, .doTwReinit l,
      .doDispUpdate l, .doDispLoad l, .setDisp l, .setDispWaveLen l, .setDispWaveData l, .doDispRails l, .setDispCom l, .getDisp l, .showDisp l,
      .showDispWave l, .watchDisp l, .doDispReinit l, .doNodeLoad l, .doNodeStart l, .doNodeStop l, .setNode l, .watchNode l, .doDicRing l,
      .doDicClear l, .doDicDone l, .doDicTake l, .setDic l, .getDic l, .showDic l, .clearDic l, .doDicReinit l, .doSysCommit l, .doSysFactory l,
      .showSysStore l, .setSysPower l, .doNodeQuiet l, .doNodeFull l, .doNodeDormant l, .doNodePwrcyc l, .hold l o, .free l o, .regWrite l reg, .regFieldWrite l reg fld, .poke l a],
      exec c s = refuses s l ⟨308, [.w "STARTING"]⟩

/-- A `GET` or a `SHOW`, `HELP` and a recorder's dump change nothing but the command ports' output and bookkeeping,
in every state, whether the line waits, is refused or is answered. -/
def Obligations.ReadsChangeOnlyPorts : Prop :=
  ∀ (s : State) (l : Line) (names : List String) (w : Option String),
    ∀ c ∈ [Instr.getSysDevid l, .getSysUid l, .getSysRomver l, .showNode l, .showSysLease l, .showSysMr l, .showSysPort l, .getTime l, .showBeat l,
      .getUc l, .showUc l, .showUcQuad l, .getLo l, .showLo l, .showLoCheck l, .getGrid l, .showGrid l, .getTrans l, .showTrans l, .getAp l,
      .getAg l, .getCall l, .showAp l, .showAg l, .showCall l, .getArc l, .showArc l, .showArcCode l, .getBus l, .showBus l, .showBusTrim l,
      .showSurvey l, .showSurveyMap l, .showBusMark l, .showBusDelay l, .getBusLink l, .getGp l, .getGpBank l, .showGp l, .getTw l, .getDisp l,
      .showDisp l, .showDispWave l, .showNodeAnnex l, .getDic l, .showDic l, .showSysStore l, .getSysPower l, .getSysRstcause l, .showNodeModes l, .getSys l names, .help l w, .doTransDump l],
      ∃ t, exec c s = .next t ∧ OnlyPorts s.node t.node ∧ t.pending = s.pending

/-- A ring of a source sets its bit of the pending registers, whatever the source's enable, active state and target
and the global disable; every other pending bit is as before, a source already pending stays so, and nothing outside
the registers counts rings. It is shown at a DOORBELL write. -/
def Obligations.RingSetsPending : Prop :=
  ∀ (s : State) (rq : Rq) (v : Word) (k : Nat), s.node.awake = true → Fd.DIC_DOORBELL_SRC.get v = k →
    ∃ t, exec (.doorbellWrite rq v) s = .next t ∧ t.node.pend k = true ∧ (∀ j, j < 256 → j ≠ k → t.node.pend j = s.node.pend j) ∧
      t.node = { s.node with reg := t.node.reg } ∧ t.node.fd Fd.DIC_STRAYCNT_COUNT = s.node.fd Fd.DIC_STRAYCNT_COUNT

/-- A source is deliverable at its target exactly where it is pending, enabled and not active, the target's global
disable is clear, its moderation group is not holding (in WFI the annex's hold is ignored, R388), and, at the annex,
its vector is not 0. -/
def Obligations.DeliverableExactly : Prop :=
  ∀ (n : Node) (tgt k : Nat), tgt < 2 → k < 256 →
    (k ∈ n.deliverable tgt ↔ n.target k = tgt ∧ n.pend k = true ∧ n.ena k = true ∧ n.act k = false ∧
      n.on (if tgt = 0 then Fd.DIC_GDIS_ANNEX else Fd.DIC_GDIS_HOST) = false ∧
      (n.holding k = false ∨ (tgt = 0 ∧ n.annex.wfi = true)) ∧ (tgt = 0 → n.rd (Ad.DIC_VECT k) ≠ 0#32))

/-- A read of TIME.QNS by a requester latches the seconds of the time it read into TIME.SECLO and TIME.SECHI for
that requester: its reads of them that follow return those seconds at any later moment, and the other requester's
reads return what its own latch held. -/
def Obligations.TimeLatchedPerRequester : Prop :=
  ∀ (s : State) (rq : Rq) (m : Moment) (m' : Access), s.node.awake = true →
    ∃ t, exec (.timeQnsRead rq m) s = .next t ∧ t.node.rdata = BitVec.ofNat 32 (qnsOf (s.node.now m)) ∧
      (∃ u, exec (.readClearRead rq Ad.TIME_SECLO m') t = .next u ∧ u.node.rdata = BitVec.ofNat 32 (secOf (s.node.now m))) ∧
      (∃ u, exec (.readClearRead rq Ad.TIME_SECHI m') t = .next u ∧ u.node.rdata = BitVec.ofNat 32 (secOf (s.node.now m) / 2 ^ 32)) ∧
      ∀ rq', rq' ≠ rq → ∀ a ∈ [Ad.TIME_SECLO, Ad.TIME_SECHI], ∃ u w, exec (.readClearRead rq' a m') t = .next u ∧
        exec (.readClearRead rq' a m') s = .next w ∧ u.node.rdata = w.node.rdata

/-- A read of a channel's UC.VAL by a requester latches that channel's flags and beat stamp into UC.VSTAT for that
requester; the other requester's UC.VSTAT is as it was. -/
def Obligations.ChannelLatchedPerRequester : Prop :=
  ∀ (s : State) (rq : Rq) (i : Nat) (m : Access), s.node.awake = true → i < 24 →
    ∃ t, exec (.ucValRead rq i) s = .next t ∧ t.node.rdata = s.node.rd (Ad.UC_VAL i) ∧
      (∃ u, exec (.readClearRead rq Ad.UC_VSTAT m) t = .next u ∧ u.node.rdata = s.node.vstatOf i) ∧
      ∀ rq', rq' ≠ rq → ∃ u w, exec (.readClearRead rq' Ad.UC_VSTAT m) t = .next u ∧
        exec (.readClearRead rq' Ad.UC_VSTAT m) s = .next w ∧ u.node.rdata = w.node.rdata

/-- The frame of settings: whatever the state and the keys, the command changes no register but those its keys stand
for and SYS.STORE (the dirty mark), and beside registers and settings without a register nothing but the command
ports. -/
def Obligations.SettingsFrame : Prop :=
  ∀ (s : State) (l : Line) (c : Instr) (specs : List KeySpec),
    ((c = .setTrans l ∧ specs = transSpecs ++ transInSpecs) ∨ (c = .setCall l ∧ specs = callSpecs) ∨ (c = .setCallLine l ∧ specs = callLineSpecs) ∨
     (c = .setSurvey l ∧ specs = surveySpecs) ∨ (c = .setBusAlmto l ∧ specs = almToSpecs) ∨ (c = .setBusGate l ∧ specs = gateSpecs (keyPort l.keys)) ∨
     (c = .setBusFilter l ∧ specs = filterSpecs (keyPort l.keys))) →
    ∃ t, exec c s = .next t ∧
      t.node = { s.node with reg := t.node.reg, key := t.node.key, cmd := { s.node.cmd with ports := t.node.cmd.ports } } ∧
      ∀ a, a ≠ Fd.SYS_STORE_DIRTY.addr → (∀ k ∈ specs, ∀ i f, k.loc i = .fd f → f.addr ≠ a) → t.node.rd a = s.node.rd a

/-- A setting given alone takes its value, in its register field, and every other field of that register keeps its
own: `SET TRANS`, `SET TRANS n`, `SET CALL n`, `SET GRID n`. -/
def Obligations.SettingTakesItsValue : Prop :=
  ∀ (s : State) (l : Line) (n : Node) (i v : Nat) (k : String) (x : Val) (sp : KeySpec) (f : Fd), l.keys = [(k, x)] → sp.form.code x = .ok v →
    sp.loc i = .fd f → f.lo ≤ f.hi → f.hi < 32 → f.addr ≠ Fd.SYS_STORE_DIRTY.addr → ∀ (c : Instr),
    ((c = .setTrans l ∧ MayRun s l .trans n ∧ l.idx = none ∧ specOf transSpecs k = some sp) ∨
     (c = .setTrans l ∧ MayRun s l .trans n ∧ l.items 8 = .ok [i] ∧ specOf transInSpecs k = some sp) ∨
     (c = .setCallLine l ∧ MayRun s l .call n ∧ l.items 8 = .ok [i] ∧ specOf callLineSpecs k = some sp ∧ n.fd Fd.ALM_STAT_STATE ≠ 0) ∨
     (c = .setGrid l ∧ MayRun s l .grid n ∧ l.items 8 = .ok [i] ∧ specOf gridInSpecs k = some sp)) →
    ∃ t, exec c s = .next t ∧ t.node.fd f = v % 2 ^ f.width ∧
      ∀ g : Fd, g.addr = f.addr → g.lo ≤ g.hi → f.hi < g.lo ∨ g.hi < f.lo → t.node.fd g = s.node.fd g

/-- A line that stores to memory stores its bytes at its address and no other byte: `POKE` four bytes, least
significant first, at the address given; `DO NODE LOAD` its data from its address (R360); `DO DISP LOAD` its data
from the image's base plus y lines plus a quarter of x (R345), while no snapshot is taken. -/
def Obligations.StoresOnlyItsBytes : Prop :=
  ∀ (s : State) (l : Line) (n : Node) (c : Instr) (a : Nat) (d : List Byte),
    ((c = .poke l a ∧ Live s l ∧ taken s l = n ∧ a % 4 = 0 ∧ (region a = .tcm ∨ region a = .sram) ∧ valueKey l.keys = .ok () ∧
        ∃ v, valueOf l.keys 32 = .ok v ∧ d = bytesLE 4 v) ∨
     (c = .doNodeLoad l ∧ MayRun s l .node n ∧ l.idx = none ∧ onlyKeys ["ADDR", "DATA"] ["ADDR", "DATA"] l.keys = .ok () ∧
        (∃ v, keyVal l.keys "DATA" = some v ∧ (hexData v).isSome = true) ∧ checkKeys nodeLoadSpecs [] (l.keys.filter (fun k => k.1 == "ADDR")) = .ok () ∧
        dataKey l.keys 64 = .ok d ∧ bigKey l.keys "ADDR" = a ∧ a + d.length ≤ 0x10100000 ∧ n.sys.power ≠ .quiet ∧ n.annexRuns = false) ∨
     (c = .doDispLoad l ∧ MayRun s l .disp n ∧ l.idx = none ∧ onlyKeys ["X", "Y", "DATA"] ["X", "Y", "DATA"] l.keys = .ok () ∧ dataKey l.keys 32 = .ok d ∧
        checkKeys loadSpecs [] (l.keys.filter (fun p => p.1 != "DATA")) = .ok () ∧ n.dispOpen l.keys = .ok () ∧ n.on Fd.DISP_STAT_SNAP = false ∧
        ∃ x y, (keyNum loadSpecs l.keys "X").getD 0 = x ∧ (keyNum loadSpecs l.keys "Y").getD 0 = y ∧ x + 4 * d.length ≤ n.dispW ∧ y < n.dispH ∧
          x % 4 = 0 ∧ a = n.fd Fd.DISP_BASE_BASE + y * (n.dispW / 4) + x / 4)) →
    ∃ t, exec c s = .next t ∧ (∀ b, b < a ∨ a + d.length ≤ b → t.node.byte b = s.node.byte b) ∧
      ∀ j, j < d.length → t.node.byte (a + j) = d.getD j 0#8

/-- Reset leaves every register at the value its row gives, memory with nothing listed, the node off, and no lease,
watch, stream or line waiting; `POWER_ON` then starts it with the cause POR and raises the count of power cycles.
The registers whose reset value the spec does not give hold the model's choice (log entry 11). -/
def Obligations.ResetState : Prop :=
  (∀ a, State.reset.node.rd a = resetWord a) ∧ State.reset.node.mem = [] ∧ State.reset.node.sys.power = .off ∧
    State.reset.node.cmd.leases = [] ∧ State.reset.node.cmd.streams = [] ∧
    (∀ p, (State.reset.node.port p).waiting = [] ∧ (State.reset.node.port p).watches = [] ∧ (State.reset.node.port p).mr = none) ∧
    State.reset.node.on Fd.DISP_STAT_IMGUNK = true ∧
    ∃ t, exec .powerOn State.reset = .next t ∧ t.node.sys.phase = .starting ∧ t.node.sys.power = .full ∧ t.node.rd Ad.SYS_RSTCAUSE = 1#32 ∧
      t.node.nv.pwrcyc = (State.reset.node.nv.pwrcyc + 1) % 2 ^ 24 ∧ ∀ a, a ≠ Ad.SYS_RSTCAUSE → t.node.rd a = resetWord a
end

