-- ==== Sys2Proof/Laws/Bank.lean ====
section
/-! SUPPORT. Reading a numbered table after writing it. -/
namespace Sys2Proof

theorem Bank.mem_drop {α : Type} {i : Nat} {b : List (Nat × α)} : ∀ y ∈ Bank.drop b i, y.1 ≠ i := by
  induction b with
  | nil => intro y h; cases h
  | cons x t ih =>
    obtain ⟨k, v⟩ := x
    intro y h
    rw [Bank.drop] at h
    split at h
    · exact ih y h
    · rename_i hk
      rcases List.mem_cons.1 h with rfl | h
      · exact hk
      · exact ih y h
theorem Bank.get_absent {α : Type} {d : α} {i : Nat} {b : List (Nat × α)} (hb : ∀ y ∈ b, y.1 ≠ i) : Bank.get d b i = d := by
  induction b with
  | nil => rfl
  | cons x t ih =>
    obtain ⟨k, v⟩ := x
    rw [Bank.get, if_neg (hb (k, v) (by simp)), ih (fun y hy => hb y (List.mem_cons_of_mem _ hy))]
theorem Bank.get_drop {α : Type} {d : α} {i j : Nat} {b : List (Nat × α)} (h : i ≠ j) : Bank.get d (Bank.drop b i) j = Bank.get d b j := by
  induction b with
  | nil => rfl
  | cons x t ih =>
    obtain ⟨k, v⟩ := x
    rw [Bank.drop, Bank.get]
    by_cases hk : k = i
    · rw [if_pos hk, ih, if_neg (fun e => h (hk.symm.trans e))]
    · rw [if_neg hk, Bank.get, ih]
theorem Bank.get_put {α : Type} {d v : α} {i : Nat} (j : Nat) {b : List (Nat × α)} (hb : ∀ y ∈ b, y.1 ≠ i) :
    Bank.get d (Bank.put i v b) j = if i = j then v else Bank.get d b j := by
  induction b with
  | nil => rfl
  | cons x t ih =>
    obtain ⟨k, w⟩ := x
    rw [Bank.put]
    split
    · rw [Bank.get]
    · rw [Bank.get, ih (fun y hy => hb y (List.mem_cons_of_mem _ hy)), Bank.get]
      have hk : k ≠ i := hb (k, w) (by simp)
      by_cases hj : k = j
      · rw [if_pos hj, if_pos hj, if_neg (fun e => hk (hj.trans e.symm))]
      · rw [if_neg hj, if_neg hj]
/-- Number `j` after number `i` has been given a value. -/
theorem Bank.get_set {α : Type} [DecidableEq α] (d : α) (b : List (Nat × α)) (i : Nat) (v : α) (j : Nat) :
    Bank.get d (Bank.set d b i v) j = if i = j then v else Bank.get d b j := by
  rw [Bank.set]
  split
  · rename_i hv
    by_cases h : i = j
    · subst h; rw [Bank.get_absent Bank.mem_drop, if_pos rfl, hv]
    · rw [Bank.get_drop h, if_neg h]
  · rw [Bank.get_put _ Bank.mem_drop]
    by_cases h : i = j
    · rw [if_pos h, if_pos h]
    · rw [if_neg h, if_neg h, Bank.get_drop h]
/-- Another number is as before, also where its default is another one. -/
theorem Bank.get_set_ne {α : Type} [DecidableEq α] {d e : α} (b : List (Nat × α)) (v : α) {i j : Nat} (h : i ≠ j) :
    Bank.get e (Bank.set d b i v) j = Bank.get e b j := by
  rw [Bank.set]
  split
  · exact Bank.get_drop h
  · rw [Bank.get_put _ Bank.mem_drop, if_neg h, Bank.get_drop h]

end Sys2Proof
end

