-- ==== Sys2Proof/Laws/Exec.lean ====
section
/-! SUPPORT. What `exec` does with each command: its meaning. -/
namespace Sys2Proof.Machine

theorem exec_registerWrite (s : State) : ∀ rq a v m, exec (.registerWrite rq a v m) s = execRegisterWrite rq a v m s := fun _ _ _ _ => rfl
theorem exec_readClearRead (s : State) : ∀ rq a m, exec (.readClearRead rq a m) s = execReadClearRead rq a m s := fun _ _ _ => rfl
theorem exec_getSysDevid (s : State) : ∀ l, exec (.getSysDevid l) s = execGetSysDevid l s := fun _ => rfl
theorem exec_getSysUid (s : State) : ∀ l, exec (.getSysUid l) s = execGetSysUid l s := fun _ => rfl
theorem exec_getSysRomver (s : State) : ∀ l, exec (.getSysRomver l) s = execGetSysRomver l s := fun _ => rfl
theorem exec_showNode (s : State) : ∀ l, exec (.showNode l) s = execShowNode l s := fun _ => rfl
theorem exec_beatStart (s : State) : ∀ hf, exec (.beatStart hf) s = execBeatStart hf s := fun _ => rfl
theorem exec_stageS0 (s : State) : ∀ inp, exec (.stageS0 inp) s = execStageS0 inp s := fun _ => rfl
theorem exec_stageS1 (s : State) : ∀ codes, exec (.stageS1 codes) s = execStageS1 codes s := fun _ => rfl
theorem exec_stageS2 (s : State) : ∀ late, exec (.stageS2 late) s = execStageS2 late s := fun _ => rfl
theorem exec_stageS3 (s : State) : ∀ late, exec (.stageS3 late) s = execStageS3 late s := fun _ => rfl
theorem exec_stageS4 (s : State) : ∀ late, exec (.stageS4 late) s = execStageS4 late s := fun _ => rfl
theorem exec_stageS5 (s : State) : ∀ late lo, exec (.stageS5 late lo) s = execStageS5 late lo s := fun _ _ => rfl
theorem exec_stageS6 (s : State) : ∀ late nvBad, exec (.stageS6 late nvBad) s = execStageS6 late nvBad s := fun _ _ => rfl
theorem exec_stageS7 (s : State) : ∀ cut nvBad, exec (.stageS7 cut nvBad) s = execStageS7 cut nvBad s := fun _ _ => rfl
theorem exec_helperLatePublication (s : State) : ∀ slot m, exec (.helperLatePublication slot m) s = execHelperLatePublication slot m s := fun _ _ => rfl
theorem exec_nodeTimeSecond (s : State) : exec .nodeTimeSecond s = execNodeTimeSecond s := rfl
theorem exec_secondPulseEnd (s : State) : ∀ m, exec (.secondPulseEnd m) s = execSecondPulseEnd m s := fun _ => rfl
theorem exec_characterReceived (s : State) : ∀ p ch m, exec (.characterReceived p ch m) s = execCharacterReceived p ch m s := fun _ _ _ => rfl
theorem exec_hostDeTurnaround (s : State) : ∀ m, exec (.hostDeTurnaround m) s = execHostDeTurnaround m s := fun _ => rfl
theorem exec_lineReceived (s : State) : ∀ p cs m, exec (.lineReceived p cs m) s = execLineReceived p cs m s := fun _ _ _ => rfl
theorem exec_typedHelpQuery (s : State) : ∀ p, exec (.typedHelpQuery p) s = execTypedHelpQuery p s := fun _ => rfl
theorem exec_storedReplyResend (s : State) : ∀ p, exec (.storedReplyResend p) s = execStoredReplyResend p s := fun _ => rfl
theorem exec_storedReplyExpiry (s : State) : ∀ p, exec (.storedReplyExpiry p) s = execStoredReplyExpiry p s := fun _ => rfl
theorem exec_lostNotice (s : State) : ∀ p, exec (.lostNotice p) s = execLostNotice p s := fun _ => rfl
theorem exec_streamEmit (s : State) : ∀ p o i, exec (.streamEmit p o i) s = execStreamEmit p o i s := fun _ _ _ => rfl
theorem exec_microRoutineResume (s : State) : ∀ p, exec (.microRoutineResume p) s = execMicroRoutineResume p s := fun _ => rfl
theorem exec_confirmationExpiry (s : State) : ∀ p, exec (.confirmationExpiry p) s = execConfirmationExpiry p s := fun _ => rfl
theorem exec_hold (s : State) : ∀ l o, exec (.hold l o) s = execHold l o s := fun _ _ => rfl
theorem exec_free (s : State) : ∀ l o, exec (.free l o) s = execFree l o s := fun _ _ => rfl
theorem exec_leaseTimeExpiry (s : State) : ∀ p o idx, exec (.leaseTimeExpiry p o idx) s = execLeaseTimeExpiry p o idx s := fun _ _ _ => rfl
theorem exec_leaseSilenceExpiry (s : State) : ∀ p o idx, exec (.leaseSilenceExpiry p o idx) s = execLeaseSilenceExpiry p o idx s := fun _ _ _ => rfl
theorem exec_hostHeartbeatExpiry (s : State) : ∀ m, exec (.hostHeartbeatExpiry m) s = execHostHeartbeatExpiry m s := fun _ => rfl
theorem exec_regRead (s : State) : ∀ l reg, exec (.regRead l reg) s = execRegRead l reg s := fun _ _ => rfl
theorem exec_regFieldRead (s : State) : ∀ l reg fld, exec (.regFieldRead l reg fld) s = execRegFieldRead l reg fld s := fun _ _ _ => rfl
theorem exec_regWrite (s : State) : ∀ l reg, exec (.regWrite l reg) s = execRegWrite l reg s := fun _ _ => rfl
theorem exec_regFieldWrite (s : State) : ∀ l reg fld, exec (.regFieldWrite l reg fld) s = execRegFieldWrite l reg fld s := fun _ _ _ => rfl
theorem exec_peek (s : State) : ∀ l a, exec (.peek l a) s = execPeek l a s := fun _ _ => rfl
theorem exec_poke (s : State) : ∀ l a, exec (.poke l a) s = execPoke l a s := fun _ _ => rfl
theorem exec_setSys (s : State) : ∀ l, exec (.setSys l) s = execSetSys l s := fun _ => rfl
theorem exec_getSys (s : State) : ∀ l names, exec (.getSys l names) s = execGetSys l names s := fun _ _ => rfl
theorem exec_portSettingsTakeEffect (s : State) : ∀ p, exec (.portSettingsTakeEffect p) s = execPortSettingsTakeEffect p s := fun _ => rfl
theorem exec_showSysLease (s : State) : ∀ l, exec (.showSysLease l) s = execShowSysLease l s := fun _ => rfl
theorem exec_showSysMr (s : State) : ∀ l, exec (.showSysMr l) s = execShowSysMr l s := fun _ => rfl
theorem exec_showSysPort (s : State) : ∀ l, exec (.showSysPort l) s = execShowSysPort l s := fun _ => rfl
theorem exec_help (s : State) : ∀ l word, exec (.help l word) s = execHelp l word s := fun _ _ => rfl
theorem exec_doSysReinitPort (s : State) : ∀ l, exec (.doSysReinitPort l) s = execDoSysReinitPort l s := fun _ => rfl
theorem exec_doNodeReset (s : State) : ∀ l, exec (.doNodeReset l) s = execDoNodeReset l s := fun _ => rfl
theorem exec_nodeResetDrainEnd (s : State) : exec .nodeResetDrainEnd s = execNodeResetDrainEnd s := rfl
theorem exec_ppsEdge (s : State) : ∀ rise widthNs m, exec (.ppsEdge rise widthNs m) s = execPpsEdge rise widthNs m s := fun _ _ _ => rfl
theorem exec_ppsEdgeMissing (s : State) : ∀ m, exec (.ppsEdgeMissing m) s = execPpsEdgeMissing m s := fun _ => rfl
theorem exec_irigFrame (s : State) : ∀ label dist cellsOk m, exec (.irigFrame label dist cellsOk m) s = execIrigFrame label dist cellsOk m s := fun _ _ _ _ => rfl
theorem exec_finutInvalid (s : State) : ∀ m, exec (.finutInvalid m) s = execFinutInvalid m s := fun _ => rfl
theorem exec_timeStep (s : State) : exec .timeStep s = execTimeStep s := rfl
theorem exec_coarseTimeout (s : State) : ∀ m, exec (.coarseTimeout m) s = execCoarseTimeout m s := fun _ => rfl
theorem exec_referenceLoss (s : State) : ∀ m, exec (.referenceLoss m) s = execReferenceLoss m s := fun _ => rfl
theorem exec_edgeCapture (s : State) : ∀ sel rise m, exec (.edgeCapture sel rise m) s = execEdgeCapture sel rise m s := fun _ _ _ => rfl
theorem exec_setTime (s : State) : ∀ l, exec (.setTime l) s = execSetTime l s := fun _ => rfl
theorem exec_doTimeSet (s : State) : ∀ l, exec (.doTimeSet l) s = execDoTimeSet l s := fun _ => rfl
theorem exec_getTime (s : State) : ∀ l, exec (.getTime l) s = execGetTime l s := fun _ => rfl
theorem exec_setTimeCapture (s : State) : ∀ l, exec (.setTimeCapture l) s = execSetTimeCapture l s := fun _ => rfl
theorem exec_doTimeTake (s : State) : ∀ l, exec (.doTimeTake l) s = execDoTimeTake l s := fun _ => rfl
theorem exec_capturePop (s : State) : ∀ rq v, exec (.capturePop rq v) s = execCapturePop rq v s := fun _ _ => rfl
theorem exec_showBeat (s : State) : ∀ l, exec (.showBeat l) s = execShowBeat l s := fun _ => rfl
theorem exec_clearBeat (s : State) : ∀ l, exec (.clearBeat l) s = execClearBeat l s := fun _ => rfl
theorem exec_overrunClear (s : State) : ∀ rq v, exec (.overrunClear rq v) s = execOverrunClear rq v s := fun _ _ => rfl
theorem exec_watchTime (s : State) : ∀ l, exec (.watchTime l) s = execWatchTime l s := fun _ => rfl
theorem exec_watchBeat (s : State) : ∀ l, exec (.watchBeat l) s = execWatchBeat l s := fun _ => rfl
theorem exec_doTimeReinit (s : State) : ∀ l, exec (.doTimeReinit l) s = execDoTimeReinit l s := fun _ => rfl
theorem exec_timeQnsRead (s : State) : ∀ rq m, exec (.timeQnsRead rq m) s = execTimeQnsRead rq m s := fun _ _ => rfl
theorem exec_crossbarSwitch (s : State) : exec .crossbarSwitch s = execCrossbarSwitch s := rfl
theorem exec_quadMigrated (s : State) : exec .quadMigrated s = execQuadMigrated s := rfl
theorem exec_quadRestored (s : State) : exec .quadRestored s = execQuadRestored s := rfl
theorem exec_channelStale (s : State) : ∀ i, exec (.channelStale i) s = execChannelStale i s := fun _ => rfl
theorem exec_diDebounce (s : State) : ∀ i, exec (.diDebounce i) s = execDiDebounce i s := fun _ => rfl
theorem exec_ucDrainComplete (s : State) : ∀ i, exec (.ucDrainComplete i) s = execUcDrainComplete i s := fun _ => rfl
theorem exec_setUc (s : State) : ∀ l, exec (.setUc l) s = execSetUc l s := fun _ => rfl
theorem exec_getUc (s : State) : ∀ l, exec (.getUc l) s = execGetUc l s := fun _ => rfl
theorem exec_showUc (s : State) : ∀ l, exec (.showUc l) s = execShowUc l s := fun _ => rfl
theorem exec_showUcQuad (s : State) : ∀ l, exec (.showUcQuad l) s = execShowUcQuad l s := fun _ => rfl
theorem exec_doUcQuadFail (s : State) : ∀ l, exec (.doUcQuadFail l) s = execDoUcQuadFail l s := fun _ => rfl
theorem exec_doUcQuadRestore (s : State) : ∀ l, exec (.doUcQuadRestore l) s = execDoUcQuadRestore l s := fun _ => rfl
theorem exec_setUcCtab (s : State) : ∀ l, exec (.setUcCtab l) s = execSetUcCtab l s := fun _ => rfl
theorem exec_watchUc (s : State) : ∀ l, exec (.watchUc l) s = execWatchUc l s := fun _ => rfl
theorem exec_streamUc (s : State) : ∀ l, exec (.streamUc l) s = execStreamUc l s := fun _ => rfl
theorem exec_doUcReinit (s : State) : ∀ l, exec (.doUcReinit l) s = execDoUcReinit l s := fun _ => rfl
theorem exec_ucValRead (s : State) : ∀ rq i, exec (.ucValRead rq i) s = execUcValRead rq i s := fun _ _ => rfl
theorem exec_thermalFoldback (s : State) : ∀ i, exec (.thermalFoldback i) s = execThermalFoldback i s := fun _ => rfl
theorem exec_thermalRelease (s : State) : ∀ i, exec (.thermalRelease i) s = execThermalRelease i s := fun _ => rfl
theorem exec_loActionEnd (s : State) : ∀ i, exec (.loActionEnd i) s = execLoActionEnd i s := fun _ => rfl
theorem exec_loDrainComplete (s : State) : ∀ i, exec (.loDrainComplete i) s = execLoDrainComplete i s := fun _ => rfl
theorem exec_setLo (s : State) : ∀ l, exec (.setLo l) s = execSetLo l s := fun _ => rfl
theorem exec_getLo (s : State) : ∀ l, exec (.getLo l) s = execGetLo l s := fun _ => rfl
theorem exec_showLo (s : State) : ∀ l, exec (.showLo l) s = execShowLo l s := fun _ => rfl
theorem exec_showLoCheck (s : State) : ∀ l, exec (.showLoCheck l) s = execShowLoCheck l s := fun _ => rfl
theorem exec_watchLo (s : State) : ∀ l, exec (.watchLo l) s = execWatchLo l s := fun _ => rfl
theorem exec_streamLo (s : State) : ∀ l, exec (.streamLo l) s = execStreamLo l s := fun _ => rfl
theorem exec_clearLo (s : State) : ∀ l, exec (.clearLo l) s = execClearLo l s := fun _ => rfl
theorem exec_doLoReinit (s : State) : ∀ l, exec (.doLoReinit l) s = execDoLoReinit l s := fun _ => rfl
theorem exec_loRbRead (s : State) : ∀ rq i, exec (.loRbRead rq i) s = execLoRbRead rq i s := fun _ _ => rfl
theorem exec_comparatorFiring (s : State) : ∀ i m pos, exec (.comparatorFiring i m pos) s = execComparatorFiring i m pos s := fun _ _ _ => rfl
theorem exec_postTriggerFillComplete (s : State) : ∀ m hf, exec (.postTriggerFillComplete m hf) s = execPostTriggerFillComplete m hf s := fun _ _ => rfl
theorem exec_autoarmExpiry (s : State) : ∀ m, exec (.autoarmExpiry m) s = execAutoarmExpiry m s := fun _ => rfl
theorem exec_setGrid (s : State) : ∀ l, exec (.setGrid l) s = execSetGrid l s := fun _ => rfl
theorem exec_getGrid (s : State) : ∀ l, exec (.getGrid l) s = execGetGrid l s := fun _ => rfl
theorem exec_showGrid (s : State) : ∀ l, exec (.showGrid l) s = execShowGrid l s := fun _ => rfl
theorem exec_streamGrid (s : State) : ∀ l, exec (.streamGrid l) s = execStreamGrid l s := fun _ => rfl
theorem exec_doGridReinit (s : State) : ∀ l, exec (.doGridReinit l) s = execDoGridReinit l s := fun _ => rfl
theorem exec_setTrans (s : State) : ∀ l, exec (.setTrans l) s = execSetTrans l s := fun _ => rfl
theorem exec_doTransArm (s : State) : ∀ l, exec (.doTransArm l) s = execDoTransArm l s := fun _ => rfl
theorem exec_doTransDisarm (s : State) : ∀ l, exec (.doTransDisarm l) s = execDoTransDisarm l s := fun _ => rfl
theorem exec_transCtrlArm (s : State) : ∀ v, exec (.transCtrlArm v) s = execTransCtrlArm v s := fun _ => rfl
theorem exec_transCtrlDisarm (s : State) : ∀ v, exec (.transCtrlDisarm v) s = execTransCtrlDisarm v s := fun _ => rfl
theorem exec_getTrans (s : State) : ∀ l, exec (.getTrans l) s = execGetTrans l s := fun _ => rfl
theorem exec_showTrans (s : State) : ∀ l, exec (.showTrans l) s = execShowTrans l s := fun _ => rfl
theorem exec_watchTrans (s : State) : ∀ l, exec (.watchTrans l) s = execWatchTrans l s := fun _ => rfl
theorem exec_doTransDump (s : State) : ∀ l, exec (.doTransDump l) s = execDoTransDump l s := fun _ => rfl
theorem exec_doTransReinit (s : State) : ∀ l, exec (.doTransReinit l) s = execDoTransReinit l s := fun _ => rfl
theorem exec_gridRepsecRead (s : State) : ∀ rq, exec (.gridRepsecRead rq) s = execGridRepsecRead rq s := fun _ => rfl
theorem exec_onDelayExpiry (s : State) : ∀ i, exec (.onDelayExpiry i) s = execOnDelayExpiry i s := fun _ => rfl
theorem exec_offDelayExpiry (s : State) : ∀ i, exec (.offDelayExpiry i) s = execOffDelayExpiry i s := fun _ => rfl
theorem exec_blockRelease (s : State) : ∀ g, exec (.blockRelease g) s = execBlockRelease g s := fun _ => rfl
theorem exec_shelvingExpiry (s : State) : ∀ i, exec (.shelvingExpiry i) s = execShelvingExpiry i s := fun _ => rfl
theorem exec_ackPin (s : State) : ∀ g, exec (.ackPin g) s = execAckPin g s := fun _ => rfl
theorem exec_ackFrame (s : State) : ∀ f, exec (.ackFrame f) s = execAckFrame f s := fun _ => rfl
theorem exec_callEscalation (s : State) : ∀ g, exec (.callEscalation g) s = execCallEscalation g s := fun _ => rfl
theorem exec_callPulseEnd (s : State) : ∀ m, exec (.callPulseEnd m) s = execCallPulseEnd m s := fun _ => rfl
theorem exec_callFrameRepeat (s : State) : ∀ g, exec (.callFrameRepeat g) s = execCallFrameRepeat g s := fun _ => rfl
theorem exec_peerValueAge (s : State) : ∀ i, exec (.peerValueAge i) s = execPeerValueAge i s := fun _ => rfl
theorem exec_setAp (s : State) : ∀ l, exec (.setAp l) s = execSetAp l s := fun _ => rfl
theorem exec_setApEngine (s : State) : ∀ l, exec (.setApEngine l) s = execSetApEngine l s := fun _ => rfl
theorem exec_setAg (s : State) : ∀ l, exec (.setAg l) s = execSetAg l s := fun _ => rfl
theorem exec_setCall (s : State) : ∀ l, exec (.setCall l) s = execSetCall l s := fun _ => rfl
theorem exec_setCallLine (s : State) : ∀ l, exec (.setCallLine l) s = execSetCallLine l s := fun _ => rfl
theorem exec_getAp (s : State) : ∀ l, exec (.getAp l) s = execGetAp l s := fun _ => rfl
theorem exec_getAg (s : State) : ∀ l, exec (.getAg l) s = execGetAg l s := fun _ => rfl
theorem exec_getCall (s : State) : ∀ l, exec (.getCall l) s = execGetCall l s := fun _ => rfl
theorem exec_showAp (s : State) : ∀ l, exec (.showAp l) s = execShowAp l s := fun _ => rfl
theorem exec_showAg (s : State) : ∀ l, exec (.showAg l) s = execShowAg l s := fun _ => rfl
theorem exec_showCall (s : State) : ∀ l, exec (.showCall l) s = execShowCall l s := fun _ => rfl
theorem exec_doApAck (s : State) : ∀ l, exec (.doApAck l) s = execDoApAck l s := fun _ => rfl
theorem exec_doAgAck (s : State) : ∀ l, exec (.doAgAck l) s = execDoAgAck l s := fun _ => rfl
theorem exec_almAckWrite (s : State) : ∀ v, exec (.almAckWrite v) s = execAlmAckWrite v s := fun _ => rfl
theorem exec_doApShelve (s : State) : ∀ l, exec (.doApShelve l) s = execDoApShelve l s := fun _ => rfl
theorem exec_doApUnshelve (s : State) : ∀ l, exec (.doApUnshelve l) s = execDoApUnshelve l s := fun _ => rfl
theorem exec_doAgForeset (s : State) : ∀ l, exec (.doAgForeset l) s = execDoAgForeset l s := fun _ => rfl
theorem exec_watchAp (s : State) : ∀ l, exec (.watchAp l) s = execWatchAp l s := fun _ => rfl
theorem exec_doApReinit (s : State) : ∀ l, exec (.doApReinit l) s = execDoApReinit l s := fun _ => rfl
theorem exec_doAgReinit (s : State) : ∀ l, exec (.doAgReinit l) s = execDoAgReinit l s := fun _ => rfl
theorem exec_doCallReinit (s : State) : ∀ l, exec (.doCallReinit l) s = execDoCallReinit l s := fun _ => rfl
theorem exec_tokenGain (s : State) : ∀ c, exec (.tokenGain c) s = execTokenGain c s := fun _ => rfl
theorem exec_checkpoint (s : State) : exec .checkpoint s = execCheckpoint s := rfl
theorem exec_arcFind (s : State) : ∀ rq acc, exec (.arcFind rq acc) s = execArcFind rq acc s := fun _ _ => rfl
theorem exec_arcFindDone (s : State) : ∀ rq, exec (.arcFindDone rq) s = execArcFindDone rq s := fun _ => rfl
theorem exec_arcCodeWrite (s : State) : ∀ rq c v, exec (.arcCodeWrite rq c v) s = execArcCodeWrite rq c v s := fun _ _ _ => rfl
theorem exec_arcOpmsloRead (s : State) : ∀ rq, exec (.arcOpmsloRead rq) s = execArcOpmsloRead rq s := fun _ => rfl
theorem exec_setArc (s : State) : ∀ l, exec (.setArc l) s = execSetArc l s := fun _ => rfl
theorem exec_setArcCode (s : State) : ∀ l, exec (.setArcCode l) s = execSetArcCode l s := fun _ => rfl
theorem exec_getArc (s : State) : ∀ l, exec (.getArc l) s = execGetArc l s := fun _ => rfl
theorem exec_showArc (s : State) : ∀ l, exec (.showArc l) s = execShowArc l s := fun _ => rfl
theorem exec_showArcCode (s : State) : ∀ l, exec (.showArcCode l) s = execShowArcCode l s := fun _ => rfl
theorem exec_doArcLog (s : State) : ∀ l, exec (.doArcLog l) s = execDoArcLog l s := fun _ => rfl
theorem exec_watchArc (s : State) : ∀ l, exec (.watchArc l) s = execWatchArc l s := fun _ => rfl
theorem exec_clearArcGallery (s : State) : ∀ l, exec (.clearArcGallery l) s = execClearArcGallery l s := fun _ => rfl
theorem exec_doArcReseal (s : State) : ∀ l, exec (.doArcReseal l) s = execDoArcReseal l s := fun _ => rfl
theorem exec_resealPhase (s : State) : ∀ nvBad, exec (.resealPhase nvBad) s = execResealPhase nvBad s := fun _ => rfl
theorem exec_doArcReinit (s : State) : ∀ l, exec (.doArcReinit l) s = execDoArcReinit l s := fun _ => rfl
theorem exec_frameConfirmed (s : State) : ∀ p f sofQ edges m, exec (.frameConfirmed p f sofQ edges m) s = execFrameConfirmed p f sofQ edges m s := fun _ _ _ _ _ => rfl
theorem exec_earlyMatch (s : State) : ∀ p f len bytes sofQ m, exec (.earlyMatch p f len bytes sofQ m) s = execEarlyMatch p f len bytes sofQ m s := fun _ _ _ _ _ _ => rfl
theorem exec_frameError (s : State) : ∀ p afterBrs special m, exec (.frameError p afterBrs special m) s = execFrameError p afterBrs special m s := fun _ _ _ _ => rfl
theorem exec_arbitrationLost (s : State) : ∀ p m, exec (.arbitrationLost p m) s = execArbitrationLost p m s := fun _ _ => rfl
theorem exec_frameSent (s : State) : ∀ p m, exec (.frameSent p m) s = execFrameSent p m s := fun _ _ => rfl
theorem exec_busOffRecovery (s : State) : ∀ p m, exec (.busOffRecovery p m) s = execBusOffRecovery p m s := fun _ _ => rfl
theorem exec_gatePulseEnd (s : State) : ∀ p g m, exec (.gatePulseEnd p g m) s = execGatePulseEnd p g m s := fun _ _ _ => rfl
theorem exec_caravanGapTimeout (s : State) : ∀ p m, exec (.caravanGapTimeout p m) s = execCaravanGapTimeout p m s := fun _ _ => rfl
theorem exec_doorbellFrame (s : State) : ∀ p f, exec (.doorbellFrame p f) s = execDoorbellFrame p f s := fun _ _ => rfl
theorem exec_valueFrame (s : State) : ∀ f, exec (.valueFrame f) s = execValueFrame f s := fun _ => rfl
theorem exec_valuePublish (s : State) : ∀ v, exec (.valuePublish v) s = execValuePublish v s := fun _ => rfl
theorem exec_tunnelTimeout (s : State) : ∀ c, exec (.tunnelTimeout c) s = execTunnelTimeout c s := fun _ => rfl
theorem exec_busPortOff (s : State) : ∀ p m, exec (.busPortOff p m) s = execBusPortOff p m s := fun _ _ => rfl
theorem exec_setBusPort (s : State) : ∀ l, exec (.setBusPort l) s = execSetBusPort l s := fun _ => rfl
theorem exec_setBusFilter (s : State) : ∀ l, exec (.setBusFilter l) s = execSetBusFilter l s := fun _ => rfl
theorem exec_setBusGate (s : State) : ∀ l, exec (.setBusGate l) s = execSetBusGate l s := fun _ => rfl
theorem exec_setBusVal (s : State) : ∀ l, exec (.setBusVal l) s = execSetBusVal l s := fun _ => rfl
theorem exec_setBusAlmto (s : State) : ∀ l, exec (.setBusAlmto l) s = execSetBusAlmto l s := fun _ => rfl
theorem exec_getBus (s : State) : ∀ l, exec (.getBus l) s = execGetBus l s := fun _ => rfl
theorem exec_showBus (s : State) : ∀ l, exec (.showBus l) s = execShowBus l s := fun _ => rfl
theorem exec_showBusTrim (s : State) : ∀ l, exec (.showBusTrim l) s = execShowBusTrim l s := fun _ => rfl
theorem exec_doBusSend (s : State) : ∀ l, exec (.doBusSend l) s = execDoBusSend l s := fun _ => rfl
theorem exec_doBusAbort (s : State) : ∀ l, exec (.doBusAbort l) s = execDoBusAbort l s := fun _ => rfl
theorem exec_doBusTunnel (s : State) : ∀ l, exec (.doBusTunnel l) s = execDoBusTunnel l s := fun _ => rfl
theorem exec_doBusGateReset (s : State) : ∀ l, exec (.doBusGateReset l) s = execDoBusGateReset l s := fun _ => rfl
theorem exec_doBusTrimclr (s : State) : ∀ l, exec (.doBusTrimclr l) s = execDoBusTrimclr l s := fun _ => rfl
theorem exec_setBusTrimlock (s : State) : ∀ l, exec (.setBusTrimlock l) s = execSetBusTrimlock l s := fun _ => rfl
theorem exec_watchBus (s : State) : ∀ l, exec (.watchBus l) s = execWatchBus l s := fun _ => rfl
theorem exec_doBusReinit (s : State) : ∀ l, exec (.doBusReinit l) s = execDoBusReinit l s := fun _ => rfl
theorem exec_mailboxReq (s : State) : ∀ p k, exec (.mailboxReq p k) s = execMailboxReq p k s := fun _ _ => rfl
theorem exec_mailboxAbort (s : State) : ∀ p k, exec (.mailboxAbort p k) s = execMailboxAbort p k s := fun _ _ => rfl
theorem exec_fifoPop (s : State) : ∀ p v, exec (.fifoPop p v) s = execFifoPop p v s := fun _ _ => rfl
theorem exec_caravanRelease (s : State) : ∀ p v, exec (.caravanRelease p v) s = execCaravanRelease p v s := fun _ _ => rfl
theorem exec_earlyViewRelease (s : State) : ∀ p v, exec (.earlyViewRelease p v) s = execEarlyViewRelease p v s := fun _ _ => rfl
theorem exec_gateResetWrite (s : State) : ∀ p g v, exec (.gateResetWrite p g v) s = execGateResetWrite p g v s := fun _ _ _ => rfl
theorem exec_doSurveyStart (s : State) : ∀ l, exec (.doSurveyStart l) s = execDoSurveyStart l s := fun _ => rfl
theorem exec_begin (s : State) : ∀ p f sofQ m, exec (.begin p f sofQ m) s = execBegin p f sofQ m s := fun _ _ _ _ => rfl
theorem exec_query (s : State) : ∀ p f sofQ m, exec (.query p f sofQ m) s = execQuery p f sofQ m s := fun _ _ _ _ => rfl
theorem exec_bid (s : State) : ∀ p f sofQ m, exec (.bid p f sofQ m) s = execBid p f sofQ m s := fun _ _ _ _ => rfl
theorem exec_bidWindowExpiry (s : State) : ∀ p m, exec (.bidWindowExpiry p m) s = execBidWindowExpiry p m s := fun _ _ => rfl
theorem exec_assign (s : State) : ∀ p f sofQ m, exec (.assign p f sofQ m) s = execAssign p f sofQ m s := fun _ _ _ _ => rfl
theorem exec_assigned (s : State) : ∀ p f sofQ m, exec (.assigned p f sofQ m) s = execAssigned p f sofQ m s := fun _ _ _ _ => rfl
theorem exec_ping (s : State) : ∀ p f sofQ m, exec (.ping p f sofQ m) s = execPing p f sofQ m s := fun _ _ _ _ => rfl
theorem exec_pong (s : State) : ∀ p f sofQ m, exec (.pong p f sofQ m) s = execPong p f sofQ m s := fun _ _ _ _ => rfl
theorem exec_pongFollowUp (s : State) : ∀ p f sofQ m, exec (.pongFollowUp p f sofQ m) s = execPongFollowUp p f sofQ m s := fun _ _ _ _ => rfl
theorem exec_delay (s : State) : ∀ p f sofQ m, exec (.delay p f sofQ m) s = execDelay p f sofQ m s := fun _ _ _ _ => rfl
theorem exec_surveyEnd (s : State) : ∀ p f sofQ m, exec (.surveyEnd p f sofQ m) s = execSurveyEnd p f sofQ m s := fun _ _ _ _ => rfl
theorem exec_announce (s : State) : ∀ p f sofQ m, exec (.announce p f sofQ m) s = execAnnounce p f sofQ m s := fun _ _ _ _ => rfl
theorem exec_surveyMemberTimeout (s : State) : ∀ p m, exec (.surveyMemberTimeout p m) s = execSurveyMemberTimeout p m s := fun _ _ => rfl
theorem exec_listenEnd (s : State) : ∀ p, exec (.listenEnd p) s = execListenEnd p s := fun _ => rfl
theorem exec_markRequest (s : State) : ∀ p m, exec (.markRequest p m) s = execMarkRequest p m s := fun _ _ => rfl
theorem exec_markAbandon (s : State) : ∀ p m, exec (.markAbandon p m) s = execMarkAbandon p m s := fun _ _ => rfl
theorem exec_majorMark (s : State) : ∀ p f sofQ m, exec (.majorMark p f sofQ m) s = execMajorMark p f sofQ m s := fun _ _ _ _ => rfl
theorem exec_minorMark (s : State) : ∀ p f sofQ m, exec (.minorMark p f sofQ m) s = execMinorMark p f sofQ m s := fun _ _ _ _ => rfl
theorem exec_markFollowUp (s : State) : ∀ p f sofQ m, exec (.markFollowUp p f sofQ m) s = execMarkFollowUp p f sofQ m s := fun _ _ _ _ => rfl
theorem exec_followUpTimeout (s : State) : ∀ p m, exec (.followUpTimeout p m) s = execFollowUpTimeout p m s := fun _ _ => rfl
theorem exec_tportFallback (s : State) : ∀ m, exec (.tportFallback m) s = execTportFallback m s := fun _ => rfl
theorem exec_pairPortSilent (s : State) : ∀ p m, exec (.pairPortSilent p m) s = execPairPortSilent p m s := fun _ _ => rfl
theorem exec_doSurveyAbort (s : State) : ∀ l, exec (.doSurveyAbort l) s = execDoSurveyAbort l s := fun _ => rfl
theorem exec_setSurvey (s : State) : ∀ l, exec (.setSurvey l) s = execSetSurvey l s := fun _ => rfl
theorem exec_setBusLink (s : State) : ∀ l, exec (.setBusLink l) s = execSetBusLink l s := fun _ => rfl
theorem exec_showSurvey (s : State) : ∀ l, exec (.showSurvey l) s = execShowSurvey l s := fun _ => rfl
theorem exec_showSurveyMap (s : State) : ∀ l, exec (.showSurveyMap l) s = execShowSurveyMap l s := fun _ => rfl
theorem exec_showBusMark (s : State) : ∀ l, exec (.showBusMark l) s = execShowBusMark l s := fun _ => rfl
theorem exec_showBusDelay (s : State) : ∀ l, exec (.showBusDelay l) s = execShowBusDelay l s := fun _ => rfl
theorem exec_getBusLink (s : State) : ∀ l, exec (.getBusLink l) s = execGetBusLink l s := fun _ => rfl
theorem exec_doBusSleep (s : State) : ∀ l, exec (.doBusSleep l) s = execDoBusSleep l s := fun _ => rfl
theorem exec_portSleep (s : State) : ∀ p m, exec (.portSleep p m) s = execPortSleep p m s := fun _ _ => rfl
theorem exec_wakePattern (s : State) : ∀ p, exec (.wakePattern p) s = execWakePattern p s := fun _ => rfl
theorem exec_wakeFrame (s : State) : ∀ p f, exec (.wakeFrame p f) s = execWakeFrame p f s := fun _ _ => rfl
theorem exec_portWake (s : State) : ∀ p m, exec (.portWake p m) s = execPortWake p m s := fun _ _ => rfl
theorem exec_doBusWake (s : State) : ∀ l, exec (.doBusWake l) s = execDoBusWake l s := fun _ => rfl
theorem exec_doBusWakeup (s : State) : ∀ l, exec (.doBusWakeup l) s = execDoBusWakeup l s := fun _ => rfl
theorem exec_pinEdge (s : State) : ∀ i level m, exec (.pinEdge i level m) s = execPinEdge i level m s := fun _ _ _ => rfl
theorem exec_bankClassChange (s : State) : ∀ b cls levels m, exec (.bankClassChange b cls levels m) s = execBankClassChange b cls levels m s := fun _ _ _ _ => rfl
theorem exec_lifeToggle (s : State) : ∀ served, exec (.lifeToggle served) s = execLifeToggle served s := fun _ => rfl
theorem exec_gpoutWrite (s : State) : ∀ rq k v, exec (.gpoutWrite rq k v) s = execGpoutWrite rq k v s := fun _ _ _ => rfl
theorem exec_hwrefresh (s : State) : ∀ rq v, exec (.hwrefresh rq v) s = execHwrefresh rq v s := fun _ _ => rfl
theorem exec_gplockWrite (s : State) : ∀ rq v m, exec (.gplockWrite rq v m) s = execGplockWrite rq v m s := fun _ _ _ => rfl
theorem exec_setGp (s : State) : ∀ l, exec (.setGp l) s = execSetGp l s := fun _ => rfl
theorem exec_setGpMask (s : State) : ∀ l, exec (.setGpMask l) s = execSetGpMask l s := fun _ => rfl
theorem exec_doGpToggle (s : State) : ∀ l, exec (.doGpToggle l) s = execDoGpToggle l s := fun _ => rfl
theorem exec_getGp (s : State) : ∀ l, exec (.getGp l) s = execGetGp l s := fun _ => rfl
theorem exec_getGpBank (s : State) : ∀ l, exec (.getGpBank l) s = execGetGpBank l s := fun _ => rfl
theorem exec_showGp (s : State) : ∀ l, exec (.showGp l) s = execShowGp l s := fun _ => rfl
theorem exec_doGpLock (s : State) : ∀ l, exec (.doGpLock l) s = execDoGpLock l s := fun _ => rfl
theorem exec_watchGp (s : State) : ∀ l, exec (.watchGp l) s = execWatchGp l s := fun _ => rfl
theorem exec_watchGpBank (s : State) : ∀ l, exec (.watchGpBank l) s = execWatchGpBank l s := fun _ => rfl
theorem exec_doGpReinit (s : State) : ∀ l, exec (.doGpReinit l) s = execDoGpReinit l s := fun _ => rfl
theorem exec_setTw (s : State) : ∀ l, exec (.setTw l) s = execSetTw l s := fun _ => rfl
theorem exec_doTwWrite (s : State) : ∀ l, exec (.doTwWrite l) s = execDoTwWrite l s := fun _ => rfl
theorem exec_doTwRead (s : State) : ∀ l, exec (.doTwRead l) s = execDoTwRead l s := fun _ => rfl
theorem exec_doTwClear (s : State) : ∀ l, exec (.doTwClear l) s = execDoTwClear l s := fun _ => rfl
theorem exec_getTw (s : State) : ∀ l, exec (.getTw l) s = execGetTw l s := fun _ => rfl
theorem exec_clearTw (s : State) : ∀ l, exec (.clearTw l) s = execClearTw l s := fun _ => rfl
theorem exec_doTwReinit (s : State) : ∀ l, exec (.doTwReinit l) s = execDoTwReinit l s := fun _ => rfl
theorem exec_twCmdStart (s : State) : ∀ rq v m, exec (.twCmdStart rq v m) s = execTwCmdStart rq v m s := fun _ _ _ => rfl
theorem exec_twCmdClear (s : State) : ∀ rq v m, exec (.twCmdClear rq v m) s = execTwCmdClear rq v m s := fun _ _ _ => rfl
theorem exec_twTransferEnd (s : State) : ∀ res bytes m, exec (.twTransferEnd res bytes m) s = execTwTransferEnd res bytes m s := fun _ _ _ => rfl
theorem exec_twClockStretchTimeout (s : State) : ∀ bytes m, exec (.twClockStretchTimeout bytes m) s = execTwClockStretchTimeout bytes m s := fun _ _ => rfl
theorem exec_twBusClearEnd (s : State) : ∀ clocks freed m, exec (.twBusClearEnd clocks freed m) s = execTwBusClearEnd clocks freed m s := fun _ _ _ => rfl
theorem exec_twDrained (s : State) : ∀ bytes m, exec (.twDrained bytes m) s = execTwDrained bytes m s := fun _ _ => rfl
theorem exec_doDispUpdate (s : State) : ∀ l, exec (.doDispUpdate l) s = execDoDispUpdate l s := fun _ => rfl
theorem exec_snapshotEnd (s : State) : ∀ m, exec (.snapshotEnd m) s = execSnapshotEnd m s := fun _ => rfl
theorem exec_railPowerUpStep (s : State) : ∀ mv m, exec (.railPowerUpStep mv m) s = execRailPowerUpStep mv m s := fun _ _ => rfl
theorem exec_dispFrameStart (s : State) : ∀ m, exec (.dispFrameStart m) s = execDispFrameStart m s := fun _ => rfl
theorem exec_railPowerDownStep (s : State) : ∀ mv m, exec (.railPowerDownStep mv m) s = execRailPowerDownStep mv m s := fun _ _ => rfl
theorem exec_railFault (s : State) : ∀ k mv m, exec (.railFault k mv m) s = execRailFault k mv m s := fun _ _ _ => rfl
theorem exec_railholdExpiry (s : State) : ∀ m, exec (.railholdExpiry m) s = execRailholdExpiry m s := fun _ => rfl
theorem exec_displayUndervoltage (s : State) : ∀ m, exec (.displayUndervoltage m) s = execDisplayUndervoltage m s := fun _ => rfl
theorem exec_fastDischargeStep (s : State) : ∀ m, exec (.fastDischargeStep m) s = execFastDischargeStep m s := fun _ => rfl
theorem exec_doDispLoad (s : State) : ∀ l, exec (.doDispLoad l) s = execDoDispLoad l s := fun _ => rfl
theorem exec_setDisp (s : State) : ∀ l, exec (.setDisp l) s = execSetDisp l s := fun _ => rfl
theorem exec_setDispWaveLen (s : State) : ∀ l, exec (.setDispWaveLen l) s = execSetDispWaveLen l s := fun _ => rfl
theorem exec_setDispWaveData (s : State) : ∀ l, exec (.setDispWaveData l) s = execSetDispWaveData l s := fun _ => rfl
theorem exec_doDispRails (s : State) : ∀ l, exec (.doDispRails l) s = execDoDispRails l s := fun _ => rfl
theorem exec_setDispCom (s : State) : ∀ l, exec (.setDispCom l) s = execSetDispCom l s := fun _ => rfl
theorem exec_getDisp (s : State) : ∀ l, exec (.getDisp l) s = execGetDisp l s := fun _ => rfl
theorem exec_showDisp (s : State) : ∀ l, exec (.showDisp l) s = execShowDisp l s := fun _ => rfl
theorem exec_showDispWave (s : State) : ∀ l, exec (.showDispWave l) s = execShowDispWave l s := fun _ => rfl
theorem exec_watchDisp (s : State) : ∀ l, exec (.watchDisp l) s = execWatchDisp l s := fun _ => rfl
theorem exec_doDispReinit (s : State) : ∀ l, exec (.doDispReinit l) s = execDoDispReinit l s := fun _ => rfl
theorem exec_dispCmdUpdate (s : State) : ∀ rq v m, exec (.dispCmdUpdate rq v m) s = execDispCmdUpdate rq v m s := fun _ _ _ => rfl
theorem exec_dispCmdRailsOn (s : State) : ∀ rq v m, exec (.dispCmdRailsOn rq v m) s = execDispCmdRailsOn rq v m s := fun _ _ _ => rfl
theorem exec_dispCmdRailsOff (s : State) : ∀ rq v m, exec (.dispCmdRailsOff rq v m) s = execDispCmdRailsOff rq v m s := fun _ _ _ => rfl
theorem exec_lcdCommit (s : State) : ∀ rq v, exec (.lcdCommit rq v) s = execLcdCommit rq v s := fun _ _ => rfl
theorem exec_lcdFrameStart (s : State) : ∀ m, exec (.lcdFrameStart m) s = execLcdFrameStart m s := fun _ => rfl
theorem exec_annexInstruction (s : State) : ∀ m, exec (.annexInstruction m) s = execAnnexInstruction m s := fun _ => rfl
theorem exec_mret (s : State) : ∀ m, exec (.mret m) s = execMret m s := fun _ => rfl
theorem exec_wfi (s : State) : ∀ m, exec (.wfi m) s = execWfi m s := fun _ => rfl
theorem exec_annexWatchdogExpiry (s : State) : ∀ m, exec (.annexWatchdogExpiry m) s = execAnnexWatchdogExpiry m s := fun _ => rfl
theorem exec_awdserveWrite (s : State) : ∀ rq v m, exec (.awdserveWrite rq v m) s = execAwdserveWrite rq v m s := fun _ _ _ => rfl
theorem exec_doNodeLoad (s : State) : ∀ l, exec (.doNodeLoad l) s = execDoNodeLoad l s := fun _ => rfl
theorem exec_doNodeStart (s : State) : ∀ l, exec (.doNodeStart l) s = execDoNodeStart l s := fun _ => rfl
theorem exec_doNodeStop (s : State) : ∀ l, exec (.doNodeStop l) s = execDoNodeStop l s := fun _ => rfl
theorem exec_setNode (s : State) : ∀ l, exec (.setNode l) s = execSetNode l s := fun _ => rfl
theorem exec_showNodeAnnex (s : State) : ∀ l, exec (.showNodeAnnex l) s = execShowNodeAnnex l s := fun _ => rfl
theorem exec_watchNode (s : State) : ∀ l, exec (.watchNode l) s = execWatchNode l s := fun _ => rfl
theorem exec_annexBootReadEnd (s : State) : ∀ image m, exec (.annexBootReadEnd image m) s = execAnnexBootReadEnd image m s := fun _ _ => rfl
theorem exec_mailboxGo (s : State) : ∀ rq v m, exec (.mailboxGo rq v m) s = execMailboxGo rq v m s := fun _ _ _ => rfl
theorem exec_rxrdWrite (s : State) : ∀ rq v, exec (.rxrdWrite rq v) s = execRxrdWrite rq v s := fun _ _ => rfl
theorem exec_rxcfgEnable (s : State) : ∀ rq v, exec (.rxcfgEnable rq v) s = execRxcfgEnable rq v s := fun _ _ => rfl
theorem exec_doorbellWrite (s : State) : ∀ rq v, exec (.doorbellWrite rq v) s = execDoorbellWrite rq v s := fun _ _ => rfl
theorem exec_doDicRing (s : State) : ∀ l, exec (.doDicRing l) s = execDoDicRing l s := fun _ => rfl
theorem exec_doDicClear (s : State) : ∀ l, exec (.doDicClear l) s = execDoDicClear l s := fun _ => rfl
theorem exec_interruptAcceptance (s : State) : ∀ m, exec (.interruptAcceptance m) s = execInterruptAcceptance m s := fun _ => rfl
theorem exec_completeWrite (s : State) : ∀ rq v m, exec (.completeWrite rq v m) s = execCompleteWrite rq v m s := fun _ _ _ => rfl
theorem exec_doDicDone (s : State) : ∀ l, exec (.doDicDone l) s = execDoDicDone l s := fun _ => rfl
theorem exec_doDicTake (s : State) : ∀ l, exec (.doDicTake l) s = execDoDicTake l s := fun _ => rfl
theorem exec_moderationHoldEnd (s : State) : ∀ g m, exec (.moderationHoldEnd g m) s = execModerationHoldEnd g m s := fun _ _ => rfl
theorem exec_gdisWrite (s : State) : ∀ rq v, exec (.gdisWrite rq v) s = execGdisWrite rq v s := fun _ _ => rfl
theorem exec_strayclrWrite (s : State) : ∀ rq v, exec (.strayclrWrite rq v) s = execStrayclrWrite rq v s := fun _ _ => rfl
theorem exec_setDic (s : State) : ∀ l, exec (.setDic l) s = execSetDic l s := fun _ => rfl
theorem exec_getDic (s : State) : ∀ l, exec (.getDic l) s = execGetDic l s := fun _ => rfl
theorem exec_showDic (s : State) : ∀ l, exec (.showDic l) s = execShowDic l s := fun _ => rfl
theorem exec_clearDic (s : State) : ∀ l, exec (.clearDic l) s = execClearDic l s := fun _ => rfl
theorem exec_doDicReinit (s : State) : ∀ l, exec (.doDicReinit l) s = execDoDicReinit l s := fun _ => rfl
theorem exec_watchUnitWake (s : State) : ∀ spent m, exec (.watchUnitWake spent m) s = execWatchUnitWake spent m s := fun _ _ => rfl
theorem exec_powerOn (s : State) : exec .powerOn s = execPowerOn s := rfl
theorem exec_firstPrompt (s : State) : exec .firstPrompt s = execFirstPrompt s := rfl
theorem exec_configStoreLoaded (s : State) : exec .configStoreLoaded s = execConfigStoreLoaded s := rfl
theorem exec_holdokChange (s : State) : ∀ mv m, exec (.holdokChange mv m) s = execHoldokChange mv m s := fun _ _ => rfl
theorem exec_avsStep (s : State) : ∀ margin spare, exec (.avsStep margin spare) s = execAvsStep margin spare s := fun _ _ => rfl
theorem exec_coreUndervoltage (s : State) : exec .coreUndervoltage s = execCoreUndervoltage s := rfl
theorem exec_resetPin (s : State) : exec .resetPin s = execResetPin s := rfl
theorem exec_nodeCoreWatchdog (s : State) : exec .nodeCoreWatchdog s = execNodeCoreWatchdog s := rfl
theorem exec_doSysCommit (s : State) : ∀ l, exec (.doSysCommit l) s = execDoSysCommit l s := fun _ => rfl
theorem exec_doSysFactory (s : State) : ∀ l, exec (.doSysFactory l) s = execDoSysFactory l s := fun _ => rfl
theorem exec_showSysStore (s : State) : ∀ l, exec (.showSysStore l) s = execShowSysStore l s := fun _ => rfl
theorem exec_getSysPower (s : State) : ∀ l, exec (.getSysPower l) s = execGetSysPower l s := fun _ => rfl
theorem exec_getSysRstcause (s : State) : ∀ l, exec (.getSysRstcause l) s = execGetSysRstcause l s := fun _ => rfl
theorem exec_setSysPower (s : State) : ∀ l, exec (.setSysPower l) s = execSetSysPower l s := fun _ => rfl
theorem exec_doNodeQuiet (s : State) : ∀ l, exec (.doNodeQuiet l) s = execDoNodeQuiet l s := fun _ => rfl
theorem exec_doNodeFull (s : State) : ∀ l, exec (.doNodeFull l) s = execDoNodeFull l s := fun _ => rfl
theorem exec_doNodeDormant (s : State) : ∀ l, exec (.doNodeDormant l) s = execDoNodeDormant l s := fun _ => rfl
theorem exec_dormantEntryComplete (s : State) : exec .dormantEntryComplete s = execDormantEntryComplete s := rfl
theorem exec_dormantTimerExpiry (s : State) : exec .dormantTimerExpiry s = execDormantTimerExpiry s := rfl
theorem exec_pcmdQuiet (s : State) : ∀ rq, exec (.pcmdQuiet rq) s = execPcmdQuiet rq s := fun _ => rfl
theorem exec_pcmdFull (s : State) : ∀ rq, exec (.pcmdFull rq) s = execPcmdFull rq s := fun _ => rfl
theorem exec_pcmdDormant (s : State) : ∀ rq, exec (.pcmdDormant rq) s = execPcmdDormant rq s := fun _ => rfl
theorem exec_powerFailWarning (s : State) : ∀ vsys hold spent m, exec (.powerFailWarning vsys hold spent m) s = execPowerFailWarning vsys hold spent m s := fun _ _ _ _ => rfl
theorem exec_agraceExpiry (s : State) : ∀ m, exec (.agraceExpiry m) s = execAgraceExpiry m s := fun _ => rfl
theorem exec_park (s : State) : ∀ hold m, exec (.park hold m) s = execPark hold m s := fun _ _ => rfl
theorem exec_powerFailRestart (s : State) : exec .powerFailRestart s = execPowerFailRestart s := rfl
theorem exec_doNodePwrcyc (s : State) : ∀ l, exec (.doNodePwrcyc l) s = execDoNodePwrcyc l s := fun _ => rfl
theorem exec_pwrcycPulseEnd (s : State) : exec .pwrcycPulseEnd s = execPwrcycPulseEnd s := rfl
theorem exec_pwrcycSelfReset (s : State) : exec .pwrcycSelfReset s = execPwrcycSelfReset s := rfl
theorem exec_showNodeModes (s : State) : ∀ l, exec (.showNodeModes l) s = execShowNodeModes l s := fun _ => rfl
theorem exec_characterSent (s : State) : ∀ p, exec (.characterSent p) s = execCharacterSent p s := fun _ => rfl
theorem exec_transmissionStart (s : State) : ∀ p m, exec (.transmissionStart p m) s = execTransmissionStart p m s := fun _ _ => rfl
theorem exec_resetNRelease (s : State) : exec .resetNRelease s = execResetNRelease s := rfl

end Sys2Proof.Machine
end

