-- ==== Sys2Proof/Laws/State.lean ====
section
/-! SUPPORT. What the basic updates of the node leave as it is: one lemma for each field and update. -/
namespace Sys2Proof.Machine

@[simp] theorem Node.wr_key (n : Node) (a : Nat) (v : Word) : (n.wr a v).key = n.key := rfl
@[simp] theorem Node.wr_latA (n : Node) (a : Nat) (v : Word) : (n.wr a v).latA = n.latA := rfl
@[simp] theorem Node.wr_latC (n : Node) (a : Nat) (v : Word) : (n.wr a v).latC = n.latC := rfl
@[simp] theorem Node.wr_mem (n : Node) (a : Nat) (v : Word) : (n.wr a v).mem = n.mem := rfl
@[simp] theorem Node.wr_tick (n : Node) (a : Nat) (v : Word) : (n.wr a v).tick = n.tick := rfl
@[simp] theorem Node.wr_free (n : Node) (a : Nat) (v : Word) : (n.wr a v).free = n.free := rfl
@[simp] theorem Node.wr_rdata (n : Node) (a : Nat) (v : Word) : (n.wr a v).rdata = n.rdata := rfl
@[simp] theorem Node.wr_cmd (n : Node) (a : Nat) (v : Word) : (n.wr a v).cmd = n.cmd := rfl
@[simp] theorem Node.wr_dic (n : Node) (a : Nat) (v : Word) : (n.wr a v).dic = n.dic := rfl
@[simp] theorem Node.wr_annex (n : Node) (a : Nat) (v : Word) : (n.wr a v).annex = n.annex := rfl
@[simp] theorem Node.wr_arc (n : Node) (a : Nat) (v : Word) : (n.wr a v).arc = n.arc := rfl
@[simp] theorem Node.wr_nv (n : Node) (a : Nat) (v : Word) : (n.wr a v).nv = n.nv := rfl
@[simp] theorem Node.wr_sys (n : Node) (a : Nat) (v : Word) : (n.wr a v).sys = n.sys := rfl
@[simp] theorem Node.wr_tm (n : Node) (a : Nat) (v : Word) : (n.wr a v).tm = n.tm := rfl
@[simp] theorem Node.wr_uc (n : Node) (a : Nat) (v : Word) : (n.wr a v).uc = n.uc := rfl
@[simp] theorem Node.wr_lo (n : Node) (a : Nat) (v : Word) : (n.wr a v).lo = n.lo := rfl
@[simp] theorem Node.wr_grid (n : Node) (a : Nat) (v : Word) : (n.wr a v).grid = n.grid := rfl
@[simp] theorem Node.wr_trans (n : Node) (a : Nat) (v : Word) : (n.wr a v).trans = n.trans := rfl
@[simp] theorem Node.wr_alm (n : Node) (a : Nat) (v : Word) : (n.wr a v).alm = n.alm := rfl
@[simp] theorem Node.wr_bus (n : Node) (a : Nat) (v : Word) : (n.wr a v).bus = n.bus := rfl
@[simp] theorem Node.wr_srv (n : Node) (a : Nat) (v : Word) : (n.wr a v).srv = n.srv := rfl
@[simp] theorem Node.wr_gp (n : Node) (a : Nat) (v : Word) : (n.wr a v).gp = n.gp := rfl
@[simp] theorem Node.wr_tw (n : Node) (a : Nat) (v : Word) : (n.wr a v).tw = n.tw := rfl
@[simp] theorem Node.wr_disp (n : Node) (a : Nat) (v : Word) : (n.wr a v).disp = n.disp := rfl
@[simp] theorem Node.setFd_key (n : Node) (f : Fd) (v : Nat) : (n.setFd f v).key = n.key := rfl
@[simp] theorem Node.setFd_latA (n : Node) (f : Fd) (v : Nat) : (n.setFd f v).latA = n.latA := rfl
@[simp] theorem Node.setFd_latC (n : Node) (f : Fd) (v : Nat) : (n.setFd f v).latC = n.latC := rfl
@[simp] theorem Node.setFd_mem (n : Node) (f : Fd) (v : Nat) : (n.setFd f v).mem = n.mem := rfl
@[simp] theorem Node.setFd_tick (n : Node) (f : Fd) (v : Nat) : (n.setFd f v).tick = n.tick := rfl
@[simp] theorem Node.setFd_free (n : Node) (f : Fd) (v : Nat) : (n.setFd f v).free = n.free := rfl
@[simp] theorem Node.setFd_rdata (n : Node) (f : Fd) (v : Nat) : (n.setFd f v).rdata = n.rdata := rfl
@[simp] theorem Node.setFd_cmd (n : Node) (f : Fd) (v : Nat) : (n.setFd f v).cmd = n.cmd := rfl
@[simp] theorem Node.setFd_dic (n : Node) (f : Fd) (v : Nat) : (n.setFd f v).dic = n.dic := rfl
@[simp] theorem Node.setFd_annex (n : Node) (f : Fd) (v : Nat) : (n.setFd f v).annex = n.annex := rfl
@[simp] theorem Node.setFd_arc (n : Node) (f : Fd) (v : Nat) : (n.setFd f v).arc = n.arc := rfl
@[simp] theorem Node.setFd_nv (n : Node) (f : Fd) (v : Nat) : (n.setFd f v).nv = n.nv := rfl
@[simp] theorem Node.setFd_sys (n : Node) (f : Fd) (v : Nat) : (n.setFd f v).sys = n.sys := rfl
@[simp] theorem Node.setFd_tm (n : Node) (f : Fd) (v : Nat) : (n.setFd f v).tm = n.tm := rfl
@[simp] theorem Node.setFd_uc (n : Node) (f : Fd) (v : Nat) : (n.setFd f v).uc = n.uc := rfl
@[simp] theorem Node.setFd_lo (n : Node) (f : Fd) (v : Nat) : (n.setFd f v).lo = n.lo := rfl
@[simp] theorem Node.setFd_grid (n : Node) (f : Fd) (v : Nat) : (n.setFd f v).grid = n.grid := rfl
@[simp] theorem Node.setFd_trans (n : Node) (f : Fd) (v : Nat) : (n.setFd f v).trans = n.trans := rfl
@[simp] theorem Node.setFd_alm (n : Node) (f : Fd) (v : Nat) : (n.setFd f v).alm = n.alm := rfl
@[simp] theorem Node.setFd_bus (n : Node) (f : Fd) (v : Nat) : (n.setFd f v).bus = n.bus := rfl
@[simp] theorem Node.setFd_srv (n : Node) (f : Fd) (v : Nat) : (n.setFd f v).srv = n.srv := rfl
@[simp] theorem Node.setFd_gp (n : Node) (f : Fd) (v : Nat) : (n.setFd f v).gp = n.gp := rfl
@[simp] theorem Node.setFd_tw (n : Node) (f : Fd) (v : Nat) : (n.setFd f v).tw = n.tw := rfl
@[simp] theorem Node.setFd_disp (n : Node) (f : Fd) (v : Nat) : (n.setFd f v).disp = n.disp := rfl
@[simp] theorem Node.setOn_key (n : Node) (f : Fd) (b : Bool) : (n.setOn f b).key = n.key := rfl
@[simp] theorem Node.setOn_latA (n : Node) (f : Fd) (b : Bool) : (n.setOn f b).latA = n.latA := rfl
@[simp] theorem Node.setOn_latC (n : Node) (f : Fd) (b : Bool) : (n.setOn f b).latC = n.latC := rfl
@[simp] theorem Node.setOn_mem (n : Node) (f : Fd) (b : Bool) : (n.setOn f b).mem = n.mem := rfl
@[simp] theorem Node.setOn_tick (n : Node) (f : Fd) (b : Bool) : (n.setOn f b).tick = n.tick := rfl
@[simp] theorem Node.setOn_free (n : Node) (f : Fd) (b : Bool) : (n.setOn f b).free = n.free := rfl
@[simp] theorem Node.setOn_rdata (n : Node) (f : Fd) (b : Bool) : (n.setOn f b).rdata = n.rdata := rfl
@[simp] theorem Node.setOn_cmd (n : Node) (f : Fd) (b : Bool) : (n.setOn f b).cmd = n.cmd := rfl
@[simp] theorem Node.setOn_dic (n : Node) (f : Fd) (b : Bool) : (n.setOn f b).dic = n.dic := rfl
@[simp] theorem Node.setOn_annex (n : Node) (f : Fd) (b : Bool) : (n.setOn f b).annex = n.annex := rfl
@[simp] theorem Node.setOn_arc (n : Node) (f : Fd) (b : Bool) : (n.setOn f b).arc = n.arc := rfl
@[simp] theorem Node.setOn_nv (n : Node) (f : Fd) (b : Bool) : (n.setOn f b).nv = n.nv := rfl
@[simp] theorem Node.setOn_sys (n : Node) (f : Fd) (b : Bool) : (n.setOn f b).sys = n.sys := rfl
@[simp] theorem Node.setOn_tm (n : Node) (f : Fd) (b : Bool) : (n.setOn f b).tm = n.tm := rfl
@[simp] theorem Node.setOn_uc (n : Node) (f : Fd) (b : Bool) : (n.setOn f b).uc = n.uc := rfl
@[simp] theorem Node.setOn_lo (n : Node) (f : Fd) (b : Bool) : (n.setOn f b).lo = n.lo := rfl
@[simp] theorem Node.setOn_grid (n : Node) (f : Fd) (b : Bool) : (n.setOn f b).grid = n.grid := rfl
@[simp] theorem Node.setOn_trans (n : Node) (f : Fd) (b : Bool) : (n.setOn f b).trans = n.trans := rfl
@[simp] theorem Node.setOn_alm (n : Node) (f : Fd) (b : Bool) : (n.setOn f b).alm = n.alm := rfl
@[simp] theorem Node.setOn_bus (n : Node) (f : Fd) (b : Bool) : (n.setOn f b).bus = n.bus := rfl
@[simp] theorem Node.setOn_srv (n : Node) (f : Fd) (b : Bool) : (n.setOn f b).srv = n.srv := rfl
@[simp] theorem Node.setOn_gp (n : Node) (f : Fd) (b : Bool) : (n.setOn f b).gp = n.gp := rfl
@[simp] theorem Node.setOn_tw (n : Node) (f : Fd) (b : Bool) : (n.setOn f b).tw = n.tw := rfl
@[simp] theorem Node.setOn_disp (n : Node) (f : Fd) (b : Bool) : (n.setOn f b).disp = n.disp := rfl
@[simp] theorem Node.setBit_key (n : Node) (a i : Nat) : (n.setBit a i).key = n.key := rfl
@[simp] theorem Node.setBit_latA (n : Node) (a i : Nat) : (n.setBit a i).latA = n.latA := rfl
@[simp] theorem Node.setBit_latC (n : Node) (a i : Nat) : (n.setBit a i).latC = n.latC := rfl
@[simp] theorem Node.setBit_mem (n : Node) (a i : Nat) : (n.setBit a i).mem = n.mem := rfl
@[simp] theorem Node.setBit_tick (n : Node) (a i : Nat) : (n.setBit a i).tick = n.tick := rfl
@[simp] theorem Node.setBit_free (n : Node) (a i : Nat) : (n.setBit a i).free = n.free := rfl
@[simp] theorem Node.setBit_rdata (n : Node) (a i : Nat) : (n.setBit a i).rdata = n.rdata := rfl
@[simp] theorem Node.setBit_cmd (n : Node) (a i : Nat) : (n.setBit a i).cmd = n.cmd := rfl
@[simp] theorem Node.setBit_dic (n : Node) (a i : Nat) : (n.setBit a i).dic = n.dic := rfl
@[simp] theorem Node.setBit_annex (n : Node) (a i : Nat) : (n.setBit a i).annex = n.annex := rfl
@[simp] theorem Node.setBit_arc (n : Node) (a i : Nat) : (n.setBit a i).arc = n.arc := rfl
@[simp] theorem Node.setBit_nv (n : Node) (a i : Nat) : (n.setBit a i).nv = n.nv := rfl
@[simp] theorem Node.setBit_sys (n : Node) (a i : Nat) : (n.setBit a i).sys = n.sys := rfl
@[simp] theorem Node.setBit_tm (n : Node) (a i : Nat) : (n.setBit a i).tm = n.tm := rfl
@[simp] theorem Node.setBit_uc (n : Node) (a i : Nat) : (n.setBit a i).uc = n.uc := rfl
@[simp] theorem Node.setBit_lo (n : Node) (a i : Nat) : (n.setBit a i).lo = n.lo := rfl
@[simp] theorem Node.setBit_grid (n : Node) (a i : Nat) : (n.setBit a i).grid = n.grid := rfl
@[simp] theorem Node.setBit_trans (n : Node) (a i : Nat) : (n.setBit a i).trans = n.trans := rfl
@[simp] theorem Node.setBit_alm (n : Node) (a i : Nat) : (n.setBit a i).alm = n.alm := rfl
@[simp] theorem Node.setBit_bus (n : Node) (a i : Nat) : (n.setBit a i).bus = n.bus := rfl
@[simp] theorem Node.setBit_srv (n : Node) (a i : Nat) : (n.setBit a i).srv = n.srv := rfl
@[simp] theorem Node.setBit_gp (n : Node) (a i : Nat) : (n.setBit a i).gp = n.gp := rfl
@[simp] theorem Node.setBit_tw (n : Node) (a i : Nat) : (n.setBit a i).tw = n.tw := rfl
@[simp] theorem Node.setBit_disp (n : Node) (a i : Nat) : (n.setBit a i).disp = n.disp := rfl
@[simp] theorem Node.clrBit_key (n : Node) (a i : Nat) : (n.clrBit a i).key = n.key := rfl
@[simp] theorem Node.clrBit_latA (n : Node) (a i : Nat) : (n.clrBit a i).latA = n.latA := rfl
@[simp] theorem Node.clrBit_latC (n : Node) (a i : Nat) : (n.clrBit a i).latC = n.latC := rfl
@[simp] theorem Node.clrBit_mem (n : Node) (a i : Nat) : (n.clrBit a i).mem = n.mem := rfl
@[simp] theorem Node.clrBit_tick (n : Node) (a i : Nat) : (n.clrBit a i).tick = n.tick := rfl
@[simp] theorem Node.clrBit_free (n : Node) (a i : Nat) : (n.clrBit a i).free = n.free := rfl
@[simp] theorem Node.clrBit_rdata (n : Node) (a i : Nat) : (n.clrBit a i).rdata = n.rdata := rfl
@[simp] theorem Node.clrBit_cmd (n : Node) (a i : Nat) : (n.clrBit a i).cmd = n.cmd := rfl
@[simp] theorem Node.clrBit_dic (n : Node) (a i : Nat) : (n.clrBit a i).dic = n.dic := rfl
@[simp] theorem Node.clrBit_annex (n : Node) (a i : Nat) : (n.clrBit a i).annex = n.annex := rfl
@[simp] theorem Node.clrBit_arc (n : Node) (a i : Nat) : (n.clrBit a i).arc = n.arc := rfl
@[simp] theorem Node.clrBit_nv (n : Node) (a i : Nat) : (n.clrBit a i).nv = n.nv := rfl
@[simp] theorem Node.clrBit_sys (n : Node) (a i : Nat) : (n.clrBit a i).sys = n.sys := rfl
@[simp] theorem Node.clrBit_tm (n : Node) (a i : Nat) : (n.clrBit a i).tm = n.tm := rfl
@[simp] theorem Node.clrBit_uc (n : Node) (a i : Nat) : (n.clrBit a i).uc = n.uc := rfl
@[simp] theorem Node.clrBit_lo (n : Node) (a i : Nat) : (n.clrBit a i).lo = n.lo := rfl
@[simp] theorem Node.clrBit_grid (n : Node) (a i : Nat) : (n.clrBit a i).grid = n.grid := rfl
@[simp] theorem Node.clrBit_trans (n : Node) (a i : Nat) : (n.clrBit a i).trans = n.trans := rfl
@[simp] theorem Node.clrBit_alm (n : Node) (a i : Nat) : (n.clrBit a i).alm = n.alm := rfl
@[simp] theorem Node.clrBit_bus (n : Node) (a i : Nat) : (n.clrBit a i).bus = n.bus := rfl
@[simp] theorem Node.clrBit_srv (n : Node) (a i : Nat) : (n.clrBit a i).srv = n.srv := rfl
@[simp] theorem Node.clrBit_gp (n : Node) (a i : Nat) : (n.clrBit a i).gp = n.gp := rfl
@[simp] theorem Node.clrBit_tw (n : Node) (a i : Nat) : (n.clrBit a i).tw = n.tw := rfl
@[simp] theorem Node.clrBit_disp (n : Node) (a i : Nat) : (n.clrBit a i).disp = n.disp := rfl
@[simp] theorem Node.bump_key (n : Node) (f : Fd) (k : Nat) : (n.bump f k).key = n.key := rfl
@[simp] theorem Node.bump_latA (n : Node) (f : Fd) (k : Nat) : (n.bump f k).latA = n.latA := rfl
@[simp] theorem Node.bump_latC (n : Node) (f : Fd) (k : Nat) : (n.bump f k).latC = n.latC := rfl
@[simp] theorem Node.bump_mem (n : Node) (f : Fd) (k : Nat) : (n.bump f k).mem = n.mem := rfl
@[simp] theorem Node.bump_tick (n : Node) (f : Fd) (k : Nat) : (n.bump f k).tick = n.tick := rfl
@[simp] theorem Node.bump_free (n : Node) (f : Fd) (k : Nat) : (n.bump f k).free = n.free := rfl
@[simp] theorem Node.bump_rdata (n : Node) (f : Fd) (k : Nat) : (n.bump f k).rdata = n.rdata := rfl
@[simp] theorem Node.bump_cmd (n : Node) (f : Fd) (k : Nat) : (n.bump f k).cmd = n.cmd := rfl
@[simp] theorem Node.bump_dic (n : Node) (f : Fd) (k : Nat) : (n.bump f k).dic = n.dic := rfl
@[simp] theorem Node.bump_annex (n : Node) (f : Fd) (k : Nat) : (n.bump f k).annex = n.annex := rfl
@[simp] theorem Node.bump_arc (n : Node) (f : Fd) (k : Nat) : (n.bump f k).arc = n.arc := rfl
@[simp] theorem Node.bump_nv (n : Node) (f : Fd) (k : Nat) : (n.bump f k).nv = n.nv := rfl
@[simp] theorem Node.bump_sys (n : Node) (f : Fd) (k : Nat) : (n.bump f k).sys = n.sys := rfl
@[simp] theorem Node.bump_tm (n : Node) (f : Fd) (k : Nat) : (n.bump f k).tm = n.tm := rfl
@[simp] theorem Node.bump_uc (n : Node) (f : Fd) (k : Nat) : (n.bump f k).uc = n.uc := rfl
@[simp] theorem Node.bump_lo (n : Node) (f : Fd) (k : Nat) : (n.bump f k).lo = n.lo := rfl
@[simp] theorem Node.bump_grid (n : Node) (f : Fd) (k : Nat) : (n.bump f k).grid = n.grid := rfl
@[simp] theorem Node.bump_trans (n : Node) (f : Fd) (k : Nat) : (n.bump f k).trans = n.trans := rfl
@[simp] theorem Node.bump_alm (n : Node) (f : Fd) (k : Nat) : (n.bump f k).alm = n.alm := rfl
@[simp] theorem Node.bump_bus (n : Node) (f : Fd) (k : Nat) : (n.bump f k).bus = n.bus := rfl
@[simp] theorem Node.bump_srv (n : Node) (f : Fd) (k : Nat) : (n.bump f k).srv = n.srv := rfl
@[simp] theorem Node.bump_gp (n : Node) (f : Fd) (k : Nat) : (n.bump f k).gp = n.gp := rfl
@[simp] theorem Node.bump_tw (n : Node) (f : Fd) (k : Nat) : (n.bump f k).tw = n.tw := rfl
@[simp] theorem Node.bump_disp (n : Node) (f : Fd) (k : Nat) : (n.bump f k).disp = n.disp := rfl
@[simp] theorem Node.setK_reg (n : Node) (k : Nat) (v : Word) : (n.setK k v).reg = n.reg := rfl
@[simp] theorem Node.setK_latA (n : Node) (k : Nat) (v : Word) : (n.setK k v).latA = n.latA := rfl
@[simp] theorem Node.setK_latC (n : Node) (k : Nat) (v : Word) : (n.setK k v).latC = n.latC := rfl
@[simp] theorem Node.setK_mem (n : Node) (k : Nat) (v : Word) : (n.setK k v).mem = n.mem := rfl
@[simp] theorem Node.setK_tick (n : Node) (k : Nat) (v : Word) : (n.setK k v).tick = n.tick := rfl
@[simp] theorem Node.setK_free (n : Node) (k : Nat) (v : Word) : (n.setK k v).free = n.free := rfl
@[simp] theorem Node.setK_rdata (n : Node) (k : Nat) (v : Word) : (n.setK k v).rdata = n.rdata := rfl
@[simp] theorem Node.setK_cmd (n : Node) (k : Nat) (v : Word) : (n.setK k v).cmd = n.cmd := rfl
@[simp] theorem Node.setK_dic (n : Node) (k : Nat) (v : Word) : (n.setK k v).dic = n.dic := rfl
@[simp] theorem Node.setK_annex (n : Node) (k : Nat) (v : Word) : (n.setK k v).annex = n.annex := rfl
@[simp] theorem Node.setK_arc (n : Node) (k : Nat) (v : Word) : (n.setK k v).arc = n.arc := rfl
@[simp] theorem Node.setK_nv (n : Node) (k : Nat) (v : Word) : (n.setK k v).nv = n.nv := rfl
@[simp] theorem Node.setK_sys (n : Node) (k : Nat) (v : Word) : (n.setK k v).sys = n.sys := rfl
@[simp] theorem Node.setK_tm (n : Node) (k : Nat) (v : Word) : (n.setK k v).tm = n.tm := rfl
@[simp] theorem Node.setK_uc (n : Node) (k : Nat) (v : Word) : (n.setK k v).uc = n.uc := rfl
@[simp] theorem Node.setK_lo (n : Node) (k : Nat) (v : Word) : (n.setK k v).lo = n.lo := rfl
@[simp] theorem Node.setK_grid (n : Node) (k : Nat) (v : Word) : (n.setK k v).grid = n.grid := rfl
@[simp] theorem Node.setK_trans (n : Node) (k : Nat) (v : Word) : (n.setK k v).trans = n.trans := rfl
@[simp] theorem Node.setK_alm (n : Node) (k : Nat) (v : Word) : (n.setK k v).alm = n.alm := rfl
@[simp] theorem Node.setK_bus (n : Node) (k : Nat) (v : Word) : (n.setK k v).bus = n.bus := rfl
@[simp] theorem Node.setK_srv (n : Node) (k : Nat) (v : Word) : (n.setK k v).srv = n.srv := rfl
@[simp] theorem Node.setK_gp (n : Node) (k : Nat) (v : Word) : (n.setK k v).gp = n.gp := rfl
@[simp] theorem Node.setK_tw (n : Node) (k : Nat) (v : Word) : (n.setK k v).tw = n.tw := rfl
@[simp] theorem Node.setK_disp (n : Node) (k : Nat) (v : Word) : (n.setK k v).disp = n.disp := rfl
@[simp] theorem Node.setByte_reg (n : Node) (a : Nat) (b : Byte) : (n.setByte a b).reg = n.reg := rfl
@[simp] theorem Node.setByte_key (n : Node) (a : Nat) (b : Byte) : (n.setByte a b).key = n.key := rfl
@[simp] theorem Node.setByte_latA (n : Node) (a : Nat) (b : Byte) : (n.setByte a b).latA = n.latA := rfl
@[simp] theorem Node.setByte_latC (n : Node) (a : Nat) (b : Byte) : (n.setByte a b).latC = n.latC := rfl
@[simp] theorem Node.setByte_tick (n : Node) (a : Nat) (b : Byte) : (n.setByte a b).tick = n.tick := rfl
@[simp] theorem Node.setByte_free (n : Node) (a : Nat) (b : Byte) : (n.setByte a b).free = n.free := rfl
@[simp] theorem Node.setByte_rdata (n : Node) (a : Nat) (b : Byte) : (n.setByte a b).rdata = n.rdata := rfl
@[simp] theorem Node.setByte_cmd (n : Node) (a : Nat) (b : Byte) : (n.setByte a b).cmd = n.cmd := rfl
@[simp] theorem Node.setByte_dic (n : Node) (a : Nat) (b : Byte) : (n.setByte a b).dic = n.dic := rfl
@[simp] theorem Node.setByte_annex (n : Node) (a : Nat) (b : Byte) : (n.setByte a b).annex = n.annex := rfl
@[simp] theorem Node.setByte_arc (n : Node) (a : Nat) (b : Byte) : (n.setByte a b).arc = n.arc := rfl
@[simp] theorem Node.setByte_nv (n : Node) (a : Nat) (b : Byte) :
    (n.setByte a b).nv = { n.nv with failed := n.nv.failed.filter (· != a) } := rfl
@[simp] theorem Node.setByte_sys (n : Node) (a : Nat) (b : Byte) : (n.setByte a b).sys = n.sys := rfl
@[simp] theorem Node.setByte_tm (n : Node) (a : Nat) (b : Byte) : (n.setByte a b).tm = n.tm := rfl
@[simp] theorem Node.setByte_uc (n : Node) (a : Nat) (b : Byte) : (n.setByte a b).uc = n.uc := rfl
@[simp] theorem Node.setByte_lo (n : Node) (a : Nat) (b : Byte) : (n.setByte a b).lo = n.lo := rfl
@[simp] theorem Node.setByte_grid (n : Node) (a : Nat) (b : Byte) : (n.setByte a b).grid = n.grid := rfl
@[simp] theorem Node.setByte_trans (n : Node) (a : Nat) (b : Byte) : (n.setByte a b).trans = n.trans := rfl
@[simp] theorem Node.setByte_alm (n : Node) (a : Nat) (b : Byte) : (n.setByte a b).alm = n.alm := rfl
@[simp] theorem Node.setByte_bus (n : Node) (a : Nat) (b : Byte) : (n.setByte a b).bus = n.bus := rfl
@[simp] theorem Node.setByte_srv (n : Node) (a : Nat) (b : Byte) : (n.setByte a b).srv = n.srv := rfl
@[simp] theorem Node.setByte_gp (n : Node) (a : Nat) (b : Byte) : (n.setByte a b).gp = n.gp := rfl
@[simp] theorem Node.setByte_tw (n : Node) (a : Nat) (b : Byte) : (n.setByte a b).tw = n.tw := rfl
@[simp] theorem Node.setByte_disp (n : Node) (a : Nat) (b : Byte) : (n.setByte a b).disp = n.disp := rfl
@[simp] theorem Node.setPort_reg (n : Node) (p : Port) (t : PortSt) : (n.setPort p t).reg = n.reg := rfl
@[simp] theorem Node.setPort_key (n : Node) (p : Port) (t : PortSt) : (n.setPort p t).key = n.key := rfl
@[simp] theorem Node.setPort_latA (n : Node) (p : Port) (t : PortSt) : (n.setPort p t).latA = n.latA := rfl
@[simp] theorem Node.setPort_latC (n : Node) (p : Port) (t : PortSt) : (n.setPort p t).latC = n.latC := rfl
@[simp] theorem Node.setPort_mem (n : Node) (p : Port) (t : PortSt) : (n.setPort p t).mem = n.mem := rfl
@[simp] theorem Node.setPort_tick (n : Node) (p : Port) (t : PortSt) : (n.setPort p t).tick = n.tick := rfl
@[simp] theorem Node.setPort_free (n : Node) (p : Port) (t : PortSt) : (n.setPort p t).free = n.free := rfl
@[simp] theorem Node.setPort_rdata (n : Node) (p : Port) (t : PortSt) : (n.setPort p t).rdata = n.rdata := rfl
@[simp] theorem Node.setPort_dic (n : Node) (p : Port) (t : PortSt) : (n.setPort p t).dic = n.dic := rfl
@[simp] theorem Node.setPort_annex (n : Node) (p : Port) (t : PortSt) : (n.setPort p t).annex = n.annex := rfl
@[simp] theorem Node.setPort_arc (n : Node) (p : Port) (t : PortSt) : (n.setPort p t).arc = n.arc := rfl
@[simp] theorem Node.setPort_nv (n : Node) (p : Port) (t : PortSt) : (n.setPort p t).nv = n.nv := rfl
@[simp] theorem Node.setPort_sys (n : Node) (p : Port) (t : PortSt) : (n.setPort p t).sys = n.sys := rfl
@[simp] theorem Node.setPort_tm (n : Node) (p : Port) (t : PortSt) : (n.setPort p t).tm = n.tm := rfl
@[simp] theorem Node.setPort_uc (n : Node) (p : Port) (t : PortSt) : (n.setPort p t).uc = n.uc := rfl
@[simp] theorem Node.setPort_lo (n : Node) (p : Port) (t : PortSt) : (n.setPort p t).lo = n.lo := rfl
@[simp] theorem Node.setPort_grid (n : Node) (p : Port) (t : PortSt) : (n.setPort p t).grid = n.grid := rfl
@[simp] theorem Node.setPort_trans (n : Node) (p : Port) (t : PortSt) : (n.setPort p t).trans = n.trans := rfl
@[simp] theorem Node.setPort_alm (n : Node) (p : Port) (t : PortSt) : (n.setPort p t).alm = n.alm := rfl
@[simp] theorem Node.setPort_bus (n : Node) (p : Port) (t : PortSt) : (n.setPort p t).bus = n.bus := rfl
@[simp] theorem Node.setPort_srv (n : Node) (p : Port) (t : PortSt) : (n.setPort p t).srv = n.srv := rfl
@[simp] theorem Node.setPort_gp (n : Node) (p : Port) (t : PortSt) : (n.setPort p t).gp = n.gp := rfl
@[simp] theorem Node.setPort_tw (n : Node) (p : Port) (t : PortSt) : (n.setPort p t).tw = n.tw := rfl
@[simp] theorem Node.setPort_disp (n : Node) (p : Port) (t : PortSt) : (n.setPort p t).disp = n.disp := rfl
@[simp] theorem Node.setPort_cmd_leases (n : Node) (p : Port) (t : PortSt) : (n.setPort p t).cmd.leases = n.cmd.leases := rfl
@[simp] theorem Node.setPort_cmd_streams (n : Node) (p : Port) (t : PortSt) : (n.setPort p t).cmd.streams = n.cmd.streams := rfl
@[simp] theorem Node.setPort_cmd_heard (n : Node) (p : Port) (t : PortSt) : (n.setPort p t).cmd.heard = n.cmd.heard := rfl
@[simp] theorem Node.setPort_cmd_clock (n : Node) (p : Port) (t : PortSt) : (n.setPort p t).cmd.clock = n.cmd.clock := rfl
@[simp] theorem Node.setPort_cmd_resetDrain (n : Node) (p : Port) (t : PortSt) : (n.setPort p t).cmd.resetDrain = n.cmd.resetDrain := rfl
@[simp] theorem Node.setPort_cmd_irqTold (n : Node) (p : Port) (t : PortSt) : (n.setPort p t).cmd.irqTold = n.cmd.irqTold := rfl
@[simp] theorem Node.setPort_cmd_reqLen (n : Node) (p : Port) (t : PortSt) : (n.setPort p t).cmd.reqLen = n.cmd.reqLen := rfl
@[simp] theorem Node.setPort_cmd_reqPtr (n : Node) (p : Port) (t : PortSt) : (n.setPort p t).cmd.reqPtr = n.cmd.reqPtr := rfl
@[simp] theorem Node.send_reg (n : Node) (p : Port) (t : String) (ls : List (LineKind × List Item)) (e : Bool) : (n.send p t ls e).reg = n.reg := rfl
@[simp] theorem Node.send_key (n : Node) (p : Port) (t : String) (ls : List (LineKind × List Item)) (e : Bool) : (n.send p t ls e).key = n.key := rfl
@[simp] theorem Node.send_latA (n : Node) (p : Port) (t : String) (ls : List (LineKind × List Item)) (e : Bool) : (n.send p t ls e).latA = n.latA := rfl
@[simp] theorem Node.send_latC (n : Node) (p : Port) (t : String) (ls : List (LineKind × List Item)) (e : Bool) : (n.send p t ls e).latC = n.latC := rfl
@[simp] theorem Node.send_mem (n : Node) (p : Port) (t : String) (ls : List (LineKind × List Item)) (e : Bool) : (n.send p t ls e).mem = n.mem := rfl
@[simp] theorem Node.send_tick (n : Node) (p : Port) (t : String) (ls : List (LineKind × List Item)) (e : Bool) : (n.send p t ls e).tick = n.tick := rfl
@[simp] theorem Node.send_free (n : Node) (p : Port) (t : String) (ls : List (LineKind × List Item)) (e : Bool) : (n.send p t ls e).free = n.free := rfl
@[simp] theorem Node.send_rdata (n : Node) (p : Port) (t : String) (ls : List (LineKind × List Item)) (e : Bool) : (n.send p t ls e).rdata = n.rdata := rfl
@[simp] theorem Node.send_dic (n : Node) (p : Port) (t : String) (ls : List (LineKind × List Item)) (e : Bool) : (n.send p t ls e).dic = n.dic := rfl
@[simp] theorem Node.send_annex (n : Node) (p : Port) (t : String) (ls : List (LineKind × List Item)) (e : Bool) : (n.send p t ls e).annex = n.annex := rfl
@[simp] theorem Node.send_arc (n : Node) (p : Port) (t : String) (ls : List (LineKind × List Item)) (e : Bool) : (n.send p t ls e).arc = n.arc := rfl
@[simp] theorem Node.send_nv (n : Node) (p : Port) (t : String) (ls : List (LineKind × List Item)) (e : Bool) : (n.send p t ls e).nv = n.nv := rfl
@[simp] theorem Node.send_sys (n : Node) (p : Port) (t : String) (ls : List (LineKind × List Item)) (e : Bool) : (n.send p t ls e).sys = n.sys := rfl
@[simp] theorem Node.send_tm (n : Node) (p : Port) (t : String) (ls : List (LineKind × List Item)) (e : Bool) : (n.send p t ls e).tm = n.tm := rfl
@[simp] theorem Node.send_uc (n : Node) (p : Port) (t : String) (ls : List (LineKind × List Item)) (e : Bool) : (n.send p t ls e).uc = n.uc := rfl
@[simp] theorem Node.send_lo (n : Node) (p : Port) (t : String) (ls : List (LineKind × List Item)) (e : Bool) : (n.send p t ls e).lo = n.lo := rfl
@[simp] theorem Node.send_grid (n : Node) (p : Port) (t : String) (ls : List (LineKind × List Item)) (e : Bool) : (n.send p t ls e).grid = n.grid := rfl
@[simp] theorem Node.send_trans (n : Node) (p : Port) (t : String) (ls : List (LineKind × List Item)) (e : Bool) : (n.send p t ls e).trans = n.trans := rfl
@[simp] theorem Node.send_alm (n : Node) (p : Port) (t : String) (ls : List (LineKind × List Item)) (e : Bool) : (n.send p t ls e).alm = n.alm := rfl
@[simp] theorem Node.send_bus (n : Node) (p : Port) (t : String) (ls : List (LineKind × List Item)) (e : Bool) : (n.send p t ls e).bus = n.bus := rfl
@[simp] theorem Node.send_srv (n : Node) (p : Port) (t : String) (ls : List (LineKind × List Item)) (e : Bool) : (n.send p t ls e).srv = n.srv := rfl
@[simp] theorem Node.send_gp (n : Node) (p : Port) (t : String) (ls : List (LineKind × List Item)) (e : Bool) : (n.send p t ls e).gp = n.gp := rfl
@[simp] theorem Node.send_tw (n : Node) (p : Port) (t : String) (ls : List (LineKind × List Item)) (e : Bool) : (n.send p t ls e).tw = n.tw := rfl
@[simp] theorem Node.send_disp (n : Node) (p : Port) (t : String) (ls : List (LineKind × List Item)) (e : Bool) : (n.send p t ls e).disp = n.disp := rfl
@[simp] theorem Node.send_cmd_leases (n : Node) (p : Port) (t : String) (ls : List (LineKind × List Item)) (e : Bool) : (n.send p t ls e).cmd.leases = n.cmd.leases := rfl
@[simp] theorem Node.send_cmd_streams (n : Node) (p : Port) (t : String) (ls : List (LineKind × List Item)) (e : Bool) : (n.send p t ls e).cmd.streams = n.cmd.streams := rfl
@[simp] theorem Node.send_cmd_heard (n : Node) (p : Port) (t : String) (ls : List (LineKind × List Item)) (e : Bool) : (n.send p t ls e).cmd.heard = n.cmd.heard := rfl
@[simp] theorem Node.send_cmd_clock (n : Node) (p : Port) (t : String) (ls : List (LineKind × List Item)) (e : Bool) : (n.send p t ls e).cmd.clock = n.cmd.clock := rfl
@[simp] theorem Node.send_cmd_resetDrain (n : Node) (p : Port) (t : String) (ls : List (LineKind × List Item)) (e : Bool) : (n.send p t ls e).cmd.resetDrain = n.cmd.resetDrain := rfl
@[simp] theorem Node.send_cmd_irqTold (n : Node) (p : Port) (t : String) (ls : List (LineKind × List Item)) (e : Bool) : (n.send p t ls e).cmd.irqTold = n.cmd.irqTold := rfl
@[simp] theorem Node.send_cmd_reqLen (n : Node) (p : Port) (t : String) (ls : List (LineKind × List Item)) (e : Bool) : (n.send p t ls e).cmd.reqLen = n.cmd.reqLen := rfl
@[simp] theorem Node.send_cmd_reqPtr (n : Node) (p : Port) (t : String) (ls : List (LineKind × List Item)) (e : Bool) : (n.send p t ls e).cmd.reqPtr = n.cmd.reqPtr := rfl
@[simp] theorem Node.replyOk_reg (n : Node) (l : Line) (d : List (List Item)) : (n.replyOk l d).reg = n.reg := rfl
@[simp] theorem Node.replyOk_key (n : Node) (l : Line) (d : List (List Item)) : (n.replyOk l d).key = n.key := rfl
@[simp] theorem Node.replyOk_latA (n : Node) (l : Line) (d : List (List Item)) : (n.replyOk l d).latA = n.latA := rfl
@[simp] theorem Node.replyOk_latC (n : Node) (l : Line) (d : List (List Item)) : (n.replyOk l d).latC = n.latC := rfl
@[simp] theorem Node.replyOk_mem (n : Node) (l : Line) (d : List (List Item)) : (n.replyOk l d).mem = n.mem := rfl
@[simp] theorem Node.replyOk_tick (n : Node) (l : Line) (d : List (List Item)) : (n.replyOk l d).tick = n.tick := rfl
@[simp] theorem Node.replyOk_free (n : Node) (l : Line) (d : List (List Item)) : (n.replyOk l d).free = n.free := rfl
@[simp] theorem Node.replyOk_rdata (n : Node) (l : Line) (d : List (List Item)) : (n.replyOk l d).rdata = n.rdata := rfl
@[simp] theorem Node.replyOk_dic (n : Node) (l : Line) (d : List (List Item)) : (n.replyOk l d).dic = n.dic := rfl
@[simp] theorem Node.replyOk_annex (n : Node) (l : Line) (d : List (List Item)) : (n.replyOk l d).annex = n.annex := rfl
@[simp] theorem Node.replyOk_arc (n : Node) (l : Line) (d : List (List Item)) : (n.replyOk l d).arc = n.arc := rfl
@[simp] theorem Node.replyOk_nv (n : Node) (l : Line) (d : List (List Item)) : (n.replyOk l d).nv = n.nv := rfl
@[simp] theorem Node.replyOk_sys (n : Node) (l : Line) (d : List (List Item)) : (n.replyOk l d).sys = n.sys := rfl
@[simp] theorem Node.replyOk_tm (n : Node) (l : Line) (d : List (List Item)) : (n.replyOk l d).tm = n.tm := rfl
@[simp] theorem Node.replyOk_uc (n : Node) (l : Line) (d : List (List Item)) : (n.replyOk l d).uc = n.uc := rfl
@[simp] theorem Node.replyOk_lo (n : Node) (l : Line) (d : List (List Item)) : (n.replyOk l d).lo = n.lo := rfl
@[simp] theorem Node.replyOk_grid (n : Node) (l : Line) (d : List (List Item)) : (n.replyOk l d).grid = n.grid := rfl
@[simp] theorem Node.replyOk_trans (n : Node) (l : Line) (d : List (List Item)) : (n.replyOk l d).trans = n.trans := rfl
@[simp] theorem Node.replyOk_alm (n : Node) (l : Line) (d : List (List Item)) : (n.replyOk l d).alm = n.alm := rfl
@[simp] theorem Node.replyOk_bus (n : Node) (l : Line) (d : List (List Item)) : (n.replyOk l d).bus = n.bus := rfl
@[simp] theorem Node.replyOk_srv (n : Node) (l : Line) (d : List (List Item)) : (n.replyOk l d).srv = n.srv := rfl
@[simp] theorem Node.replyOk_gp (n : Node) (l : Line) (d : List (List Item)) : (n.replyOk l d).gp = n.gp := rfl
@[simp] theorem Node.replyOk_tw (n : Node) (l : Line) (d : List (List Item)) : (n.replyOk l d).tw = n.tw := rfl
@[simp] theorem Node.replyOk_disp (n : Node) (l : Line) (d : List (List Item)) : (n.replyOk l d).disp = n.disp := rfl
@[simp] theorem Node.replyOk_cmd_leases (n : Node) (l : Line) (d : List (List Item)) : (n.replyOk l d).cmd.leases = n.cmd.leases := rfl
@[simp] theorem Node.replyOk_cmd_streams (n : Node) (l : Line) (d : List (List Item)) : (n.replyOk l d).cmd.streams = n.cmd.streams := rfl
@[simp] theorem Node.replyOk_cmd_heard (n : Node) (l : Line) (d : List (List Item)) : (n.replyOk l d).cmd.heard = n.cmd.heard := rfl
@[simp] theorem Node.replyOk_cmd_clock (n : Node) (l : Line) (d : List (List Item)) : (n.replyOk l d).cmd.clock = n.cmd.clock := rfl
@[simp] theorem Node.replyOk_cmd_resetDrain (n : Node) (l : Line) (d : List (List Item)) : (n.replyOk l d).cmd.resetDrain = n.cmd.resetDrain := rfl
@[simp] theorem Node.replyOk_cmd_irqTold (n : Node) (l : Line) (d : List (List Item)) : (n.replyOk l d).cmd.irqTold = n.cmd.irqTold := rfl
@[simp] theorem Node.replyOk_cmd_reqLen (n : Node) (l : Line) (d : List (List Item)) : (n.replyOk l d).cmd.reqLen = n.cmd.reqLen := rfl
@[simp] theorem Node.replyOk_cmd_reqPtr (n : Node) (l : Line) (d : List (List Item)) : (n.replyOk l d).cmd.reqPtr = n.cmd.reqPtr := rfl
@[simp] theorem Node.replyErr_reg (n : Node) (l : Line) (e : Err) : (n.replyErr l e).reg = n.reg := rfl
@[simp] theorem Node.replyErr_key (n : Node) (l : Line) (e : Err) : (n.replyErr l e).key = n.key := rfl
@[simp] theorem Node.replyErr_latA (n : Node) (l : Line) (e : Err) : (n.replyErr l e).latA = n.latA := rfl
@[simp] theorem Node.replyErr_latC (n : Node) (l : Line) (e : Err) : (n.replyErr l e).latC = n.latC := rfl
@[simp] theorem Node.replyErr_mem (n : Node) (l : Line) (e : Err) : (n.replyErr l e).mem = n.mem := rfl
@[simp] theorem Node.replyErr_tick (n : Node) (l : Line) (e : Err) : (n.replyErr l e).tick = n.tick := rfl
@[simp] theorem Node.replyErr_free (n : Node) (l : Line) (e : Err) : (n.replyErr l e).free = n.free := rfl
@[simp] theorem Node.replyErr_rdata (n : Node) (l : Line) (e : Err) : (n.replyErr l e).rdata = n.rdata := rfl
@[simp] theorem Node.replyErr_dic (n : Node) (l : Line) (e : Err) : (n.replyErr l e).dic = n.dic := rfl
@[simp] theorem Node.replyErr_annex (n : Node) (l : Line) (e : Err) : (n.replyErr l e).annex = n.annex := rfl
@[simp] theorem Node.replyErr_arc (n : Node) (l : Line) (e : Err) : (n.replyErr l e).arc = n.arc := rfl
@[simp] theorem Node.replyErr_nv (n : Node) (l : Line) (e : Err) : (n.replyErr l e).nv = n.nv := rfl
@[simp] theorem Node.replyErr_sys (n : Node) (l : Line) (e : Err) : (n.replyErr l e).sys = n.sys := rfl
@[simp] theorem Node.replyErr_tm (n : Node) (l : Line) (e : Err) : (n.replyErr l e).tm = n.tm := rfl
@[simp] theorem Node.replyErr_uc (n : Node) (l : Line) (e : Err) : (n.replyErr l e).uc = n.uc := rfl
@[simp] theorem Node.replyErr_lo (n : Node) (l : Line) (e : Err) : (n.replyErr l e).lo = n.lo := rfl
@[simp] theorem Node.replyErr_grid (n : Node) (l : Line) (e : Err) : (n.replyErr l e).grid = n.grid := rfl
@[simp] theorem Node.replyErr_trans (n : Node) (l : Line) (e : Err) : (n.replyErr l e).trans = n.trans := rfl
@[simp] theorem Node.replyErr_alm (n : Node) (l : Line) (e : Err) : (n.replyErr l e).alm = n.alm := rfl
@[simp] theorem Node.replyErr_bus (n : Node) (l : Line) (e : Err) : (n.replyErr l e).bus = n.bus := rfl
@[simp] theorem Node.replyErr_srv (n : Node) (l : Line) (e : Err) : (n.replyErr l e).srv = n.srv := rfl
@[simp] theorem Node.replyErr_gp (n : Node) (l : Line) (e : Err) : (n.replyErr l e).gp = n.gp := rfl
@[simp] theorem Node.replyErr_tw (n : Node) (l : Line) (e : Err) : (n.replyErr l e).tw = n.tw := rfl
@[simp] theorem Node.replyErr_disp (n : Node) (l : Line) (e : Err) : (n.replyErr l e).disp = n.disp := rfl
@[simp] theorem Node.replyErr_cmd_leases (n : Node) (l : Line) (e : Err) : (n.replyErr l e).cmd.leases = n.cmd.leases := rfl
@[simp] theorem Node.replyErr_cmd_streams (n : Node) (l : Line) (e : Err) : (n.replyErr l e).cmd.streams = n.cmd.streams := rfl
@[simp] theorem Node.replyErr_cmd_heard (n : Node) (l : Line) (e : Err) : (n.replyErr l e).cmd.heard = n.cmd.heard := rfl
@[simp] theorem Node.replyErr_cmd_clock (n : Node) (l : Line) (e : Err) : (n.replyErr l e).cmd.clock = n.cmd.clock := rfl
@[simp] theorem Node.replyErr_cmd_resetDrain (n : Node) (l : Line) (e : Err) : (n.replyErr l e).cmd.resetDrain = n.cmd.resetDrain := rfl
@[simp] theorem Node.replyErr_cmd_irqTold (n : Node) (l : Line) (e : Err) : (n.replyErr l e).cmd.irqTold = n.cmd.irqTold := rfl
@[simp] theorem Node.replyErr_cmd_reqLen (n : Node) (l : Line) (e : Err) : (n.replyErr l e).cmd.reqLen = n.cmd.reqLen := rfl
@[simp] theorem Node.replyErr_cmd_reqPtr (n : Node) (l : Line) (e : Err) : (n.replyErr l e).cmd.reqPtr = n.cmd.reqPtr := rfl
@[simp] theorem Node.takeLine_reg (n : Node) (l : Line) : (n.takeLine l).reg = n.reg := rfl
@[simp] theorem Node.takeLine_key (n : Node) (l : Line) : (n.takeLine l).key = n.key := rfl
@[simp] theorem Node.takeLine_latA (n : Node) (l : Line) : (n.takeLine l).latA = n.latA := rfl
@[simp] theorem Node.takeLine_latC (n : Node) (l : Line) : (n.takeLine l).latC = n.latC := rfl
@[simp] theorem Node.takeLine_mem (n : Node) (l : Line) : (n.takeLine l).mem = n.mem := rfl
@[simp] theorem Node.takeLine_tick (n : Node) (l : Line) : (n.takeLine l).tick = n.tick := rfl
@[simp] theorem Node.takeLine_free (n : Node) (l : Line) : (n.takeLine l).free = n.free := rfl
@[simp] theorem Node.takeLine_rdata (n : Node) (l : Line) : (n.takeLine l).rdata = n.rdata := rfl
@[simp] theorem Node.takeLine_dic (n : Node) (l : Line) : (n.takeLine l).dic = n.dic := rfl
@[simp] theorem Node.takeLine_annex (n : Node) (l : Line) : (n.takeLine l).annex = n.annex := rfl
@[simp] theorem Node.takeLine_arc (n : Node) (l : Line) : (n.takeLine l).arc = n.arc := rfl
@[simp] theorem Node.takeLine_nv (n : Node) (l : Line) : (n.takeLine l).nv = n.nv := rfl
@[simp] theorem Node.takeLine_sys (n : Node) (l : Line) : (n.takeLine l).sys = n.sys := rfl
@[simp] theorem Node.takeLine_tm (n : Node) (l : Line) : (n.takeLine l).tm = n.tm := rfl
@[simp] theorem Node.takeLine_uc (n : Node) (l : Line) : (n.takeLine l).uc = n.uc := rfl
@[simp] theorem Node.takeLine_lo (n : Node) (l : Line) : (n.takeLine l).lo = n.lo := rfl
@[simp] theorem Node.takeLine_grid (n : Node) (l : Line) : (n.takeLine l).grid = n.grid := rfl
@[simp] theorem Node.takeLine_trans (n : Node) (l : Line) : (n.takeLine l).trans = n.trans := rfl
@[simp] theorem Node.takeLine_alm (n : Node) (l : Line) : (n.takeLine l).alm = n.alm := rfl
@[simp] theorem Node.takeLine_bus (n : Node) (l : Line) : (n.takeLine l).bus = n.bus := rfl
@[simp] theorem Node.takeLine_srv (n : Node) (l : Line) : (n.takeLine l).srv = n.srv := rfl
@[simp] theorem Node.takeLine_gp (n : Node) (l : Line) : (n.takeLine l).gp = n.gp := rfl
@[simp] theorem Node.takeLine_tw (n : Node) (l : Line) : (n.takeLine l).tw = n.tw := rfl
@[simp] theorem Node.takeLine_disp (n : Node) (l : Line) : (n.takeLine l).disp = n.disp := rfl
@[simp] theorem Node.takeLine_cmd_leases (n : Node) (l : Line) : (n.takeLine l).cmd.leases = n.cmd.leases := rfl
@[simp] theorem Node.takeLine_cmd_streams (n : Node) (l : Line) : (n.takeLine l).cmd.streams = n.cmd.streams := rfl
@[simp] theorem Node.takeLine_cmd_heard (n : Node) (l : Line) : (n.takeLine l).cmd.heard = n.cmd.heard := rfl
@[simp] theorem Node.takeLine_cmd_clock (n : Node) (l : Line) : (n.takeLine l).cmd.clock = n.cmd.clock := rfl
@[simp] theorem Node.takeLine_cmd_resetDrain (n : Node) (l : Line) : (n.takeLine l).cmd.resetDrain = n.cmd.resetDrain := rfl
@[simp] theorem Node.takeLine_cmd_irqTold (n : Node) (l : Line) : (n.takeLine l).cmd.irqTold = n.cmd.irqTold := rfl
@[simp] theorem Node.takeLine_cmd_reqLen (n : Node) (l : Line) : (n.takeLine l).cmd.reqLen = n.cmd.reqLen := rfl
@[simp] theorem Node.takeLine_cmd_reqPtr (n : Node) (l : Line) : (n.takeLine l).cmd.reqPtr = n.cmd.reqPtr := rfl

/-! ### A word, a setting, a byte and a port after a write -/

theorem Node.rd_wr (n : Node) (a b : Nat) (v : Word) : (n.wr a v).rd b = if a = b then v else n.rd b := by
  unfold Node.rd Node.wr
  by_cases h : a = b
  · subst h; rw [Bank.get_set]
  · show Bank.get (resetWord b) (Bank.set (resetWord a) n.reg a v) b = _
    rw [Bank.get_set_ne _ _ h]; simp [h]
theorem Node.k_setK (n : Node) (a b : Nat) (v : Word) : (n.setK a v).k b = if a = b then v else n.k b := by
  unfold Node.k Node.setK
  by_cases h : a = b
  · subst h; rw [Bank.get_set]
  · show Bank.get (keyDefault b) (Bank.set (keyDefault a) n.key a v) b = _
    rw [Bank.get_set_ne _ _ h]; simp [h]
theorem Node.byte_setByte (n : Node) (a b : Nat) (v : Byte) : (n.setByte a v).byte b = if a = b then v else n.byte b := by
  unfold Node.byte Node.setByte
  by_cases h : a = b
  · subst h; simp [Bank.get_set]
  · have hf : (n.nv.failed.filter (· != a)).contains b = n.nv.failed.contains b := by
      rw [Bool.eq_iff_iff]; simp [Ne.symm h]
    show (if (n.nv.failed.filter (· != a)).contains b then Config.failedByte b n.tick
      else Bank.get (memDefault b) (Bank.set (memDefault a) n.mem a v) b) = _
    rw [hf, Bank.get_set_ne _ _ h, if_neg h]
theorem portNum_inj {p q : Port} (h : portNum p = portNum q) : p = q := by cases p <;> cases q <;> simp_all [portNum]
theorem Node.port_setPort (n : Node) (p q : Port) (t : PortSt) : (n.setPort p t).port q = if p = q then t else n.port q := by
  unfold Node.port Node.setPort
  show Bank.get {} (Bank.set {} n.cmd.ports (portNum p) t) (portNum q) = _
  rw [Bank.get_set]
  by_cases h : p = q
  · subst h; simp
  · rw [if_neg (fun e => h (portNum_inj e)), if_neg h]
/-- A byte outside the bytes stored is as before. -/
theorem Node.byte_setBytes_out (l : List Byte) : ∀ (n : Node) (a x : Nat), (x < a ∨ a + l.length ≤ x) → (n.setBytes a l).byte x = n.byte x := by
  induction l with
  | nil => intro n a x _; rfl
  | cons b t ih =>
    intro n a x h
    rw [Node.setBytes, ih _ _ _ (by simp only [List.length_cons] at h; omega), Node.byte_setByte, if_neg]
    simp only [List.length_cons] at h
    omega
/-- A byte among the bytes stored. -/
theorem Node.byte_setBytes_in (l : List Byte) : ∀ (n : Node) (a i : Nat) (h : i < l.length), (n.setBytes a l).byte (a + i) = l[i] := by
  induction l with
  | nil => intro n a i h; cases h
  | cons b t ih =>
    intro n a i h
    cases i with
    | zero => rw [Node.setBytes, Node.byte_setBytes_out _ _ _ _ (.inl (by omega)), Node.byte_setByte]; simp
    | succ k =>
      rw [Node.setBytes, show a + (k + 1) = a + 1 + k by omega, ih _ _ _ (by simpa using h)]
      simp
/-- Storing bytes changes memory, and which words have failed, and nothing else. -/
theorem Node.setBytes_same (l : List Byte) : ∀ (n : Node) (a : Nat), n.setBytes a l =
    { n with mem := (n.setBytes a l).mem, nv := { n.nv with failed := (n.setBytes a l).nv.failed } } := by
  induction l with
  | nil => intro n a; rfl
  | cons b t ih => intro n a; rw [Node.setBytes, ih]; rfl

end Sys2Proof.Machine
end

