-- ==== Sys2Proof/Laws/Fields.lean ====
section
/-! SUPPORT. Reading a field of a register after writing one. -/
namespace Sys2Proof.Machine

/-- The word a field write makes, as a number. -/
theorem Fd.put_toNat (f : Fd) (w : Word) (v : Nat) (hl : f.lo ≤ f.hi) (hh : f.hi < 32) :
    (f.put w v).toNat = w.toNat / 2 ^ (f.hi + 1) * 2 ^ (f.hi + 1) + v % 2 ^ f.width * 2 ^ f.lo + w.toNat % 2 ^ f.lo := by
  have hw : 2 ^ (f.hi + 1) = 2 ^ f.width * 2 ^ f.lo := by
    rw [← Nat.pow_add]; congr 1; unfold Fd.width; omega
  have h32 : 2 ^ 32 = 2 ^ (31 - f.hi) * 2 ^ (f.hi + 1) := by
    rw [← Nat.pow_add]; congr 1; omega
  have ha : w.toNat / 2 ^ (f.hi + 1) < 2 ^ (31 - f.hi) := by
    rw [Nat.div_lt_iff_lt_mul (Nat.two_pow_pos _), ← h32]; exact w.isLt
  have hv : v % 2 ^ f.width < 2 ^ f.width := Nat.mod_lt _ (Nat.two_pow_pos _)
  have hr : w.toNat % 2 ^ f.lo < 2 ^ f.lo := Nat.mod_lt _ (Nat.two_pow_pos _)
  rw [Fd.put, BitVec.toNat_ofNat, Nat.mod_eq_of_lt]
  have h1 : (v % 2 ^ f.width + 1) * 2 ^ f.lo ≤ 2 ^ f.width * 2 ^ f.lo := Nat.mul_le_mul_right _ hv
  have h2 : (w.toNat / 2 ^ (f.hi + 1) + 1) * 2 ^ (f.hi + 1) ≤ 2 ^ (31 - f.hi) * 2 ^ (f.hi + 1) := Nat.mul_le_mul_right _ ha
  rw [Nat.add_mul] at h1 h2
  omega
theorem Fd.get_put_same (f : Fd) (w : Word) (v : Nat) (hl : f.lo ≤ f.hi) (hh : f.hi < 32) : f.get (f.put w v) = v % 2 ^ f.width := by
  have hw : 2 ^ (f.hi + 1) = 2 ^ f.width * 2 ^ f.lo := by
    rw [← Nat.pow_add]; congr 1; unfold Fd.width; omega
  rw [Fd.get, Fd.put_toNat f w v hl hh, hw, ← Nat.mul_assoc, ← Nat.add_mul, Nat.mul_comm _ (2 ^ f.lo), Nat.mul_add_div (Nat.two_pow_pos _),
    Nat.div_eq_of_lt (Nat.mod_lt _ (Nat.two_pow_pos _)), Nat.add_zero, Nat.mul_add_mod_self_right, Nat.mod_mod]
/-- A field that shares no bit with the one written. -/
theorem Fd.get_put_apart (f g : Fd) (w : Word) (v : Nat) (hl : f.lo ≤ f.hi) (hh : f.hi < 32) (hg : g.lo ≤ g.hi)
    (ha : f.hi < g.lo ∨ g.hi < f.lo) : g.get (f.put w v) = g.get w := by
  have hw : 2 ^ (f.hi + 1) = 2 ^ f.width * 2 ^ f.lo := by
    rw [← Nat.pow_add]; congr 1; unfold Fd.width; omega
  have hv : v % 2 ^ f.width < 2 ^ f.width := Nat.mod_lt _ (Nat.two_pow_pos _)
  have hr : w.toNat % 2 ^ f.lo < 2 ^ f.lo := Nat.mod_lt _ (Nat.two_pow_pos _)
  have h1 : (v % 2 ^ f.width + 1) * 2 ^ f.lo ≤ 2 ^ f.width * 2 ^ f.lo := Nat.mul_le_mul_right _ hv
  rw [Nat.add_mul] at h1
  rw [Fd.get, Fd.get, Fd.put_toNat f w v hl hh]
  rcases ha with ha | ha
  · have e : 2 ^ g.lo = 2 ^ (f.hi + 1) * 2 ^ (g.lo - (f.hi + 1)) := by
      rw [← Nat.pow_add]; congr 1; omega
    rw [e, ← Nat.div_div_eq_div_mul, ← Nat.div_div_eq_div_mul]
    congr 2
    have hc : v % 2 ^ f.width * 2 ^ f.lo + w.toNat % 2 ^ f.lo < 2 ^ (f.hi + 1) := by rw [hw]; omega
    rw [Nat.add_assoc, Nat.add_comm, Nat.add_mul_div_right _ _ (Nat.two_pow_pos _), Nat.div_eq_of_lt hc, Nat.zero_add]
  · have e : 2 ^ f.lo = 2 ^ (g.hi + 1) * 2 ^ (f.lo - (g.hi + 1)) := by
      rw [← Nat.pow_add]; congr 1; omega
    have k : 2 ^ (g.hi + 1) = 2 ^ g.lo * 2 ^ g.width := by
      rw [← Nat.pow_add]; congr 1; unfold Fd.width; omega
    rw [← Nat.mod_mul_right_div_self, ← Nat.mod_mul_right_div_self, ← k]
    congr 1
    have d : 2 ^ (g.hi + 1) ∣ 2 ^ f.lo := ⟨_, e⟩
    rw [hw, ← Nat.mul_assoc, ← Nat.add_mul, Nat.add_mod, Nat.mod_eq_zero_of_dvd (Dvd.dvd.mul_left d _), Nat.zero_add, Nat.mod_mod,
      Nat.mod_mod_of_dvd _ d]

/-- A field of the register written. -/
theorem Node.fd_setFd_same (n : Node) (f : Fd) (v : Nat) (hl : f.lo ≤ f.hi) (hh : f.hi < 32) :
    (n.setFd f v).fd f = v % 2 ^ f.width := by
  rw [Node.fd, Node.setFd, Node.rd_wr, if_pos rfl, Fd.get_put_same f _ _ hl hh]
/-- A field of another register, or another field of the same one. -/
theorem Node.fd_setFd_apart (n : Node) (f g : Fd) (v : Nat) (hl : f.lo ≤ f.hi) (hh : f.hi < 32) (hg : g.lo ≤ g.hi)
    (ha : f.addr ≠ g.addr ∨ f.hi < g.lo ∨ g.hi < f.lo) : (n.setFd f v).fd g = n.fd g := by
  rw [Node.fd, Node.setFd, Node.rd_wr]
  split
  · rename_i h
    rw [Fd.get_put_apart f g _ _ hl hh hg (ha.resolve_left (fun e => e h)), h, Node.fd]
  · rfl
/-- A register other than the one that holds the field. -/
theorem Node.rd_setFd (n : Node) (f : Fd) (v a : Nat) : (n.setFd f v).rd a = if f.addr = a then f.put (n.rd f.addr) v else n.rd a := by
  rw [Node.setFd, Node.rd_wr]

end Sys2Proof.Machine
end

