-- ==== Sys2Proof/Laws/Lines.lean ====
section
/-! SUPPORT. What each way of executing a line can do: refuse it with its error line, or take effect and answer. -/
namespace Sys2Proof.Machine

theorem lift_becomes (s : State) (f : Node → Node) : s.lift f = becomes s (f s.node) := rfl

/-- An index item within the capacity names its index. -/
theorem Line.items_one {l : Line} {i cap : Nat} (h : l.idx = some [(i, i)]) (hi : i < cap) : l.items cap = .ok [i] := by
  have h1 : indexSet [(i, i)] = [i] := by
    simp only [indexSet, List.foldl_cons, List.foldl_nil, List.any_cons, List.any_nil, Bool.or_false]
    rw [show Nat.max 0 i = i from Nat.max_eq_right (Nat.zero_le i), List.range_succ, List.filter_append]
    have : (List.range i).filter (fun j => decide (i ≤ j) && decide (j ≤ i)) = [] := by
      rw [List.filter_eq_nil_iff]
      intro j hj
      have := List.mem_range.1 hj
      simp
      omega
    rw [this]
    simp
  simp [Line.items, h, idxSyntax, h1, Nat.not_le.2 hi]

theorem Plain.bare {l : Line} (h : Plain l) : l.bare = .ok () := by simp [Line.bare, h.idx]
theorem bare_of {l : Line} (h : l.idx = none) : l.bare = .ok () := by simp [Line.bare, h]
theorem Plain.noKeys {l : Line} (h : Plain l) : onlyKeys [] [] l.keys = .ok () := by simp [onlyKeys, stepTen, keyErr, h.keys]

/-- A line whose port is ready takes effect and is answered, or is refused with its error line. -/
theorem runLine_cases (n : Node) (l : Line) (early : Bool) (body : Node → Except Err (Node × List (List Item)))
    (hr : n.portReady l.port = true) :
    n.runLine l early body =
      if n.sys.phase != .loaded && !early then (n.takeLine l).replyErr l ⟨308, [.w "STARTING"]⟩
      else match body (n.takeLine l) with
        | .error e => (n.takeLine l).replyErr l e
        | .ok (m, d) => m.replyOk l d := by
  rw [Node.runLine, if_neg (by simp [hr])]
  rfl
/-- A line whose port is not ready waits. -/
theorem runLine_waits (n : Node) (l : Line) (early : Bool) (body : Node → Except Err (Node × List (List Item)))
    (hr : n.portReady l.port = false) : n.runLine l early body = n := by simp [Node.runLine, hr]
theorem runLine_ok {n : Node} {l : Line} {early : Bool} {body : Node → Except Err (Node × List (List Item))} {m : Node}
    {d : List (List Item)} (hr : n.portReady l.port = true) (hp : n.sys.phase = .loaded) (hb : body (n.takeLine l) = .ok (m, d)) :
    n.runLine l early body = m.replyOk l d := by
  rw [runLine_cases _ _ _ _ hr]; simp [hp, hb]
theorem runOpen_ok {n : Node} {l : Line} {body : Node → Except Err Node} {m : Node} (hr : n.portReady l.port = true)
    (hp : n.sys.phase = .loaded) (hb : body (n.takeLine l) = .ok m) : n.runOpen l body = m := by
  simp [Node.runOpen, hr, hp, hb]
theorem runLine_error {n : Node} {l : Line} {early : Bool} {body : Node → Except Err (Node × List (List Item))} {e : Err}
    (hr : n.portReady l.port = true) (hp : n.sys.phase = .loaded) (hb : body (n.takeLine l) = .error e) :
    n.runLine l early body = (n.takeLine l).replyErr l e := by
  rw [runLine_cases _ _ _ _ hr]; simp [hp, hb]
theorem runOpen_error {n : Node} {l : Line} {body : Node → Except Err Node} {e : Err} (hr : n.portReady l.port = true)
    (hp : n.sys.phase = .loaded) (hb : body (n.takeLine l) = .error e) : n.runOpen l body = (n.takeLine l).replyErr l e := by
  simp [Node.runOpen, hr, hp, hb]
theorem runRead_ok {n : Node} {l : Line} {act : Node → Except Err (List (List Item))} {d : List (List Item)}
    (hr : n.portReady l.port = true) (hp : n.sys.phase = .loaded) (hb : act (n.takeLine l) = .ok d) :
    n.runRead l act = (n.takeLine l).replyOk l d := by
  refine runLine_ok hr hp ?_
  simp [hb, bind, Except.bind, pure, Except.pure]
theorem runWhole_ok {n : Node} {l : Line} {o : Obj} {check : Node → Except Err Unit} {act : Node → Except Err (Node × List (List Item))}
    {m : Node} {d : List (List Item)} (hr : n.portReady l.port = true) (hp : n.sys.phase = .loaded) (hi : l.idx = none)
    (hc : check (n.takeLine l) = .ok ()) (hm : (n.takeLine l).mayWrite l.port o l.idx = .ok ()) (ha : act (n.takeLine l) = .ok (m, d)) :
    n.runWhole l o check act = m.replyOk l d := by
  refine runLine_ok hr hp ?_
  rw [hi] at hm
  simp [bare_of hi, hc, hm, ha, bind, Except.bind]
theorem runMulti_one {n : Node} {l : Line} {verb : Nat} {o : Obj} {cap : Nat} {op : UnitOp} {check : Node → List Nat → Except Err Unit}
    {unit : Nat → Node → Except Err (Node × List (List Item))} {i : Nat} {m : Node} {d : List (List Item)}
    (hr : n.portReady l.port = true) (hp : n.sys.phase = .loaded) (hi : l.items cap = .ok [i])
    (hc : check (n.takeLine l) [i] = .ok ()) (hm : (n.takeLine l).mayWrite l.port o l.idx = .ok ())
    (hu : unit i (n.takeLine l) = .ok (m, d)) : n.runMulti l verb o cap op check unit = m.replyOk l d := by
  refine runOpen_ok hr hp ?_
  simp [hi, hc, hm, hu]
theorem runMulti_many {n : Node} {l : Line} {verb : Nat} {o : Obj} {cap : Nat} {op : UnitOp} {check : Node → List Nat → Except Err Unit}
    {unit : Nat → Node → Except Err (Node × List (List Item))} {is : List Nat} (hr : n.portReady l.port = true)
    (hp : n.sys.phase = .loaded) (hi : l.items cap = .ok is) (h2 : 2 ≤ is.length) (hc : check (n.takeLine l) is = .ok ())
    (hm : (n.takeLine l).mayWrite l.port o l.idx = .ok ()) :
    n.runMulti l verb o cap op check unit = (n.takeLine l).startMr l verb o op is true := by
  refine runOpen_ok hr hp ?_
  match is, h2 with
  | i :: j :: t, _ => simp [hi, hc, hm]

end Sys2Proof.Machine
end

