-- ==== Sys2Proof/Laws/Memory.lean ====
section
/-! SUPPORT. Memory keeps its canonical form under every operation on it. -/
set_option linter.unusedVariables false
namespace Sys2Proof.Machine

theorem wf_tail {x : Host.Cell} {t : List Host.Cell} (h : Memory.wf (x :: t) = true) : Memory.wf t = true := by
  cases t with
  | nil => rfl
  | cons y t' => simp only [Memory.wf, Bool.and_eq_true] at h; exact h.2
theorem wf_cons {a : Nat} {b : Byte} {t : List Host.Cell} (hb : b ≠ memDefault a) (ht : Memory.wf t = true)
    (hlt : ∀ y ∈ t, a < y.1) : Memory.wf ((a, b) :: t) = true := by
  cases t with
  | nil => simpa [Memory.wf] using hb
  | cons y t' =>
    obtain ⟨c, d⟩ := y
    simp only [Memory.wf, Bool.and_eq_true, bne_iff_ne, decide_eq_true_eq]
    exact ⟨⟨hb, hlt (c, d) (by simp)⟩, ht⟩
theorem wf_head {a : Nat} {b : Byte} {t : List Host.Cell} (h : Memory.wf ((a, b) :: t) = true) :
    b ≠ memDefault a ∧ ∀ y ∈ t, a < y.1 := by
  induction t generalizing a b with
  | nil => exact ⟨by simpa [Memory.wf] using h, by simp⟩
  | cons y t' ih =>
    obtain ⟨c, d⟩ := y
    simp only [Memory.wf, Bool.and_eq_true, bne_iff_ne, decide_eq_true_eq] at h
    refine ⟨h.1.1, ?_⟩
    intro z hz
    rcases List.mem_cons.1 hz with rfl | hz
    · exact h.1.2
    · exact Nat.lt_trans h.1.2 ((ih h.2).2 z hz)
theorem drop_mem {i : Nat} {y : Host.Cell} : ∀ {b : List Host.Cell}, y ∈ Bank.drop b i → y ∈ b ∧ y.1 ≠ i := by
  intro b
  induction b with
  | nil => intro h; cases h
  | cons x t ih =>
    obtain ⟨k, v⟩ := x
    intro h
    rw [Bank.drop] at h
    by_cases hk : k = i
    · rw [if_pos hk] at h
      exact ⟨List.mem_cons_of_mem _ (ih h).1, (ih h).2⟩
    · rw [if_neg hk] at h
      rcases List.mem_cons.1 h with rfl | h
      · exact ⟨by simp, hk⟩
      · exact ⟨List.mem_cons_of_mem _ (ih h).1, (ih h).2⟩
theorem drop_wf (i : Nat) : ∀ {b : List Host.Cell}, Memory.wf b = true → Memory.wf (Bank.drop b i) = true := by
  intro b
  induction b with
  | nil => intro h; exact h
  | cons x t ih =>
    obtain ⟨k, v⟩ := x
    intro h
    rw [Bank.drop]
    split
    · exact ih (wf_tail h)
    · exact wf_cons (wf_head h).1 (ih (wf_tail h)) (fun y hy => (wf_head h).2 y (drop_mem hy).1)
theorem put_mem {i : Nat} {v : Byte} {y : Host.Cell} : ∀ {b : List Host.Cell}, y ∈ Bank.put i v b → y = (i, v) ∨ y ∈ b := by
  intro b
  induction b with
  | nil => intro h; exact .inl (by simpa [Bank.put] using h)
  | cons x t ih =>
    obtain ⟨k, w⟩ := x
    intro h
    rw [Bank.put] at h
    split at h
    · rcases List.mem_cons.1 h with rfl | h
      · exact .inl rfl
      · exact .inr h
    · rcases List.mem_cons.1 h with rfl | h
      · exact .inr (by simp)
      · rcases ih h with h | h
        · exact .inl h
        · exact .inr (List.mem_cons_of_mem _ h)
theorem put_wf {i : Nat} {v : Byte} (hv : v ≠ memDefault i) : ∀ {b : List Host.Cell}, Memory.wf b = true →
    (∀ y ∈ b, y.1 ≠ i) → Memory.wf (Bank.put i v b) = true := by
  intro b
  induction b with
  | nil => intro _ _; simpa [Bank.put, Memory.wf] using hv
  | cons x t ih =>
    obtain ⟨k, w⟩ := x
    intro h hne
    rw [Bank.put]
    split
    · rename_i hik
      refine wf_cons hv h ?_
      intro y hy
      rcases List.mem_cons.1 hy with rfl | hy
      · exact hik
      · exact Nat.lt_trans hik ((wf_head h).2 y hy)
    · rename_i hik
      have hki : k < i := by
        have := hne (k, w) (by simp)
        simp only at this
        omega
      refine wf_cons (wf_head h).1 (ih (wf_tail h) (fun y hy => hne y (List.mem_cons_of_mem _ hy))) ?_
      intro y hy
      rcases put_mem hy with rfl | hy
      · exact hki
      · exact (wf_head h).2 y hy
theorem set_wf {a : Nat} {v : Byte} {m : List Host.Cell} (h : Memory.wf m = true) :
    Memory.wf (Bank.set (memDefault a) m a v) = true := by
  rw [Bank.set]
  split
  · exact drop_wf a h
  · rename_i hv
    exact put_wf hv (drop_wf a h) (fun y hy => (drop_mem hy).2)
theorem filter_wf (p : Host.Cell → Bool) : ∀ {m : List Host.Cell}, Memory.wf m = true → Memory.wf (m.filter p) = true := by
  intro m
  induction m with
  | nil => intro h; exact h
  | cons x t ih =>
    obtain ⟨k, v⟩ := x
    intro h
    rw [List.filter_cons]
    split
    · exact wf_cons (wf_head h).1 (ih (wf_tail h)) (fun y hy => (wf_head h).2 y (List.mem_filter.1 hy).1)
    · exact ih (wf_tail h)

end Sys2Proof.Machine
end

