-- ==== Sys2Proof/Laws/Ring.lean ====
section
/-! SUPPORT. What ringing an interrupt source can do: it writes registers and nothing else. -/
namespace Sys2Proof.Machine

/-- Writing fields changes registers only. -/
theorem Node.setFds_only_reg (n : Node) (l : List (Fd × Nat)) : n.setFds l = { n with reg := (n.setFds l).reg } := by
  have : ∀ (l : List (Fd × Nat)) (n m : Node), n = { m with reg := n.reg } → n.setFds l = { m with reg := (n.setFds l).reg } := by
    intro l
    induction l with
    | nil => intro n m h; exact h
    | cons x t ih => intro n m h; refine ih _ m ?_; rw [h]; rfl
  exact this l n n rfl

/-- Ringing a source changes registers only. -/
theorem Node.ring_only_reg (n : Node) (s : Nat) : n.ring s = { n with reg := (n.ring s).reg } := by
  unfold Node.ring
  by_cases h : (n.sys.phase == .por || n.sys.power == .off) = true
  · rw [if_pos h]
  · rw [if_neg h]
    extract_lets m
    have hm : m = { n with reg := m.reg } := rfl
    split
    · rw [Node.setFds_only_reg]; rw [hm]
    · exact hm

@[simp] theorem Node.ring_dic (n : Node) (s : Nat) : (n.ring s).dic = n.dic := by rw [Node.ring_only_reg]
@[simp] theorem Node.ring_mem (n : Node) (s : Nat) : (n.ring s).mem = n.mem := by rw [Node.ring_only_reg]
@[simp] theorem Node.ring_cmd (n : Node) (s : Nat) : (n.ring s).cmd = n.cmd := by rw [Node.ring_only_reg]
@[simp] theorem Node.ring_sys (n : Node) (s : Nat) : (n.ring s).sys = n.sys := by rw [Node.ring_only_reg]

end Sys2Proof.Machine
end

