-- ==== Sys2Proof/Laws/SoundBase.lean ====
section
/-! SUPPORT. How the parts of a meaning keep `Sound`: the lemmas the others rest on. -/
set_option linter.unusedVariables false
namespace Sys2Proof.Machine

/-- A node with a result beside it is sound. -/
structure Sound1 {α : Type} (x : Node × α) : Prop where
  h : Sound x.1
/-- A node with a result before it is sound. -/
structure Sound2 {α : Type} (x : α × Node) : Prop where
  h : Sound x.2
/-- What an `Except` answers, when it answers, has a property. -/
structure okE {ε β : Type} (P : β → Prop) (x : Except ε β) : Prop where
  h : ∀ r, x = .ok r → P r
/-- What an `Option` holds, when it holds something, has a property. -/
structure okO {β : Type} (P : β → Prop) (x : Option β) : Prop where
  h : ∀ r, x = some r → P r

theorem sound_mk {n : Node} {reg key latA latC tick free rdata cmd dic annex arc nv sys tm uc lo grid trans alm bus srv gp tw disp}
    (h : Sound n) (hl : cmd.leases = n.cmd.leases) (hs : cmd.streams = n.cmd.streams) (hd : dic.stack = n.dic.stack) :
    Sound (Node.mk reg key latA latC n.mem tick free rdata cmd dic annex arc nv sys tm uc lo grid trans alm bus srv gp tw disp) :=
  ⟨h.mem, by rw [hl]; exact h.leases, by rw [hs]; exact h.streams, by rw [hd]; exact h.stack⟩
theorem sound1_mk {α : Type} {n : Node} {a : α} (h : Sound n) : Sound1 (n, a) := ⟨h⟩
theorem sound2_mk {α : Type} {n : Node} {a : α} (h : Sound n) : Sound2 (a, n) := ⟨h⟩
theorem sound1_eq {α : Type} {x : Node × α} {n : Node} {a : α} (e : x = (n, a)) (h : Sound1 x) : Sound n := by subst e; exact h.h
theorem sound2_eq {α : Type} {x : α × Node} {n : Node} {a : α} (e : x = (a, n)) (h : Sound2 x) : Sound n := by subst e; exact h.h
theorem okE_ok {ε β : Type} {P : β → Prop} {r : β} (h : P r) : okE P (.ok r : Except ε β) := ⟨fun _ e => by cases e; exact h⟩
theorem okE_pure {ε β : Type} {P : β → Prop} {r : β} (h : P r) : okE P (pure r : Except ε β) := ⟨fun _ e => by cases e; exact h⟩
theorem okE_error {ε β : Type} {P : β → Prop} {r : ε} : okE P (.error r : Except ε β) := ⟨fun _ e => by cases e⟩
theorem okE_refuse {β : Type} {P : β → Prop} {c : Nat} : okE P (refuse c : Except Err β) := ⟨fun _ e => by cases e⟩
theorem okE_bind {ε α β : Type} {P : β → Prop} {x : Except ε α} {f : α → Except ε β} (h : ∀ a, x = .ok a → okE P (f a)) :
    okE P (x >>= f) := ⟨fun r e => by
  cases x with
  | error y => cases e
  | ok a => exact (h a rfl).h r e⟩
theorem okE_eq {ε β : Type} {P : β → Prop} {x : Except ε β} {r : β} (e : x = .ok r) (h : okE P x) : P r := h.h r e
theorem okE_eq1 {ε α : Type} {x : Except ε (Node × α)} {n : Node} {a : α} (e : x = .ok (n, a)) (h : okE Sound1 x) : Sound n := (h.h _ e).h
theorem okO_eq {β : Type} {P : β → Prop} {x : Option β} {r : β} (e : x = some r) (h : okO P x) : P r := h.h r e
theorem okO_some {β : Type} {P : β → Prop} {r : β} (h : P r) : okO P (some r) := ⟨fun _ e => by cases e; exact h⟩
theorem okO_none {β : Type} {P : β → Prop} : okO P (none : Option β) := ⟨fun _ e => by cases e⟩
theorem foldl_ok {α : Type} {f : Node → α → Node} {l : List α} (hf : ∀ m x, Sound m → Sound (f m x)) :
    ∀ {n}, Sound n → Sound (l.foldl f n) := by
  induction l with
  | nil => intro n h; exact h
  | cons x t ih => intro n h; exact ih (hf n x h)
theorem foldl1_ok {α β : Type} {f : Node × β → α → Node × β} {l : List α} (hf : ∀ m x, Sound1 m → Sound1 (f m x)) :
    ∀ {n}, Sound1 n → Sound1 (l.foldl f n) := by
  induction l with
  | nil => intro n h; exact h
  | cons x t ih => intro n h; exact ih (hf n x h)
theorem okO_getD {x : Option Node} {n : Node} (h : okO Sound x) (hn : Sound n) : Sound (x.getD n) := by
  cases x with
  | none => exact hn
  | some r => exact h.h r rfl
theorem okE_map1 {ε α β : Type} {x : Except ε (Node × α)} {f : Node × α → Node × β} (h : okE Sound1 x)
    (hf : ∀ y, Sound1 y → Sound1 (f y)) : okE Sound1 (x.map f) := ⟨fun r e => by
  cases x with
  | error y => cases e
  | ok a => cases e; exact hf a (h.h a rfl)⟩
theorem okE_map0 {ε α : Type} {x : Except ε (Node × α)} {f : Node × α → Node} (h : okE Sound1 x)
    (hf : ∀ y, Sound1 y → Sound (f y)) : okE Sound (x.map f) := ⟨fun r e => by
  cases x with
  | error y => cases e
  | ok a => cases e; exact hf a (h.h a rfl)⟩
theorem okE_map2 {ε β : Type} {x : Except ε Node} {f : Node → Node × β} (h : okE Sound x)
    (hf : ∀ y, Sound y → Sound1 (f y)) : okE Sound1 (x.map f) := ⟨fun r e => by
  cases x with
  | error y => cases e
  | ok a => cases e; exact hf a (h.h a rfl)⟩
theorem ite_ind {β : Type} {P : β → Prop} {c : Prop} [Decidable c] {a b : β} (ha : c → P a) (hb : ¬c → P b) : P (if c then a else b) := by
  by_cases h : c
  · rw [if_pos h]; exact ha h
  · rw [if_neg h]; exact hb h
theorem streams_add {α β : Type} {f : α → β} {l : List β} {m : List α} (h : ¬8 < l.length + m.length) : (l ++ m.map f).length ≤ 8 := by
  rw [List.length_append, List.length_map]; omega
/-- The next state of an outcome is sound. -/
structure Good (o : Host.Outcome State Fault Refusal) : Prop where
  h : ∀ t, o = .next t → Sound t.node
theorem lift_good {s : State} {f : Node → Node} (hf : ∀ n, Sound n → Sound (f n)) (h0 : Sound s.node) : Good (s.lift f) :=
  ⟨fun t e => by cases e; exact hf _ h0⟩
theorem Node.setByte_sound (n : Node) (a : Nat) (b : Byte) (h0 : Sound n) : Sound (n.setByte a b) :=
  ⟨set_wf h0.mem, h0.leases, h0.streams, h0.stack⟩
theorem Node.published_sound (n : Node) (o : Obj) (i : Option Nat) (h0 : Sound n) : Sound (n.published o i) :=
  ⟨h0.mem, h0.leases, by simpa [Node.published] using h0.streams, h0.stack⟩

end Sys2Proof.Machine
end

