-- ==== Sys2Proof/Laws/SoundOps.lean ====
section
/-! SUPPORT. Every operation and every meaning of Machine/Ops.lean keeps `Sound`. -/
set_option linter.unusedVariables false
namespace Sys2Proof.Machine
theorem Node.wr_sound (n : Node) (a : ℕ) (v : Sys2Proof.Word) (h0 : Sound n) : Sound (Node.wr n a v) := by
  unfold Node.wr
  refine sound_mk ?_ rfl rfl rfl
  assumption
theorem Node.setFd_sound (n : Node) (f : Fd) (v : ℕ) (h0 : Sound n) : Sound (Node.setFd n f v) := by
  unfold Node.setFd
  apply Node.wr_sound
  assumption
theorem Node.bump_sound (n : Node) (f : Fd) (k : ℕ) (h0 : Sound n) : Sound (Node.bump n f k) := by
  unfold Node.bump
  apply Node.setFd_sound
  assumption
theorem Node.setOn_sound (n : Node) (f : Fd) (b : Bool) (h0 : Sound n) : Sound (Node.setOn n f b) := by
  unfold Node.setOn
  apply Node.setFd_sound
  assumption
theorem Node.setBit_sound (n : Node) (a : ℕ) (i : ℕ) (h0 : Sound n) : Sound (Node.setBit n a i) := by
  unfold Node.setBit
  apply Node.wr_sound
  assumption
theorem Node.clrBit_sound (n : Node) (a : ℕ) (i : ℕ) (h0 : Sound n) : Sound (Node.clrBit n a i) := by
  unfold Node.clrBit
  apply Node.wr_sound
  assumption
theorem Node.setFds_sound (n : Node) (y1 : List (Fd × ℕ)) (h0 : Sound n) : Sound (Node.setFds n y1) := by
  unfold Node.setFds
  split
  · assumption
  · apply Node.setFds_sound
    apply Node.setFd_sound
    assumption
theorem Node.setK_sound (n : Node) (k : ℕ) (v : Sys2Proof.Word) (h0 : Sound n) : Sound (Node.setK n k v) := by
  unfold Node.setK
  refine sound_mk ?_ rfl rfl rfl
  assumption
theorem Node.setLat_sound (n : Node) (q : Rq) (a : ℕ) (v : Sys2Proof.Word) (h0 : Sound n) : Sound (Node.setLat n q a v) := by
  unfold Node.setLat
  split
  · refine sound_mk ?_ rfl rfl rfl
    assumption
  · refine sound_mk ?_ rfl rfl rfl
    assumption
theorem Node.spoil_sound (n : Node) (a : ℕ) (h0 : Sound n) : Sound (Node.spoil n a) := by
  unfold Node.spoil
  refine sound_mk ?_ rfl rfl rfl
  assumption
theorem Node.setBytes_sound (n : Node) (a : ℕ) (y2 : List Sys2Proof.Byte) (h0 : Sound n) : Sound (Node.setBytes n a y2) := by
  unfold Node.setBytes
  split
  · assumption
  · apply Node.setBytes_sound
    apply Node.setByte_sound
    assumption
theorem Node.fresh_sound (n : Node) (h0 : Sound n) : Sound2 (Node.fresh n) := by
  unfold Node.fresh
  apply sound2_mk
  refine sound_mk ?_ rfl rfl rfl
  assumption
theorem Node.freshNat_sound (n : Node) (h0 : Sound n) : Sound2 (Node.freshNat n) := by
  unfold Node.freshNat
  apply sound2_mk
  refine sound_mk ?_ rfl rfl rfl
  assumption
theorem Node.ring_sound (n : Node) (s : ℕ) (h0 : Sound n) : Sound (Node.ring n s) := by
  unfold Node.ring
  refine ite_ind ?_ ?_
  · intro x
    assumption
  · intro x
    extract_lets +onlyGivenNames m5
    have hm5 : Sound m5 := by
      unfold m5
      apply Node.setBit_sound
      apply Node.setBit_sound
      assumption
    clear_value m5
    refine ite_ind ?_ ?_
    · intro x
      apply Node.setFds_sound
      assumption
    · intro x
      assumption
theorem Node.intake_sound (n : Node) (e : Entry) (h0 : Sound n) : Sound1 (Node.intake n e) := by
  unfold Node.intake
  refine ite_ind ?_ ?_
  · intro x
    apply sound1_mk
    refine sound_mk ?_ rfl rfl rfl
    assumption
  · intro x
    extract_lets +onlyGivenNames m5
    clear_value m5
    extract_lets +onlyGivenNames m6
    extract_lets +onlyGivenNames m7
    have hm7 : Sound m7 := by
      unfold m7
      refine sound_mk ?_ rfl rfl rfl
      assumption
    clear_value m7
    apply sound1_mk
    apply Node.setOn_sound
    apply Node.bump_sound
    assumption
theorem Node.gate_sound (n : Node) (h0 : Sound n) : Sound1 (Node.gate n) := by
  unfold Node.gate
  refine ite_ind ?_ ?_
  · intro x
    apply sound1_mk
    assumption
  · intro x
    refine ite_ind ?_ ?_
    · intro x
      apply sound1_mk
      refine sound_mk ?_ rfl rfl rfl
      assumption
    · intro x
      refine ite_ind ?_ ?_
      · intro x
        apply sound1_mk
        apply Node.bump_sound
        assumption
      · intro x
        refine ite_ind ?_ ?_
        · intro x
          apply sound1_mk
          apply Node.bump_sound
          assumption
        · intro x
          apply sound1_mk
          assumption
theorem Node.flood_sound (n : Node) (c : ℕ) (h0 : Sound n) : Sound1 (Node.flood n c) := by
  unfold Node.flood
  extract_lets +onlyGivenNames m4
  clear_value m4
  refine ite_ind ?_ ?_
  · intro x
    apply sound1_mk
    assumption
  · intro x
    refine ite_ind ?_ ?_
    · intro x
      extract_lets +onlyGivenNames m7
      have hm7 : Sound m7 := by
        unfold m7
        apply Node.bump_sound
        assumption
      clear_value m7
      apply sound1_mk
      assumption
    · intro x
      apply sound1_mk
      refine sound_mk ?_ rfl rfl rfl
      assumption
theorem Node.raiseAt_sound (n : Node) (c : ℕ) (payload : List Byte) (win : ℕ) (helper : ℕ) (t : ℕ) (h0 : Sound n) : Sound1 (Node.raiseAt n c payload win helper t) := by
  unfold Node.raiseAt
  split
  · apply sound1_mk
    refine sound1_eq (by assumption) ?_
    apply Node.gate_sound
    assumption
  · split
    · apply sound1_mk
      refine sound1_eq (by assumption) ?_
      apply Node.flood_sound
      refine sound1_eq (by assumption) ?_
      apply Node.gate_sound
      assumption
    · extract_lets +onlyGivenNames m18
      clear_value m18
      split
      refine ite_ind ?_ ?_
      · intro x
        apply sound1_mk
        apply Node.setFd_sound
        refine sound1_eq (by assumption) ?_
        apply Node.intake_sound
        refine sound1_eq (by assumption) ?_
        apply Node.flood_sound
        refine sound1_eq (by assumption) ?_
        apply Node.gate_sound
        assumption
      · intro x
        apply sound1_mk
        refine sound1_eq (by assumption) ?_
        apply Node.intake_sound
        refine sound1_eq (by assumption) ?_
        apply Node.flood_sound
        refine sound1_eq (by assumption) ?_
        apply Node.gate_sound
        assumption
theorem Node.offer_sound (n : Node) (e : Entry) (h0 : Sound n) : Sound1 (Node.offer n e) := by
  unfold Node.offer
  split
  · apply sound1_mk
    refine sound1_eq (by assumption) ?_
    apply Node.gate_sound
    assumption
  · apply Node.intake_sound
    refine sound1_eq (by assumption) ?_
    apply Node.gate_sound
    assumption
theorem Node.stageRecord_sound (n : Node) (c : ℕ) (payload : List Byte) (win : ℕ) (helper : ℕ) (t : ℕ) (h0 : Sound n) : Sound (Node.stageRecord n c payload win helper t) := by
  unfold Node.stageRecord
  refine sound_mk ?_ rfl rfl rfl
  assumption
theorem Node.raise_sound (n : Node) (c : ℕ) (payload : List Sys2Proof.Byte) (k : ℕ) (helper : ℕ) (h0 : Sound n) : Sound (Node.raise n c payload k helper) := by
  unfold Node.raise
  refine Sound1.h ?_
  apply Node.raiseAt_sound
  assumption
theorem Node.raiseCmd_sound (n : Node) (c : ℕ) (payload : List Sys2Proof.Byte) (h0 : Sound n) : Sound (Node.raiseCmd n c payload) := by
  unfold Node.raiseCmd
  refine Sound1.h ?_
  apply Node.raiseAt_sound
  assumption
theorem Node.raiseM_sound (n : Node) (c : ℕ) (payload : List Sys2Proof.Byte) (m : Moment) (helper : ℕ) (h0 : Sound n) : Sound (Node.raiseM n c payload m helper) := by
  unfold Node.raiseM
  apply Node.raise_sound
  assumption
theorem Node.raiseHead_sound (n : Node) (c : ℕ) (payload : List Byte) (win : ℕ) (t : ℕ) (h0 : Sound n) : Sound (Node.raiseHead n c payload win t) := by
  unfold Node.raiseHead
  split
  · refine sound1_eq (by assumption) ?_
    apply Node.flood_sound
    assumption
  · extract_lets +onlyGivenNames m12
    clear_value m12
    extract_lets +onlyGivenNames m13
    clear_value m13
    extract_lets +onlyGivenNames m14
    clear_value m14
    extract_lets +onlyGivenNames m15
    clear_value m15
    extract_lets +onlyGivenNames m16
    have hm16 : Sound m16 := by
      unfold m16
      refine sound_mk ?_ rfl rfl rfl
      refine sound1_eq (by assumption) ?_
      apply Node.flood_sound
      assumption
    clear_value m16
    refine ite_ind ?_ ?_
    · intro x
      apply Node.setFd_sound
      assumption
    · intro x
      assumption
theorem Node.setPort_sound (n : Node) (p : Port) (s : PortSt) (h0 : Sound n) : Sound (Node.setPort n p s) := by
  unfold Node.setPort
  refine sound_mk ?_ rfl rfl rfl
  assumption
theorem Node.loseNotice_sound (n : Node) (p : Port) (h0 : Sound n) : Sound (Node.loseNotice n p) := by
  unfold Node.loseNotice
  extract_lets +onlyGivenNames m4
  clear_value m4
  extract_lets +onlyGivenNames m5
  have hm5 : Sound m5 := by
    unfold m5
    apply Node.bump_sound
    apply Node.setPort_sound
    assumption
  clear_value m5
  refine ite_ind ?_ ?_
  · intro x
    apply Node.ring_sound
    apply Node.setOn_sound
    assumption
  · intro x
    assumption
theorem Node.notifyPort_sound (n : Node) (p : Port) (c : Cls) (items : List Item) (h0 : Sound n) : Sound (Node.notifyPort n p c items) := by
  unfold Node.notifyPort
  refine ite_ind ?_ ?_
  · intro x
    assumption
  · intro x
    extract_lets +onlyGivenNames m7
    clear_value m7
    refine ite_ind ?_ ?_
    · intro x
      apply Node.setPort_sound
      assumption
    · intro x
      apply Node.loseNotice_sound
      assumption
theorem Node.notify_sound (n : Node) (c : Cls) (items : List Item) (h0 : Sound n) : Sound (Node.notify n c items) := by
  unfold Node.notify
  refine foldl_ok ?_ ?_
  · intro x x x
    apply Node.notifyPort_sound
    assumption
  · assumption
theorem Node.notifyWatch_sound (n : Node) (o : Obj) (sub : String) (i : Option ℕ) (items : List Item) (h0 : Sound n) : Sound (Node.notifyWatch n o sub i items) := by
  unfold Node.notifyWatch
  refine foldl_ok ?_ ?_
  · intro x x x
    refine ite_ind ?_ ?_
    · intro x
      apply Node.notifyPort_sound
      assumption
    · intro x
      assumption
  · assumption
theorem Node.send_sound (n : Node) (p : Port) (tag : String) (lines : List (LineKind × List Item)) (ends : Bool) (h0 : Sound n) : Sound (Node.send n p tag lines ends) := by
  unfold Node.send
  extract_lets +onlyGivenNames m7
  clear_value m7
  extract_lets +onlyGivenNames m8
  clear_value m8
  extract_lets +onlyGivenNames m9
  clear_value m9
  apply Node.setPort_sound
  assumption
theorem Node.replyOk_sound (n : Node) (l : Line) (data : List (List Item)) (h0 : Sound n) : Sound (Node.replyOk n l data) := by
  unfold Node.replyOk
  apply Node.send_sound
  assumption
theorem Node.replyErr_sound (n : Node) (l : Line) (e : Err) (h0 : Sound n) : Sound (Node.replyErr n l e) := by
  unfold Node.replyErr
  apply Node.send_sound
  assumption
theorem Node.takeLine_sound (n : Node) (l : Line) (h0 : Sound n) : Sound (Node.takeLine n l) := by
  unfold Node.takeLine
  extract_lets +onlyGivenNames m4
  clear_value m4
  split
  apply Node.setPort_sound
  assumption
theorem Node.runLine_sound (n : Node) (l : Line) (early : Bool) (body : Node → Except Err (Node × List (List Item))) (h0 : Sound n) (h3 : ∀ x0, Sound x0 → okE Sound1 (body x0)) : Sound (Node.runLine n l early body) := by
  unfold Node.runLine
  refine ite_ind ?_ ?_
  · intro x
    assumption
  · intro x
    extract_lets +onlyGivenNames m8
    have hm8 : Sound m8 := by
      unfold m8
      apply Node.takeLine_sound
      assumption
    clear_value m8
    refine ite_ind ?_ ?_
    · intro x
      apply Node.replyErr_sound
      assumption
    · intro x
      split
      · apply Node.replyErr_sound
        assumption
      · apply Node.replyOk_sound
        refine okE_eq1 (by assumption) ?_
        apply_assumption
        assumption
theorem Node.runOpen_sound (n : Node) (l : Line) (body : Node → Except Err Node) (h0 : Sound n) (h2 : ∀ x0, Sound x0 → okE Sound (body x0)) : Sound (Node.runOpen n l body) := by
  unfold Node.runOpen
  refine ite_ind ?_ ?_
  · intro x
    assumption
  · intro x
    extract_lets +onlyGivenNames m7
    have hm7 : Sound m7 := by
      unfold m7
      apply Node.takeLine_sound
      assumption
    clear_value m7
    refine ite_ind ?_ ?_
    · intro x
      apply Node.replyErr_sound
      assumption
    · intro x
      split
      · apply Node.replyErr_sound
        assumption
      · refine okE_eq (by assumption) ?_
        apply_assumption
        assumption
end Sys2Proof.Machine
end

