-- ==== Sys2Proof/Laws/SoundOperands.lean ====
section
/-! SUPPORT. Every operation and every meaning of Machine/Operands.lean keeps `Sound`. -/
set_option linter.unusedVariables false
namespace Sys2Proof.Machine
theorem Node.putLoc_sound (n : Node) (l : Loc) (v : ℕ) (h0 : Sound n) : Sound (Node.putLoc n l v) := by
  unfold Node.putLoc
  split
  · apply Node.setFd_sound
    assumption
  · apply Node.setK_sound
    assumption
theorem Node.putKeys_sound (n : Node) (specs : List KeySpec) (i : ℕ) (y3 : Keys) (h0 : Sound n) : Sound (Node.putKeys n specs i y3) := by
  unfold Node.putKeys
  split
  · assumption
  · extract_lets +onlyGivenNames m10
    have hm10 : Sound m10 := by
      unfold m10
      split
      · split
        · apply Node.putLoc_sound
          assumption
        · assumption
      · assumption
    clear_value m10
    apply Node.putKeys_sound
    assumption
theorem Node.dirty_sound (n : Node) (h0 : Sound n) : Sound (Node.dirty n) := by
  unfold Node.dirty
  apply Node.setOn_sound
  assumption
theorem Node.setKeys_sound (n : Node) (specs : List KeySpec) (i : ℕ) (keys : Keys) (h0 : Sound n) : Sound (Node.setKeys n specs i keys) := by
  unfold Node.setKeys
  extract_lets +onlyGivenNames m6
  have hm6 : Sound m6 := by
    unfold m6
    apply Node.putKeys_sound
    assumption
  clear_value m6
  extract_lets +onlyGivenNames m8
  clear_value m8
  refine ite_ind ?_ ?_
  · intro x
    apply Node.dirty_sound
    assumption
  · intro x
    assumption
theorem Node.setCopy_sound (n : Node) (k : ℕ) (c : Copy) (h0 : Sound n) : Sound (Node.setCopy n k c) := by
  unfold Node.setCopy
  refine sound_mk ?_ rfl rfl rfl
  assumption
theorem Node.reload_sound (n : Node) (specs : List KeySpec) (i : ℕ) (h0 : Sound n) : Sound (Node.reload n specs i) := by
  unfold Node.reload
  refine foldl_ok ?_ ?_
  · intro x x x
    refine ite_ind ?_ ?_
    · intro x
      apply Node.putLoc_sound
      assumption
    · intro x
      assumption
  · assumption
theorem Node.reloadRegs_sound (n : Node) (as : List ℕ) (h0 : Sound n) : Sound (Node.reloadRegs n as) := by
  unfold Node.reloadRegs
  refine foldl_ok ?_ ?_
  · intro x x x
    apply Node.wr_sound
    assumption
  · assumption
theorem Node.startMr_sound (n : Node) (l : Line) (verb : ℕ) (o : Obj) (op : UnitOp) (units : List ℕ) (indexed : Bool) (h0 : Sound n) : Sound (Node.startMr n l verb o op units indexed) := by
  unfold Node.startMr
  extract_lets +onlyGivenNames m9
  clear_value m9
  extract_lets +onlyGivenNames m10
  clear_value m10
  extract_lets +onlyGivenNames m11
  extract_lets +onlyGivenNames m12
  have hm12 : Sound m12 := by
    unfold m12
    apply Node.setPort_sound
    assumption
  clear_value m12
  refine ite_ind ?_ ?_
  · intro x
    apply Node.send_sound
    assumption
  · intro x
    assumption
theorem Node.runMulti_sound (n : Node) (l : Line) (verb : ℕ) (o : Obj) (cap : ℕ) (op : UnitOp) (check : Node → List ℕ → Except Err Unit) (unit : ℕ → Node → Except Err (Node × List (List Item))) (h0 : Sound n) (h7 : ∀ x0 x1, Sound x1 → okE Sound1 (unit x0 x1)) : Sound (Node.runMulti n l verb o cap op check unit) := by
  unfold Node.runMulti
  apply Node.runOpen_sound
  · assumption
  · intro x x
    split
    · exact okE_error
    · split
      · exact okE_error
      · split
        · exact okE_error
        · split
          · split
            · exact okE_error
            · apply okE_ok
              apply Node.replyOk_sound
              refine okE_eq1 (by assumption) ?_
              apply_assumption
              assumption
          · apply okE_ok
            apply Node.startMr_sound
            assumption
theorem Node.runWhole_sound (n : Node) (l : Line) (o : Obj) (check : Node → Except Err Unit) (act : Node → Except Err (Node × List (List Item))) (h0 : Sound n) (h4 : ∀ x0, Sound x0 → okE Sound1 (act x0)) : Sound (Node.runWhole n l o check act) := by
  unfold Node.runWhole
  apply Node.runLine_sound
  · assumption
  · intro x x
    refine okE_bind ?_
    intro x x
    refine okE_bind ?_
    intro x x
    refine okE_bind ?_
    intro x x
    apply_assumption
    assumption
theorem Node.runRead_sound (n : Node) (l : Line) (act : Node → Except Err (List (List Item))) (h0 : Sound n) : Sound (Node.runRead n l act) := by
  unfold Node.runRead
  apply Node.runLine_sound
  · assumption
  · intro x x
    refine okE_bind ?_
    intro x x
    apply okE_pure
    apply sound1_mk
    assumption
theorem Node.endMr_sound (n : Node) (p : Port) (kind : LineKind) (items : List Item) (h0 : Sound n) : Sound (Node.endMr n p kind items) := by
  unfold Node.endMr
  split
  · assumption
  · extract_lets +onlyGivenNames m11
    extract_lets +onlyGivenNames m12
    have hm12 : Sound m12 := by
      unfold m12
      apply Node.setPort_sound
      assumption
    clear_value m12
    extract_lets +onlyGivenNames m14
    clear_value m14
    apply Node.send_sound
    assumption
theorem Node.failMr_sound (n : Node) (p : Port) (e : Err) (h0 : Sound n) : Sound (Node.failMr n p e) := by
  unfold Node.failMr
  split
  · assumption
  · apply Node.endMr_sound
    assumption
theorem Node.runWatch_sound (n : Node) (l : Line) (o : Obj) (sub : String) (items : Except Err (List (Option ℕ))) (h0 : Sound n) : Sound (Node.runWatch n l o sub items) := by
  unfold Node.runWatch
  apply Node.runLine_sound
  · assumption
  · intro x x
    refine okE_bind ?_
    intro x x
    refine okE_bind ?_
    intro x x
    extract_lets +onlyGivenNames m13
    extract_lets +onlyGivenNames m14
    extract_lets +onlyGivenNames m15
    extract_lets +onlyGivenNames m16
    have hm16 : ∀ x0, okE Sound1 (m16 x0) := by
      unfold m16
      intro x
      refine ite_ind ?_ ?_
      · intro x
        apply okE_pure
        apply sound1_mk
        apply Node.setPort_sound
        assumption
      · intro x
        refine ite_ind ?_ ?_
        · intro x
          exact okE_refuse
        · intro x
          apply okE_pure
          apply sound1_mk
          apply Node.setPort_sound
          assumption
    clear_value m16
    split
    · apply_assumption
    · apply_assumption
    · refine okE_bind ?_
      intro x x
      apply_assumption
    · refine okE_bind ?_
      intro x x
      apply_assumption
theorem Node.runStream_sound (n : Node) (l : Line) (o : Obj) (items : Except Err (List (Option ℕ))) (ok : ℕ → Except Err Unit) (h0 : Sound n) : Sound (Node.runStream n l o items ok) := by
  unfold Node.runStream
  apply Node.runLine_sound
  · assumption
  · intro x x
    refine okE_bind ?_
    intro x x
    refine okE_bind ?_
    intro x x
    split
    · extract_lets +onlyGivenNames m18
      extract_lets +onlyGivenNames m19
      extract_lets +onlyGivenNames m20
      extract_lets +onlyGivenNames m21
      extract_lets +onlyGivenNames m22
      extract_lets +onlyGivenNames m23
      have hm23 : ∀ x0, okE Sound1 (m23 x0) := by
        unfold m23
        intro x
        refine ite_ind ?_ ?_
        · intro x
          apply okE_pure
          apply sound1_mk
          refine ⟨?_, ?_, ?_, ?_⟩
          · dsimp only; exact Sound.mem (by assumption)
          · dsimp only; exact Sound.leases (by assumption)
          · dsimp only; exact Nat.le_trans (List.length_filter_le _ _) (Sound.streams (by assumption))
          · dsimp only; exact Sound.stack (by assumption)
        · intro x
          refine ite_ind ?_ ?_
          · intro x
            exact okE_refuse
          · intro x
            apply okE_pure
            apply sound1_mk
            refine ⟨?_, ?_, ?_, ?_⟩
            · dsimp only; exact Sound.mem (by assumption)
            · dsimp only; exact Sound.leases (by assumption)
            · dsimp only; exact streams_add (by assumption)
            · dsimp only; exact Sound.stack (by assumption)
      clear_value m23
      extract_lets +onlyGivenNames m25
      have hm25 : ∀ x0, okE Sound1 (m25 x0) := by
        unfold m25
        intro x
        refine ite_ind ?_ ?_
        · intro x
          refine okE_bind ?_
          intro x x
          apply_assumption
        · intro x
          apply_assumption
      clear_value m25
      refine ite_ind ?_ ?_
      · intro x
        refine okE_bind ?_
        intro x x
        apply_assumption
      · intro x
        apply_assumption
    · exact okE_refuse
end Sys2Proof.Machine
end

