-- ==== Sys2Proof/Laws/SoundTime.lean ====
section
/-! SUPPORT. Every operation and every meaning of Machine/Time.lean keeps `Sound`. -/
set_option linter.unusedVariables false
namespace Sys2Proof.Machine
theorem Node.discardSet_sound (n : Node) (h0 : Sound n) : Sound (Node.discardSet n) := by
  unfold Node.discardSet
  split
  · extract_lets +onlyGivenNames m9
    extract_lets +onlyGivenNames m10
    have hm10 : Sound m10 := by
      unfold m10
      refine sound_mk ?_ rfl rfl rfl
      assumption
    clear_value m10
    apply Node.notifyWatch_sound
    apply Node.setOn_sound
    assumption
  · assumption
theorem Node.setEst_sound (n : Node) (e : ℕ) (h0 : Sound n) : Sound (Node.setEst n e) := by
  unfold Node.setEst
  extract_lets +onlyGivenNames m4
  have hm4 : Sound m4 := by
    unfold m4
    apply Node.setFd_sound
    assumption
  clear_value m4
  refine sound_mk ?_ rfl rfl rfl
  assumption
theorem Node.servoTo_sound (n : Node) (st : ℕ) (src : ℕ) (m : Moment) (h0 : Sound n) : Sound (Node.servoTo n st src m) := by
  unfold Node.servoTo
  extract_lets +onlyGivenNames m6
  clear_value m6
  extract_lets +onlyGivenNames m7
  clear_value m7
  refine ite_ind ?_ ?_
  · intro x
    assumption
  · intro x
    extract_lets +onlyGivenNames m9
    have hm9 : Sound m9 := by
      unfold m9
      apply Node.setFd_sound
      apply Node.setFd_sound
      assumption
    clear_value m9
    extract_lets +onlyGivenNames m11
    have hm11 : Sound m11 := by
      unfold m11
      apply Node.setFd_sound
      apply Node.setEst_sound
      assumption
    clear_value m11
    extract_lets +onlyGivenNames m13
    have hm13 : Sound m13 := by
      unfold m13
      refine ite_ind ?_ ?_
      · intro x
        split
        · apply Node.setFd_sound
          assumption
        · assumption
      · intro x
        refine ite_ind ?_ ?_
        · intro x
          apply Node.setFd_sound
          assumption
        · intro x
          assumption
    clear_value m13
    extract_lets +onlyGivenNames m15
    clear_value m15
    extract_lets +onlyGivenNames m16
    have hm16 : Sound m16 := by
      unfold m16
      refine ite_ind ?_ ?_
      · intro x
        refine sound_mk ?_ rfl rfl rfl
        assumption
      · intro x
        assumption
    clear_value m16
    extract_lets +onlyGivenNames m18
    have hm18 : Sound m18 := by
      unfold m18
      apply Node.ring_sound
      assumption
    clear_value m18
    extract_lets +onlyGivenNames m20
    have hm20 : Sound m20 := by
      unfold m20
      apply Node.raiseM_sound
      assumption
    clear_value m20
    extract_lets +onlyGivenNames m22
    have hm22 : Sound m22 := by
      unfold m22
      apply Node.notifyWatch_sound
      assumption
    clear_value m22
    refine ite_ind ?_ ?_
    · intro x
      apply Node.discardSet_sound
      assumption
    · intro x
      assumption
theorem Node.dropServoStep_sound (n : Node) (h0 : Sound n) : Sound (Node.dropServoStep n) := by
  unfold Node.dropServoStep
  refine sound_mk ?_ rfl rfl rfl
  assumption
theorem Node.newFreq_sound (n : Node) (h0 : Sound n) : Sound (Node.newFreq n) := by
  unfold Node.newFreq
  split
  extract_lets +onlyGivenNames m9
  clear_value m9
  apply Node.setFd_sound
  refine sound2_eq (by assumption) ?_
  apply Node.fresh_sound
  assumption
theorem Node.stepOrSlew_sound (n : Node) (off : ℤ) (m : Moment) (h0 : Sound n) : Sound (Node.stepOrSlew n off m) := by
  unfold Node.stepOrSlew
  refine ite_ind ?_ ?_
  · intro x
    refine ite_ind ?_ ?_
    · intro x
      assumption
    · intro x
      refine sound_mk ?_ rfl rfl rfl
      assumption
  · intro x
    refine ite_ind ?_ ?_
    · intro x
      assumption
    · intro x
      apply Node.newFreq_sound
      assumption
theorem Node.lockNow_sound (n : Node) (h0 : Sound n) : Sound (Node.lockNow n) := by
  unfold Node.lockNow
  extract_lets +onlyGivenNames m3
  have hm3 : Sound m3 := by
    unfold m3
    apply Node.setFd_sound
    assumption
  clear_value m3
  refine sound_mk ?_ rfl rfl rfl
  assumption
theorem Node.servoOffset_sound (n : Node) (off : ℤ) (m : Moment) (h0 : Sound n) : Sound (Node.servoOffset n off m) := by
  unfold Node.servoOffset
  extract_lets +onlyGivenNames m5
  clear_value m5
  extract_lets +onlyGivenNames m6
  have hm6 : Sound m6 := by
    unfold m6
    apply Node.setFd_sound
    assumption
  clear_value m6
  extract_lets +onlyGivenNames m8
  clear_value m8
  extract_lets +onlyGivenNames m9
  clear_value m9
  extract_lets +onlyGivenNames m10
  clear_value m10
  extract_lets +onlyGivenNames m11
  clear_value m11
  extract_lets +onlyGivenNames m12
  have hm12 : Sound m12 := by
    unfold m12
    refine sound_mk ?_ rfl rfl rfl
    assumption
  clear_value m12
  extract_lets +onlyGivenNames m14
  have hm14 : Sound m14 := by
    unfold m14
    apply Node.stepOrSlew_sound
    assumption
  clear_value m14
  extract_lets +onlyGivenNames m16
  clear_value m16
  refine ite_ind ?_ ?_
  · intro x
    extract_lets +onlyGivenNames m18
    have hm18 : Sound m18 := by
      unfold m18
      apply Node.setFd_sound
      assumption
    clear_value m18
    refine ite_ind ?_ ?_
    · intro x
      apply Node.servoTo_sound
      apply Node.lockNow_sound
      assumption
    · intro x
      assumption
  · intro x
    refine ite_ind ?_ ?_
    · intro x
      refine ite_ind ?_ ?_
      · intro x
        apply Node.servoTo_sound
        assumption
      · intro x
        apply Node.lockNow_sound
        assumption
    · intro x
      assumption
theorem Node.unqualify_sound (n : Node) (h0 : Sound n) : Sound (Node.unqualify n) := by
  unfold Node.unqualify
  refine sound_mk ?_ rfl rfl rfl
  assumption
theorem Node.ppsHeld_sound (n : Node) (t : ℕ) (m : Moment) (h0 : Sound n) : Sound (Node.ppsHeld n t m) := by
  unfold Node.ppsHeld
  extract_lets +onlyGivenNames ref s1 m1 m2
  have h2 : Sound m2 := Node.setOn_sound _ _ _ (sound_mk h0 rfl rfl rfl)
  exact ite_ind (fun _ => Node.servoOffset_sound _ _ _ h2) (fun _ => h2)
theorem Node.ppsQualify_sound (n : Node) (t : ℕ) (irig : Bool) (m : Moment) (h0 : Sound n) : Sound (Node.ppsQualify n t irig m) := by
  unfold Node.ppsQualify
  extract_lets +onlyGivenNames ref s1 m1 m2
  have h2 : Sound m2 := Node.setOn_sound _ _ _ (sound_mk h0 rfl rfl rfl)
  exact ite_ind (fun _ => Node.servoOffset_sound _ _ _ h2) (fun _ => h2)
theorem Node.ppsEdge_sound (n : Node) (m : Moment) (h0 : Sound n) : Sound (Node.ppsEdge n m) := by
  unfold Node.ppsEdge
  extract_lets +onlyGivenNames m4
  extract_lets +onlyGivenNames m5
  extract_lets +onlyGivenNames m6
  refine ite_ind ?_ ?_
  · intro x
    refine ite_ind ?_ ?_
    · intro x
      apply Node.ppsHeld_sound
      assumption
    · intro x
      assumption
  · intro x
    extract_lets +onlyGivenNames m8
    extract_lets +onlyGivenNames m9
    extract_lets +onlyGivenNames m10
    have hm10 : Sound m10 := by
      unfold m10
      refine sound_mk ?_ rfl rfl rfl
      assumption
    extract_lets +onlyGivenNames m12
    refine ite_ind ?_ ?_
    · intro x
      apply Node.ppsQualify_sound
      assumption
    · intro x
      assumption
theorem Node.ppsMissing_sound (n : Node) (h0 : Sound n) : Sound (Node.ppsMissing n) := by
  unfold Node.ppsMissing
  refine ite_ind ?_ ?_
  · intro x
    assumption
  · intro x
    extract_lets +onlyGivenNames m4
    have hm4 : Sound m4 := by
      unfold m4
      apply Node.ring_sound
      apply Node.setOn_sound
      assumption
    extract_lets +onlyGivenNames m6
    extract_lets +onlyGivenNames m7
    have hm7 : Sound m7 := by
      unfold m7
      refine sound_mk ?_ rfl rfl rfl
      assumption
    refine ite_ind ?_ ?_
    · intro x
      apply Node.unqualify_sound
      assumption
    · intro x
      assumption
theorem Node.irigFrame_sound (n : Node) (l : IrigLabel) (dist : ℤ) (cellsOk : Bool) (m : Moment) (h0 : Sound n) : Sound (Node.irigFrame n l dist cellsOk m) := by
  unfold Node.irigFrame
  refine ite_ind ?_ ?_
  · intro x
    assumption
  · intro x
    refine ite_ind ?_ ?_
    · intro x
      extract_lets +onlyGivenNames m9
      clear_value m9
      extract_lets +onlyGivenNames m10
      have hm10 : Sound m10 := by
        unfold m10
        refine sound_mk ?_ rfl rfl rfl
        assumption
      clear_value m10
      extract_lets +onlyGivenNames m12
      have hm12 : Sound m12 := by
        unfold m12
        apply Node.ring_sound
        apply Node.setOn_sound
        assumption
      clear_value m12
      refine ite_ind ?_ ?_
      · intro x
        apply Node.unqualify_sound
        assumption
      · intro x
        assumption
    · intro x
      extract_lets +onlyGivenNames m9
      refine ite_ind ?_ ?_
      · intro x
        extract_lets +onlyGivenNames m11
        clear_value m11
        extract_lets +onlyGivenNames m12
        clear_value m12
        refine ite_ind ?_ ?_
        · intro x
          refine sound_mk ?_ rfl rfl rfl
          assumption
        · intro x
          refine ite_ind ?_ ?_
          · intro x
            apply Node.ring_sound
            refine sound_mk ?_ rfl rfl rfl
            assumption
          · intro x
            refine ite_ind ?_ ?_
            · intro x
              extract_lets +onlyGivenNames m16
              clear_value m16
              extract_lets +onlyGivenNames m17
              clear_value m17
              extract_lets +onlyGivenNames m18
              have hm18 : Sound m18 := by
                unfold m18
                apply Node.ring_sound
                refine sound_mk ?_ rfl rfl rfl
                assumption
              clear_value m18
              refine ite_ind ?_ ?_
              · intro x
                refine sound_mk ?_ rfl rfl rfl
                assumption
              · intro x
                assumption
            · intro x
              extract_lets +onlyGivenNames m16
              clear_value m16
              extract_lets +onlyGivenNames m17
              have hm17 : Sound m17 := by
                unfold m17
                refine sound_mk ?_ rfl rfl rfl
                assumption
              clear_value m17
              apply Node.unqualify_sound
              apply Node.ring_sound
              apply Node.setOn_sound
              assumption
      · intro x
        extract_lets +onlyGivenNames m11
        extract_lets +onlyGivenNames m12
        clear_value m12
        extract_lets +onlyGivenNames m13
        have hm13 : Sound m13 := by
          unfold m13
          refine sound_mk ?_ rfl rfl rfl
          assumption
        clear_value m13
        refine ite_ind ?_ ?_
        · intro x
          apply Node.setOn_sound
          assumption
        · intro x
          refine ite_ind ?_ ?_
          · intro x
            apply Node.ring_sound
            apply Node.setOn_sound
            assumption
          · intro x
            assumption
theorem Node.leapBoundary_sound (n : Node) (m : Moment) (h0 : Sound n) : Sound (Node.leapBoundary n m) := by
  unfold Node.leapBoundary
  extract_lets +onlyGivenNames m4
  clear_value m4
  extract_lets +onlyGivenNames m5
  have hm5 : ∀ x0 x1 x2, Sound x0 → Sound (m5 x0 x1 x2) := by
    unfold m5
    intro x x x x
    extract_lets +onlyGivenNames m10
    have hm10 : Sound m10 := by
      unfold m10
      apply Node.setFd_sound
      apply Node.setFd_sound
      assumption
    clear_value m10
    apply Node.ring_sound
    apply Node.raiseM_sound
    assumption
  clear_value m5
  refine ite_ind ?_ ?_
  · intro x
    assumption
  · intro x
    split
    · refine ite_ind ?_ ?_
      · intro x
        apply_assumption
        assumption
      · intro x
        assumption
    · refine ite_ind ?_ ?_
      · intro x
        apply_assumption
        assumption
      · intro x
        assumption
    · assumption
theorem Node.sourceBoundary_sound (n : Node) (m : Moment) (h0 : Sound n) : Sound (Node.sourceBoundary n m) := by
  unfold Node.sourceBoundary
  extract_lets +onlyGivenNames m4
  extract_lets +onlyGivenNames m5
  extract_lets +onlyGivenNames m6
  have hm6 : Sound m6 := by
    unfold m6
    refine sound_mk ?_ rfl rfl rfl
    assumption
  extract_lets +onlyGivenNames m8
  have hm8 : Sound m8 := by
    unfold m8
    refine ite_ind ?_ ?_
    · intro x
      apply Node.unqualify_sound
      assumption
    · intro x
      assumption
  extract_lets +onlyGivenNames m10
  extract_lets +onlyGivenNames m11
  extract_lets +onlyGivenNames m12
  refine ite_ind ?_ ?_
  · intro x
    refine ite_ind ?_ ?_
    · intro x
      apply Node.servoTo_sound
      assumption
    · intro x
      assumption
  · intro x
    refine ite_ind ?_ ?_
    · intro x
      apply Node.dropServoStep_sound
      apply Node.servoTo_sound
      assumption
    · intro x
      refine ite_ind ?_ ?_
      · intro x
        assumption
      · intro x
        refine ite_ind ?_ ?_
        · intro x
          apply Node.dropServoStep_sound
          apply Node.servoTo_sound
          assumption
        · intro x
          assumption
theorem Node.holdoverEst_sound (n : Node) (m : Moment) (h0 : Sound n) : Sound (Node.holdoverEst n m) := by
  unfold Node.holdoverEst
  refine ite_ind ?_ ?_
  · intro x
    apply Node.setFd_sound
    assumption
  · intro x
    assumption
theorem Node.shiftTimes_sound (n : Node) (size : ℤ) (h0 : Sound n) : Sound (Node.shiftTimes n size) := by
  unfold Node.shiftTimes
  extract_lets +onlyGivenNames m4
  clear_value m4
  refine sound_mk ?_ rfl rfl rfl
  assumption
theorem Node.applyStep_sound (n : Node) (size : ℤ) (h0 : Sound n) : Sound (Node.applyStep n size) := by
  unfold Node.applyStep
  extract_lets +onlyGivenNames m4
  clear_value m4
  extract_lets +onlyGivenNames m5
  clear_value m5
  split
  extract_lets +onlyGivenNames m12
  clear_value m12
  extract_lets +onlyGivenNames m13
  have hm13 : Sound m13 := by
    unfold m13
    apply Node.shiftTimes_sound
    assumption
  clear_value m13
  extract_lets +onlyGivenNames m15
  clear_value m15
  extract_lets +onlyGivenNames m16
  have hm16 : Sound m16 := by
    unfold m16
    refine sound_mk ?_ rfl rfl rfl
    assumption
  clear_value m16
  extract_lets +onlyGivenNames m18
  have hm18 : Sound m18 := by
    unfold m18
    apply Node.setFd_sound
    assumption
  clear_value m18
  extract_lets +onlyGivenNames m20
  have hm20 : Sound m20 := by
    unfold m20
    refine ite_ind ?_ ?_
    · intro x
      assumption
    · intro x
      apply Node.setFds_sound
      assumption
  clear_value m20
  extract_lets +onlyGivenNames m22
  have hm22 : Sound m22 := by
    unfold m22
    apply Node.ring_sound
    assumption
  clear_value m22
  extract_lets +onlyGivenNames m24
  have hm24 : Sound m24 := by
    unfold m24
    apply Node.raise_sound
    assumption
  clear_value m24
  apply Node.notifyWatch_sound
  assumption
theorem Node.timeStep_sound (n : Node) (h0 : Sound n) : Sound1 (Node.timeStep n) := by
  unfold Node.timeStep
  extract_lets +onlyGivenNames m3
  clear_value m3
  extract_lets +onlyGivenNames m4
  split
  · refine ite_ind ?_ ?_
    · intro x
      extract_lets +onlyGivenNames m12
      clear_value m12
      extract_lets +onlyGivenNames m13
      have hm13 : Sound m13 := by
        unfold m13
        refine sound_mk ?_ rfl rfl rfl
        assumption
      clear_value m13
      extract_lets +onlyGivenNames m15
      have hm15 : Sound m15 := by
        unfold m15
        apply Node.applyStep_sound
        apply Node.setOn_sound
        assumption
      clear_value m15
      extract_lets +onlyGivenNames m17
      have hm17 : Sound m17 := by
        unfold m17
        apply Node.servoTo_sound
        apply Node.setEst_sound
        assumption
      clear_value m17
      apply sound1_mk
      assumption
    · intro x
      split
      · refine ite_ind ?_ ?_
        · intro x
          apply sound1_mk
          apply Node.discardSet_sound
          apply Node.applyStep_sound
          refine sound_mk ?_ rfl rfl rfl
          assumption
        · intro x
          apply sound1_mk
          assumption
      · apply sound1_mk
        assumption
  · split
    · refine ite_ind ?_ ?_
      · intro x
        apply sound1_mk
        apply Node.applyStep_sound
        refine sound_mk ?_ rfl rfl rfl
        assumption
      · intro x
        apply sound1_mk
        assumption
    · apply sound1_mk
      assumption
theorem Node.overruns_sound (n : Node) (h0 : Sound n) : Sound (Node.overruns n) := by
  unfold Node.overruns
  extract_lets +onlyGivenNames m3
  clear_value m3
  extract_lets +onlyGivenNames m4
  have hm4 : Sound m4 := by
    unfold m4
    refine foldl_ok ?_ ?_
    · intro x x x
      extract_lets +onlyGivenNames m8
      have hm8 : Sound m8 := by
        unfold m8
        apply Node.bump_sound
        assumption
      clear_value m8
      refine sound_mk ?_ rfl rfl rfl
      assumption
    · assumption
  clear_value m4
  extract_lets +onlyGivenNames m6
  have hm6 : Sound m6 := by
    unfold m6
    refine ite_ind ?_ ?_
    · intro x
      assumption
    · intro x
      apply Node.ring_sound
      assumption
  clear_value m6
  refine sound_mk ?_ rfl rfl rfl
  assumption
theorem Node.beatAdvance_sound (n : Node) (h0 : Sound n) : Sound (Node.beatAdvance n) := by
  unfold Node.beatAdvance
  extract_lets +onlyGivenNames m3
  clear_value m3
  refine sound_mk ?_ rfl rfl rfl
  assumption
theorem Node.markLate_sound (n : Node) (k : ℕ) (h0 : Sound n) : Sound (Node.markLate n k) := by
  unfold Node.markLate
  refine sound_mk ?_ rfl rfl rfl
  assumption
theorem Node.latePublished_sound (n : Node) (k : ℕ) (h0 : Sound n) : Sound (Node.latePublished n k) := by
  unfold Node.latePublished
  extract_lets +onlyGivenNames m4
  extract_lets +onlyGivenNames m5
  have hm5 : Sound m5 := by
    unfold m5
    refine sound_mk ?_ rfl rfl rfl
    assumption
  clear_value m5
  apply Node.setBit_sound
  assumption
theorem Node.overrunRecord_sound (n : Node) (m : Moment) (h0 : Sound n) : Sound (Node.overrunRecord n m) := by
  unfold Node.overrunRecord
  refine ite_ind ?_ ?_
  · intro x
    assumption
  · intro x
    extract_lets +onlyGivenNames m5
    clear_value m5
    extract_lets +onlyGivenNames m6
    have hm6 : Sound m6 := by
      unfold m6
      apply Node.raiseM_sound
      assumption
    clear_value m6
    extract_lets +onlyGivenNames m8
    have hm8 : Sound m8 := by
      unfold m8
      apply Node.notifyWatch_sound
      assumption
    clear_value m8
    refine sound_mk ?_ rfl rfl rfl
    assumption
theorem Node.setCap_sound (n : Node) (c : ℕ) (l : List ℕ) (h0 : Sound n) : Sound (Node.setCap n c l) := by
  unfold Node.setCap
  extract_lets +onlyGivenNames m5
  extract_lets +onlyGivenNames m6
  have hm6 : Sound m6 := by
    unfold m6
    refine sound_mk ?_ rfl rfl rfl
    assumption
  clear_value m6
  extract_lets +onlyGivenNames m8
  have hm8 : Sound m8 := by
    unfold m8
    apply Node.setFd_sound
    assumption
  clear_value m8
  split
  · apply Node.setFds_sound
    assumption
  · apply Node.setFds_sound
    assumption
theorem Node.capEdge_sound (n : Node) (c : ℕ) (t : ℕ) (h0 : Sound n) : Sound (Node.capEdge n c t) := by
  unfold Node.capEdge
  extract_lets +onlyGivenNames m5
  clear_value m5
  extract_lets +onlyGivenNames m6
  clear_value m6
  extract_lets +onlyGivenNames m7
  clear_value m7
  extract_lets +onlyGivenNames m8
  extract_lets +onlyGivenNames m9
  have hm9 : Sound m9 := by
    unfold m9
    refine sound_mk ?_ rfl rfl rfl
    assumption
  clear_value m9
  refine ite_ind ?_ ?_
  · intro x
    apply Node.ring_sound
    apply Node.setOn_sound
    assumption
  · intro x
    extract_lets +onlyGivenNames m12
    clear_value m12
    extract_lets +onlyGivenNames m13
    have hm13 : Sound m13 := by
      unfold m13
      apply Node.ring_sound
      apply Node.setCap_sound
      assumption
    clear_value m13
    apply Node.notifyWatch_sound
    assumption
theorem Node.edgeCapture_sound (n : Node) (sel : ℕ) (rise : Bool) (m : Moment) (h0 : Sound n) : Sound (Node.edgeCapture n sel rise m) := by
  unfold Node.edgeCapture
  refine foldl_ok ?_ ?_
  · intro x x x
    extract_lets +onlyGivenNames m9
    clear_value m9
    refine ite_ind ?_ ?_
    · intro x
      apply Node.capEdge_sound
      assumption
    · intro x
      assumption
  · assumption
theorem Node.capPop_sound (n : Node) (v : Sys2Proof.Word) (h0 : Sound n) : Sound (Node.capPop n v) := by
  unfold Node.capPop
  refine foldl_ok ?_ ?_
  · intro x x x
    refine ite_ind ?_ ?_
    · intro x
      apply Node.setCap_sound
      assumption
    · intro x
      assumption
  · assumption
theorem Node.ovrClear_sound (n : Node) (v : Sys2Proof.Word) (h0 : Sound n) : Sound (Node.ovrClear n v) := by
  unfold Node.ovrClear
  refine foldl_ok ?_ ?_
  · intro x x x
    refine ite_ind ?_ ?_
    · intro x
      apply Node.setFd_sound
      assumption
    · intro x
      assumption
  · assumption
theorem Node.timeChanged_sound (old : Node) (n : Node) (h0 : Sound old) (h1 : Sound n) : Sound (Node.timeChanged old n) := by
  unfold Node.timeChanged
  extract_lets +onlyGivenNames m5
  clear_value m5
  refine ite_ind ?_ ?_
  · intro x
    refine sound_mk ?_ rfl rfl rfl
    assumption
  · intro x
    assumption
theorem execPpsEdge_sound (rise : Bool) (widthNs : Nat) (m : Moment) (s : State) (h0 : Sound s.node) : Good (execPpsEdge rise widthNs m s) := by
  unfold execPpsEdge
  refine lift_good (fun n hn => ?_) h0
  extract_lets +onlyGivenNames m8
  refine ite_ind ?_ ?_
  · intro x
    apply Node.ppsEdge_sound
    assumption
  · intro x
    assumption
theorem execPpsEdgeMissing_sound (_m : Moment) (s : State) (h0 : Sound s.node) : Good (execPpsEdgeMissing _m s) := by
  unfold execPpsEdgeMissing
  refine lift_good (fun n hn => ?_) h0
  refine ite_ind ?_ ?_
  · intro x
    apply Node.ppsMissing_sound
    assumption
  · intro x
    assumption
theorem execIrigFrame_sound (label : IrigLabel) (dist : Int) (cellsOk : Bool) (m : Moment) (s : State) (h0 : Sound s.node) : Good (execIrigFrame label dist cellsOk m s) := by
  unfold execIrigFrame
  refine lift_good (fun n hn => ?_) h0
  refine ite_ind ?_ ?_
  · intro x
    apply Node.irigFrame_sound
    assumption
  · intro x
    assumption
theorem execFinutInvalid_sound (m : Moment) (s : State) (h0 : Sound s.node) : Good (execFinutInvalid m s) := by
  unfold execFinutInvalid
  refine lift_good (fun n hn => ?_) h0
  refine ite_ind ?_ ?_
  · intro x
    extract_lets +onlyGivenNames m7
    have hm7 : Sound m7 := by
      unfold m7
      apply Node.setOn_sound
      assumption
    clear_value m7
    refine sound_mk ?_ rfl rfl rfl
    assumption
  · intro x
    assumption
theorem execCoarseTimeout_sound (m : Moment) (s : State) (h0 : Sound s.node) : Good (execCoarseTimeout m s) := by
  unfold execCoarseTimeout
  refine lift_good (fun n hn => ?_) h0
  refine ite_ind ?_ ?_
  · intro x
    apply Node.servoTo_sound
    assumption
  · intro x
    assumption
theorem execReferenceLoss_sound (m : Moment) (s : State) (h0 : Sound s.node) : Good (execReferenceLoss m s) := by
  unfold execReferenceLoss
  refine lift_good (fun n hn => ?_) h0
  refine ite_ind ?_ ?_
  · intro x
    assumption
  · intro x
    extract_lets +onlyGivenNames m7
    clear_value m7
    extract_lets +onlyGivenNames m8
    have hm8 : Sound m8 := by
      unfold m8
      apply Node.dropServoStep_sound
      refine sound_mk ?_ rfl rfl rfl
      assumption
    extract_lets +onlyGivenNames m10
    extract_lets +onlyGivenNames m11
    have hm11 : Sound m11 := by
      unfold m11
      apply Node.setEst_sound
      assumption
    extract_lets +onlyGivenNames m13
    have hm13 : Sound m13 := by
      unfold m13
      refine ite_ind ?_ ?_
      · intro x
        apply Node.ring_sound
        assumption
      · intro x
        apply Node.servoTo_sound
        assumption
    clear_value m13
    apply Node.ring_sound
    apply Node.raiseM_sound
    assumption
theorem execEdgeCapture_sound (sel : Nat) (rise : Bool) (m : Moment) (s : State) (h0 : Sound s.node) : Good (execEdgeCapture sel rise m s) := by
  unfold execEdgeCapture
  refine lift_good (fun n hn => ?_) h0
  refine ite_ind ?_ ?_
  · intro x
    apply Node.edgeCapture_sound
    assumption
  · intro x
    assumption
theorem execSetTime_sound (l : Line) (s : State) (h0 : Sound s.node) : Good (execSetTime l s) := by
  unfold execSetTime
  refine lift_good (fun n hn => ?_) h0
  apply Node.runWhole_sound
  · assumption
  · intro x x
    apply okE_ok
    apply sound1_mk
    apply Node.timeChanged_sound
    · assumption
    · apply Node.setKeys_sound
      assumption
theorem execDoTimeSet_sound (l : Line) (s : State) (h0 : Sound s.node) : Good (execDoTimeSet l s) := by
  unfold execDoTimeSet
  refine lift_good (fun n hn => ?_) h0
  apply Node.runWhole_sound
  · assumption
  · intro x x
    extract_lets +onlyGivenNames m8
    clear_value m8
    extract_lets +onlyGivenNames m9
    clear_value m9
    extract_lets +onlyGivenNames m10
    clear_value m10
    extract_lets +onlyGivenNames m11
    clear_value m11
    refine ite_ind ?_ ?_
    · intro x
      exact okE_refuse
    · intro x
      refine ite_ind ?_ ?_
      · intro x
        exact okE_refuse
      · intro x
        apply okE_ok
        apply sound1_mk
        apply Node.setOn_sound
        refine sound_mk ?_ rfl rfl rfl
        assumption
theorem execGetTime_sound (l : Line) (s : State) (h0 : Sound s.node) : Good (execGetTime l s) := by
  unfold execGetTime
  refine lift_good (fun n hn => ?_) h0
  apply Node.runRead_sound
  assumption
theorem setCaptureUnit_sound (keys : Keys) (i : ℕ) (n : Node) (h2 : Sound n) : okE Sound1 (setCaptureUnit keys i n) := by
  unfold setCaptureUnit
  extract_lets +onlyGivenNames m5
  have hm5 : Sound m5 := by
    unfold m5
    apply Node.setKeys_sound
    assumption
  clear_value m5
  apply okE_ok
  apply sound1_mk
  refine ite_ind ?_ ?_
  · intro x
    apply Node.setOn_sound
    assumption
  · intro x
    assumption
theorem execSetTimeCapture_sound (l : Line) (s : State) (h0 : Sound s.node) : Good (execSetTimeCapture l s) := by
  unfold execSetTimeCapture
  refine lift_good (fun n hn => ?_) h0
  apply Node.runMulti_sound
  · assumption
  · intro x x x
    apply setCaptureUnit_sound
    assumption
theorem takeUnit_sound (i : ℕ) (n : Node) (h1 : Sound n) : okE Sound1 (takeUnit i n) := by
  unfold takeUnit
  extract_lets +onlyGivenNames m4
  clear_value m4
  extract_lets +onlyGivenNames m5
  clear_value m5
  apply okE_ok
  apply sound1_mk
  apply Node.setOn_sound
  apply Node.setCap_sound
  assumption
theorem execDoTimeTake_sound (l : Line) (s : State) (h0 : Sound s.node) : Good (execDoTimeTake l s) := by
  unfold execDoTimeTake
  refine lift_good (fun n hn => ?_) h0
  apply Node.runMulti_sound
  · assumption
  · intro x x x
    apply takeUnit_sound
    assumption
theorem execCapturePop_sound (_rq : Rq) (v : Word) (s : State) (h0 : Sound s.node) : Good (execCapturePop _rq v s) := by
  unfold execCapturePop
  refine lift_good (fun n hn => ?_) h0
  refine ite_ind ?_ ?_
  · intro x
    apply Node.capPop_sound
    assumption
  · intro x
    assumption
theorem execShowBeat_sound (l : Line) (s : State) (h0 : Sound s.node) : Good (execShowBeat l s) := by
  unfold execShowBeat
  refine lift_good (fun n hn => ?_) h0
  apply Node.runRead_sound
  assumption
theorem execClearBeat_sound (l : Line) (s : State) (h0 : Sound s.node) : Good (execClearBeat l s) := by
  unfold execClearBeat
  refine lift_good (fun n hn => ?_) h0
  apply Node.runWhole_sound
  · assumption
  · intro x x
    apply okE_ok
    apply sound1_mk
    apply Node.setFd_sound
    apply Node.ovrClear_sound
    assumption
theorem execOverrunClear_sound (_rq : Rq) (v : Word) (s : State) (h0 : Sound s.node) : Good (execOverrunClear _rq v s) := by
  unfold execOverrunClear
  refine lift_good (fun n hn => ?_) h0
  refine ite_ind ?_ ?_
  · intro x
    apply Node.ovrClear_sound
    assumption
  · intro x
    assumption
theorem execWatchTime_sound (l : Line) (s : State) (h0 : Sound s.node) : Good (execWatchTime l s) := by
  unfold execWatchTime
  refine lift_good (fun n hn => ?_) h0
  apply Node.runWatch_sound
  assumption
theorem execWatchBeat_sound (l : Line) (s : State) (h0 : Sound s.node) : Good (execWatchBeat l s) := by
  unfold execWatchBeat
  refine lift_good (fun n hn => ?_) h0
  apply Node.runWatch_sound
  assumption
theorem Node.timeReinit_sound (n : Node) (h0 : Sound n) : Sound (Node.timeReinit n) := by
  unfold Node.timeReinit
  extract_lets +onlyGivenNames m3
  have hm3 : Sound m3 := by
    unfold m3
    apply Node.reload_sound
    assumption
  clear_value m3
  extract_lets +onlyGivenNames m5
  have hm5 : Sound m5 := by
    unfold m5
    refine foldl_ok ?_ ?_
    · intro x x x
      extract_lets +onlyGivenNames m9
      have hm9 : Sound m9 := by
        unfold m9
        apply Node.reload_sound
        assumption
      clear_value m9
      apply Node.setCap_sound
      apply Node.putLoc_sound
      assumption
    · assumption
  clear_value m5
  extract_lets +onlyGivenNames m7
  have hm7 : Sound m7 := by
    unfold m7
    apply Node.timeChanged_sound
    · assumption
    · assumption
  clear_value m7
  refine ite_ind ?_ ?_
  · intro x
    assumption
  · intro x
    apply Node.servoTo_sound
    assumption
theorem execDoTimeReinit_sound (l : Line) (s : State) (h0 : Sound s.node) : Good (execDoTimeReinit l s) := by
  unfold execDoTimeReinit
  refine lift_good (fun n hn => ?_) h0
  apply Node.runOpen_sound
  · assumption
  · intro x x
    refine okE_bind ?_
    intro x x
    refine okE_bind ?_
    intro x x
    refine okE_bind ?_
    intro x x
    apply okE_pure
    apply Node.startMr_sound
    assumption
theorem Node.readQns_sound (n : Node) (rq : Rq) (m : Moment) (h0 : Sound n) : Sound (Node.readQns n rq m) := by
  unfold Node.readQns
  extract_lets +onlyGivenNames m5
  clear_value m5
  extract_lets +onlyGivenNames m6
  have hm6 : Sound m6 := by
    unfold m6
    apply Node.setLat_sound
    apply Node.setLat_sound
    assumption
  clear_value m6
  refine sound_mk ?_ rfl rfl rfl
  assumption
theorem execTimeQnsRead_sound (rq : Rq) (m : Moment) (s : State) (h0 : Sound s.node) : Good (execTimeQnsRead rq m s) := by
  unfold execTimeQnsRead
  refine lift_good (fun n hn => ?_) h0
  refine ite_ind ?_ ?_
  · intro x
    apply Node.readQns_sound
    assumption
  · intro x
    assumption
end Sys2Proof.Machine
end

