-- ==== Sys2Proof/Laws/SoundArc.lean ====
section
/-! SUPPORT. Every operation and every meaning of Machine/Arc.lean keeps `Sound`. -/
set_option linter.unusedVariables false
namespace Sys2Proof.Machine
theorem Node.putHeader_sound (n : Node) (p : ℕ) (ty : ℕ) (acc : ℕ) (h0 : Sound n) : Sound (Node.putHeader n p ty acc) := by
  unfold Node.putHeader
  apply Node.setBytes_sound
  assumption
theorem Node.chg_sound (n : Node) (k : ℕ) (h0 : Sound n) : Sound (Node.chg n k) := by
  unfold Node.chg
  apply Node.wr_sound
  assumption
theorem Node.startPage_sound (n : Node) (p : ℕ) (acc : ℕ) (h0 : Sound n) : Sound (Node.startPage n p acc) := by
  unfold Node.startPage
  extract_lets +onlyGivenNames m5
  clear_value m5
  extract_lets +onlyGivenNames m6
  have hm6 : Sound m6 := by
    unfold m6
    apply Node.putHeader_sound
    assumption
  clear_value m6
  extract_lets +onlyGivenNames m8
  have hm8 : Sound m8 := by
    unfold m8
    apply Node.wr_sound
    assumption
  clear_value m8
  extract_lets +onlyGivenNames m10
  extract_lets +onlyGivenNames m11
  have hm11 : Sound m11 := by
    unfold m11
    refine sound_mk ?_ rfl rfl rfl
    assumption
  clear_value m11
  extract_lets +onlyGivenNames m13
  have hm13 : Sound m13 := by
    unfold m13
    refine ite_ind ?_ ?_
    · intro x
      apply Node.setOn_sound
      apply Node.ring_sound
      apply Node.chg_sound
      assumption
    · intro x
      assumption
  clear_value m13
  refine ite_ind ?_ ?_
  · intro x
    apply Node.setFd_sound
    assumption
  · intro x
    assumption
theorem Node.watchArc_sound (n : Node) (items : List Item) (h0 : Sound n) : Sound (Node.watchArc n items) := by
  unfold Node.watchArc
  apply Node.notifyWatch_sound
  assumption
theorem Node.seal_sound (n : Node) (h0 : Sound n) : Sound (Node.seal n) := by
  unfold Node.seal
  extract_lets +onlyGivenNames m3
  have hm3 : Sound m3 := by
    unfold m3
    apply Node.startPage_sound
    assumption
  clear_value m3
  extract_lets +onlyGivenNames m5
  have hm5 : Sound m5 := by
    unfold m5
    apply Node.ring_sound
    apply Node.setOn_sound
    apply Node.setOn_sound
    assumption
  clear_value m5
  apply Node.watchArc_sound
  apply Node.raiseHead_sound
  assumption
theorem Node.updateInPlace_sound (n : Node) (e : Entry) (h0 : Sound n) : Sound (Node.updateInPlace n e) := by
  unfold Node.updateInPlace
  extract_lets +onlyGivenNames m4
  clear_value m4
  apply Node.chg_sound
  apply Node.setBytes_sound
  assumption
theorem Node.committed_sound (n : Node) (a : ℕ) (acc : ℕ) (slot : ℕ) (p : ℕ) (h0 : Sound n) : Sound (Node.committed n a acc slot p) := by
  unfold Node.committed
  extract_lets +onlyGivenNames m7
  extract_lets +onlyGivenNames m8
  have hm8 : Sound m8 := by
    unfold m8
    refine sound_mk ?_ rfl rfl rfl
    assumption
  clear_value m8
  extract_lets +onlyGivenNames m10
  have hm10 : Sound m10 := by
    unfold m10
    apply Node.wr_sound
    apply Node.wr_sound
    assumption
  clear_value m10
  extract_lets +onlyGivenNames m12
  have hm12 : Sound m12 := by
    unfold m12
    refine ite_ind ?_ ?_
    · intro x
      refine ite_ind ?_ ?_
      · intro x
        apply Node.setFd_sound
        assumption
      · intro x
        assumption
    · intro x
      apply Node.wr_sound
      assumption
  clear_value m12
  extract_lets +onlyGivenNames m14
  have hm14 : Sound m14 := by
    unfold m14
    apply Node.setOn_sound
    assumption
  clear_value m14
  refine ite_ind ?_ ?_
  · intro x
    extract_lets +onlyGivenNames m17
    have hm17 : Sound m17 := by
      unfold m17
      apply Node.ring_sound
      assumption
    clear_value m17
    refine sound_mk ?_ rfl rfl rfl
    assumption
  · intro x
    assumption
theorem Node.almCommitted_sound (n : Node) (e : Entry) (acc : ℕ) (h0 : Sound n) : Sound (Node.almCommitted n e acc) := by
  unfold Node.almCommitted
  refine ite_ind ?_ ?_
  · intro x
    assumption
  · intro x
    extract_lets +onlyGivenNames m6
    clear_value m6
    extract_lets +onlyGivenNames m7
    clear_value m7
    extract_lets +onlyGivenNames m8
    clear_value m8
    refine sound_mk ?_ rfl rfl rfl
    assumption
theorem Node.commitNew_sound (n : Node) (e : Entry) (bad : List ℕ) (fresh : Bool) (y4 : ℕ) (h0 : Sound n) : Sound (Node.commitNew n e bad fresh y4) := by
  induction y4 generalizing n bad fresh with
  | zero => exact h0
  | succ k ih =>
    unfold Node.commitNew
    extract_lets +onlyGivenNames a1 a2 a3 a4
    have h4 : Sound a4 := by
      unfold a4
      exact ite_ind (fun _ => Node.startPage_sound _ _ _ h0) (fun _ => h0)
    clear_value a4
    extract_lets +onlyGivenNames a5 a6 a7
    clear_value a5 a6 a7
    split
    · apply Node.raiseHead_sound
      apply ih
      apply Node.watchArc_sound
      apply Node.ring_sound
      apply Node.setOn_sound
      apply Node.spoil_sound
      apply Node.setBytes_sound
      apply Node.setBytes_sound
      exact h4
    · extract_lets +onlyGivenNames a8 a9
      have h9 : Sound a9 := by
        unfold a9
        apply Node.almCommitted_sound
        apply Node.committed_sound
        unfold a8
        exact Node.setBytes_sound _ _ _ h4
      clear_value a9
      refine ite_ind (fun _ => ?_) (fun _ => ite_ind (fun _ => Node.seal_sound _ h9) (fun _ => h9))
      apply Node.watchArc_sound
      apply Node.raiseHead_sound
      apply Node.ring_sound
      apply Node.setOn_sound
      apply Node.setOn_sound
      exact h9
theorem Node.accessionEnd_sound (n : Node) (bad : List ℕ) (h0 : Sound n) : Sound (Node.accessionEnd n bad) := by
  unfold Node.accessionEnd
  refine ite_ind ?_ ?_
  · intro x
    extract_lets +onlyGivenNames m5
    have hm5 : Sound m5 := by
      unfold m5
      apply Node.commitNew_sound
      assumption
    clear_value m5
    apply Node.watchArc_sound
    apply Node.ring_sound
    apply Node.setOn_sound
    apply Node.setOn_sound
    assumption
  · intro x
    assumption
theorem Node.overflowRecord_sound (n : Node) (h0 : Sound n) : Sound (Node.overflowRecord n) := by
  unfold Node.overflowRecord
  split
  · assumption
  · refine ite_ind ?_ ?_
    · intro x
      assumption
    · intro x
      extract_lets +onlyGivenNames m9
      extract_lets +onlyGivenNames m10
      have hm10 : Sound m10 := by
        unfold m10
        refine sound_mk ?_ rfl rfl rfl
        assumption
      clear_value m10
      extract_lets +onlyGivenNames m12
      clear_value m12
      extract_lets +onlyGivenNames m13
      clear_value m13
      extract_lets +onlyGivenNames m14
      have hm14 : Sound m14 := by
        unfold m14
        refine Sound1.h ?_
        apply Node.intake_sound
        assumption
      clear_value m14
      extract_lets +onlyGivenNames m16
      have hm16 : Sound m16 := by
        unfold m16
        apply Node.ring_sound
        apply Node.setOn_sound
        apply Node.setOn_sound
        assumption
      clear_value m16
      apply Node.watchArc_sound
      assumption
theorem Node.writerOp_sound (n : Node) (bad : List ℕ) (h0 : Sound n) : Sound (Node.writerOp n bad) := by
  unfold Node.writerOp
  split
  · assumption
  · extract_lets +onlyGivenNames m10
    clear_value m10
    extract_lets +onlyGivenNames m11
    have hm11 : Sound m11 := by
      unfold m11
      refine sound_mk ?_ rfl rfl rfl
      assumption
    clear_value m11
    extract_lets +onlyGivenNames m13
    have hm13 : Sound m13 := by
      unfold m13
      apply Node.overflowRecord_sound
      assumption
    clear_value m13
    refine ite_ind ?_ ?_
    · intro x
      apply Node.updateInPlace_sound
      assumption
    · intro x
      apply Node.accessionEnd_sound
      apply Node.commitNew_sound
      assumption
theorem Node.writerOps_sound (n : Node) (bad : List ℕ) (y2 : ℕ) (h0 : Sound n) : Sound (Node.writerOps n bad y2) := by
  unfold Node.writerOps
  split
  · assumption
  · refine ite_ind ?_ ?_
    · intro x
      assumption
    · intro x
      apply Node.writerOps_sound
      apply Node.writerOp_sound
      assumption
theorem Node.archiveOff_sound (n : Node) (bad : List ℕ) (h0 : Sound n) : Sound (Node.archiveOff n bad) := by
  unfold Node.archiveOff
  extract_lets +onlyGivenNames m4
  clear_value m4
  extract_lets +onlyGivenNames m5
  clear_value m5
  extract_lets +onlyGivenNames m6
  have hm6 : Sound m6 := by
    unfold m6
    apply Node.overflowRecord_sound
    refine sound_mk ?_ rfl rfl rfl
    assumption
  clear_value m6
  extract_lets +onlyGivenNames m8
  clear_value m8
  extract_lets +onlyGivenNames m9
  clear_value m9
  extract_lets +onlyGivenNames m10
  have hm10 : Sound m10 := by
    unfold m10
    refine sound_mk ?_ rfl rfl rfl
    assumption
  clear_value m10
  extract_lets +onlyGivenNames m12
  have hm12 : Sound m12 := by
    unfold m12
    refine ite_ind ?_ ?_
    · intro x
      apply Node.bump_sound
      assumption
    · intro x
      apply Node.accessionEnd_sound
      apply Node.commitNew_sound
      assumption
  clear_value m12
  extract_lets +onlyGivenNames m14
  have hm14 : Sound m14 := by
    unfold m14
    apply Node.ring_sound
    apply Node.setOn_sound
    apply Node.setFd_sound
    assumption
  clear_value m14
  apply Node.watchArc_sound
  assumption
theorem Node.asOfS6_sound (n : Node) (work : Node → Node) (h0 : Sound n) (h1 : ∀ x0, Sound x0 → Sound (work x0)) : Sound (Node.asOfS6 n work) := by
  unfold Node.asOfS6
  extract_lets +onlyGivenNames m5
  clear_value m5
  extract_lets +onlyGivenNames m6
  clear_value m6
  extract_lets +onlyGivenNames m7
  have hm7 : Sound m7 := by
    unfold m7
    apply_assumption
    refine sound_mk ?_ rfl rfl rfl
    assumption
  clear_value m7
  extract_lets +onlyGivenNames m9
  clear_value m9
  refine sound_mk ?_ rfl rfl rfl
  assumption
theorem Node.writer_sound (n : Node) (bad : List ℕ) (h0 : Sound n) : Sound (Node.writer n bad) := by
  unfold Node.writer
  refine ite_ind ?_ ?_
  · intro x
    assumption
  · intro x
    split
    · apply Node.writerOps_sound
      assumption
    · apply Node.archiveOff_sound
      assumption
    · assumption
theorem Node.tear_sound (n : Node) (dark : Bool) (h0 : Sound n) : Sound (Node.tear n dark) := by
  unfold Node.tear
  split
  · assumption
  · refine ite_ind ?_ ?_
    · intro x
      assumption
    · intro x
      split
      extract_lets +onlyGivenNames m17
      clear_value m17
      extract_lets +onlyGivenNames m18
      have hm18 : Sound m18 := by
        unfold m18
        refine foldl_ok ?_ ?_
        · intro x x x
          apply Node.setBytes_sound
          assumption
        · refine sound2_eq (by assumption) ?_
          apply Node.freshNat_sound
          assumption
      clear_value m18
      split
      · split
        split
        apply Node.setBytes_sound
        refine sound2_eq (by assumption) ?_
        apply Node.fresh_sound
        refine sound2_eq (by assumption) ?_
        apply Node.fresh_sound
        assumption
      · assumption
theorem Node.findEnd_sound (n : Node) (h0 : Sound n) : Sound1 (Node.findEnd n) := by
  unfold Node.findEnd
  split
  · extract_lets +onlyGivenNames m7
    have hm7 : Sound m7 := by
      unfold m7
      apply Node.putHeader_sound
      assumption
    clear_value m7
    apply sound1_mk
    apply Node.wr_sound
    assumption
  · split
    extract_lets +onlyGivenNames m15
    clear_value m15
    extract_lets +onlyGivenNames m16
    have hm16 : Sound m16 := by
      unfold m16
      apply Node.wr_sound
      apply Node.wr_sound
      assumption
    clear_value m16
    extract_lets +onlyGivenNames m18
    have hm18 : Sound m18 := by
      unfold m18
      apply Node.wr_sound
      apply Node.wr_sound
      assumption
    clear_value m18
    extract_lets +onlyGivenNames m20
    clear_value m20
    extract_lets +onlyGivenNames m21
    have hm21 : Sound m21 := by
      unfold m21
      refine sound_mk ?_ rfl rfl rfl
      assumption
    clear_value m21
    extract_lets +onlyGivenNames m23
    have hm23 : Sound m23 := by
      unfold m23
      apply Node.setOn_sound
      assumption
    clear_value m23
    apply sound1_mk
    apply Node.setOn_sound
    assumption
theorem Node.resealV0_sound (n : Node) (h0 : Sound n) : Sound (Node.resealV0 n) := by
  unfold Node.resealV0
  extract_lets +onlyGivenNames m3
  have hm3 : Sound m3 := by
    unfold m3
    apply Node.wr_sound
    apply Node.putHeader_sound
    assumption
  clear_value m3
  extract_lets +onlyGivenNames m5
  have hm5 : Sound m5 := by
    unfold m5
    apply Node.setOn_sound
    assumption
  clear_value m5
  refine sound_mk ?_ rfl rfl rfl
  assumption
theorem Node.resealEnd_sound (n : Node) (h0 : Sound n) : Sound (Node.resealEnd n) := by
  unfold Node.resealEnd
  extract_lets +onlyGivenNames m3
  have hm3 : Sound m3 := by
    unfold m3
    apply Node.commitNew_sound
    assumption
  clear_value m3
  extract_lets +onlyGivenNames m5
  clear_value m5
  extract_lets +onlyGivenNames m6
  have hm6 : Sound m6 := by
    unfold m6
    refine sound_mk ?_ rfl rfl rfl
    assumption
  clear_value m6
  extract_lets +onlyGivenNames m8
  have hm8 : Sound m8 := by
    unfold m8
    apply Node.chg_sound
    assumption
  clear_value m8
  extract_lets +onlyGivenNames m10
  have hm10 : Sound m10 := by
    unfold m10
    apply Node.ring_sound
    apply Node.setOn_sound
    apply Node.setOn_sound
    assumption
  clear_value m10
  apply Node.watchArc_sound
  assumption
theorem Node.resealFail_sound (n : Node) (bad : List ℕ) (h0 : Sound n) : Sound (Node.resealFail n bad) := by
  unfold Node.resealFail
  extract_lets +onlyGivenNames m4
  have hm4 : Sound m4 := by
    unfold m4
    refine foldl_ok ?_ ?_
    · intro x x x
      apply Node.spoil_sound
      assumption
    · assumption
  clear_value m4
  extract_lets +onlyGivenNames m6
  clear_value m6
  extract_lets +onlyGivenNames m7
  clear_value m7
  extract_lets +onlyGivenNames m8
  have hm8 : Sound m8 := by
    unfold m8
    refine sound_mk ?_ rfl rfl rfl
    assumption
  clear_value m8
  apply Node.setOn_sound
  apply Node.setOn_sound
  apply Node.chg_sound
  apply Node.wr_sound
  assumption
theorem Node.arcStart_sound (n : Node) (h0 : Sound n) : Sound (Node.arcStart n) := by
  unfold Node.arcStart
  extract_lets +onlyGivenNames m3
  have hm3 : Sound m3 := by
    unfold m3
    apply Node.setFd_sound
    assumption
  clear_value m3
  extract_lets +onlyGivenNames m5
  clear_value m5
  extract_lets +onlyGivenNames m6
  have hm6 : Sound m6 := by
    unfold m6
    refine sound_mk ?_ rfl rfl rfl
    assumption
  clear_value m6
  extract_lets +onlyGivenNames m8
  clear_value m8
  extract_lets +onlyGivenNames m9
  clear_value m9
  split
  extract_lets +onlyGivenNames m16
  clear_value m16
  extract_lets +onlyGivenNames m17
  have hm17 : Sound m17 := by
    unfold m17
    apply Node.setOn_sound
    refine sound_mk ?_ rfl rfl rfl
    refine sound1_eq (by assumption) ?_
    apply Node.findEnd_sound
    assumption
  clear_value m17
  extract_lets +onlyGivenNames m19
  have hm19 : Sound m19 := by
    unfold m19
    apply Node.wr_sound
    assumption
  clear_value m19
  extract_lets +onlyGivenNames m21
  have hm21 : Sound m21 := by
    unfold m21
    refine ite_ind ?_ ?_
    · intro x
      apply Node.resealV0_sound
      apply Node.wr_sound
      apply Node.wr_sound
      assumption
    · intro x
      refine sound1_eq (by assumption) ?_
      apply Node.findEnd_sound
      assumption
  clear_value m21
  extract_lets +onlyGivenNames m23
  have hm23 : Sound m23 := by
    unfold m23
    refine ite_ind ?_ ?_
    · intro x
      apply Node.resealEnd_sound
      apply Node.setFds_sound
      assumption
    · intro x
      assumption
  clear_value m23
  extract_lets +onlyGivenNames m25
  clear_value m25
  extract_lets +onlyGivenNames m26
  have hm26 : Sound m26 := by
    unfold m26
    apply Node.accessionEnd_sound
    refine ite_ind ?_ ?_
    · intro x
      apply Node.seal_sound
      assumption
    · intro x
      assumption
  clear_value m26
  extract_lets +onlyGivenNames m28
  clear_value m28
  extract_lets +onlyGivenNames m29
  clear_value m29
  extract_lets +onlyGivenNames m30
  have hm30 : Sound m30 := by
    unfold m30
    apply Node.raise_sound
    assumption
  clear_value m30
  extract_lets +onlyGivenNames m32
  have hm32 : Sound m32 := by
    unfold m32
    refine foldl_ok ?_ ?_
    · intro x x x
      apply Node.raise_sound
      assumption
    · assumption
  clear_value m32
  extract_lets +onlyGivenNames m34
  clear_value m34
  extract_lets +onlyGivenNames m35
  have hm35 : Sound m35 := by
    unfold m35
    refine sound_mk ?_ rfl rfl rfl
    assumption
  clear_value m35
  refine ite_ind ?_ ?_
  · intro x
    assumption
  · intro x
    apply Node.setFd_sound
    assumption
theorem Node.refill_sound (n : Node) (c : ℕ) (h0 : Sound n) : Sound (Node.refill n c) := by
  unfold Node.refill
  refine sound_mk ?_ rfl rfl rfl
  assumption
theorem setCodeUnit_sound (keys : Keys) (c : ℕ) (n : Node) (h2 : Sound n) : okE Sound1 (setCodeUnit keys c n) := by
  unfold setCodeUnit
  refine okE_bind ?_
  intro x x
  extract_lets +onlyGivenNames m7
  have hm7 : Sound m7 := by
    unfold m7
    apply Node.setKeys_sound
    assumption
  clear_value m7
  apply okE_pure
  apply sound1_mk
  refine ite_ind ?_ ?_
  · intro x
    apply Node.refill_sound
    assumption
  · intro x
    assumption
theorem Node.arcCfgErr_sound (n : Node) (h0 : Sound n) : Sound (Node.arcCfgErr n) := by
  unfold Node.arcCfgErr
  apply Node.ring_sound
  apply Node.setOn_sound
  assumption
theorem Node.codeWrite_sound (n : Node) (c : ℕ) (v : Sys2Proof.Word) (h0 : Sound n) : Sound (Node.codeWrite n c v) := by
  unfold Node.codeWrite
  extract_lets +onlyGivenNames m5
  clear_value m5
  extract_lets +onlyGivenNames m6
  clear_value m6
  extract_lets +onlyGivenNames m7
  clear_value m7
  extract_lets +onlyGivenNames m8
  clear_value m8
  extract_lets +onlyGivenNames m9
  clear_value m9
  refine ite_ind ?_ ?_
  · intro x
    apply Node.arcCfgErr_sound
    assumption
  · intro x
    extract_lets +onlyGivenNames m11
    clear_value m11
    apply Node.dirty_sound
    apply Node.refill_sound
    apply Node.wr_sound
    assumption
theorem Node.arcChanged_sound (old : Node) (n : Node) (h0 : Sound old) (h1 : Sound n) : Sound (Node.arcChanged old n) := by
  unfold Node.arcChanged
  extract_lets +onlyGivenNames m5
  clear_value m5
  extract_lets +onlyGivenNames m6
  clear_value m6
  refine ite_ind ?_ ?_
  · intro x
    apply Node.watchArc_sound
    apply Node.setFd_sound
    assumption
  · intro x
    refine ite_ind ?_ ?_
    · intro x
      refine ite_ind ?_ ?_
      · intro x
        extract_lets +onlyGivenNames m10
        clear_value m10
        extract_lets +onlyGivenNames m11
        have hm11 : Sound m11 := by
          unfold m11
          apply Node.wr_sound
          apply Node.setFd_sound
          assumption
        clear_value m11
        apply Node.watchArc_sound
        apply Node.raiseCmd_sound
        assumption
      · intro x
        apply Node.watchArc_sound
        apply Node.setFd_sound
        assumption
    · intro x
      assumption
theorem execTokenGain_sound (c : Nat) (s : State) (h0 : Sound s.node) : Good (execTokenGain c s) := by
  unfold execTokenGain
  refine lift_good (fun n hn => ?_) h0
  split
  refine ite_ind ?_ ?_
  · intro x
    refine sound_mk ?_ rfl rfl rfl
    assumption
  · intro x
    assumption
theorem Node.checkpoint_sound (n : Node) (h0 : Sound n) : Sound (Node.checkpoint n) := by
  unfold Node.checkpoint
  extract_lets +onlyGivenNames m3
  clear_value m3
  refine sound_mk ?_ rfl rfl rfl
  assumption
theorem execCheckpoint_sound (s : State) (h0 : Sound s.node) : Good (execCheckpoint s) := by
  unfold execCheckpoint
  refine lift_good (fun n hn => ?_) h0
  refine ite_ind ?_ ?_
  · intro x
    apply Node.checkpoint_sound
    assumption
  · intro x
    assumption
theorem Node.setSearch_sound (n : Node) (rq : Rq) (x : Search) (h0 : Sound n) : Sound (Node.setSearch n rq x) := by
  unfold Node.setSearch
  split
  · refine sound_mk ?_ rfl rfl rfl
    assumption
  · refine sound_mk ?_ rfl rfl rfl
    assumption
theorem Node.findStart_sound (n : Node) (rq : Rq) (acc : Sys2Proof.Word) (h0 : Sound n) : Sound (Node.findStart n rq acc) := by
  unfold Node.findStart
  apply Node.setSearch_sound
  assumption
theorem Node.findDone_sound (n : Node) (rq : Rq) (h0 : Sound n) : Sound (Node.findDone n rq) := by
  unfold Node.findDone
  extract_lets +onlyGivenNames m4
  clear_value m4
  refine ite_ind ?_ ?_
  · intro x
    apply Node.setSearch_sound
    assumption
  · intro x
    assumption
theorem execArcFind_sound (rq : Rq) (acc : Word) (s : State) (h0 : Sound s.node) : Good (execArcFind rq acc s) := by
  unfold execArcFind
  refine lift_good (fun n hn => ?_) h0
  refine ite_ind ?_ ?_
  · intro x
    apply Node.findStart_sound
    assumption
  · intro x
    assumption
theorem execArcFindDone_sound (rq : Rq) (s : State) (h0 : Sound s.node) : Good (execArcFindDone rq s) := by
  unfold execArcFindDone
  refine lift_good (fun n hn => ?_) h0
  refine ite_ind ?_ ?_
  · intro x
    apply Node.findDone_sound
    assumption
  · intro x
    assumption
theorem execArcCodeWrite_sound (_rq : Rq) (c : Nat) (v : Word) (s : State) (h0 : Sound s.node) : Good (execArcCodeWrite _rq c v s) := by
  unfold execArcCodeWrite
  refine lift_good (fun n hn => ?_) h0
  refine ite_ind ?_ ?_
  · intro x
    apply Node.codeWrite_sound
    assumption
  · intro x
    assumption
theorem Node.readOpms_sound (n : Node) (rq : Rq) (h0 : Sound n) : Sound (Node.readOpms n rq) := by
  unfold Node.readOpms
  extract_lets +onlyGivenNames m4
  have hm4 : Sound m4 := by
    unfold m4
    apply Node.setLat_sound
    assumption
  clear_value m4
  refine sound_mk ?_ rfl rfl rfl
  assumption
theorem execArcOpmsloRead_sound (rq : Rq) (s : State) (h0 : Sound s.node) : Good (execArcOpmsloRead rq s) := by
  unfold execArcOpmsloRead
  refine lift_good (fun n hn => ?_) h0
  refine ite_ind ?_ ?_
  · intro x
    apply Node.readOpms_sound
    assumption
  · intro x
    assumption
theorem execSetArc_sound (l : Line) (s : State) (h0 : Sound s.node) : Good (execSetArc l s) := by
  unfold execSetArc
  refine lift_good (fun n hn => ?_) h0
  apply Node.runWhole_sound
  · assumption
  · intro x x
    apply okE_ok
    apply sound1_mk
    apply Node.arcChanged_sound
    · assumption
    · apply Node.setKeys_sound
      assumption
theorem execSetArcCode_sound (l : Line) (s : State) (h0 : Sound s.node) : Good (execSetArcCode l s) := by
  unfold execSetArcCode
  refine lift_good (fun n hn => ?_) h0
  apply Node.runMulti_sound
  · assumption
  · intro x x x
    apply setCodeUnit_sound
    assumption
theorem execGetArc_sound (l : Line) (s : State) (h0 : Sound s.node) : Good (execGetArc l s) := by
  unfold execGetArc
  refine lift_good (fun n hn => ?_) h0
  apply Node.runRead_sound
  assumption
theorem execShowArc_sound (l : Line) (s : State) (h0 : Sound s.node) : Good (execShowArc l s) := by
  unfold execShowArc
  refine lift_good (fun n hn => ?_) h0
  apply Node.runRead_sound
  assumption
theorem execShowArcCode_sound (l : Line) (s : State) (h0 : Sound s.node) : Good (execShowArcCode l s) := by
  unfold execShowArcCode
  refine lift_good (fun n hn => ?_) h0
  apply Node.runRead_sound
  assumption
theorem execDoArcLog_sound (l : Line) (s : State) (h0 : Sound s.node) : Good (execDoArcLog l s) := by
  unfold execDoArcLog
  refine lift_good (fun n hn => ?_) h0
  apply Node.runLine_sound
  · assumption
  · intro x x
    refine okE_bind ?_
    intro x x
    refine okE_bind ?_
    intro x x
    extract_lets +onlyGivenNames m12
    clear_value m12
    extract_lets +onlyGivenNames m13
    have hm13 : ∀ x0, okE Sound1 (m13 x0) := by
      unfold m13
      intro x
      refine okE_bind ?_
      intro x x
      split
      apply okE_pure
      apply sound1_mk
      refine sound1_eq (by assumption) ?_
      apply Node.raiseAt_sound
      assumption
    clear_value m13
    extract_lets +onlyGivenNames m15
    have hm15 : ∀ x0, okE Sound1 (m15 x0) := by
      unfold m15
      intro x
      refine okE_bind ?_
      intro x x
      refine ite_ind ?_ ?_
      · intro x
        refine okE_bind ?_
        intro x x
        apply_assumption
      · intro x
        apply_assumption
    clear_value m15
    split
    · refine okE_bind ?_
      intro x x
      apply_assumption
    · refine okE_bind ?_
      intro x x
      apply_assumption
theorem execWatchArc_sound (l : Line) (s : State) (h0 : Sound s.node) : Good (execWatchArc l s) := by
  unfold execWatchArc
  refine lift_good (fun n hn => ?_) h0
  apply Node.runWatch_sound
  assumption
theorem Node.clearPage_sound (n : Node) (j : ℕ) (h0 : Sound n) : Sound (Node.clearPage n j) := by
  unfold Node.clearPage
  extract_lets +onlyGivenNames m4
  clear_value m4
  refine ite_ind ?_ ?_
  · intro x
    assumption
  · intro x
    extract_lets +onlyGivenNames m6
    have hm6 : Sound m6 := by
      unfold m6
      apply Node.chg_sound
      apply Node.putHeader_sound
      assumption
    clear_value m6
    apply Node.setFd_sound
    assumption
theorem Node.clearFail_sound (n : Node) (j : ℕ) (bad : List ℕ) (h0 : Sound n) : Sound (Node.clearFail n j bad) := by
  unfold Node.clearFail
  extract_lets +onlyGivenNames m5
  clear_value m5
  extract_lets +onlyGivenNames m6
  have hm6 : Sound m6 := by
    unfold m6
    refine foldl_ok ?_ ?_
    · intro x x x
      apply Node.spoil_sound
      assumption
    · assumption
  clear_value m6
  apply Node.setFd_sound
  apply Node.chg_sound
  assumption
theorem Node.clearDone_sound (n : Node) (h0 : Sound n) : Sound (Node.clearDone n) := by
  unfold Node.clearDone
  apply Node.watchArc_sound
  apply Node.ring_sound
  apply Node.setOn_sound
  apply Node.setOn_sound
  assumption
theorem execClearArcGallery_sound (l : Line) (s : State) (h0 : Sound s.node) : Good (execClearArcGallery l s) := by
  unfold execClearArcGallery
  refine lift_good (fun n hn => ?_) h0
  apply Node.runOpen_sound
  · assumption
  · intro x x
    refine okE_bind ?_
    intro x x
    refine okE_bind ?_
    intro x x
    extract_lets +onlyGivenNames m12
    have hm12 : Sound m12 := by
      unfold m12
      apply Node.raiseHead_sound
      assumption
    clear_value m12
    extract_lets +onlyGivenNames m14
    extract_lets +onlyGivenNames m15
    have hm15 : Sound m15 := by
      unfold m15
      refine sound_mk ?_ rfl rfl rfl
      assumption
    clear_value m15
    extract_lets +onlyGivenNames m17
    have hm17 : ∀ x0, okE Sound (m17 x0) := by
      unfold m17
      intro x
      refine okE_bind ?_
      intro x x
      refine ite_ind ?_ ?_
      · intro x
        apply okE_pure
        apply Node.replyOk_sound
        assumption
      · intro x
        apply okE_pure
        apply Node.startMr_sound
        apply Node.setOn_sound
        assumption
    clear_value m17
    extract_lets +onlyGivenNames m19
    have hm19 : ∀ x0, okE Sound (m19 x0) := by
      unfold m19
      intro x
      refine ite_ind ?_ ?_
      · intro x
        refine okE_bind ?_
        intro x x
        apply_assumption
      · intro x
        apply_assumption
    clear_value m19
    refine ite_ind ?_ ?_
    · intro x
      refine okE_bind ?_
      intro x x
      apply_assumption
    · intro x
      apply_assumption
theorem Node.runConfirm_sound (n : Node) (l : Line) (what : ℕ) (check : Node → Except Err Unit) (act : Node → Except Err Node) (h0 : Sound n) (h4 : ∀ x0, Sound x0 → okE Sound (act x0)) : Sound (Node.runConfirm n l what check act) := by
  unfold Node.runConfirm
  extract_lets +onlyGivenNames m8
  clear_value m8
  apply Node.runOpen_sound
  · assumption
  · intro x x
    refine okE_bind ?_
    intro x x
    refine okE_bind ?_
    intro x x
    split
    · refine okE_bind ?_
      intro x x
      extract_lets +onlyGivenNames m21
      clear_value m21
      extract_lets +onlyGivenNames m22
      have hm22 : Sound m22 := by
        unfold m22
        refine sound_mk ?_ rfl rfl rfl
        assumption
      clear_value m22
      extract_lets +onlyGivenNames m24
      extract_lets +onlyGivenNames m25
      have hm25 : Sound m25 := by
        unfold m25
        apply Node.setPort_sound
        assumption
      clear_value m25
      apply okE_pure
      apply Node.replyOk_sound
      assumption
    · split
      · exact okE_refuse
      · refine ite_ind ?_ ?_
        · intro x
          exact okE_refuse
        · intro x
          split
          · refine ite_ind ?_ ?_
            · intro x
              refine okE_bind ?_
              intro x x
              apply_assumption
              assumption
            · intro x
              exact okE_refuse
          · exact okE_refuse
theorem Node.reseal0_sound (n : Node) (h0 : Sound n) : Sound (Node.reseal0 n) := by
  unfold Node.reseal0
  extract_lets +onlyGivenNames m3
  clear_value m3
  extract_lets +onlyGivenNames m4
  have hm4 : Sound m4 := by
    unfold m4
    apply Node.chg_sound
    assumption
  clear_value m4
  extract_lets +onlyGivenNames m6
  extract_lets +onlyGivenNames m7
  extract_lets +onlyGivenNames m8
  have hm8 : Sound m8 := by
    unfold m8
    refine sound_mk ?_ rfl rfl rfl
    assumption
  clear_value m8
  apply Node.setOn_sound
  apply Node.setOn_sound
  apply Node.wr_sound
  apply Node.wr_sound
  apply Node.wr_sound
  assumption
theorem execDoArcReseal_sound (l : Line) (s : State) (h0 : Sound s.node) : Good (execDoArcReseal l s) := by
  unfold execDoArcReseal
  refine lift_good (fun n hn => ?_) h0
  apply Node.runConfirm_sound
  · assumption
  · intro x x
    extract_lets +onlyGivenNames m8
    have hm8 : Sound m8 := by
      unfold m8
      apply Node.startMr_sound
      assumption
    clear_value m8
    apply okE_ok
    split
    · refine ite_ind ?_ ?_
      · intro x
        assumption
      · intro x
        apply Node.reseal0_sound
        apply Node.setPort_sound
        assumption
    · assumption
theorem execResealPhase_sound (nvBad : List ℕ) (s : State) (h0 : Sound s.node) : Good (execResealPhase nvBad s) := by
  unfold execResealPhase
  refine lift_good (fun n hn => ?_) h0
  split
  · assumption
  · refine ite_ind ?_ ?_
    · intro x
      assumption
    · intro x
      refine ite_ind ?_ ?_
      · intro x
        apply Node.reseal0_sound
        apply Node.setPort_sound
        assumption
      · intro x
        refine ite_ind ?_ ?_
        · intro x
          assumption
        · intro x
          refine ite_ind ?_ ?_
          · intro x
            refine ite_ind ?_ ?_
            · intro x
              apply Node.failMr_sound
              apply Node.resealFail_sound
              apply Node.putHeader_sound
              assumption
            · intro x
              apply Node.resealV0_sound
              apply Node.setPort_sound
              assumption
          · intro x
            refine ite_ind ?_ ?_
            · intro x
              extract_lets +onlyGivenNames m17
              have hm17 : Sound m17 := by
                unfold m17
                apply Node.setBytes_sound
                apply Node.setBytes_sound
                assumption
              clear_value m17
              apply Node.failMr_sound
              apply Node.resealFail_sound
              assumption
            · intro x
              apply Node.endMr_sound
              apply Node.resealEnd_sound
              apply Node.setPort_sound
              assumption
theorem Node.arcReinit_sound (n : Node) (h0 : Sound n) : Sound (Node.arcReinit n) := by
  unfold Node.arcReinit
  extract_lets +onlyGivenNames m3
  have hm3 : Sound m3 := by
    unfold m3
    apply Node.reload_sound
    assumption
  clear_value m3
  extract_lets +onlyGivenNames m5
  have hm5 : Sound m5 := by
    unfold m5
    refine foldl_ok ?_ ?_
    · intro x x x
      refine ite_ind ?_ ?_
      · intro x
        apply Node.reload_sound
        assumption
      · intro x
        assumption
    · assumption
  clear_value m5
  extract_lets +onlyGivenNames m7
  have hm7 : Sound m7 := by
    unfold m7
    apply Node.arcChanged_sound
    · assumption
    · assumption
  clear_value m7
  refine sound_mk ?_ rfl rfl rfl
  assumption
theorem execDoArcReinit_sound (l : Line) (s : State) (h0 : Sound s.node) : Good (execDoArcReinit l s) := by
  unfold execDoArcReinit
  refine lift_good (fun n hn => ?_) h0
  apply Node.runOpen_sound
  · assumption
  · intro x x
    refine okE_bind ?_
    intro x x
    refine okE_bind ?_
    intro x x
    refine okE_bind ?_
    intro x x
    apply okE_pure
    apply Node.startMr_sound
    assumption
end Sys2Proof.Machine
end

