-- ==== Sys2Proof/Laws/SoundDic.lean ====
section
/-! SUPPORT. Every operation and every meaning of Machine/Dic.lean keeps `Sound`. -/
set_option linter.unusedVariables false
namespace Sys2Proof.Machine
theorem Node.startHold_sound (n : Node) (s : ℕ) (m : Moment) (h0 : Sound n) : Sound (Node.startHold n s m) := by
  unfold Node.startHold
  extract_lets +onlyGivenNames m5
  clear_value m5
  extract_lets +onlyGivenNames m6
  clear_value m6
  refine ite_ind ?_ ?_
  · intro x
    refine sound_mk ?_ rfl rfl rfl
    assumption
  · intro x
    assumption
theorem Node.accept_sound (n : Node) (s ret : Nat) (m : Moment) (h0 : Sound n) (hs : n.dic.stack.length < 16) :
    Sound (n.accept s ret m) := by
  have hk : ∀ (x : Node), (x.startHold s m).dic.stack = x.dic.stack := by
    intro x
    unfold Node.startHold
    extract_lets
    split <;> rfl
  have h1 : Sound (((n.clrBit (Ad.DIC_PEND (s / 32)) (s % 32)).setBit (Ad.DIC_ACT (s / 32)) (s % 32)).startHold s m) := by
    apply Node.startHold_sound
    apply Node.setBit_sound
    apply Node.clrBit_sound
    assumption
  refine ⟨h1.mem, h1.leases, h1.streams, ?_⟩
  unfold Node.accept
  simp only [List.length_cons, hk]
  exact hs
theorem Node.pinEvent_sound (n : Node) (i : ℕ) (h0 : Sound n) : Sound (Node.pinEvent n i) := by
  unfold Node.pinEvent
  apply Node.ring_sound
  refine ite_ind ?_ ?_
  · intro x
    apply Node.setBit_sound
    assumption
  · intro x
    apply Node.setBit_sound
    assumption
theorem Node.pinAgain_sound (n : Node) (src : ℕ) (h0 : Sound n) : Sound (Node.pinAgain n src) := by
  unfold Node.pinAgain
  refine ite_ind ?_ ?_
  · intro x
    apply Node.pinEvent_sound
    assumption
  · intro x
    assumption
theorem Node.stray_sound (n : Node) (s : ℕ) (req : ℕ) (m : Moment) (h0 : Sound n) : Sound (Node.stray n s req m) := by
  unfold Node.stray
  extract_lets +onlyGivenNames m6
  extract_lets +onlyGivenNames m7
  have hm7 : Sound m7 := by
    unfold m7
    refine sound_mk ?_ rfl rfl rfl
    assumption
  clear_value m7
  extract_lets +onlyGivenNames m9
  have hm9 : Sound m9 := by
    unfold m9
    apply Node.setFds_sound
    apply Node.bump_sound
    assumption
  clear_value m9
  extract_lets +onlyGivenNames m11
  clear_value m11
  refine ite_ind ?_ ?_
  · intro x
    apply Node.raiseCmd_sound
    assumption
  · intro x
    apply Node.raiseM_sound
    assumption
theorem Node.complete_sound (n : Node) (rq : Rq) (s : ℕ) (m : Moment) (h0 : Sound n) : Sound (Node.complete n rq s m) := by
  unfold Node.complete
  refine ite_ind ?_ ?_
  · intro x
    assumption
  · intro x
    refine ite_ind ?_ ?_
    · intro x
      apply Node.pinAgain_sound
      apply Node.clrBit_sound
      assumption
    · intro x
      apply Node.stray_sound
      assumption
theorem Node.dicStop_sound (n : Node) (h0 : Sound n) : Sound (Node.dicStop n) := by
  unfold Node.dicStop
  extract_lets +onlyGivenNames live
  clear_value live
  extract_lets +onlyGivenNames x
  have hx : Sound x := by
    unfold x
    refine foldl_ok ?_ ?_
    · intro y k hy
      split
      · assumption
      · apply Node.clrBit_sound
        assumption
    · assumption
  clear_value x
  exact ⟨hx.mem, hx.leases, hx.streams, by simpa using hx.stack⟩
theorem Node.irqNotices_sound (n : Node) (h0 : Sound n) : Sound (Node.irqNotices n) := by
  unfold Node.irqNotices
  extract_lets +onlyGivenNames m3
  clear_value m3
  extract_lets +onlyGivenNames m4
  clear_value m4
  extract_lets +onlyGivenNames m5
  have hm5 : Sound m5 := by
    unfold m5
    refine foldl_ok ?_ ?_
    · intro x x x
      apply Node.notify_sound
      assumption
    · assumption
  clear_value m5
  refine sound_mk ?_ rfl rfl rfl
  assumption
theorem setDicUnit_sound (keys : Keys) (i : ℕ) (n : Node) (h2 : Sound n) : okE Sound1 (setDicUnit keys i n) := by
  unfold setDicUnit
  refine okE_bind ?_
  intro x x
  extract_lets +onlyGivenNames m7
  clear_value m7
  extract_lets +onlyGivenNames m8
  have hm8 : Sound m8 := by
    unfold m8
    apply Node.setKeys_sound
    assumption
  clear_value m8
  apply okE_pure
  apply sound1_mk
  split
  · apply Node.dirty_sound
    apply Node.setFd_sound
    assumption
  · assumption
theorem Node.setMap_sound (n : Node) (starts : ℕ → Bool) (h0 : Sound n) : Sound (Node.setMap n starts) := by
  unfold Node.setMap
  refine foldl_ok ?_ ?_
  · intro x x x
    apply Node.setFd_sound
    assumption
  · assumption
theorem Node.setDic_sound (n : Node) (keys : Keys) (h0 : Sound n) : Sound (Node.setDic n keys) := by
  unfold Node.setDic
  extract_lets +onlyGivenNames m4
  have hm4 : Sound m4 := by
    unfold m4
    apply Node.setKeys_sound
    assumption
  clear_value m4
  extract_lets +onlyGivenNames m6
  have hm6 : Sound m6 := by
    unfold m6
    split
    · apply Node.dirty_sound
      apply Node.setMap_sound
      assumption
    · apply Node.dirty_sound
      apply Node.setMap_sound
      assumption
    · extract_lets +onlyGivenNames m14
      clear_value m14
      apply Node.dirty_sound
      apply Node.setMap_sound
      assumption
    · assumption
  clear_value m6
  extract_lets +onlyGivenNames m8
  have hm8 : Sound m8 := by
    unfold m8
    split
    · apply Node.dirty_sound
      apply Node.setMap_sound
      assumption
    · assumption
  clear_value m8
  refine foldl_ok ?_ ?_
  · intro x x x
    split
    · apply Node.dirty_sound
      apply Node.setFds_sound
      assumption
    · apply Node.dirty_sound
      apply Node.setFds_sound
      assumption
    · assumption
  · assumption
theorem execDoorbellWrite_sound (_rq : Rq) (v : Word) (s : State) (h0 : Sound s.node) : Good (execDoorbellWrite _rq v s) := by
  unfold execDoorbellWrite
  refine lift_good (fun n hn => ?_) h0
  refine ite_ind ?_ ?_
  · intro x
    apply Node.ring_sound
    assumption
  · intro x
    assumption
theorem dicActUnit_sound (action : String) (i : ℕ) (n : Node) (h2 : Sound n) : okE Sound1 (dicActUnit action i n) := by
  unfold dicActUnit
  split
  · apply okE_ok
    apply sound1_mk
    apply Node.ring_sound
    assumption
  · apply okE_ok
    apply sound1_mk
    apply Node.clrBit_sound
    assumption
  · split
    · have hc := Node.clrBit_sound n (Ad.DIC_ACT (i / 32)) (i % 32) h2
      exact okE_ok (sound1_mk (Node.pinAgain_sound _ _ ⟨hc.mem, hc.leases, hc.streams, h2.stack⟩))
    · exact okE_refuse
theorem execDoDicRing_sound (l : Line) (s : State) (h0 : Sound s.node) : Good (execDoDicRing l s) := by
  unfold execDoDicRing
  refine lift_good (fun n hn => ?_) h0
  apply Node.runMulti_sound
  · assumption
  · intro x x x
    apply dicActUnit_sound
    assumption
theorem execDoDicClear_sound (l : Line) (s : State) (h0 : Sound s.node) : Good (execDoDicClear l s) := by
  unfold execDoDicClear
  refine lift_good (fun n hn => ?_) h0
  apply Node.runMulti_sound
  · assumption
  · intro x x x
    apply dicActUnit_sound
    assumption
theorem execDoDicDone_sound (l : Line) (s : State) (h0 : Sound s.node) : Good (execDoDicDone l s) := by
  unfold execDoDicDone
  refine lift_good (fun n hn => ?_) h0
  extract_lets +onlyGivenNames m6
  have hm6 : Sound m6 := by
    unfold m6
    apply Node.runMulti_sound
    · assumption
    · intro x x x
      apply dicActUnit_sound
      assumption
  clear_value m6
  split
  · refine ite_ind ?_ ?_
    · intro x
      apply Node.stray_sound
      assumption
    · intro x
      assumption
  · assumption
theorem execInterruptAcceptance_sound (m : Moment) (s : State) (h0 : Sound s.node) : Good (execInterruptAcceptance m s) := by
  unfold execInterruptAcceptance
  refine lift_good (fun n hn => ?_) h0
  refine ite_ind (fun _ => hn) (fun _ => ?_)
  split
  · rename_i k hk
    refine Node.accept_sound _ _ _ _ hn ?_
    unfold Node.acceptable at hk
    split at hk
    · cases hk
    · omega
  · exact hn
theorem execCompleteWrite_sound (rq : Rq) (v : Word) (m : Moment) (s : State) (h0 : Sound s.node) : Good (execCompleteWrite rq v m s) := by
  unfold execCompleteWrite
  refine lift_good (fun n hn => ?_) h0
  refine ite_ind ?_ ?_
  · intro x
    apply Node.complete_sound
    assumption
  · intro x
    assumption
theorem execDoDicTake_sound (l : Line) (s : State) (h0 : Sound s.node) : Good (execDoDicTake l s) := by
  unfold execDoDicTake
  refine lift_good (fun n hn => ?_) h0
  apply Node.runWhole_sound
  · assumption
  · intro x x
    split
    · apply okE_ok
      apply sound1_mk
      assumption
    · extract_lets +onlyGivenNames m13
      clear_value m13
      extract_lets +onlyGivenNames m14
      have hm14 : Sound m14 := by
        unfold m14
        apply Node.setBit_sound
        apply Node.clrBit_sound
        assumption
      clear_value m14
      extract_lets +onlyGivenNames m16
      extract_lets +onlyGivenNames m17
      extract_lets +onlyGivenNames m18
      have hm18 : Sound m18 := by
        unfold m18
        refine sound_mk ?_ rfl rfl rfl
        assumption
      clear_value m18
      apply okE_ok
      apply sound1_mk
      apply Node.startHold_sound
      assumption
theorem execModerationHoldEnd_sound (g : Nat) (m : Moment) (s : State) (h0 : Sound s.node) : Good (execModerationHoldEnd g m s) := by
  unfold execModerationHoldEnd
  refine lift_good (fun n hn => ?_) h0
  extract_lets +onlyGivenNames m7
  clear_value m7
  refine ite_ind ?_ ?_
  · intro x
    refine sound_mk ?_ rfl rfl rfl
    assumption
  · intro x
    assumption
theorem execGdisWrite_sound (_rq : Rq) (v : Word) (s : State) (h0 : Sound s.node) : Good (execGdisWrite _rq v s) := by
  unfold execGdisWrite
  refine lift_good (fun n hn => ?_) h0
  refine ite_ind ?_ ?_
  · intro x
    apply Node.setFds_sound
    assumption
  · intro x
    assumption
theorem execStrayclrWrite_sound (_rq : Rq) (v : Word) (s : State) (h0 : Sound s.node) : Good (execStrayclrWrite _rq v s) := by
  unfold execStrayclrWrite
  refine lift_good (fun n hn => ?_) h0
  refine ite_ind ?_ ?_
  · intro x
    apply Node.setFd_sound
    assumption
  · intro x
    assumption
theorem execSetDic_sound (l : Line) (s : State) (h0 : Sound s.node) : Good (execSetDic l s) := by
  unfold execSetDic
  refine lift_good (fun n hn => ?_) h0
  split
  · apply Node.runMulti_sound
    · assumption
    · intro x x x
      apply setDicUnit_sound
      assumption
  · apply Node.runWhole_sound
    · assumption
    · intro x x
      apply okE_ok
      apply sound1_mk
      apply Node.setDic_sound
      assumption
theorem execGetDic_sound (l : Line) (s : State) (h0 : Sound s.node) : Good (execGetDic l s) := by
  unfold execGetDic
  refine lift_good (fun n hn => ?_) h0
  apply Node.runRead_sound
  assumption
theorem execShowDic_sound (l : Line) (s : State) (h0 : Sound s.node) : Good (execShowDic l s) := by
  unfold execShowDic
  refine lift_good (fun n hn => ?_) h0
  apply Node.runRead_sound
  assumption
theorem execClearDic_sound (l : Line) (s : State) (h0 : Sound s.node) : Good (execClearDic l s) := by
  unfold execClearDic
  refine lift_good (fun n hn => ?_) h0
  apply Node.runWhole_sound
  · assumption
  · intro x x
    apply okE_ok
    apply sound1_mk
    apply Node.setFd_sound
    assumption
theorem Node.dicReinit_sound (n : Node) (h0 : Sound n) : Sound (Node.dicReinit n) := by
  unfold Node.dicReinit
  apply Node.reloadRegs_sound
  assumption
theorem execDoDicReinit_sound (l : Line) (s : State) (h0 : Sound s.node) : Good (execDoDicReinit l s) := by
  unfold execDoDicReinit
  refine lift_good (fun n hn => ?_) h0
  apply Node.runOpen_sound
  · assumption
  · intro x x
    refine okE_bind ?_
    intro x x
    refine okE_bind ?_
    intro x x
    refine okE_bind ?_
    intro x x
    apply okE_pure
    apply Node.startMr_sound
    assumption
end Sys2Proof.Machine
end

