-- ==== Sys2Proof/Laws/SoundUc.lean ====
section
/-! SUPPORT. Every operation and every meaning of Machine/Uc.lean keeps `Sound`. -/
set_option linter.unusedVariables false
namespace Sys2Proof.Machine
theorem Node.setChan_sound (n : Node) (i : ℕ) (c : Chan) (h0 : Sound n) : Sound (Node.setChan n i c) := by
  unfold Node.setChan
  refine sound_mk ?_ rfl rfl rfl
  assumption
theorem Node.setQuad_sound (n : Node) (k : ℕ) (x : QuadSt) (h0 : Sound n) : Sound (Node.setQuad n k x) := by
  unfold Node.setQuad
  refine sound_mk ?_ rfl rfl rfl
  assumption
theorem Node.putFlags_sound (n : Node) (i : ℕ) (w : Sys2Proof.Word) (h0 : Sound n) : Sound (Node.putFlags n i w) := by
  unfold Node.putFlags
  extract_lets +onlyGivenNames m5
  clear_value m5
  extract_lets +onlyGivenNames m6
  clear_value m6
  refine ite_ind ?_ ?_
  · intro x
    assumption
  · intro x
    extract_lets +onlyGivenNames m8
    clear_value m8
    extract_lets +onlyGivenNames m9
    have hm9 : Sound m9 := by
      unfold m9
      apply Node.setBit_sound
      apply Node.setChan_sound
      assumption
    clear_value m9
    apply Node.notifyWatch_sound
    apply Node.ring_sound
    assumption
theorem Node.owTest_sound (n : Node) (i : ℕ) (failed : Bool) (h0 : Sound n) : Sound (Node.owTest n i failed) := by
  unfold Node.owTest
  extract_lets +onlyGivenNames m5
  clear_value m5
  extract_lets +onlyGivenNames m6
  clear_value m6
  extract_lets +onlyGivenNames m7
  have hm7 : Sound m7 := by
    unfold m7
    apply Node.setChan_sound
    assumption
  clear_value m7
  refine ite_ind ?_ ?_
  · intro x
    apply Node.putFlags_sound
    assumption
  · intro x
    refine ite_ind ?_ ?_
    · intro x
      apply Node.putFlags_sound
      assumption
    · intro x
      assumption
theorem Node.rawIn_sound (n : Node) (i : ℕ) (s : ℕ) (pulse : Bool) (v : ℤ) (excLow : List ℕ) (h0 : Sound n) : Sound (Node.rawIn n i s pulse v excLow) := by
  unfold Node.rawIn
  extract_lets +onlyGivenNames m8
  clear_value m8
  refine ite_ind ?_ ?_
  · intro x
    extract_lets +onlyGivenNames m10
    clear_value m10
    extract_lets +onlyGivenNames m11
    clear_value m11
    apply Node.setChan_sound
    assumption
  · intro x
    apply Node.setChan_sound
    assumption
theorem Node.chunkEnd_sound (n : Node) (i : ℕ) (h0 : Sound n) : Sound (Node.chunkEnd n i) := by
  unfold Node.chunkEnd
  extract_lets +onlyGivenNames m4
  clear_value m4
  extract_lets +onlyGivenNames m5
  clear_value m5
  apply Node.setChan_sound
  assumption
theorem Node.dropWindow_sound (n : Node) (i : ℕ) (h0 : Sound n) : Sound (Node.dropWindow n i) := by
  unfold Node.dropWindow
  extract_lets +onlyGivenNames m4
  clear_value m4
  refine ite_ind ?_ ?_
  · intro x
    assumption
  · intro x
    apply Node.setChan_sound
    assumption
theorem Node.breakWindow_sound (n : Node) (i : ℕ) (h0 : Sound n) : Sound (Node.breakWindow n i) := by
  unfold Node.breakWindow
  extract_lets +onlyGivenNames m4
  clear_value m4
  apply Node.setChan_sound
  assumption
theorem Node.rdyRing_sound (n : Node) (i : ℕ) (h0 : Sound n) : Sound (Node.rdyRing n i) := by
  unfold Node.rdyRing
  refine ite_ind ?_ ?_
  · intro x
    extract_lets +onlyGivenNames m5
    have hm5 : Sound m5 := by
      unfold m5
      apply Node.ring_sound
      assumption
    clear_value m5
    refine sound_mk ?_ rfl rfl rfl
    assumption
  · intro x
    assumption
theorem Node.publish_sound (n : Node) (i : ℕ) (val : Sys2Proof.Word) (phys : Sys2Proof.Word) (flags : Sys2Proof.Word) (h0 : Sound n) : Sound (Node.publish n i val phys flags) := by
  unfold Node.publish
  extract_lets +onlyGivenNames m7
  have hm7 : Sound m7 := by
    unfold m7
    apply Node.wr_sound
    apply Node.wr_sound
    assumption
  clear_value m7
  extract_lets +onlyGivenNames m9
  extract_lets +onlyGivenNames m10
  have hm10 : Sound m10 := by
    unfold m10
    apply Node.setChan_sound
    assumption
  clear_value m10
  extract_lets +onlyGivenNames m12
  have hm12 : Sound m12 := by
    unfold m12
    apply Node.putFlags_sound
    assumption
  clear_value m12
  apply Node.published_sound
  apply Node.rdyRing_sound
  assumption
theorem Node.verify_sound (n : Node) (i : ℕ) (rb : Q) (flags : Sys2Proof.Word) (h0 : Sound n) : Sound2 (Node.verify n i rb flags) := by
  unfold Node.verify
  extract_lets +onlyGivenNames m6
  clear_value m6
  extract_lets +onlyGivenNames m7
  clear_value m7
  extract_lets +onlyGivenNames m8
  clear_value m8
  extract_lets +onlyGivenNames m9
  clear_value m9
  extract_lets +onlyGivenNames m10
  have hm10 : Sound m10 := by
    unfold m10
    apply Node.setChan_sound
    assumption
  clear_value m10
  extract_lets +onlyGivenNames m12
  clear_value m12
  refine ite_ind ?_ ?_
  · intro x
    apply sound2_mk
    refine ite_ind ?_ ?_
    · intro x
      assumption
    · intro x
      apply Node.ring_sound
      assumption
  · intro x
    refine ite_ind ?_ ?_
    · intro x
      apply sound2_mk
      assumption
    · intro x
      apply sound2_mk
      assumption
theorem Node.publishInput_sound (n : Node) (i : ℕ) (mean : Q) (h0 : Sound n) : Sound (Node.publishInput n i mean) := by
  unfold Node.publishInput
  extract_lets +onlyGivenNames m5
  clear_value m5
  extract_lets +onlyGivenNames m6
  clear_value m6
  extract_lets +onlyGivenNames m7
  clear_value m7
  extract_lets +onlyGivenNames m8
  clear_value m8
  extract_lets +onlyGivenNames m9
  clear_value m9
  extract_lets +onlyGivenNames m10
  clear_value m10
  extract_lets +onlyGivenNames m11
  clear_value m11
  extract_lets +onlyGivenNames m12
  clear_value m12
  extract_lets +onlyGivenNames m13
  have hm13 : Sound m13 := by
    unfold m13
    apply Node.setChan_sound
    assumption
  clear_value m13
  apply Node.publish_sound
  assumption
theorem Node.flagsS3_sound (n : Node) (i : ℕ) (h0 : Sound n) : Sound (Node.flagsS3 n i) := by
  unfold Node.flagsS3
  extract_lets +onlyGivenNames m4
  clear_value m4
  extract_lets +onlyGivenNames m5
  have hm5 : Sound m5 := by
    unfold m5
    apply Node.putFlags_sound
    assumption
  clear_value m5
  split
  · apply Node.owTest_sound
    apply Node.setChan_sound
    assumption
  · assumption
theorem Node.chanS3_sound (n : Node) (i : ℕ) (h0 : Sound n) : Sound (Node.chanS3 n i) := by
  unfold Node.chanS3
  extract_lets +onlyGivenNames m4
  have hm4 : Sound m4 := by
    unfold m4
    apply Node.flagsS3_sound
    assumption
  clear_value m4
  extract_lets +onlyGivenNames m6
  clear_value m6
  extract_lets +onlyGivenNames m7
  have hm7 : Sound m7 := by
    unfold m7
    apply Node.setChan_sound
    assumption
  clear_value m7
  extract_lets +onlyGivenNames m9
  have hm9 : Sound m9 := by
    unfold m9
    refine ite_ind ?_ ?_
    · intro x
      apply Node.putFlags_sound
      assumption
    · intro x
      assumption
  clear_value m9
  extract_lets +onlyGivenNames m11
  clear_value m11
  refine ite_ind ?_ ?_
  · intro x
    extract_lets +onlyGivenNames m13
    clear_value m13
    apply Node.publish_sound
    assumption
  · intro x
    refine ite_ind ?_ ?_
    · intro x
      assumption
    · intro x
      split
      · assumption
      · refine ite_ind ?_ ?_
        · intro x
          split
          apply Node.publish_sound
          refine sound2_eq (by assumption) ?_
          apply Node.verify_sound
          assumption
        · intro x
          apply Node.publishInput_sound
          assumption
theorem Node.ucS3_sound (n : Node) (h0 : Sound n) : Sound (Node.ucS3 n) := by
  unfold Node.ucS3
  refine foldl_ok ?_ ?_
  · intro x x x
    apply Node.chanS3_sound
    assumption
  · assumption
theorem Node.pauseMrs_sound (n : Node) (bySurvey : Bool) (h0 : Sound n) : Sound (Node.pauseMrs n bySurvey) := by
  unfold Node.pauseMrs
  refine foldl_ok ?_ ?_
  · intro x x x
    split
    · refine ite_ind ?_ ?_
      · intro x
        assumption
      · intro x
        extract_lets +onlyGivenNames m13
        extract_lets +onlyGivenNames m14
        have hm14 : Sound m14 := by
          unfold m14
          apply Node.setPort_sound
          assumption
        clear_value m14
        extract_lets +onlyGivenNames m16
        clear_value m16
        apply Node.send_sound
        assumption
    · assumption
  · assumption
theorem Node.setNoReserve_sound (n : Node) (k : ℕ) (h0 : Sound n) : Sound (Node.setNoReserve n k) := by
  unfold Node.setNoReserve
  refine foldl_ok ?_ ?_
  · intro x x x
    apply Node.dropWindow_sound
    assumption
  · apply Node.setFd_sound
    assumption
theorem Node.putMig_sound (n : Node) (m : Mig) (h0 : Sound n) : Sound (Node.putMig n m) := by
  unfold Node.putMig
  refine sound_mk ?_ rfl rfl rfl
  assumption
theorem Node.failQuad_sound (n : Node) (k : ℕ) (cause : ℕ) (dev : ℤ) (h0 : Sound n) : Sound (Node.failQuad n k cause dev) := by
  unfold Node.failQuad
  extract_lets +onlyGivenNames m6
  have hm6 : Sound m6 := by
    unfold m6
    apply Node.setQuad_sound
    assumption
  clear_value m6
  extract_lets +onlyGivenNames m8
  have hm8 : Sound m8 := by
    unfold m8
    apply Node.setBit_sound
    assumption
  clear_value m8
  refine ite_ind ?_ ?_
  · intro x
    extract_lets +onlyGivenNames m11
    have hm11 : Sound m11 := by
      unfold m11
      apply Node.setFds_sound
      assumption
    clear_value m11
    extract_lets +onlyGivenNames m13
    have hm13 : Sound m13 := by
      unfold m13
      apply Node.putMig_sound
      assumption
    clear_value m13
    extract_lets +onlyGivenNames m15
    have hm15 : Sound m15 := by
      unfold m15
      refine foldl_ok ?_ ?_
      · intro x x x
        extract_lets +onlyGivenNames m19
        clear_value m19
        refine ite_ind ?_ ?_
        · intro x
          assumption
        · intro x
          extract_lets +onlyGivenNames m21
          have hm21 : Sound m21 := by
            unfold m21
            apply Node.dropWindow_sound
            assumption
          clear_value m21
          apply Node.setChan_sound
          assumption
      · assumption
    clear_value m15
    apply Node.pauseMrs_sound
    apply Node.raise_sound
    assumption
  · intro x
    extract_lets +onlyGivenNames m11
    have hm11 : Sound m11 := by
      unfold m11
      apply Node.setNoReserve_sound
      assumption
    clear_value m11
    extract_lets +onlyGivenNames m13
    have hm13 : Sound m13 := by
      unfold m13
      apply Node.ring_sound
      apply Node.raise_sound
      assumption
    clear_value m13
    apply Node.notify_sound
    assumption
theorem Node.failQx_sound (n : Node) (dev : ℤ) (h0 : Sound n) : Sound (Node.failQx n dev) := by
  unfold Node.failQx
  extract_lets +onlyGivenNames m4
  clear_value m4
  extract_lets +onlyGivenNames m5
  have hm5 : Sound m5 := by
    unfold m5
    apply Node.setQuad_sound
    assumption
  clear_value m5
  extract_lets +onlyGivenNames m7
  have hm7 : Sound m7 := by
    unfold m7
    apply Node.setFds_sound
    apply Node.setBit_sound
    assumption
  clear_value m7
  extract_lets +onlyGivenNames m9
  have hm9 : Sound m9 := by
    unfold m9
    apply Node.raise_sound
    assumption
  clear_value m9
  extract_lets +onlyGivenNames m11
  have hm11 : Sound m11 := by
    unfold m11
    apply Node.notify_sound
    apply Node.ring_sound
    apply Node.ring_sound
    assumption
  clear_value m11
  extract_lets +onlyGivenNames m13
  extract_lets +onlyGivenNames m14
  have hm14 : Sound m14 := by
    unfold m14
    refine sound_mk ?_ rfl rfl rfl
    assumption
  clear_value m14
  refine ite_ind ?_ ?_
  · intro x
    assumption
  · intro x
    extract_lets +onlyGivenNames m17
    clear_value m17
    extract_lets +onlyGivenNames m18
    have hm18 : Sound m18 := by
      unfold m18
      apply Node.setNoReserve_sound
      assumption
    clear_value m18
    extract_lets +onlyGivenNames m20
    have hm20 : Sound m20 := by
      unfold m20
      apply Node.raise_sound
      assumption
    clear_value m20
    apply Node.notify_sound
    assumption
theorem Node.convIn_sound (n : Node) (inp : S0In) (k : ℕ) (h0 : Sound n) : Sound (Node.convIn n inp k) := by
  unfold Node.convIn
  split
  · assumption
  · assumption
  · refine ite_ind ?_ ?_
    · intro x
      assumption
    · intro x
      apply Node.failQuad_sound
      assumption
  · extract_lets +onlyGivenNames m14
    clear_value m14
    refine ite_ind ?_ ?_
    · intro x
      apply Node.setQuad_sound
      assumption
    · intro x
      refine ite_ind ?_ ?_
      · intro x
        refine ite_ind ?_ ?_
        · intro x
          apply Node.setQuad_sound
          assumption
        · intro x
          apply Node.failQx_sound
          assumption
      · intro x
        refine ite_ind ?_ ?_
        · intro x
          apply Node.setQuad_sound
          assumption
        · intro x
          apply Node.failQuad_sound
          assumption
  · extract_lets +onlyGivenNames m13
    clear_value m13
    refine ite_ind ?_ ?_
    · intro x
      apply Node.setQuad_sound
      assumption
    · intro x
      apply Node.failQuad_sound
      assumption
  · apply Node.rawIn_sound
    assumption
  · refine ite_ind ?_ ?_
    · intro x
      apply Node.dropWindow_sound
      assumption
    · intro x
      refine ite_ind ?_ ?_
      · intro x
        assumption
      · intro x
        apply Node.failQuad_sound
        assumption
theorem Node.streamTask_sound (n : Node) (i : ℕ) (s : ℕ) (h0 : Sound n) : Sound1 (Node.streamTask n i s) := by
  unfold Node.streamTask
  extract_lets +onlyGivenNames m5
  clear_value m5
  extract_lets +onlyGivenNames m6
  clear_value m6
  extract_lets +onlyGivenNames m7
  clear_value m7
  refine ite_ind ?_ ?_
  · intro x
    apply sound1_mk
    apply Node.setChan_sound
    assumption
  · intro x
    apply sound1_mk
    assumption
theorem Node.startConv_sound (n : Node) (k : ℕ) (h0 : Sound n) : Sound (Node.startConv n k) := by
  unfold Node.startConv
  extract_lets +onlyGivenNames m4
  clear_value m4
  extract_lets +onlyGivenNames m5
  clear_value m5
  extract_lets +onlyGivenNames m6
  have hm6 : ∀ x0 x1, Sound x0 → Sound (m6 x0 x1) := by
    unfold m6
    intro x x x
    refine sound_mk ?_ rfl rfl rfl
    assumption
  clear_value m6
  refine ite_ind ?_ ?_
  · intro x
    apply_assumption
    assumption
  · intro x
    split
    · split
      apply_assumption
      refine sound1_eq (by assumption) ?_
      apply Node.streamTask_sound
      assumption
    · apply_assumption
      assumption
theorem Node.rampOut_sound (n : Node) (i : ℕ) (h0 : Sound n) : Sound (Node.rampOut n i) := by
  unfold Node.rampOut
  extract_lets +onlyGivenNames m4
  clear_value m4
  refine ite_ind ?_ ?_
  · intro x
    assumption
  · intro x
    extract_lets +onlyGivenNames m6
    clear_value m6
    apply Node.setChan_sound
    assumption
theorem Node.restartChan_sound (n : Node) (i : ℕ) (h0 : Sound n) : Sound (Node.restartChan n i) := by
  unfold Node.restartChan
  extract_lets +onlyGivenNames m4
  clear_value m4
  refine ite_ind ?_ ?_
  · intro x
    assumption
  · intro x
    extract_lets +onlyGivenNames m6
    clear_value m6
    refine ite_ind ?_ ?_
    · intro x
      apply Node.setChan_sound
      assumption
    · intro x
      extract_lets +onlyGivenNames m8
      clear_value m8
      extract_lets +onlyGivenNames m9
      clear_value m9
      extract_lets +onlyGivenNames m10
      have hm10 : Sound m10 := by
        unfold m10
        apply Node.wr_sound
        apply Node.wr_sound
        assumption
      clear_value m10
      extract_lets +onlyGivenNames m12
      have hm12 : Sound m12 := by
        unfold m12
        apply Node.setChan_sound
        assumption
      clear_value m12
      apply Node.putFlags_sound
      assumption
theorem Node.sampleDi_sound (n : Node) (high : List ℕ) (i : ℕ) (h0 : Sound n) : Sound (Node.sampleDi n high i) := by
  unfold Node.sampleDi
  extract_lets +onlyGivenNames m5
  clear_value m5
  refine ite_ind ?_ ?_
  · intro x
    assumption
  · intro x
    extract_lets +onlyGivenNames m7
    clear_value m7
    apply Node.setChan_sound
    assumption
theorem Node.ucS0_sound (n : Node) (inp : S0In) (h0 : Sound n) : Sound (Node.ucS0 n inp) := by
  unfold Node.ucS0
  extract_lets +onlyGivenNames m4
  clear_value m4
  extract_lets +onlyGivenNames m5
  have hm5 : Sound m5 := by
    unfold m5
    refine sound_mk ?_ rfl rfl rfl
    assumption
  clear_value m5
  extract_lets +onlyGivenNames m7
  have hm7 : Sound m7 := by
    unfold m7
    apply Node.wr_sound
    assumption
  clear_value m7
  extract_lets +onlyGivenNames m9
  have hm9 : Sound m9 := by
    unfold m9
    refine foldl_ok ?_ ?_
    · intro x x x
      apply Node.convIn_sound
      assumption
    · assumption
  clear_value m9
  extract_lets +onlyGivenNames m11
  clear_value m11
  extract_lets +onlyGivenNames m12
  have hm12 : Sound m12 := by
    unfold m12
    split
    · apply Node.failQuad_sound
      refine sound_mk ?_ rfl rfl rfl
      assumption
    · assumption
  clear_value m12
  extract_lets +onlyGivenNames m14
  clear_value m14
  extract_lets +onlyGivenNames m15
  have hm15 : Sound m15 := by
    unfold m15
    refine ite_ind ?_ ?_
    · intro x
      refine foldl_ok ?_ ?_
      · intro x x x
        apply Node.breakWindow_sound
        assumption
      · assumption
    · intro x
      assumption
  clear_value m15
  extract_lets +onlyGivenNames m17
  have hm17 : Sound m17 := by
    unfold m17
    refine foldl_ok ?_ ?_
    · intro x x x
      apply Node.restartChan_sound
      assumption
    · assumption
  clear_value m17
  extract_lets +onlyGivenNames m19
  have hm19 : Sound m19 := by
    unfold m19
    refine foldl_ok ?_ ?_
    · intro x x x
      extract_lets +onlyGivenNames m23
      clear_value m23
      extract_lets +onlyGivenNames m24
      have hm24 : Sound m24 := by
        unfold m24
        refine ite_ind ?_ ?_
        · intro x
          apply Node.chunkEnd_sound
          assumption
        · intro x
          assumption
      clear_value m24
      apply Node.sampleDi_sound
      apply Node.rampOut_sound
      assumption
    · assumption
  clear_value m19
  refine foldl_ok ?_ ?_
  · intro x x x
    apply Node.startConv_sound
    assumption
  · assumption
theorem Node.modeDefaults_sound (n : Node) (i : ℕ) (m : ℕ) (h0 : Sound n) : Sound (Node.modeDefaults n i m) := by
  unfold Node.modeDefaults
  extract_lets +onlyGivenNames m5
  have hm5 : Sound m5 := by
    unfold m5
    refine foldl_ok ?_ ?_
    · intro x x x
      apply Node.wr_sound
      assumption
    · assumption
  clear_value m5
  extract_lets +onlyGivenNames m7
  have hm7 : Sound m7 := by
    unfold m7
    apply Node.wr_sound
    assumption
  clear_value m7
  extract_lets +onlyGivenNames m9
  clear_value m9
  split
  · apply Node.wr_sound
    apply Node.wr_sound
    apply Node.wr_sound
    apply Node.wr_sound
    assumption
  · assumption
theorem Node.ucApply_sound (n : Node) (keys : Keys) (i : ℕ) (h0 : Sound n) : Sound (Node.ucApply n keys i) := by
  unfold Node.ucApply
  extract_lets +onlyGivenNames m5
  clear_value m5
  extract_lets +onlyGivenNames m6
  clear_value m6
  extract_lets +onlyGivenNames m7
  have hm7 : Sound m7 := by
    unfold m7
    refine ite_ind ?_ ?_
    · intro x
      apply Node.dirty_sound
      apply Node.modeDefaults_sound
      assumption
    · intro x
      assumption
  clear_value m7
  extract_lets +onlyGivenNames m9
  have hm9 : Sound m9 := by
    unfold m9
    apply Node.setKeys_sound
    assumption
  clear_value m9
  extract_lets +onlyGivenNames m11
  have hm11 : ∀ x0 x1 x2 x3 x4, Sound x0 → Sound (m11 x0 x1 x2 x3 x4) := by
    unfold m11
    intro x x x x x x
    refine ite_ind ?_ ?_
    · intro x
      apply Node.wr_sound
      assumption
    · intro x
      assumption
  clear_value m11
  apply_assumption
  apply_assumption
  assumption
theorem Node.ucChanged_sound (old : Node) (n : Node) (i : ℕ) (h0 : Sound old) (h1 : Sound n) : Sound (Node.ucChanged old n i) := by
  unfold Node.ucChanged
  extract_lets +onlyGivenNames m6
  clear_value m6
  extract_lets +onlyGivenNames m7
  clear_value m7
  extract_lets +onlyGivenNames m8
  have hm8 : Sound m8 := by
    unfold m8
    apply Node.setFd_sound
    assumption
  clear_value m8
  extract_lets +onlyGivenNames m10
  clear_value m10
  extract_lets +onlyGivenNames m11
  clear_value m11
  refine ite_ind ?_ ?_
  · intro x
    assumption
  · intro x
    apply Node.setChan_sound
    assumption
theorem setUcUnit_sound (keys : Keys) (i : ℕ) (n : Node) (h2 : Sound n) : okE Sound1 (setUcUnit keys i n) := by
  unfold setUcUnit
  refine okE_bind ?_
  intro x x
  extract_lets +onlyGivenNames m7
  have hm7 : Sound m7 := by
    unfold m7
    apply Node.ucApply_sound
    assumption
  clear_value m7
  extract_lets +onlyGivenNames m9
  extract_lets +onlyGivenNames m10
  have hm10 : Sound m10 := by
    unfold m10
    refine ite_ind ?_ ?_
    · intro x
      apply Node.setChan_sound
      assumption
    · intro x
      assumption
  clear_value m10
  apply okE_pure
  apply sound1_mk
  apply Node.ucChanged_sound
  · assumption
  · assumption
theorem Node.ucCfgErr_sound (n : Node) (h0 : Sound n) : Sound (Node.ucCfgErr n) := by
  unfold Node.ucCfgErr
  apply Node.ring_sound
  apply Node.setOn_sound
  assumption
theorem Node.readUcVal_sound (n : Node) (rq : Rq) (i : ℕ) (h0 : Sound n) : Sound (Node.readUcVal n rq i) := by
  unfold Node.readUcVal
  extract_lets +onlyGivenNames m5
  have hm5 : Sound m5 := by
    unfold m5
    apply Node.setLat_sound
    assumption
  clear_value m5
  refine sound_mk ?_ rfl rfl rfl
  assumption
theorem execCrossbarSwitch_sound (s : State) (h0 : Sound s.node) : Good (execCrossbarSwitch s) := by
  unfold execCrossbarSwitch
  refine lift_good (fun n hn => ?_) h0
  refine ite_ind ?_ ?_
  · intro x
    refine foldl_ok ?_ ?_
    · intro x x x
      refine foldl_ok ?_ ?_
      · intro x x x
        apply Node.dropWindow_sound
        assumption
      · assumption
    · assumption
  · intro x
    assumption
theorem execQuadMigrated_sound (s : State) (h0 : Sound s.node) : Good (execQuadMigrated s) := by
  unfold execQuadMigrated
  refine lift_good (fun n hn => ?_) h0
  split
  · refine ite_ind ?_ ?_
    · intro x
      extract_lets +onlyGivenNames m11
      extract_lets +onlyGivenNames m12
      have hm12 : Sound m12 := by
        unfold m12
        refine sound_mk ?_ rfl rfl rfl
        assumption
      clear_value m12
      extract_lets +onlyGivenNames m14
      have hm14 : Sound m14 := by
        unfold m14
        apply Node.ring_sound
        apply Node.setBit_sound
        apply Node.setFd_sound
        assumption
      clear_value m14
      extract_lets +onlyGivenNames m16
      have hm16 : Sound m16 := by
        unfold m16
        apply Node.raise_sound
        assumption
      clear_value m16
      apply Node.notify_sound
      assumption
    · intro x
      assumption
  · assumption
theorem execQuadRestored_sound (s : State) (h0 : Sound s.node) : Good (execQuadRestored s) := by
  unfold execQuadRestored
  refine lift_good (fun n hn => ?_) h0
  split
  · refine ite_ind ?_ ?_
    · intro x
      extract_lets +onlyGivenNames m11
      clear_value m11
      extract_lets +onlyGivenNames m12
      clear_value m12
      extract_lets +onlyGivenNames m13
      have hm13 : Sound m13 := by
        unfold m13
        refine sound_mk ?_ rfl rfl rfl
        assumption
      clear_value m13
      extract_lets +onlyGivenNames m15
      clear_value m15
      extract_lets +onlyGivenNames m16
      have hm16 : Sound m16 := by
        unfold m16
        apply Node.setQuad_sound
        assumption
      clear_value m16
      extract_lets +onlyGivenNames m18
      have hm18 : Sound m18 := by
        unfold m18
        apply Node.ring_sound
        apply Node.setBit_sound
        apply Node.setFd_sound
        assumption
      clear_value m18
      extract_lets +onlyGivenNames m20
      have hm20 : Sound m20 := by
        unfold m20
        refine ite_ind ?_ ?_
        · intro x
          apply Node.setFds_sound
          assumption
        · intro x
          assumption
      clear_value m20
      extract_lets +onlyGivenNames m22
      have hm22 : Sound m22 := by
        unfold m22
        apply Node.raise_sound
        assumption
      clear_value m22
      apply Node.notify_sound
      assumption
    · intro x
      assumption
  · assumption
theorem execChannelStale_sound (i : Nat) (s : State) (h0 : Sound s.node) : Good (execChannelStale i s) := by
  unfold execChannelStale
  refine lift_good (fun n hn => ?_) h0
  extract_lets +onlyGivenNames m6
  clear_value m6
  refine ite_ind ?_ ?_
  · intro x
    apply Node.putFlags_sound
    assumption
  · intro x
    assumption
theorem execDiDebounce_sound (i : Nat) (s : State) (h0 : Sound s.node) : Good (execDiDebounce i s) := by
  unfold execDiDebounce
  refine lift_good (fun n hn => ?_) h0
  extract_lets +onlyGivenNames m6
  clear_value m6
  refine ite_ind ?_ ?_
  · intro x
    apply Node.ring_sound
    apply Node.setChan_sound
    assumption
  · intro x
    assumption
theorem execUcDrainComplete_sound (i : Nat) (s : State) (h0 : Sound s.node) : Good (execUcDrainComplete i s) := by
  unfold execUcDrainComplete
  refine lift_good (fun n hn => ?_) h0
  extract_lets +onlyGivenNames m6
  clear_value m6
  refine ite_ind ?_ ?_
  · intro x
    extract_lets +onlyGivenNames m8
    have hm8 : Sound m8 := by
      unfold m8
      apply Node.wr_sound
      apply Node.wr_sound
      assumption
    clear_value m8
    apply Node.setChan_sound
    apply Node.putFlags_sound
    assumption
  · intro x
    assumption
theorem Node.runUc_sound (n : Node) (l : Line) (verb : ℕ) (op : UnitOp) (check : Node → List ℕ → Except Err Unit) (unit : ℕ → Node → Except Err (Node × List (List Item))) (h0 : Sound n) (h5 : ∀ x0 x1, Sound x1 → okE Sound1 (unit x0 x1)) : Sound (Node.runUc n l verb op check unit) := by
  unfold Node.runUc
  split
  · refine ite_ind ?_ ?_
    · intro x
      apply Node.runOpen_sound
      · assumption
      · intro x x
        refine okE_bind ?_
        intro x x
        refine okE_bind ?_
        intro x x
        extract_lets +onlyGivenNames m21
        have hm21 : Sound m21 := by
          unfold m21
          apply Node.startMr_sound
          assumption
        clear_value m21
        apply okE_pure
        split
        · extract_lets +onlyGivenNames m28
          extract_lets +onlyGivenNames m29
          have hm29 : Sound m29 := by
            unfold m29
            apply Node.setPort_sound
            assumption
          clear_value m29
          assumption
        · assumption
    · intro x
      apply Node.runMulti_sound
      · assumption
      · intro x x x
        apply_assumption
        assumption
  · apply Node.runMulti_sound
    · assumption
    · intro x x x
      apply_assumption
      assumption
theorem execSetUc_sound (l : Line) (s : State) (h0 : Sound s.node) : Good (execSetUc l s) := by
  unfold execSetUc
  refine lift_good (fun n hn => ?_) h0
  apply Node.runUc_sound
  · assumption
  · intro x x x
    apply setUcUnit_sound
    assumption
theorem execGetUc_sound (l : Line) (s : State) (h0 : Sound s.node) : Good (execGetUc l s) := by
  unfold execGetUc
  refine lift_good (fun n hn => ?_) h0
  apply Node.runRead_sound
  assumption
theorem execShowUc_sound (l : Line) (s : State) (h0 : Sound s.node) : Good (execShowUc l s) := by
  unfold execShowUc
  refine lift_good (fun n hn => ?_) h0
  apply Node.runRead_sound
  assumption
theorem execShowUcQuad_sound (l : Line) (s : State) (h0 : Sound s.node) : Good (execShowUcQuad l s) := by
  unfold execShowUcQuad
  refine lift_good (fun n hn => ?_) h0
  apply Node.runRead_sound
  assumption
theorem execDoUcQuadFail_sound (l : Line) (s : State) (h0 : Sound s.node) : Good (execDoUcQuadFail l s) := by
  unfold execDoUcQuadFail
  refine lift_good (fun n hn => ?_) h0
  apply Node.runWhole_sound
  · assumption
  · intro x x
    apply okE_ok
    apply sound1_mk
    refine sound_mk ?_ rfl rfl rfl
    assumption
theorem execDoUcQuadRestore_sound (l : Line) (s : State) (h0 : Sound s.node) : Good (execDoUcQuadRestore l s) := by
  unfold execDoUcQuadRestore
  refine lift_good (fun n hn => ?_) h0
  apply Node.runWhole_sound
  · assumption
  · intro x x
    extract_lets +onlyGivenNames m8
    clear_value m8
    extract_lets +onlyGivenNames m9
    have hm9 : Sound m9 := by
      unfold m9
      apply Node.putMig_sound
      assumption
    clear_value m9
    extract_lets +onlyGivenNames m11
    have hm11 : Sound m11 := by
      unfold m11
      refine foldl_ok ?_ ?_
      · intro x x x
        extract_lets +onlyGivenNames m15
        clear_value m15
        refine ite_ind ?_ ?_
        · intro x
          assumption
        · intro x
          apply Node.setChan_sound
          assumption
      · assumption
    clear_value m11
    apply okE_ok
    apply sound1_mk
    apply Node.pauseMrs_sound
    assumption
theorem execSetUcCtab_sound (l : Line) (s : State) (h0 : Sound s.node) : Good (execSetUcCtab l s) := by
  unfold execSetUcCtab
  refine lift_good (fun n hn => ?_) h0
  extract_lets +onlyGivenNames m6
  clear_value m6
  extract_lets +onlyGivenNames m7
  clear_value m7
  extract_lets +onlyGivenNames m8
  have hm8 : ∀ x0, Sound x0 → Sound (m8 x0) := by
    unfold m8
    intro x x
    extract_lets +onlyGivenNames m11
    have hm11 : Sound m11 := by
      unfold m11
      split
      · apply Node.setFd_sound
        assumption
      · assumption
    clear_value m11
    split
    · apply Node.wr_sound
      apply Node.wr_sound
      assumption
    · assumption
  clear_value m8
  apply Node.runWhole_sound
  · assumption
  · intro x x
    apply okE_ok
    apply sound1_mk
    apply Node.dirty_sound
    apply_assumption
    assumption
theorem execWatchUc_sound (l : Line) (s : State) (h0 : Sound s.node) : Good (execWatchUc l s) := by
  unfold execWatchUc
  refine lift_good (fun n hn => ?_) h0
  apply Node.runWatch_sound
  assumption
theorem execStreamUc_sound (l : Line) (s : State) (h0 : Sound s.node) : Good (execStreamUc l s) := by
  unfold execStreamUc
  refine lift_good (fun n hn => ?_) h0
  apply Node.runStream_sound
  assumption
theorem Node.ucReinit_sound (n : Node) (i : ℕ) (h0 : Sound n) : Sound (Node.ucReinit n i) := by
  unfold Node.ucReinit
  refine ite_ind ?_ ?_
  · intro x
    apply Node.reloadRegs_sound
    assumption
  · intro x
    extract_lets +onlyGivenNames m5
    clear_value m5
    extract_lets +onlyGivenNames m6
    have hm6 : Sound m6 := by
      unfold m6
      apply Node.reload_sound
      assumption
    clear_value m6
    extract_lets +onlyGivenNames m8
    have hm8 : Sound m8 := by
      unfold m8
      refine ite_ind ?_ ?_
      · intro x
        assumption
      · intro x
        apply Node.ucCfgErr_sound
        apply Node.modeDefaults_sound
        apply Node.wr_sound
        assumption
    clear_value m8
    extract_lets +onlyGivenNames m10
    have hm10 : Sound m10 := by
      unfold m10
      apply Node.ucChanged_sound
      · assumption
      · assumption
    clear_value m10
    refine ite_ind ?_ ?_
    · intro x
      assumption
    · intro x
      apply Node.setChan_sound
      assumption
theorem execDoUcReinit_sound (l : Line) (s : State) (h0 : Sound s.node) : Good (execDoUcReinit l s) := by
  unfold execDoUcReinit
  refine lift_good (fun n hn => ?_) h0
  extract_lets +onlyGivenNames m6
  clear_value m6
  split
  · apply Node.runOpen_sound
    · assumption
    · intro x x
      refine okE_bind ?_
      intro x x
      refine okE_bind ?_
      intro x x
      refine okE_bind ?_
      intro x x
      apply okE_pure
      apply Node.startMr_sound
      assumption
  · apply Node.runOpen_sound
    · assumption
    · intro x x
      refine okE_bind ?_
      intro x x
      refine okE_bind ?_
      intro x x
      apply okE_pure
      apply Node.startMr_sound
      assumption
theorem execUcValRead_sound (rq : Rq) (i : Nat) (s : State) (h0 : Sound s.node) : Good (execUcValRead rq i s) := by
  unfold execUcValRead
  refine lift_good (fun n hn => ?_) h0
  refine ite_ind ?_ ?_
  · intro x
    apply Node.readUcVal_sound
    assumption
  · intro x
    assumption
theorem Node.ucHostLoss_sound (n : Node) (h0 : Sound n) : Sound (Node.ucHostLoss n) := by
  unfold Node.ucHostLoss
  refine foldl_ok ?_ ?_
  · intro x x x
    extract_lets +onlyGivenNames m6
    clear_value m6
    refine ite_ind ?_ ?_
    · intro x
      apply Node.setChan_sound
      assumption
    · intro x
      assumption
  · assumption
theorem Node.ucPowerFail_sound (n : Node) (h0 : Sound n) : Sound (Node.ucPowerFail n) := by
  unfold Node.ucPowerFail
  refine foldl_ok ?_ ?_
  · intro x x x
    extract_lets +onlyGivenNames m6
    clear_value m6
    refine ite_ind ?_ ?_
    · intro x
      apply Node.setChan_sound
      assumption
    · intro x
      refine ite_ind ?_ ?_
      · intro x
        apply Node.setChan_sound
        assumption
      · intro x
        assumption
  · assumption
theorem Node.ucQuietEdge_sound (n : Node) (h0 : Sound n) : Sound (Node.ucQuietEdge n) := by
  unfold Node.ucQuietEdge
  refine foldl_ok ?_ ?_
  · intro x x x
    refine ite_ind ?_ ?_
    · intro x
      apply Node.dropWindow_sound
      assumption
    · intro x
      assumption
  · assumption
theorem Node.ucWake_sound (n : Node) (h0 : Sound n) : Sound (Node.ucWake n) := by
  unfold Node.ucWake
  refine foldl_ok ?_ ?_
  · intro x x x
    extract_lets +onlyGivenNames m6
    clear_value m6
    apply Node.setChan_sound
    assumption
  · refine sound_mk ?_ rfl rfl rfl
    assumption
end Sys2Proof.Machine
end

