-- ==== Sys2Proof/Laws/SoundLo.lean ====
section
/-! SUPPORT. Every operation and every meaning of Machine/Lo.lean keeps `Sound`. -/
set_option linter.unusedVariables false
namespace Sys2Proof.Machine
theorem Node.setLoop_sound (n : Node) (i : ℕ) (c : LoCh) (h0 : Sound n) : Sound (Node.setLoop n i c) := by
  unfold Node.setLoop
  refine sound_mk ?_ rfl rfl rfl
  assumption
theorem Node.loNote_sound (old : Node) (n : Node) (i : ℕ) (h0 : Sound old) (h1 : Sound n) : Sound (Node.loNote old n i) := by
  unfold Node.loNote
  refine ite_ind ?_ ?_
  · intro x
    assumption
  · intro x
    apply Node.notifyWatch_sound
    assumption
theorem Node.loCond_sound (n : Node) (i : ℕ) (cond : ℕ) (f : Fd) (set : Bool) (rb : ℤ) (pin : ℤ) (h0 : Sound n) : Sound (Node.loCond n i cond f set rb pin) := by
  unfold Node.loCond
  refine ite_ind ?_ ?_
  · intro x
    assumption
  · intro x
    extract_lets +onlyGivenNames m10
    have hm10 : Sound m10 := by
      unfold m10
      apply Node.ring_sound
      apply Node.setOn_sound
      assumption
    clear_value m10
    extract_lets +onlyGivenNames m12
    have hm12 : Sound m12 := by
      unfold m12
      refine ite_ind ?_ ?_
      · intro x
        apply Node.setBit_sound
        assumption
      · intro x
        assumption
    clear_value m12
    apply Node.raise_sound
    assumption
theorem Node.loGo_sound (n : Node) (i : ℕ) (goal : Q) (rate : Q) (h0 : Sound n) : Sound (Node.loGo n i goal rate) := by
  unfold Node.loGo
  extract_lets +onlyGivenNames m6
  clear_value m6
  extract_lets +onlyGivenNames m7
  clear_value m7
  apply Node.setOn_sound
  apply Node.setLoop_sound
  assumption
theorem Node.loDrive_sound (n : Node) (i : ℕ) (h0 : Sound n) : Sound (Node.loDrive n i) := by
  unfold Node.loDrive
  extract_lets +onlyGivenNames m4
  clear_value m4
  refine ite_ind ?_ ?_
  · intro x
    assumption
  · intro x
    extract_lets +onlyGivenNames m6
    clear_value m6
    extract_lets +onlyGivenNames m7
    extract_lets +onlyGivenNames m8
    clear_value m8
    extract_lets +onlyGivenNames m9
    have hm9 : Sound m9 := by
      unfold m9
      apply Node.setLoop_sound
      assumption
    clear_value m9
    apply Node.setOn_sound
    apply Node.setFd_sound
    assumption
theorem Node.loHold_sound (n : Node) (i : ℕ) (head : Q) (h0 : Sound n) : Sound (Node.loHold n i head) := by
  unfold Node.loHold
  extract_lets +onlyGivenNames m5
  clear_value m5
  extract_lets +onlyGivenNames m6
  clear_value m6
  extract_lets +onlyGivenNames m7
  clear_value m7
  extract_lets +onlyGivenNames m8
  have hm8 : Sound m8 := by
    unfold m8
    apply Node.setLoop_sound
    assumption
  clear_value m8
  refine ite_ind ?_ ?_
  · intro x
    refine ite_ind ?_ ?_
    · intro x
      apply Node.setOn_sound
      apply Node.setLoop_sound
      assumption
    · intro x
      assumption
  · intro x
    refine ite_ind ?_ ?_
    · intro x
      apply Node.setOn_sound
      assumption
    · intro x
      assumption
theorem Node.loEval_sound (n : Node) (i : ℕ) (rb : ℤ) (pin : ℤ) (head : Q) (h0 : Sound n) : Sound (Node.loEval n i rb pin head) := by
  unfold Node.loEval
  extract_lets +onlyGivenNames m7
  clear_value m7
  extract_lets +onlyGivenNames m8
  have hm8 : Sound m8 := by
    unfold m8
    apply Node.loCond_sound
    assumption
  clear_value m8
  refine ite_ind ?_ ?_
  · intro x
    assumption
  · intro x
    extract_lets +onlyGivenNames m11
    clear_value m11
    extract_lets +onlyGivenNames m12
    clear_value m12
    extract_lets +onlyGivenNames m13
    clear_value m13
    extract_lets +onlyGivenNames m14
    have hm14 : Sound m14 := by
      unfold m14
      apply Node.setLoop_sound
      assumption
    clear_value m14
    extract_lets +onlyGivenNames m16
    have hm16 : Sound m16 := by
      unfold m16
      refine ite_ind ?_ ?_
      · intro x
        apply Node.loCond_sound
        assumption
      · intro x
        refine ite_ind ?_ ?_
        · intro x
          apply Node.loCond_sound
          assumption
        · intro x
          assumption
    clear_value m16
    refine ite_ind ?_ ?_
    · intro x
      assumption
    · intro x
      extract_lets +onlyGivenNames m19
      clear_value m19
      extract_lets +onlyGivenNames m20
      have hm20 : Sound m20 := by
        unfold m20
        apply Node.setLoop_sound
        assumption
      clear_value m20
      extract_lets +onlyGivenNames m22
      have hm22 : Sound m22 := by
        unfold m22
        refine ite_ind ?_ ?_
        · intro x
          apply Node.loCond_sound
          assumption
        · intro x
          refine ite_ind ?_ ?_
          · intro x
            apply Node.loCond_sound
            assumption
          · intro x
            assumption
      clear_value m22
      refine ite_ind ?_ ?_
      · intro x
        assumption
      · intro x
        extract_lets +onlyGivenNames m25
        clear_value m25
        extract_lets +onlyGivenNames m26
        clear_value m26
        extract_lets +onlyGivenNames m27
        have hm27 : Sound m27 := by
          unfold m27
          apply Node.setLoop_sound
          assumption
        clear_value m27
        refine ite_ind ?_ ?_
        · intro x
          apply Node.loCond_sound
          assumption
        · intro x
          refine ite_ind ?_ ?_
          · intro x
            apply Node.loCond_sound
            assumption
          · intro x
            assumption
theorem Node.loCheck_sound (n : Node) (i : ℕ) (inp : LoIn) (h0 : Sound n) : Sound (Node.loCheck n i inp) := by
  unfold Node.loCheck
  extract_lets +onlyGivenNames m5
  clear_value m5
  refine ite_ind ?_ ?_
  · intro x
    assumption
  · intro x
    extract_lets +onlyGivenNames m7
    have hm7 : Sound m7 := by
      unfold m7
      assumption
    clear_value m7
    extract_lets +onlyGivenNames m9
    clear_value m9
    extract_lets +onlyGivenNames m10
    clear_value m10
    extract_lets +onlyGivenNames m11
    have hm11 : Sound m11 := by
      unfold m11
      apply Node.wr_sound
      apply Node.wr_sound
      assumption
    clear_value m11
    extract_lets +onlyGivenNames m13
    have hm13 : Sound m13 := by
      unfold m13
      apply Node.wr_sound
      apply Node.wr_sound
      assumption
    clear_value m13
    extract_lets +onlyGivenNames m15
    have hm15 : Sound m15 := by
      unfold m15
      apply Node.setFd_sound
      assumption
    clear_value m15
    extract_lets +onlyGivenNames m17
    have hm17 : Sound m17 := by
      unfold m17
      apply Node.loHold_sound
      apply Node.loEval_sound
      assumption
    clear_value m17
    extract_lets +onlyGivenNames m19
    extract_lets +onlyGivenNames m20
    have hm20 : Sound m20 := by
      unfold m20
      refine ite_ind ?_ ?_
      · intro x
        apply Node.setLoop_sound
        assumption
      · intro x
        assumption
    clear_value m20
    apply Node.published_sound
    apply Node.loNote_sound
    · assumption
    · assumption
theorem Node.loUnverified_sound (n : Node) (set : Bool) (h0 : Sound n) : Sound (Node.loUnverified n set) := by
  unfold Node.loUnverified
  extract_lets +onlyGivenNames m4
  have hm4 : Sound m4 := by
    unfold m4
    refine foldl_ok ?_ ?_
    · intro x x x
      apply Node.loNote_sound
      · assumption
      · apply Node.ring_sound
        apply Node.setOn_sound
        assumption
    · assumption
  clear_value m4
  extract_lets +onlyGivenNames m6
  have hm6 : Sound m6 := by
    unfold m6
    apply Node.setOn_sound
    assumption
  clear_value m6
  extract_lets +onlyGivenNames m8
  have hm8 : Sound m8 := by
    unfold m8
    refine ite_ind ?_ ?_
    · intro x
      apply Node.setOn_sound
      assumption
    · intro x
      assumption
  clear_value m8
  apply Node.raise_sound
  assumption
theorem Node.loSelf_sound (n : Node) (dev : ℤ) (h0 : Sound n) : Sound (Node.loSelf n dev) := by
  unfold Node.loSelf
  extract_lets +onlyGivenNames m4
  extract_lets +onlyGivenNames m5
  have hm5 : Sound m5 := by
    unfold m5
    apply Node.setFd_sound
    assumption
  clear_value m5
  extract_lets +onlyGivenNames m7
  extract_lets +onlyGivenNames m8
  have hm8 : Sound m8 := by
    unfold m8
    refine sound_mk ?_ rfl rfl rfl
    assumption
  clear_value m8
  refine ite_ind ?_ ?_
  · intro x
    apply Node.loUnverified_sound
    assumption
  · intro x
    refine ite_ind ?_ ?_
    · intro x
      apply Node.loUnverified_sound
      assumption
    · intro x
      assumption
theorem Node.loS0_sound (n : Node) (h0 : Sound n) : Sound (Node.loS0 n) := by
  unfold Node.loS0
  extract_lets +onlyGivenNames m3
  clear_value m3
  refine ite_ind ?_ ?_
  · intro x
    extract_lets +onlyGivenNames m5
    clear_value m5
    apply Node.setLoop_sound
    assumption
  · intro x
    assumption
theorem Node.loS5_sound (n : Node) (inp : LoIn) (h0 : Sound n) : Sound (Node.loS5 n inp) := by
  unfold Node.loS5
  extract_lets +onlyGivenNames m4
  clear_value m4
  extract_lets +onlyGivenNames m5
  have hm5 : Sound m5 := by
    unfold m5
    refine ite_ind ?_ ?_
    · intro x
      apply Node.loCheck_sound
      assumption
    · intro x
      refine ite_ind ?_ ?_
      · intro x
        apply Node.loSelf_sound
        assumption
      · intro x
        assumption
  clear_value m5
  refine foldl_ok ?_ ?_
  · intro x x x
    apply Node.loDrive_sound
    assumption
  · assumption
theorem Node.loStageOff_sound (n : Node) (i : ℕ) (h0 : Sound n) : Sound (Node.loStageOff n i) := by
  unfold Node.loStageOff
  extract_lets +onlyGivenNames m4
  clear_value m4
  extract_lets +onlyGivenNames m5
  have hm5 : Sound m5 := by
    unfold m5
    apply Node.setLoop_sound
    assumption
  clear_value m5
  apply Node.setFds_sound
  apply Node.setFd_sound
  assumption
theorem Node.loTurnOn_sound (n : Node) (i : ℕ) (m : ℕ) (rate : Q) (h0 : Sound n) : Sound (Node.loTurnOn n i m rate) := by
  unfold Node.loTurnOn
  extract_lets +onlyGivenNames m6
  have hm6 : Sound m6 := by
    unfold m6
    apply Node.loStageOff_sound
    assumption
  clear_value m6
  extract_lets +onlyGivenNames m8
  extract_lets +onlyGivenNames m9
  have hm9 : Sound m9 := by
    unfold m9
    refine ite_ind ?_ ?_
    · intro x
      assumption
    · intro x
      apply Node.setLoop_sound
      assumption
  clear_value m9
  extract_lets +onlyGivenNames m11
  have hm11 : Sound m11 := by
    unfold m11
    apply Node.setFds_sound
    assumption
  clear_value m11
  extract_lets +onlyGivenNames m13
  extract_lets +onlyGivenNames m14
  have hm14 : Sound m14 := by
    unfold m14
    apply Node.setLoop_sound
    assumption
  clear_value m14
  apply Node.loGo_sound
  assumption
theorem Node.loDrain_sound (n : Node) (i : ℕ) (former : ℕ) (h0 : Sound n) : Sound (Node.loDrain n i former) := by
  unfold Node.loDrain
  extract_lets +onlyGivenNames m5
  clear_value m5
  extract_lets +onlyGivenNames m6
  have hm6 : Sound m6 := by
    unfold m6
    apply Node.setFds_sound
    assumption
  clear_value m6
  extract_lets +onlyGivenNames m8
  extract_lets +onlyGivenNames m9
  have hm9 : Sound m9 := by
    unfold m9
    apply Node.setLoop_sound
    assumption
  clear_value m9
  apply Node.loGo_sound
  assumption
theorem Node.loChanged_sound (old : Node) (n : Node) (i : ℕ) (out : Bool) (mode : Bool) (h0 : Sound old) (h1 : Sound n) : Sound (Node.loChanged old n i out mode) := by
  unfold Node.loChanged
  extract_lets +onlyGivenNames m8
  clear_value m8
  extract_lets +onlyGivenNames m9
  clear_value m9
  extract_lets +onlyGivenNames m10
  clear_value m10
  extract_lets +onlyGivenNames m11
  extract_lets +onlyGivenNames m12
  have hm12 : Sound m12 := by
    unfold m12
    refine ite_ind ?_ ?_
    · intro x
      refine ite_ind ?_ ?_
      · intro x
        assumption
      · intro x
        apply Node.loDrain_sound
        assumption
    · intro x
      refine ite_ind ?_ ?_
      · intro x
        apply Node.loTurnOn_sound
        assumption
      · intro x
        refine ite_ind ?_ ?_
        · intro x
          apply Node.loGo_sound
          apply Node.setLoop_sound
          apply Node.setOn_sound
          assumption
        · intro x
          assumption
  clear_value m12
  apply Node.loNote_sound
  · assumption
  · assumption
theorem Node.loHostLoss_sound (n : Node) (h0 : Sound n) : Sound (Node.loHostLoss n) := by
  unfold Node.loHostLoss
  refine foldl_ok ?_ ?_
  · intro x x x
    refine ite_ind ?_ ?_
    · intro x
      assumption
    · intro x
      extract_lets +onlyGivenNames m7
      have hm7 : Sound m7 := by
        unfold m7
        assumption
      clear_value m7
      extract_lets +onlyGivenNames m9
      clear_value m9
      extract_lets +onlyGivenNames m10
      have hm10 : Sound m10 := by
        unfold m10
        apply Node.setOn_sound
        assumption
      clear_value m10
      extract_lets +onlyGivenNames m12
      have hm12 : Sound m12 := by
        unfold m12
        split
        · apply Node.loGo_sound
          apply Node.setLoop_sound
          assumption
        · apply Node.loGo_sound
          apply Node.setLoop_sound
          assumption
        · apply Node.loGo_sound
          apply Node.setLoop_sound
          assumption
      clear_value m12
      apply Node.loNote_sound
      · assumption
      · assumption
  · assumption
theorem Node.loPowerFail_sound (n : Node) (h0 : Sound n) : Sound (Node.loPowerFail n) := by
  unfold Node.loPowerFail
  refine foldl_ok ?_ ?_
  · intro x x x
    extract_lets +onlyGivenNames m6
    clear_value m6
    refine ite_ind ?_ ?_
    · intro x
      assumption
    · intro x
      extract_lets +onlyGivenNames m8
      clear_value m8
      extract_lets +onlyGivenNames m9
      clear_value m9
      extract_lets +onlyGivenNames m10
      clear_value m10
      extract_lets +onlyGivenNames m11
      clear_value m11
      extract_lets +onlyGivenNames m12
      have hm12 : Sound m12 := by
        unfold m12
        apply Node.setLoop_sound
        apply Node.setOn_sound
        assumption
      clear_value m12
      apply Node.loNote_sound
      · assumption
      · apply Node.setOn_sound
        apply Node.loGo_sound
        assumption
  · assumption
theorem Node.loZeroOff_sound (n : Node) (i : ℕ) (h0 : Sound n) : Sound (Node.loZeroOff n i) := by
  unfold Node.loZeroOff
  extract_lets +onlyGivenNames m4
  clear_value m4
  refine ite_ind ?_ ?_
  · intro x
    apply Node.loStageOff_sound
    assumption
  · intro x
    assumption
theorem Node.loPark_sound (n : Node) (h0 : Sound n) : Sound (Node.loPark n) := by
  unfold Node.loPark
  refine foldl_ok ?_ ?_
  · intro x x x
    apply Node.loStageOff_sound
    assumption
  · assumption
theorem Node.loRestart_sound (n : Node) (i : ℕ) (h0 : Sound n) : Sound (Node.loRestart n i) := by
  unfold Node.loRestart
  extract_lets +onlyGivenNames m4
  have hm4 : Sound m4 := by
    unfold m4
    apply Node.setFds_sound
    apply Node.loStageOff_sound
    assumption
  clear_value m4
  extract_lets +onlyGivenNames m6
  clear_value m6
  refine ite_ind ?_ ?_
  · intro x
    assumption
  · intro x
    apply Node.loTurnOn_sound
    apply Node.wr_sound
    assumption
theorem Node.loLoad_sound (n : Node) (h0 : Sound n) : Sound (Node.loLoad n) := by
  unfold Node.loLoad
  refine foldl_ok ?_ ?_
  · intro x x x
    apply Node.loRestart_sound
    assumption
  · assumption
theorem Node.loFreeze_sound (n : Node) (h0 : Sound n) : Sound (Node.loFreeze n) := by
  unfold Node.loFreeze
  refine foldl_ok ?_ ?_
  · intro x x x
    extract_lets +onlyGivenNames m6
    clear_value m6
    refine ite_ind ?_ ?_
    · intro x
      assumption
    · intro x
      apply Node.setLoop_sound
      assumption
  · assumption
theorem Node.loThaw_sound (n : Node) (h0 : Sound n) : Sound (Node.loThaw n) := by
  unfold Node.loThaw
  refine foldl_ok ?_ ?_
  · intro x x x
    extract_lets +onlyGivenNames m6
    clear_value m6
    refine ite_ind ?_ ?_
    · intro x
      assumption
    · intro x
      apply Node.loNote_sound
      · assumption
      · apply Node.loGo_sound
        assumption
  · assumption
theorem execThermalFoldback_sound (i : Nat) (s : State) (h0 : Sound s.node) : Good (execThermalFoldback i s) := by
  unfold execThermalFoldback
  refine lift_good (fun n hn => ?_) h0
  refine ite_ind ?_ ?_
  · intro x
    apply Node.setLoop_sound
    assumption
  · intro x
    assumption
theorem execThermalRelease_sound (i : Nat) (s : State) (h0 : Sound s.node) : Good (execThermalRelease i s) := by
  unfold execThermalRelease
  refine lift_good (fun n hn => ?_) h0
  extract_lets +onlyGivenNames m6
  clear_value m6
  refine ite_ind ?_ ?_
  · intro x
    apply Node.setLoop_sound
    assumption
  · intro x
    assumption
theorem Node.loTellDone_sound (n : Node) (i : ℕ) (h0 : Sound n) : Sound (Node.loTellDone n i) := by
  unfold Node.loTellDone
  extract_lets +onlyGivenNames m4
  clear_value m4
  refine ite_ind ?_ ?_
  · intro x
    assumption
  · intro x
    apply Node.ring_sound
    apply Node.setBit_sound
    apply Node.setLoop_sound
    assumption
theorem execLoActionEnd_sound (i : Nat) (s : State) (h0 : Sound s.node) : Good (execLoActionEnd i s) := by
  unfold execLoActionEnd
  refine lift_good (fun n hn => ?_) h0
  extract_lets +onlyGivenNames m6
  clear_value m6
  refine ite_ind ?_ ?_
  · intro x
    apply Node.loTellDone_sound
    assumption
  · intro x
    assumption
theorem execLoDrainComplete_sound (i : Nat) (s : State) (h0 : Sound s.node) : Good (execLoDrainComplete i s) := by
  unfold execLoDrainComplete
  refine lift_good (fun n hn => ?_) h0
  extract_lets +onlyGivenNames m6
  clear_value m6
  refine ite_ind ?_ ?_
  · intro x
    extract_lets +onlyGivenNames m8
    have hm8 : Sound m8 := by
      unfold m8
      assumption
    clear_value m8
    extract_lets +onlyGivenNames m10
    have hm10 : Sound m10 := by
      unfold m10
      apply Node.setFd_sound
      apply Node.loTellDone_sound
      assumption
    clear_value m10
    extract_lets +onlyGivenNames m12
    have hm12 : Sound m12 := by
      unfold m12
      refine ite_ind ?_ ?_
      · intro x
        apply Node.loStageOff_sound
        assumption
      · intro x
        assumption
    clear_value m12
    apply Node.loNote_sound
    · assumption
    · assumption
  · intro x
    assumption
theorem setLoUnit_sound (keys : Keys) (i : ℕ) (n : Node) (h2 : Sound n) : okE Sound1 (setLoUnit keys i n) := by
  unfold setLoUnit
  refine okE_bind ?_
  intro x x
  apply okE_pure
  apply sound1_mk
  apply Node.loChanged_sound
  · assumption
  · apply Node.setKeys_sound
    assumption
theorem execSetLo_sound (l : Line) (s : State) (h0 : Sound s.node) : Good (execSetLo l s) := by
  unfold execSetLo
  refine lift_good (fun n hn => ?_) h0
  apply Node.runMulti_sound
  · assumption
  · intro x x x
    apply setLoUnit_sound
    assumption
theorem execGetLo_sound (l : Line) (s : State) (h0 : Sound s.node) : Good (execGetLo l s) := by
  unfold execGetLo
  refine lift_good (fun n hn => ?_) h0
  apply Node.runRead_sound
  assumption
theorem execShowLo_sound (l : Line) (s : State) (h0 : Sound s.node) : Good (execShowLo l s) := by
  unfold execShowLo
  refine lift_good (fun n hn => ?_) h0
  apply Node.runRead_sound
  assumption
theorem execShowLoCheck_sound (l : Line) (s : State) (h0 : Sound s.node) : Good (execShowLoCheck l s) := by
  unfold execShowLoCheck
  refine lift_good (fun n hn => ?_) h0
  apply Node.runRead_sound
  assumption
theorem execWatchLo_sound (l : Line) (s : State) (h0 : Sound s.node) : Good (execWatchLo l s) := by
  unfold execWatchLo
  refine lift_good (fun n hn => ?_) h0
  apply Node.runWatch_sound
  assumption
theorem execStreamLo_sound (l : Line) (s : State) (h0 : Sound s.node) : Good (execStreamLo l s) := by
  unfold execStreamLo
  refine lift_good (fun n hn => ?_) h0
  apply Node.runStream_sound
  assumption
theorem clearLoUnit_sound (i : ℕ) (n : Node) (h1 : Sound n) : okE Sound1 (clearLoUnit i n) := by
  unfold clearLoUnit
  apply okE_ok
  apply sound1_mk
  refine foldl_ok ?_ ?_
  · intro x x x
    apply Node.clrBit_sound
    assumption
  · apply Node.clrBit_sound
    assumption
theorem execClearLo_sound (l : Line) (s : State) (h0 : Sound s.node) : Good (execClearLo l s) := by
  unfold execClearLo
  refine lift_good (fun n hn => ?_) h0
  apply Node.runMulti_sound
  · assumption
  · intro x x x
    apply clearLoUnit_sound
    assumption
theorem Node.loCfgErr_sound (n : Node) (i : ℕ) (h0 : Sound n) : Sound (Node.loCfgErr n i) := by
  unfold Node.loCfgErr
  apply Node.ring_sound
  apply Node.setOn_sound
  assumption
theorem Node.loReinit_sound (n : Node) (i : ℕ) (h0 : Sound n) : Sound (Node.loReinit n i) := by
  unfold Node.loReinit
  refine ite_ind ?_ ?_
  · intro x
    apply Node.setFd_sound
    refine sound_mk ?_ rfl rfl rfl
    assumption
  · intro x
    extract_lets +onlyGivenNames m5
    have hm5 : Sound m5 := by
      unfold m5
      assumption
    clear_value m5
    extract_lets +onlyGivenNames m7
    have hm7 : Sound m7 := by
      unfold m7
      apply Node.reload_sound
      assumption
    clear_value m7
    extract_lets +onlyGivenNames m9
    have hm9 : Sound m9 := by
      unfold m9
      refine ite_ind ?_ ?_
      · intro x
        assumption
      · intro x
        apply Node.loCfgErr_sound
        refine foldl_ok ?_ ?_
        · intro x x x
          apply Node.wr_sound
          assumption
        · assumption
    clear_value m9
    extract_lets +onlyGivenNames m11
    have hm11 : Sound m11 := by
      unfold m11
      apply Node.setFds_sound
      assumption
    clear_value m11
    extract_lets +onlyGivenNames m13
    clear_value m13
    extract_lets +onlyGivenNames m14
    have hm14 : Sound m14 := by
      unfold m14
      apply Node.setLoop_sound
      assumption
    clear_value m14
    extract_lets +onlyGivenNames m16
    have hm16 : Sound m16 := by
      unfold m16
      refine ite_ind ?_ ?_
      · intro x
        assumption
      · intro x
        apply Node.loRestart_sound
        assumption
    clear_value m16
    extract_lets +onlyGivenNames m18
    clear_value m18
    apply Node.loNote_sound
    · assumption
    · refine ite_ind ?_ ?_
      · intro x
        apply Node.ring_sound
        assumption
      · intro x
        assumption
theorem execDoLoReinit_sound (l : Line) (s : State) (h0 : Sound s.node) : Good (execDoLoReinit l s) := by
  unfold execDoLoReinit
  refine lift_good (fun n hn => ?_) h0
  apply Node.runOpen_sound
  · assumption
  · intro x x
    extract_lets +onlyGivenNames m8
    have hm8 : ∀ x0, okE Sound (m8 x0) := by
      unfold m8
      intro x
      refine okE_bind ?_
      intro x x
      refine okE_bind ?_
      intro x x
      apply okE_pure
      apply Node.startMr_sound
      assumption
    clear_value m8
    split
    · refine okE_bind ?_
      intro x x
      apply_assumption
    · refine okE_bind ?_
      intro x x
      apply_assumption
theorem Node.readLoRb_sound (n : Node) (rq : Rq) (i : ℕ) (h0 : Sound n) : Sound (Node.readLoRb n rq i) := by
  unfold Node.readLoRb
  extract_lets +onlyGivenNames m5
  have hm5 : Sound m5 := by
    unfold m5
    refine foldl_ok ?_ ?_
    · intro x x x
      apply Node.setLat_sound
      assumption
    · assumption
  clear_value m5
  refine sound_mk ?_ rfl rfl rfl
  assumption
theorem execLoRbRead_sound (rq : Rq) (i : Nat) (s : State) (h0 : Sound s.node) : Good (execLoRbRead rq i s) := by
  unfold execLoRbRead
  refine lift_good (fun n hn => ?_) h0
  refine ite_ind ?_ ?_
  · intro x
    apply Node.readLoRb_sound
    assumption
  · intro x
    assumption
end Sys2Proof.Machine
end

