-- ==== Sys2Proof/Laws/SoundGrid.lean ====
section
/-! SUPPORT. Every operation and every meaning of Machine/Grid.lean keeps `Sound`. -/
set_option linter.unusedVariables false
namespace Sys2Proof.Machine
theorem Node.gridMask_sound (n : Node) (on : List ℕ) (h0 : Sound n) : Sound (Node.gridMask n on) := by
  unfold Node.gridMask
  extract_lets +onlyGivenNames m4
  have hm4 : ∀ x0 x1, Sound x0 → Sound (m4 x0 x1) := by
    unfold m4
    intro x x x
    apply Node.wr_sound
    apply Node.wr_sound
    assumption
  clear_value m4
  extract_lets +onlyGivenNames m6
  have hm6 : Sound m6 := by
    unfold m6
    refine foldl_ok ?_ ?_
    · intro x x x
      apply_assumption
      assumption
    · assumption
  clear_value m6
  refine foldl_ok ?_ ?_
  · intro x x x
    refine foldl_ok ?_ ?_
    · intro x x x
      apply_assumption
      assumption
    · assumption
  · assumption
theorem Node.gridWrite_sound (n : Node) (tk : ℕ) (fq : Option (ℤ × ℤ)) (corr : Option ℤ) (used : ℤ) (ss : List GridSample) (h0 : Sound n) : Sound (Node.gridWrite n tk fq corr used ss) := by
  unfold Node.gridWrite
  extract_lets +onlyGivenNames m8
  clear_value m8
  extract_lets +onlyGivenNames m9
  have hm9 : Sound m9 := by
    unfold m9
    refine foldl_ok ?_ ?_
    · intro x x x
      apply Node.wr_sound
      apply Node.wr_sound
      assumption
    · assumption
  clear_value m9
  extract_lets +onlyGivenNames m11
  have hm11 : Sound m11 := by
    unfold m11
    refine foldl_ok ?_ ?_
    · intro x x x
      extract_lets +onlyGivenNames m15
      clear_value m15
      refine foldl_ok ?_ ?_
      · intro x x x
        split
        extract_lets +onlyGivenNames m22
        clear_value m22
        apply Node.wr_sound
        apply Node.wr_sound
        assumption
      · assumption
    · assumption
  clear_value m11
  split
  · apply Node.wr_sound
    apply Node.wr_sound
    assumption
  · assumption
theorem Node.gridStreams_sound (n : Node) (k : ℕ) (h0 : Sound n) : Sound (Node.gridStreams n k) := by
  unfold Node.gridStreams
  refine ⟨?_, ?_, ?_, ?_⟩
  · (dsimp only; exact Sound.mem (by assumption))
  · (dsimp only; exact Sound.leases (by assumption))
  · (dsimp only; rw [List.length_map]; exact Sound.streams (by assumption))
  · (dsimp only; exact Sound.stack (by assumption))
theorem Node.gridTold_sound (n : Node) (old : Word) (h0 : Sound n) : Sound (Node.gridTold n old) := by
  unfold Node.gridTold
  extract_lets +onlyGivenNames m4
  clear_value m4
  extract_lets +onlyGivenNames m5
  have hm5 : Sound m5 := by
    unfold m5
    refine ite_ind ?_ ?_
    · intro x
      assumption
    · intro x
      apply Node.ring_sound
      apply Node.setOn_sound
      assumption
  clear_value m5
  extract_lets +onlyGivenNames m7
  have hm7 : Sound m7 := by
    unfold m7
    apply Node.ring_sound
    apply Node.setOn_sound
    assumption
  clear_value m7
  extract_lets +onlyGivenNames m9
  have hm9 : Sound m9 := by
    unfold m9
    refine ite_ind ?_ ?_
    · intro x
      assumption
    · intro x
      apply Node.raise_sound
      assumption
  clear_value m9
  extract_lets +onlyGivenNames m11
  have hm11 : Sound m11 := by
    unfold m11
    refine ite_ind ?_ ?_
    · intro x
      apply Node.ring_sound
      apply Node.setOn_sound
      assumption
    · intro x
      assumption
  clear_value m11
  refine ite_ind ?_ ?_
  · intro x
    apply Node.ring_sound
    assumption
  · intro x
    assumption
theorem Node.gridReport_sound (n : Node) (d : GridDue) (h0 : Sound n) : Sound (Node.gridReport n d) := by
  unfold Node.gridReport
  extract_lets +onlyGivenNames m4
  clear_value m4
  extract_lets +onlyGivenNames m5
  clear_value m5
  extract_lets +onlyGivenNames m6
  clear_value m6
  extract_lets +onlyGivenNames m7
  extract_lets +onlyGivenNames m8
  clear_value m8
  extract_lets +onlyGivenNames m9
  clear_value m9
  extract_lets +onlyGivenNames m10
  clear_value m10
  extract_lets +onlyGivenNames m11
  clear_value m11
  extract_lets +onlyGivenNames m12
  clear_value m12
  extract_lets +onlyGivenNames m13
  clear_value m13
  extract_lets +onlyGivenNames m14
  clear_value m14
  extract_lets +onlyGivenNames m15
  clear_value m15
  extract_lets +onlyGivenNames m16
  clear_value m16
  split
  extract_lets +onlyGivenNames m23
  clear_value m23
  extract_lets +onlyGivenNames m24
  extract_lets +onlyGivenNames m25
  clear_value m25
  extract_lets +onlyGivenNames m26
  clear_value m26
  extract_lets +onlyGivenNames m27
  have hm27 : Sound m27 := by
    unfold m27
    apply Node.gridMask_sound
    refine ite_ind ?_ ?_
    · intro x
      assumption
    · intro x
      refine ite_ind ?_ ?_
      · intro x
        apply Node.gridWrite_sound
        assumption
      · intro x
        apply Node.gridWrite_sound
        assumption
  clear_value m27
  extract_lets +onlyGivenNames m29
  clear_value m29
  extract_lets +onlyGivenNames m30
  have hm30 : Sound m30 := by
    unfold m30
    refine sound_mk ?_ rfl rfl rfl
    assumption
  clear_value m30
  extract_lets +onlyGivenNames m32
  have hm32 : Sound m32 := by
    unfold m32
    apply Node.wr_sound
    apply Node.wr_sound
    apply Node.wr_sound
    assumption
  clear_value m32
  extract_lets +onlyGivenNames m34
  have hm34 : Sound m34 := by
    unfold m34
    apply Node.setFds_sound
    assumption
  clear_value m34
  extract_lets +onlyGivenNames m36
  have hm36 : Sound m36 := by
    unfold m36
    refine ite_ind ?_ ?_
    · intro x
      assumption
    · intro x
      apply Node.setFds_sound
      assumption
  clear_value m36
  extract_lets +onlyGivenNames m38
  have hm38 : Sound m38 := by
    unfold m38
    apply Node.setFd_sound
    assumption
  clear_value m38
  apply Node.gridStreams_sound
  apply Node.gridTold_sound
  refine sound_mk ?_ rfl rfl rfl
  assumption
theorem Node.gridS0_sound (n : Node) (h0 : Sound n) : Sound (Node.gridS0 n) := by
  unfold Node.gridS0
  extract_lets +onlyGivenNames m3
  clear_value m3
  extract_lets +onlyGivenNames m4
  clear_value m4
  extract_lets +onlyGivenNames m5
  have hm5 : Sound m5 := by
    unfold m5
    refine ite_ind ?_ ?_
    · intro x
      apply Node.setOn_sound
      refine sound_mk ?_ rfl rfl rfl
      assumption
    · intro x
      refine ite_ind ?_ ?_
      · intro x
        refine sound_mk ?_ rfl rfl rfl
        assumption
      · intro x
        assumption
  clear_value m5
  extract_lets +onlyGivenNames m7
  clear_value m7
  extract_lets +onlyGivenNames m8
  have hm8 : Sound m8 := by
    unfold m8
    refine sound_mk ?_ rfl rfl rfl
    assumption
  clear_value m8
  refine ite_ind ?_ ?_
  · intro x
    apply Node.gridMask_sound
    assumption
  · intro x
    extract_lets +onlyGivenNames m11
    clear_value m11
    refine sound_mk ?_ rfl rfl rfl
    assumption
theorem Node.gridFold_sound (n : Node) (codes : Option (List (List ℤ))) (h0 : Sound n) : Sound (Node.gridFold n codes) := by
  unfold Node.gridFold
  refine ite_ind ?_ ?_
  · intro x
    refine sound_mk ?_ rfl rfl rfl
    assumption
  · intro x
    extract_lets +onlyGivenNames m5
    clear_value m5
    extract_lets +onlyGivenNames m6
    clear_value m6
    refine sound_mk ?_ rfl rfl rfl
    assumption
theorem Node.gridS2_sound (n : Node) (h0 : Sound n) : Sound (Node.gridS2 n) := by
  unfold Node.gridS2
  split
  · assumption
  · extract_lets +onlyGivenNames m8
    clear_value m8
    extract_lets +onlyGivenNames m9
    extract_lets +onlyGivenNames m10
    clear_value m10
    extract_lets +onlyGivenNames m11
    clear_value m11
    extract_lets +onlyGivenNames m12
    have hm12 : Sound m12 := by
      unfold m12
      refine sound_mk ?_ rfl rfl rfl
      assumption
    clear_value m12
    refine foldl_ok ?_ ?_
    · intro x x x
      refine ite_ind ?_ ?_
      · intro x
        apply Node.gridReport_sound
        assumption
      · intro x
        assumption
    · assumption
theorem Node.gridStep_sound (n : Node) (pre : ℕ) (post : ℕ) (h0 : Sound n) : Sound (Node.gridStep n pre post) := by
  unfold Node.gridStep
  refine sound_mk ?_ rfl rfl rfl
  assumption
theorem Node.gridRestart_sound (n : Node) (h0 : Sound n) : Sound (Node.gridRestart n) := by
  unfold Node.gridRestart
  refine sound_mk ?_ rfl rfl rfl
  assumption
theorem Node.gridApply_sound (n : Node) (keys : Keys) (h0 : Sound n) : okO Sound (Node.gridApply n keys) := by
  unfold Node.gridApply
  extract_lets +onlyGivenNames m4
  have hm4 : Sound m4 := by
    unfold m4
    apply Node.setKeys_sound
    assumption
  clear_value m4
  extract_lets +onlyGivenNames m6
  clear_value m6
  split
  · split
    · apply okO_some
      refine ite_ind ?_ ?_
      · intro x
        assumption
      · intro x
        apply Node.dirty_sound
        apply Node.setFd_sound
        assumption
    · exact okO_none
  · refine ite_ind ?_ ?_
    · intro x
      apply okO_some
      assumption
    · intro x
      apply okO_some
      apply Node.setFd_sound
      assumption
theorem setGridUnit_sound (keys : Keys) (i : ℕ) (n : Node) (h2 : Sound n) : okE Sound1 (setGridUnit keys i n) := by
  unfold setGridUnit
  refine okE_bind ?_
  intro x x
  apply okE_pure
  apply sound1_mk
  apply Node.setKeys_sound
  assumption
theorem execSetGrid_sound (l : Line) (s : State) (h0 : Sound s.node) : Good (execSetGrid l s) := by
  unfold execSetGrid
  refine lift_good (fun n hn => ?_) h0
  split
  · apply Node.runMulti_sound
    · assumption
    · intro x x x
      apply setGridUnit_sound
      assumption
  · apply Node.runWhole_sound
    · assumption
    · intro x x
      split
      · apply okE_ok
        apply sound1_mk
        refine okO_eq (by assumption) ?_
        apply Node.gridApply_sound
        assumption
      · exact okE_refuse
theorem execGetGrid_sound (l : Line) (s : State) (h0 : Sound s.node) : Good (execGetGrid l s) := by
  unfold execGetGrid
  refine lift_good (fun n hn => ?_) h0
  apply Node.runRead_sound
  assumption
theorem execShowGrid_sound (l : Line) (s : State) (h0 : Sound s.node) : Good (execShowGrid l s) := by
  unfold execShowGrid
  refine lift_good (fun n hn => ?_) h0
  apply Node.runRead_sound
  assumption
theorem execStreamGrid_sound (l : Line) (s : State) (h0 : Sound s.node) : Good (execStreamGrid l s) := by
  unfold execStreamGrid
  refine lift_good (fun n hn => ?_) h0
  apply Node.runStream_sound
  assumption
theorem Node.gridCfgErr_sound (n : Node) (h0 : Sound n) : Sound (Node.gridCfgErr n) := by
  unfold Node.gridCfgErr
  apply Node.ring_sound
  apply Node.setOn_sound
  assumption
theorem gridChanged_sound (old : Node) (n : Node) (h0 : Sound old) (h1 : Sound n) : Sound (gridChanged old n) := by
  unfold gridChanged
  refine ite_ind ?_ ?_
  · intro x
    apply Node.setFd_sound
    assumption
  · intro x
    assumption
theorem Node.gridReinit_sound (n : Node) (h0 : Sound n) : Sound (Node.gridReinit n) := by
  unfold Node.gridReinit
  extract_lets +onlyGivenNames m3
  have hm3 : Sound m3 := by
    unfold m3
    apply Node.reloadRegs_sound
    assumption
  clear_value m3
  apply Node.gridRestart_sound
  refine ite_ind ?_ ?_
  · intro x
    assumption
  · intro x
    apply Node.gridCfgErr_sound
    refine foldl_ok ?_ ?_
    · intro x x x
      apply Node.wr_sound
      assumption
    · assumption
theorem execDoGridReinit_sound (l : Line) (s : State) (h0 : Sound s.node) : Good (execDoGridReinit l s) := by
  unfold execDoGridReinit
  refine lift_good (fun n hn => ?_) h0
  apply Node.runOpen_sound
  · assumption
  · intro x x
    refine okE_bind ?_
    intro x x
    refine okE_bind ?_
    intro x x
    refine okE_bind ?_
    intro x x
    apply okE_pure
    apply Node.startMr_sound
    assumption
theorem Node.readRepSec_sound (n : Node) (rq : Rq) (h0 : Sound n) : Sound (Node.readRepSec n rq) := by
  unfold Node.readRepSec
  extract_lets +onlyGivenNames m4
  have hm4 : Sound m4 := by
    unfold m4
    refine foldl_ok ?_ ?_
    · intro x x x
      apply Node.setLat_sound
      assumption
    · assumption
  clear_value m4
  refine sound_mk ?_ rfl rfl rfl
  assumption
theorem execGridRepsecRead_sound (rq : Rq) (s : State) (h0 : Sound s.node) : Good (execGridRepsecRead rq s) := by
  unfold execGridRepsecRead
  refine lift_good (fun n hn => ?_) h0
  refine ite_ind ?_ ?_
  · intro x
    apply Node.readRepSec_sound
    assumption
  · intro x
    assumption
end Sys2Proof.Machine
end

