-- ==== Sys2Proof/Laws/SoundTrans.lean ====
section
/-! SUPPORT. Every operation and every meaning of Machine/Trans.lean keeps `Sound`. -/
set_option linter.unusedVariables false
namespace Sys2Proof.Machine
theorem Node.tEnter_sound (n : Node) (k : ℕ) (h0 : Sound n) : Sound (Node.tEnter n k) := by
  unfold Node.tEnter
  apply Node.notifyWatch_sound
  apply Node.setFd_sound
  assumption
theorem Node.writeBlocks_sound (n : Node) (i : ℕ) (y2 : ℕ) (y3 : ℕ) (y4 : List ℤ) (h0 : Sound n) : Sound (Node.writeBlocks n i y2 y3 y4) := by
  unfold Node.writeBlocks
  split
  · assumption
  · extract_lets +onlyGivenNames m11
    clear_value m11
    extract_lets +onlyGivenNames m12
    clear_value m12
    extract_lets +onlyGivenNames m13
    clear_value m13
    extract_lets +onlyGivenNames m14
    clear_value m14
    extract_lets +onlyGivenNames m15
    have hm15 : Sound m15 := by
      unfold m15
      refine ite_ind ?_ ?_
      · intro x
        refine sound_mk ?_ rfl rfl rfl
        assumption
      · intro x
        assumption
    clear_value m15
    extract_lets +onlyGivenNames m17
    have hm17 : Sound m17 := by
      unfold m17
      refine ite_ind ?_ ?_
      · intro x
        apply Node.setBytes_sound
        assumption
      · intro x
        assumption
    clear_value m17
    apply Node.writeBlocks_sound
    assumption
theorem Node.ringWrite_sound (n : Node) (t : ℕ) (hf : List (ℕ × List ℤ)) (h0 : Sound n) : Sound (Node.ringWrite n t hf) := by
  unfold Node.ringWrite
  extract_lets +onlyGivenNames m5
  clear_value m5
  extract_lets +onlyGivenNames m6
  clear_value m6
  refine foldl_ok ?_ ?_
  · intro x x x
    split
    refine ite_ind ?_ ?_
    · intro x
      apply Node.writeBlocks_sound
      assumption
    · intro x
      assumption
  · assumption
theorem Node.tCut_sound (n : Node) (t : ℕ) (h0 : Sound n) : Sound (Node.tCut n t) := by
  unfold Node.tCut
  refine ite_ind ?_ ?_
  · intro x
    refine sound_mk ?_ rfl rfl rfl
    assumption
  · intro x
    assumption
theorem Node.tMasks_sound (n : Node) (h0 : Sound n) : Sound (Node.tMasks n) := by
  unfold Node.tMasks
  extract_lets +onlyGivenNames m3
  clear_value m3
  refine sound_mk ?_ rfl rfl rfl
  assumption
theorem Node.tDiscard_sound (n : Node) (h0 : Sound n) : Sound (Node.tDiscard n) := by
  unfold Node.tDiscard
  extract_lets +onlyGivenNames m3
  have hm3 : Sound m3 := by
    unfold m3
    apply Node.setFds_sound
    assumption
  clear_value m3
  extract_lets +onlyGivenNames m5
  have hm5 : Sound m5 := by
    unfold m5
    refine foldl_ok ?_ ?_
    · intro x x x
      apply Node.wr_sound
      apply Node.wr_sound
      assumption
    · assumption
  clear_value m5
  refine sound_mk ?_ rfl rfl rfl
  assumption
theorem Node.tArm_sound (n : Node) (t : ℕ) (h0 : Sound n) : Sound (Node.tArm n t) := by
  unfold Node.tArm
  extract_lets +onlyGivenNames m4
  have hm4 : Sound m4 := by
    unfold m4
    apply Node.tDiscard_sound
    assumption
  clear_value m4
  apply Node.tEnter_sound
  refine sound_mk ?_ rfl rfl rfl
  assumption
theorem Node.tArrive_sound (n : Node) (i : ℕ) (t : ℕ) (pos : Bool) (h0 : Sound n) : Sound1 (Node.tArrive n i t pos) := by
  unfold Node.tArrive
  extract_lets +onlyGivenNames m6
  clear_value m6
  extract_lets +onlyGivenNames m7
  clear_value m7
  extract_lets +onlyGivenNames m8
  have hm8 : Sound m8 := by
    unfold m8
    apply Node.wr_sound
    apply Node.wr_sound
    assumption
  clear_value m8
  extract_lets +onlyGivenNames m10
  have hm10 : Sound m10 := by
    unfold m10
    apply Node.setBit_sound
    assumption
  clear_value m10
  extract_lets +onlyGivenNames m12
  have hm12 : Sound m12 := by
    unfold m12
    refine ite_ind ?_ ?_
    · intro x
      apply Node.setBit_sound
      assumption
    · intro x
      assumption
  clear_value m12
  extract_lets +onlyGivenNames m14
  extract_lets +onlyGivenNames m15
  have hm15 : Sound m15 := by
    unfold m15
    refine sound_mk ?_ rfl rfl rfl
    assumption
  clear_value m15
  apply sound1_mk
  refine ite_ind ?_ ?_
  · intro x
    assumption
  · intro x
    extract_lets +onlyGivenNames m18
    have hm18 : Sound m18 := by
      unfold m18
      apply Node.ring_sound
      assumption
    clear_value m18
    refine sound_mk ?_ rfl rfl rfl
    assumption
theorem Node.tTrigger_sound (n : Node) (i : ℕ) (t : ℕ) (stamp : ℕ) (h0 : Sound n) : Sound (Node.tTrigger n i t stamp) := by
  unfold Node.tTrigger
  extract_lets +onlyGivenNames m6
  have hm6 : Sound m6 := by
    unfold m6
    apply Node.setFds_sound
    assumption
  clear_value m6
  refine sound_mk ?_ rfl rfl rfl
  assumption
theorem execComparatorFiring_sound (i : Nat) (m : Moment) (pos : Bool) (s : State) (h0 : Sound s.node) : Good (execComparatorFiring i m pos s) := by
  unfold execComparatorFiring
  refine lift_good (fun n hn => ?_) h0
  extract_lets +onlyGivenNames m8
  clear_value m8
  refine ite_ind ?_ ?_
  · intro x
    assumption
  · intro x
    refine ite_ind ?_ ?_
    · intro x
      refine ite_ind ?_ ?_
      · intro x
        assumption
      · intro x
        extract_lets +onlyGivenNames m12
        have hm12 : Sound m12 := by
          unfold m12
          apply Node.bump_sound
          assumption
        clear_value m12
        split
        extract_lets +onlyGivenNames m20
        have hm20 : Sound m20 := by
          unfold m20
          apply Node.setOn_sound
          apply Node.tTrigger_sound
          refine sound1_eq (by assumption) ?_
          apply Node.tArrive_sound
          assumption
        clear_value m20
        apply Node.tEnter_sound
        apply Node.ring_sound
        assumption
    · intro x
      refine ite_ind ?_ ?_
      · intro x
        refine ite_ind ?_ ?_
        · intro x
          assumption
        · intro x
          split
          refine ite_ind ?_ ?_
          · intro x
            apply Node.tTrigger_sound
            refine sound1_eq (by assumption) ?_
            apply Node.tArrive_sound
            assumption
          · intro x
            refine sound1_eq (by assumption) ?_
            apply Node.tArrive_sound
            assumption
      · intro x
        refine ite_ind ?_ ?_
        · intro x
          apply Node.ring_sound
          apply Node.setOn_sound
          apply Node.bump_sound
          assumption
        · intro x
          assumption
theorem Node.clearOldArr_sound (n : Node) (h0 : Sound n) : Sound (Node.clearOldArr n) := by
  unfold Node.clearOldArr
  refine ite_ind ?_ ?_
  · intro x
    assumption
  · intro x
    refine foldl_ok ?_ ?_
    · intro x x x
      split
      · refine ite_ind ?_ ?_
        · intro x
          apply Node.setByte_sound
          assumption
        · intro x
          assumption
      · assumption
    · assumption
theorem execPostTriggerFillComplete_sound (m : Moment) (hf : List (ℕ × List ℤ)) (s : State) (h0 : Sound s.node) : Good (execPostTriggerFillComplete m hf s) := by
  unfold execPostTriggerFillComplete
  refine lift_good (fun n hn => ?_) h0
  refine ite_ind ?_ ?_
  · intro x
    extract_lets +onlyGivenNames m8
    have hm8 : Sound m8 := by
      unfold m8
      apply Node.tMasks_sound
      apply Node.clearOldArr_sound
      apply Node.ringWrite_sound
      assumption
    clear_value m8
    extract_lets +onlyGivenNames m10
    clear_value m10
    extract_lets +onlyGivenNames m11
    have hm11 : Sound m11 := by
      unfold m11
      refine sound_mk ?_ rfl rfl rfl
      assumption
    clear_value m11
    apply Node.tEnter_sound
    apply Node.ring_sound
    apply Node.setOn_sound
    assumption
  · intro x
    assumption
theorem execAutoarmExpiry_sound (m : Moment) (s : State) (h0 : Sound s.node) : Good (execAutoarmExpiry m s) := by
  unfold execAutoarmExpiry
  refine lift_good (fun n hn => ?_) h0
  extract_lets +onlyGivenNames m6
  clear_value m6
  refine ite_ind ?_ ?_
  · intro x
    apply Node.tArm_sound
    assumption
  · intro x
    assumption
theorem Node.transBeat_sound (n : Node) (t0 : ℕ) (hf : List (ℕ × List ℤ)) (h0 : Sound n) : Sound (Node.transBeat n t0 hf) := by
  unfold Node.transBeat
  extract_lets +onlyGivenNames m5
  have hm5 : Sound m5 := by
    unfold m5
    apply Node.ringWrite_sound
    assumption
  clear_value m5
  extract_lets +onlyGivenNames m7
  clear_value m7
  extract_lets +onlyGivenNames m8
  extract_lets +onlyGivenNames m9
  have hm9 : Sound m9 := by
    unfold m9
    refine sound_mk ?_ rfl rfl rfl
    assumption
  clear_value m9
  extract_lets +onlyGivenNames m11
  have hm11 : Sound m11 := by
    unfold m11
    refine ite_ind ?_ ?_
    · intro x
      apply Node.tMasks_sound
      assumption
    · intro x
      assumption
  clear_value m11
  extract_lets +onlyGivenNames m13
  have hm13 : Sound m13 := by
    unfold m13
    refine foldl_ok ?_ ?_
    · intro x x x
      refine ite_ind ?_ ?_
      · intro x
        assumption
      · intro x
        extract_lets +onlyGivenNames m18
        clear_value m18
        extract_lets +onlyGivenNames m19
        clear_value m19
        extract_lets +onlyGivenNames m20
        clear_value m20
        extract_lets +onlyGivenNames m21
        clear_value m21
        extract_lets +onlyGivenNames m22
        extract_lets +onlyGivenNames m23
        have hm23 : Sound m23 := by
          unfold m23
          refine sound_mk ?_ rfl rfl rfl
          assumption
        clear_value m23
        apply Node.setFds_sound
        assumption
    · assumption
  clear_value m13
  refine ite_ind ?_ ?_
  · intro x
    apply Node.tEnter_sound
    apply Node.setOn_sound
    refine sound_mk ?_ rfl rfl rfl
    assumption
  · intro x
    assumption
theorem Node.transS6_sound (n : Node) (h0 : Sound n) : Sound (Node.transS6 n) := by
  unfold Node.transS6
  split
  · refine ite_ind ?_ ?_
    · intro x
      refine Sound1.h ?_
      apply Node.raiseAt_sound
      refine sound_mk ?_ rfl rfl rfl
      assumption
    · intro x
      assumption
  · assumption
theorem Node.transStep_sound (n : Node) (size : ℤ) (h0 : Sound n) : Sound (Node.transStep n size) := by
  unfold Node.transStep
  extract_lets +onlyGivenNames m4
  clear_value m4
  extract_lets +onlyGivenNames m5
  extract_lets +onlyGivenNames m6
  have hm6 : Sound m6 := by
    unfold m6
    refine sound_mk ?_ rfl rfl rfl
    assumption
  clear_value m6
  refine ite_ind ?_ ?_
  · intro x
    apply Node.setOn_sound
    refine sound_mk ?_ rfl rfl rfl
    assumption
  · intro x
    assumption
theorem Node.transWake_sound (n : Node) (h0 : Sound n) : Sound (Node.transWake n) := by
  unfold Node.transWake
  extract_lets +onlyGivenNames m3
  extract_lets +onlyGivenNames m4
  have hm4 : Sound m4 := by
    unfold m4
    refine sound_mk ?_ rfl rfl rfl
    assumption
  clear_value m4
  refine ite_ind ?_ ?_
  · intro x
    assumption
  · intro x
    apply Node.tEnter_sound
    assumption
theorem setTransUnit_sound (keys : Keys) (i : ℕ) (n : Node) (h2 : Sound n) : okE Sound1 (setTransUnit keys i n) := by
  unfold setTransUnit
  refine okE_bind ?_
  intro x x
  apply okE_pure
  apply sound1_mk
  apply Node.setKeys_sound
  assumption
theorem execSetTrans_sound (l : Line) (s : State) (h0 : Sound s.node) : Good (execSetTrans l s) := by
  unfold execSetTrans
  refine lift_good (fun n hn => ?_) h0
  split
  · apply Node.runMulti_sound
    · assumption
    · intro x x x
      apply setTransUnit_sound
      assumption
  · apply Node.runWhole_sound
    · assumption
    · intro x x
      apply okE_ok
      apply sound1_mk
      apply Node.setKeys_sound
      assumption
theorem Node.doArm_sound (n : Node) (t : ℕ) (h0 : Sound n) : okO Sound (Node.doArm n t) := by
  unfold Node.doArm
  refine ite_ind ?_ ?_
  · intro x
    exact okO_none
  · intro x
    apply okO_some
    apply Node.tArm_sound
    assumption
theorem Node.doDisarm_sound (n : Node) (h0 : Sound n) : okO Sound (Node.doDisarm n) := by
  unfold Node.doDisarm
  refine ite_ind ?_ ?_
  · intro x
    apply okO_some
    apply Node.tEnter_sound
    apply Node.tCut_sound
    assumption
  · intro x
    refine ite_ind ?_ ?_
    · intro x
      apply okO_some
      refine sound_mk ?_ rfl rfl rfl
      assumption
    · intro x
      exact okO_none
theorem Node.runTrans_sound (n : Node) (l : Line) (f : Node → Option Node) (h0 : Sound n) (h2 : ∀ x0, Sound x0 → okO Sound (f x0)) : Sound (Node.runTrans n l f) := by
  unfold Node.runTrans
  apply Node.runWhole_sound
  · assumption
  · intro x x
    split
    · apply okE_ok
      apply sound1_mk
      refine okO_eq (by assumption) ?_
      apply_assumption
      assumption
    · exact okE_refuse
theorem execDoTransArm_sound (l : Line) (s : State) (h0 : Sound s.node) : Good (execDoTransArm l s) := by
  unfold execDoTransArm
  refine lift_good (fun n hn => ?_) h0
  apply Node.runTrans_sound
  · assumption
  · intro x x
    apply Node.doArm_sound
    assumption
theorem execDoTransDisarm_sound (l : Line) (s : State) (h0 : Sound s.node) : Good (execDoTransDisarm l s) := by
  unfold execDoTransDisarm
  refine lift_good (fun n hn => ?_) h0
  apply Node.runTrans_sound
  · assumption
  · intro x x
    apply Node.doDisarm_sound
    assumption
theorem Node.transCfgErr_sound (n : Node) (h0 : Sound n) : Sound (Node.transCfgErr n) := by
  unfold Node.transCfgErr
  apply Node.ring_sound
  apply Node.setOn_sound
  assumption
theorem Node.transCtrl_sound (n : Node) (v : Sys2Proof.Word) (h0 : Sound n) : Sound (Node.transCtrl n v) := by
  unfold Node.transCtrl
  extract_lets +onlyGivenNames m4
  clear_value m4
  refine ite_ind ?_ ?_
  · intro x
    apply Node.transCfgErr_sound
    assumption
  · intro x
    extract_lets +onlyGivenNames m6
    have hm6 : Sound m6 := by
      unfold m6
      refine ite_ind ?_ ?_
      · intro x
        assumption
      · intro x
        apply Node.dirty_sound
        apply Node.setFd_sound
        assumption
    clear_value m6
    extract_lets +onlyGivenNames m8
    have hm8 : Sound m8 := by
      unfold m8
      refine ite_ind ?_ ?_
      · intro x
        refine okO_getD ?_ ?_
        · apply Node.doArm_sound
          assumption
        · apply Node.transCfgErr_sound
          assumption
      · intro x
        assumption
    clear_value m8
    refine ite_ind ?_ ?_
    · intro x
      refine okO_getD ?_ ?_
      · apply Node.doDisarm_sound
        assumption
      · apply Node.transCfgErr_sound
        assumption
    · intro x
      assumption
theorem execTransCtrlArm_sound (v : Word) (s : State) (h0 : Sound s.node) : Good (execTransCtrlArm v s) := by
  unfold execTransCtrlArm
  refine lift_good (fun n hn => ?_) h0
  refine ite_ind ?_ ?_
  · intro x
    apply Node.transCtrl_sound
    assumption
  · intro x
    assumption
theorem execTransCtrlDisarm_sound (v : Word) (s : State) (h0 : Sound s.node) : Good (execTransCtrlDisarm v s) := by
  unfold execTransCtrlDisarm
  refine lift_good (fun n hn => ?_) h0
  refine ite_ind ?_ ?_
  · intro x
    apply Node.transCtrl_sound
    assumption
  · intro x
    assumption
theorem execGetTrans_sound (l : Line) (s : State) (h0 : Sound s.node) : Good (execGetTrans l s) := by
  unfold execGetTrans
  refine lift_good (fun n hn => ?_) h0
  apply Node.runRead_sound
  assumption
theorem execShowTrans_sound (l : Line) (s : State) (h0 : Sound s.node) : Good (execShowTrans l s) := by
  unfold execShowTrans
  refine lift_good (fun n hn => ?_) h0
  apply Node.runRead_sound
  assumption
theorem execWatchTrans_sound (l : Line) (s : State) (h0 : Sound s.node) : Good (execWatchTrans l s) := by
  unfold execWatchTrans
  refine lift_good (fun n hn => ?_) h0
  apply Node.runWatch_sound
  assumption
theorem execDoTransDump_sound (l : Line) (s : State) (h0 : Sound s.node) : Good (execDoTransDump l s) := by
  unfold execDoTransDump
  refine lift_good (fun n hn => ?_) h0
  apply Node.runLine_sound
  · assumption
  · intro x x
    refine okE_bind ?_
    intro x x
    refine okE_bind ?_
    intro x x
    extract_lets +onlyGivenNames m12
    clear_value m12
    extract_lets +onlyGivenNames m13
    clear_value m13
    extract_lets +onlyGivenNames m14
    have hm14 : ∀ x0, okE Sound1 (m14 x0) := by
      unfold m14
      intro x
      refine okE_bind ?_
      intro x x
      apply okE_pure
      apply sound1_mk
      assumption
    clear_value m14
    extract_lets +onlyGivenNames m16
    have hm16 : ∀ x0, okE Sound1 (m16 x0) := by
      unfold m16
      intro x
      refine ite_ind ?_ ?_
      · intro x
        refine okE_bind ?_
        intro x x
        apply_assumption
      · intro x
        apply_assumption
    clear_value m16
    refine ite_ind ?_ ?_
    · intro x
      refine okE_bind ?_
      intro x x
      apply_assumption
    · intro x
      apply_assumption
theorem Node.transReinit_sound (n : Node) (h0 : Sound n) : Sound (Node.transReinit n) := by
  unfold Node.transReinit
  extract_lets +onlyGivenNames m3
  have hm3 : Sound m3 := by
    unfold m3
    apply Node.reloadRegs_sound
    assumption
  clear_value m3
  extract_lets +onlyGivenNames m5
  have hm5 : Sound m5 := by
    unfold m5
    refine ite_ind ?_ ?_
    · intro x
      assumption
    · intro x
      apply Node.transCfgErr_sound
      refine foldl_ok ?_ ?_
      · intro x x x
        apply Node.wr_sound
        assumption
      · assumption
  clear_value m5
  extract_lets +onlyGivenNames m7
  have hm7 : Sound m7 := by
    unfold m7
    apply Node.tDiscard_sound
    apply Node.tCut_sound
    assumption
  clear_value m7
  extract_lets +onlyGivenNames m9
  clear_value m9
  extract_lets +onlyGivenNames m10
  have hm10 : Sound m10 := by
    unfold m10
    refine sound_mk ?_ rfl rfl rfl
    assumption
  clear_value m10
  refine ite_ind ?_ ?_
  · intro x
    assumption
  · intro x
    apply Node.tEnter_sound
    assumption
theorem execDoTransReinit_sound (l : Line) (s : State) (h0 : Sound s.node) : Good (execDoTransReinit l s) := by
  unfold execDoTransReinit
  refine lift_good (fun n hn => ?_) h0
  apply Node.runOpen_sound
  · assumption
  · intro x x
    refine okE_bind ?_
    intro x x
    refine okE_bind ?_
    intro x x
    refine okE_bind ?_
    intro x x
    apply okE_pure
    apply Node.startMr_sound
    assumption
end Sys2Proof.Machine
end

