-- ==== Sys2Proof/Laws/SoundAlarm.lean ====
section
/-! SUPPORT. Every operation and every meaning of Machine/Alarm.lean keeps `Sound`. -/
set_option linter.unusedVariables false
namespace Sys2Proof.Machine
theorem Node.setGrp_sound (n : Node) (g : ℕ) (x : Grp) (h0 : Sound n) : Sound (Node.setGrp n g x) := by
  unfold Node.setGrp
  refine sound_mk ?_ rfl rfl rfl
  assumption
theorem Node.almRing_sound (n : Node) (s : ℕ) (h0 : Sound n) : Sound (Node.almRing n s) := by
  unfold Node.almRing
  refine ite_ind ?_ ?_
  · intro x
    assumption
  · intro x
    extract_lets +onlyGivenNames m5
    have hm5 : Sound m5 := by
      unfold m5
      apply Node.ring_sound
      assumption
    clear_value m5
    refine sound_mk ?_ rfl rfl rfl
    assumption
theorem Node.almStage_sound (n : Node) (c : ℕ) (pl : List Byte) (k : ℕ) (h0 : Sound n) : Sound1 (Node.almStage n c pl k) := by
  unfold Node.almStage
  extract_lets +onlyGivenNames m6
  clear_value m6
  refine ite_ind ?_ ?_
  · intro x
    apply Node.raiseAt_sound
    assumption
  · intro x
    apply sound1_mk
    apply Node.stageRecord_sound
    assumption
theorem Node.almRaise_sound (n : Node) (c : ℕ) (pl : List Byte) (w : Wh) (h0 : Sound n) : Sound1 (Node.almRaise n c pl w) := by
  unfold Node.almRaise
  split
  · apply Node.almStage_sound
    assumption
  · apply Node.almStage_sound
    assumption
  · apply Node.raiseAt_sound
    assumption
  · apply Node.raiseAt_sound
    assumption
theorem Node.putPt_sound (n : Node) (i : ℕ) (p : Pt) (h0 : Sound n) : Sound (Node.putPt n i p) := by
  unfold Node.putPt
  extract_lets +onlyGivenNames m5
  clear_value m5
  extract_lets +onlyGivenNames m6
  extract_lets +onlyGivenNames m7
  have hm7 : Sound m7 := by
    unfold m7
    refine sound_mk ?_ rfl rfl rfl
    assumption
  clear_value m7
  extract_lets +onlyGivenNames m9
  have hm9 : Sound m9 := by
    unfold m9
    apply Node.setFds_sound
    assumption
  clear_value m9
  extract_lets +onlyGivenNames m11
  have hm11 : Sound m11 := by
    unfold m11
    refine ite_ind ?_ ?_
    · intro x
      apply Node.setFds_sound
      assumption
    · intro x
      assumption
  clear_value m11
  refine ite_ind ?_ ?_
  · intro x
    apply Node.setFds_sound
    assumption
  · intro x
    assumption
theorem Node.grpRecord_sound (n : Node) (g : ℕ) (ev : ℕ) (cause : ℕ) (fo : ℕ) (w : Wh) (h0 : Sound n) : Sound (Node.grpRecord n g ev cause fo w) := by
  unfold Node.grpRecord
  refine Sound1.h ?_
  apply Node.almRaise_sound
  assumption
theorem Node.firstOut_sound (n : Node) (i : ℕ) (g : ℕ) (h0 : Sound n) : Sound (Node.firstOut n i g) := by
  unfold Node.firstOut
  extract_lets +onlyGivenNames m5
  clear_value m5
  extract_lets +onlyGivenNames m6
  clear_value m6
  refine ite_ind ?_ ?_
  · intro x
    assumption
  · intro x
    extract_lets +onlyGivenNames m8
    have hm8 : Sound m8 := by
      unfold m8
      refine ite_ind ?_ ?_
      · intro x
        apply Node.setFd_sound
        assumption
      · intro x
        assumption
    clear_value m8
    extract_lets +onlyGivenNames m10
    clear_value m10
    extract_lets +onlyGivenNames m11
    have hm11 : Sound m11 := by
      unfold m11
      apply Node.setGrp_sound
      assumption
    clear_value m11
    apply Node.almRing_sound
    apply Node.setFds_sound
    assumption
theorem Node.dropFo_sound (n : Node) (g : ℕ) (h0 : Sound n) : Sound (Node.dropFo n g) := by
  unfold Node.dropFo
  refine ite_ind ?_ ?_
  · intro x
    apply Node.setFds_sound
    assumption
  · intro x
    assumption
theorem Node.clearFo_sound (n : Node) (g : ℕ) (cause : ℕ) (w : Wh) (h0 : Sound n) : Sound (Node.clearFo n g cause w) := by
  unfold Node.clearFo
  refine ite_ind ?_ ?_
  · intro x
    extract_lets +onlyGivenNames m7
    clear_value m7
    apply Node.grpRecord_sound
    apply Node.almRing_sound
    apply Node.setOn_sound
    apply Node.dropFo_sound
    assumption
  · intro x
    assumption
theorem Node.ptMove_sound (n : Node) (i : ℕ) (p : Pt) (cause : ℕ) (w : Wh) (force : Bool) (code : Option ℕ) (quiet : Bool) (h0 : Sound n) : Sound (Node.ptMove n i p cause w force code quiet) := by
  unfold Node.ptMove
  extract_lets +onlyGivenNames m10
  clear_value m10
  extract_lets +onlyGivenNames m11
  clear_value m11
  extract_lets +onlyGivenNames m12
  clear_value m12
  extract_lets +onlyGivenNames m13
  clear_value m13
  extract_lets +onlyGivenNames m14
  have hm14 : Sound m14 := by
    unfold m14
    apply Node.putPt_sound
    assumption
  clear_value m14
  refine ite_ind ?_ ?_
  · intro x
    assumption
  · intro x
    extract_lets +onlyGivenNames m17
    have hm17 : Sound m17 := by
      unfold m17
      refine ite_ind ?_ ?_
      · intro x
        assumption
      · intro x
        apply Node.setFd_sound
        assumption
    clear_value m17
    extract_lets +onlyGivenNames m19
    have hm19 : Sound m19 := by
      unfold m19
      refine ite_ind ?_ ?_
      · intro x
        assumption
      · intro x
        apply Node.setBit_sound
        assumption
    clear_value m19
    extract_lets +onlyGivenNames m21
    have hm21 : Sound m21 := by
      unfold m21
      refine ite_ind ?_ ?_
      · intro x
        apply Node.firstOut_sound
        assumption
      · intro x
        assumption
    clear_value m21
    extract_lets +onlyGivenNames m23
    have hm23 : Sound m23 := by
      unfold m23
      refine ite_ind ?_ ?_
      · intro x
        apply Node.almRing_sound
        apply Node.setOn_sound
        assumption
      · intro x
        assumption
    clear_value m23
    extract_lets +onlyGivenNames m25
    have hm25 : Sound m25 := by
      unfold m25
      refine ite_ind ?_ ?_
      · intro x
        apply Node.almRing_sound
        apply Node.setOn_sound
        assumption
      · intro x
        assumption
    clear_value m25
    extract_lets +onlyGivenNames m27
    have hm27 : Sound m27 := by
      unfold m27
      refine ite_ind ?_ ?_
      · intro x
        apply Node.almRing_sound
        apply Node.setOn_sound
        assumption
      · intro x
        assumption
    clear_value m27
    extract_lets +onlyGivenNames m29
    clear_value m29
    extract_lets +onlyGivenNames m30
    clear_value m30
    extract_lets +onlyGivenNames m31
    clear_value m31
    extract_lets +onlyGivenNames m32
    clear_value m32
    extract_lets +onlyGivenNames m33
    clear_value m33
    extract_lets +onlyGivenNames m34
    clear_value m34
    extract_lets +onlyGivenNames m35
    clear_value m35
    extract_lets +onlyGivenNames m36
    have hm36 : Sound m36 := by
      unfold m36
      refine ite_ind ?_ ?_
      · intro x
        refine sound_mk ?_ rfl rfl rfl
        assumption
      · intro x
        assumption
    clear_value m36
    extract_lets +onlyGivenNames m38
    have hm38 : Sound m38 := by
      unfold m38
      refine ite_ind ?_ ?_
      · intro x
        assumption
      · intro x
        split
        extract_lets +onlyGivenNames m46
        clear_value m46
        extract_lets +onlyGivenNames m47
        have hm47 : Sound m47 := by
          unfold m47
          refine ite_ind ?_ ?_
          · intro x
            refine sound1_eq (by assumption) ?_
            apply Node.almRaise_sound
            assumption
          · intro x
            refine sound_mk ?_ rfl rfl rfl
            refine sound1_eq (by assumption) ?_
            apply Node.almRaise_sound
            assumption
        clear_value m47
        refine ite_ind ?_ ?_
        · intro x
          assumption
        · intro x
          apply Node.notify_sound
          assumption
    clear_value m38
    refine ite_ind ?_ ?_
    · intro x
      assumption
    · intro x
      apply Node.notifyWatch_sound
      assumption
theorem Node.ptEval_sound (n : Node) (i : ℕ) (p : Pt) (cause : ℕ) (h0 : Sound n) : Sound (Node.ptEval n i p cause) := by
  unfold Node.ptEval
  apply Node.ptMove_sound
  assumption
theorem Node.reconfigure_sound (n : Node) (i : ℕ) (h0 : Sound n) : Sound (Node.reconfigure n i) := by
  unfold Node.reconfigure
  extract_lets +onlyGivenNames m4
  clear_value m4
  split
  · assumption
  · extract_lets +onlyGivenNames m10
    have hm10 : Sound m10 := by
      unfold m10
      refine ite_ind ?_ ?_
      · intro x
        apply Node.clearFo_sound
        assumption
      · intro x
        assumption
    clear_value m10
    extract_lets +onlyGivenNames m12
    clear_value m12
    extract_lets +onlyGivenNames m13
    clear_value m13
    extract_lets +onlyGivenNames m14
    have hm14 : Sound m14 := by
      unfold m14
      apply Node.ptMove_sound
      assumption
    clear_value m14
    apply Node.putPt_sound
    assumption
theorem Node.evalPoint_sound (n : Node) (i : ℕ) (h0 : Sound n) : Sound (Node.evalPoint n i) := by
  unfold Node.evalPoint
  extract_lets +onlyGivenNames m4
  have hm4 : Sound m4 := by
    unfold m4
    apply Node.reconfigure_sound
    assumption
  clear_value m4
  refine ite_ind ?_ ?_
  · intro x
    assumption
  · intro x
    extract_lets +onlyGivenNames m7
    clear_value m7
    extract_lets +onlyGivenNames m8
    clear_value m8
    extract_lets +onlyGivenNames m9
    have hm9 : Sound m9 := by
      unfold m9
      refine ite_ind ?_ ?_
      · intro x
        apply Node.almRing_sound
        assumption
      · intro x
        assumption
    clear_value m9
    extract_lets +onlyGivenNames m11
    clear_value m11
    extract_lets +onlyGivenNames m12
    clear_value m12
    refine ite_ind ?_ ?_
    · intro x
      apply Node.putPt_sound
      assumption
    · intro x
      extract_lets +onlyGivenNames m14
      clear_value m14
      split
      extract_lets +onlyGivenNames m21
      clear_value m21
      refine ite_ind ?_ ?_
      · intro x
        apply Node.ptEval_sound
        refine sound1_eq (by assumption) ?_
        refine ite_ind ?_ ?_
        · intro x
          apply sound1_mk
          assumption
        · intro x
          split
          extract_lets +onlyGivenNames m30
          clear_value m30
          extract_lets +onlyGivenNames m31
          clear_value m31
          extract_lets +onlyGivenNames m32
          clear_value m32
          apply sound1_mk
          refine sound1_eq (by assumption) ?_
          refine ite_ind ?_ ?_
          · intro x
            extract_lets +onlyGivenNames m34
            clear_value m34
            apply sound1_mk
            apply Node.ptEval_sound
            assumption
          · intro x
            apply sound1_mk
            assumption
      · intro x
        refine ite_ind ?_ ?_
        · intro x
          apply Node.ptEval_sound
          refine sound1_eq (by assumption) ?_
          refine ite_ind ?_ ?_
          · intro x
            apply sound1_mk
            assumption
          · intro x
            split
            extract_lets +onlyGivenNames m31
            clear_value m31
            extract_lets +onlyGivenNames m32
            clear_value m32
            extract_lets +onlyGivenNames m33
            clear_value m33
            apply sound1_mk
            refine sound1_eq (by assumption) ?_
            refine ite_ind ?_ ?_
            · intro x
              extract_lets +onlyGivenNames m35
              clear_value m35
              apply sound1_mk
              apply Node.ptEval_sound
              assumption
            · intro x
              apply sound1_mk
              assumption
        · intro x
          extract_lets +onlyGivenNames m24
          clear_value m24
          apply Node.ptMove_sound
          refine sound1_eq (by assumption) ?_
          refine ite_ind ?_ ?_
          · intro x
            apply sound1_mk
            assumption
          · intro x
            split
            extract_lets +onlyGivenNames m32
            clear_value m32
            extract_lets +onlyGivenNames m33
            clear_value m33
            extract_lets +onlyGivenNames m34
            clear_value m34
            apply sound1_mk
            refine sound1_eq (by assumption) ?_
            refine ite_ind ?_ ?_
            · intro x
              extract_lets +onlyGivenNames m36
              clear_value m36
              apply sound1_mk
              apply Node.ptEval_sound
              assumption
            · intro x
              apply sound1_mk
              assumption
theorem Node.blkRelease_sound (n : Node) (g : ℕ) (h0 : Sound n) : Sound (Node.blkRelease n g) := by
  unfold Node.blkRelease
  refine ite_ind ?_ ?_
  · intro x
    apply Node.grpRecord_sound
    apply Node.almRing_sound
    apply Node.setOn_sound
    assumption
  · intro x
    assumption
theorem Node.blockLogic_sound (n : Node) (g : ℕ) (h0 : Sound n) : Sound (Node.blockLogic n g) := by
  unfold Node.blockLogic
  refine ite_ind ?_ ?_
  · intro x
    refine ite_ind ?_ ?_
    · intro x
      assumption
    · intro x
      refine ite_ind ?_ ?_
      · intro x
        apply Node.setFds_sound
        assumption
      · intro x
        apply Node.grpRecord_sound
        apply Node.almRing_sound
        apply Node.setOn_sound
        assumption
  · intro x
    extract_lets +onlyGivenNames m5
    extract_lets +onlyGivenNames m6
    have hm6 : Sound m6 := by
      unfold m6
      refine ite_ind ?_ ?_
      · intro x
        apply Node.setGrp_sound
        apply Node.setFds_sound
        assumption
      · intro x
        assumption
    clear_value m6
    apply Node.blkRelease_sound
    assumption
theorem Node.foLogic_sound (n : Node) (g : ℕ) (h0 : Sound n) : Sound (Node.foLogic n g) := by
  unfold Node.foLogic
  refine ite_ind ?_ ?_
  · intro x
    apply Node.clearFo_sound
    assumption
  · intro x
    assumption
theorem Node.callFrame_sound (n : Node) (g : ℕ) (st : ℕ) (h0 : Sound n) : Sound (Node.callFrame n g st) := by
  unfold Node.callFrame
  extract_lets +onlyGivenNames m5
  clear_value m5
  extract_lets +onlyGivenNames m6
  extract_lets +onlyGivenNames m7
  have hm7 : Sound m7 := by
    unfold m7
    apply Node.setGrp_sound
    assumption
  clear_value m7
  refine ite_ind ?_ ?_
  · intro x
    assumption
  · intro x
    extract_lets +onlyGivenNames m10
    extract_lets +onlyGivenNames m11
    have hm11 : Sound m11 := by
      unfold m11
      apply Node.setGrp_sound
      assumption
    clear_value m11
    refine sound_mk ?_ rfl rfl rfl
    assumption
theorem Node.callCancel_sound (n : Node) (g : ℕ) (h0 : Sound n) : Sound (Node.callCancel n g) := by
  unfold Node.callCancel
  extract_lets +onlyGivenNames m4
  clear_value m4
  extract_lets +onlyGivenNames m5
  extract_lets +onlyGivenNames m6
  have hm6 : Sound m6 := by
    unfold m6
    apply Node.setGrp_sound
    assumption
  clear_value m6
  refine sound_mk ?_ rfl rfl rfl
  assumption
theorem Node.callStage_sound (n : Node) (g : ℕ) (st : ℕ) (cause : ℕ) (w : Wh) (h0 : Sound n) : Sound (Node.callStage n g st cause w) := by
  unfold Node.callStage
  refine ite_ind ?_ ?_
  · intro x
    assumption
  · intro x
    extract_lets +onlyGivenNames m8
    have hm8 : Sound m8 := by
      unfold m8
      apply Node.grpRecord_sound
      apply Node.almRing_sound
      apply Node.setFds_sound
      assumption
    clear_value m8
    extract_lets +onlyGivenNames m10
    have hm10 : Sound m10 := by
      unfold m10
      apply Node.notify_sound
      assumption
    clear_value m10
    refine ite_ind ?_ ?_
    · intro x
      apply Node.callCancel_sound
      assumption
    · intro x
      apply Node.callFrame_sound
      assumption
theorem Node.callLogic_sound (n : Node) (g : ℕ) (h0 : Sound n) : Sound (Node.callLogic n g) := by
  unfold Node.callLogic
  extract_lets +onlyGivenNames m4
  clear_value m4
  extract_lets +onlyGivenNames m5
  clear_value m5
  extract_lets +onlyGivenNames m6
  have hm6 : Sound m6 := by
    unfold m6
    refine ite_ind ?_ ?_
    · intro x
      apply Node.setGrp_sound
      assumption
    · intro x
      assumption
  clear_value m6
  refine ite_ind ?_ ?_
  · intro x
    assumption
  · intro x
    refine ite_ind ?_ ?_
    · intro x
      refine ite_ind ?_ ?_
      · intro x
        extract_lets +onlyGivenNames m11
        clear_value m11
        extract_lets +onlyGivenNames m12
        clear_value m12
        extract_lets +onlyGivenNames m13
        have hm13 : Sound m13 := by
          unfold m13
          apply Node.setGrp_sound
          assumption
        clear_value m13
        refine ite_ind ?_ ?_
        · intro x
          apply Node.callFrame_sound
          assumption
        · intro x
          apply Node.callStage_sound
          assumption
      · intro x
        apply Node.callStage_sound
        assumption
    · intro x
      apply Node.callStage_sound
      assumption
theorem Node.pinTrack_sound (n : Node) (g : ℕ) (h0 : Sound n) : Sound (Node.pinTrack n g) := by
  unfold Node.pinTrack
  extract_lets +onlyGivenNames m4
  clear_value m4
  refine ite_ind ?_ ?_
  · intro x
    assumption
  · intro x
    extract_lets +onlyGivenNames m6
    clear_value m6
    apply Node.setGrp_sound
    assumption
theorem Node.almBeat_sound (n : Node) (h0 : Sound n) : Sound (Node.almBeat n) := by
  unfold Node.almBeat
  extract_lets +onlyGivenNames m3
  extract_lets +onlyGivenNames m4
  have hm4 : Sound m4 := by
    unfold m4
    refine sound_mk ?_ rfl rfl rfl
    assumption
  refine ite_ind ?_ ?_
  · intro x
    apply Node.setFd_sound
    assumption
  · intro x
    assumption
theorem Node.almS4_sound (n : Node) (h0 : Sound n) : Sound (Node.almS4 n) := by
  unfold Node.almS4
  extract_lets +onlyGivenNames m3
  clear_value m3
  extract_lets +onlyGivenNames m4
  have hm4 : Sound m4 := by
    unfold m4
    refine foldl_ok ?_ ?_
    · intro x x x
      apply Node.evalPoint_sound
      assumption
    · assumption
  clear_value m4
  extract_lets +onlyGivenNames m6
  have hm6 : Sound m6 := by
    unfold m6
    refine ite_ind ?_ ?_
    · intro x
      refine foldl_ok ?_ ?_
      · intro x x x
        apply Node.callLogic_sound
        apply Node.foLogic_sound
        apply Node.blockLogic_sound
        assumption
      · assumption
    · intro x
      assumption
  clear_value m6
  refine foldl_ok ?_ ?_
  · intro x x x
    apply Node.pinTrack_sound
    assumption
  · assumption
theorem Node.asSeen_sound (n : Node) (z : Seen) (h0 : Sound n) : Sound (Node.asSeen n z) := by
  unfold Node.asSeen
  extract_lets +onlyGivenNames m4
  have hm4 : Sound m4 := by
    unfold m4
    refine foldl_ok ?_ ?_
    · intro x x x
      apply Node.wr_sound
      assumption
    · assumption
  clear_value m4
  refine sound_mk ?_ rfl rfl rfl
  assumption
theorem Node.almLate_sound (n : Node) (h0 : Sound n) : Sound (Node.almLate n) := by
  unfold Node.almLate
  split
  · apply Node.almS4_sound
    assumption
  · extract_lets +onlyGivenNames m8
    clear_value m8
    extract_lets +onlyGivenNames m9
    have hm9 : Sound m9 := by
      unfold m9
      apply Node.almS4_sound
      apply Node.asSeen_sound
      assumption
    clear_value m9
    extract_lets +onlyGivenNames m11
    have hm11 : Sound m11 := by
      unfold m11
      apply Node.asSeen_sound
      assumption
    clear_value m11
    refine sound_mk ?_ rfl rfl rfl
    assumption
theorem Node.callsOff_sound (n : Node) (h0 : Sound n) : Sound (Node.callsOff n) := by
  unfold Node.callsOff
  refine foldl_ok ?_ ?_
  · intro x x x
    apply Node.callStage_sound
    assumption
  · assumption
theorem Node.almS5_sound (n : Node) (h0 : Sound n) : Sound (Node.almS5 n) := by
  unfold Node.almS5
  extract_lets +onlyGivenNames m3
  clear_value m3
  extract_lets +onlyGivenNames m4
  have hm4 : Sound m4 := by
    unfold m4
    refine sound_mk ?_ rfl rfl rfl
    assumption
  clear_value m4
  refine ite_ind ?_ ?_
  · intro x
    apply Node.almRing_sound
    apply Node.setFd_sound
    apply Node.callsOff_sound
    assumption
  · intro x
    assumption
theorem Node.intakeStaged_sound (n : Node) (h0 : Sound n) : Sound (Node.intakeStaged n) := by
  unfold Node.intakeStaged
  extract_lets +onlyGivenNames m3
  clear_value m3
  extract_lets +onlyGivenNames m4
  clear_value m4
  extract_lets +onlyGivenNames m5
  have hm5 : Sound m5 := by
    unfold m5
    refine sound_mk ?_ rfl rfl rfl
    assumption
  clear_value m5
  refine foldl_ok ?_ ?_
  · intro x x x
    extract_lets +onlyGivenNames m10
    have hm10 : Sound1 m10 := by
      unfold m10
      apply Node.offer_sound
      assumption
    clear_value m10
    refine ite_ind ?_ ?_
    · intro x
      refine Sound1.h ?_
      assumption
    · intro x
      extract_lets +onlyGivenNames m13
      clear_value m13
      extract_lets +onlyGivenNames m14
      have hm14 : Sound m14 := by
        unfold m14
        refine Sound1.h ?_
        assumption
      clear_value m14
      refine sound_mk ?_ rfl rfl rfl
      assumption
  · assumption
theorem Node.ack_sound (n : Node) (i : ℕ) (cause : ℕ) (w : Wh) (h0 : Sound n) : Sound (Node.ack n i cause w) := by
  unfold Node.ack
  extract_lets +onlyGivenNames m6
  clear_value m6
  extract_lets +onlyGivenNames m7
  have hm7 : Sound m7 := by
    unfold m7
    refine ite_ind ?_ ?_
    · intro x
      apply Node.ptMove_sound
      assumption
    · intro x
      refine ite_ind ?_ ?_
      · intro x
        apply Node.ptMove_sound
        assumption
      · intro x
        apply Node.ptMove_sound
        assumption
  clear_value m7
  apply Node.almRing_sound
  assumption
theorem Node.ackGroup_sound (n : Node) (g : ℕ) (cause : ℕ) (w : Wh) (h0 : Sound n) : Sound (Node.ackGroup n g cause w) := by
  unfold Node.ackGroup
  refine foldl_ok ?_ ?_
  · intro x x x
    apply Node.ack_sound
    assumption
  · assumption
theorem Node.ackRes_sound (n : Node) (r : ℕ) (h0 : Sound n) : Sound (Node.ackRes n r) := by
  unfold Node.ackRes
  apply Node.setFd_sound
  assumption
theorem Node.applyAck_sound (n : Node) (a : AckReq) (h0 : Sound n) : Sound (Node.applyAck n a) := by
  unfold Node.applyAck
  extract_lets +onlyGivenNames m4
  clear_value m4
  extract_lets +onlyGivenNames m5
  have hm5 : ∀ x0 x1, Sound x0 → Sound (m5 x0 x1) := by
    unfold m5
    intro x x x
    refine ite_ind ?_ ?_
    · intro x
      apply Node.ackRes_sound
      assumption
    · intro x
      apply Node.setOn_sound
      assumption
  clear_value m5
  refine ite_ind ?_ ?_
  · intro x
    refine ite_ind ?_ ?_
    · intro x
      apply_assumption
      assumption
    · intro x
      refine ite_ind ?_ ?_
      · intro x
        apply_assumption
        assumption
      · intro x
        refine ite_ind ?_ ?_
        · intro x
          refine ite_ind ?_ ?_
          · intro x
            apply Node.ackRes_sound
            assumption
          · intro x
            apply_assumption
            assumption
        · intro x
          extract_lets +onlyGivenNames m11
          have hm11 : Sound m11 := by
            unfold m11
            apply Node.ackGroup_sound
            assumption
          clear_value m11
          refine ite_ind ?_ ?_
          · intro x
            apply Node.ackRes_sound
            assumption
          · intro x
            assumption
  · intro x
    split
    · extract_lets +onlyGivenNames m12
      have hm12 : Sound m12 := by
        unfold m12
        apply Node.ack_sound
        assumption
      clear_value m12
      refine ite_ind ?_ ?_
      · intro x
        apply Node.ackRes_sound
        assumption
      · intro x
        assumption
    · apply_assumption
      assumption
theorem Node.almS7_sound (n : Node) (h0 : Sound n) : Sound (Node.almS7 n) := by
  unfold Node.almS7
  extract_lets +onlyGivenNames m3
  clear_value m3
  extract_lets +onlyGivenNames m4
  extract_lets +onlyGivenNames m5
  have hm5 : Sound m5 := by
    unfold m5
    refine sound_mk ?_ rfl rfl rfl
    assumption
  clear_value m5
  refine foldl_ok ?_ ?_
  · intro x x x
    refine foldl_ok ?_ ?_
    · intro x x x
      apply Node.applyAck_sound
      assumption
    · assumption
  · assumption
theorem Node.queueAck_sound (n : Node) (a : AckReq) (h0 : Sound n) : Sound (Node.queueAck n a) := by
  unfold Node.queueAck
  refine sound_mk ?_ rfl rfl rfl
  assumption
theorem Node.ackWrite_sound (n : Node) (v : Sys2Proof.Word) (h0 : Sound n) : Sound (Node.ackWrite n v) := by
  unfold Node.ackWrite
  extract_lets +onlyGivenNames m4
  clear_value m4
  apply Node.queueAck_sound
  assumption
theorem Node.shelve_sound (n : Node) (i : ℕ) (secs : ℕ) (cause : ℕ) (w : Wh) (h0 : Sound n) : Sound (Node.shelve n i secs cause w) := by
  unfold Node.shelve
  apply Node.ptMove_sound
  assumption
theorem Node.unshelve_sound (n : Node) (i : ℕ) (cause : ℕ) (w : Wh) (h0 : Sound n) : Sound (Node.unshelve n i cause w) := by
  unfold Node.unshelve
  extract_lets +onlyGivenNames m6
  clear_value m6
  extract_lets +onlyGivenNames m7
  clear_value m7
  extract_lets +onlyGivenNames m8
  clear_value m8
  apply Node.ptMove_sound
  assumption
theorem execOnDelayExpiry_sound (i : Nat) (s : State) (h0 : Sound s.node) : Good (execOnDelayExpiry i s) := by
  unfold execOnDelayExpiry
  refine lift_good (fun n hn => ?_) h0
  refine ite_ind ?_ ?_
  · intro x
    apply Node.evalPoint_sound
    assumption
  · intro x
    assumption
theorem execOffDelayExpiry_sound (i : Nat) (s : State) (h0 : Sound s.node) : Good (execOffDelayExpiry i s) := by
  unfold execOffDelayExpiry
  refine lift_good (fun n hn => ?_) h0
  refine ite_ind ?_ ?_
  · intro x
    apply Node.evalPoint_sound
    assumption
  · intro x
    assumption
theorem execBlockRelease_sound (g : Nat) (s : State) (h0 : Sound s.node) : Good (execBlockRelease g s) := by
  unfold execBlockRelease
  refine lift_good (fun n hn => ?_) h0
  refine ite_ind ?_ ?_
  · intro x
    apply Node.blkRelease_sound
    assumption
  · intro x
    assumption
theorem execShelvingExpiry_sound (i : Nat) (s : State) (h0 : Sound s.node) : Good (execShelvingExpiry i s) := by
  unfold execShelvingExpiry
  refine lift_good (fun n hn => ?_) h0
  split
  · refine ite_ind ?_ ?_
    · intro x
      apply Node.almRing_sound
      apply Node.unshelve_sound
      assumption
    · intro x
      assumption
  · assumption
theorem execAckPin_sound (g : Nat) (s : State) (h0 : Sound s.node) : Good (execAckPin g s) := by
  unfold execAckPin
  refine lift_good (fun n hn => ?_) h0
  refine ite_ind ?_ ?_
  · intro x
    apply Node.queueAck_sound
    apply Node.setGrp_sound
    assumption
  · intro x
    assumption
theorem execCallEscalation_sound (g : Nat) (s : State) (h0 : Sound s.node) : Good (execCallEscalation g s) := by
  unfold execCallEscalation
  refine lift_good (fun n hn => ?_) h0
  refine ite_ind ?_ ?_
  · intro x
    apply Node.callStage_sound
    assumption
  · intro x
    assumption
theorem execCallPulseEnd_sound (m : Moment) (s : State) (h0 : Sound s.node) : Good (execCallPulseEnd m s) := by
  unfold execCallPulseEnd
  refine lift_good (fun n hn => ?_) h0
  refine ite_ind ?_ ?_
  · intro x
    refine sound_mk ?_ rfl rfl rfl
    assumption
  · intro x
    assumption
theorem execCallFrameRepeat_sound (g : Nat) (s : State) (h0 : Sound s.node) : Good (execCallFrameRepeat g s) := by
  unfold execCallFrameRepeat
  refine lift_good (fun n hn => ?_) h0
  extract_lets +onlyGivenNames m6
  clear_value m6
  refine ite_ind ?_ ?_
  · intro x
    apply Node.callFrame_sound
    assumption
  · intro x
    assumption
theorem execPeerValueAge_sound (i : Nat) (s : State) (h0 : Sound s.node) : Good (execPeerValueAge i s) := by
  unfold execPeerValueAge
  refine lift_good (fun n hn => ?_) h0
  extract_lets +onlyGivenNames m6
  clear_value m6
  refine ite_ind ?_ ?_
  · intro x
    apply Node.almRing_sound
    apply Node.putPt_sound
    assumption
  · intro x
    assumption
theorem Node.apApply_sound (n : Node) (keys : Keys) (i : ℕ) (h0 : Sound n) : Sound (Node.apApply n keys i) := by
  unfold Node.apApply
  extract_lets +onlyGivenNames m5
  have hm5 : Sound m5 := by
    unfold m5
    apply Node.setKeys_sound
    assumption
  clear_value m5
  extract_lets +onlyGivenNames m7
  have hm7 : Sound m7 := by
    unfold m7
    split
    · apply Node.setK_sound
      apply Node.setFds_sound
      assumption
    · apply Node.setK_sound
      apply Node.setFds_sound
      assumption
    · assumption
  clear_value m7
  extract_lets +onlyGivenNames m9
  have hm9 : Sound m9 := by
    unfold m9
    split
    · apply Node.setFd_sound
      assumption
    · apply Node.setFds_sound
      assumption
    · assumption
  clear_value m9
  refine ite_ind ?_ ?_
  · intro x
    assumption
  · intro x
    apply Node.dirty_sound
    assumption
theorem Node.apChanged_sound (old : Node) (n : Node) (i : ℕ) (h0 : Sound old) (h1 : Sound n) : Sound (Node.apChanged old n i) := by
  unfold Node.apChanged
  extract_lets +onlyGivenNames m6
  clear_value m6
  extract_lets +onlyGivenNames m7
  clear_value m7
  extract_lets +onlyGivenNames m8
  clear_value m8
  extract_lets +onlyGivenNames m9
  clear_value m9
  refine ite_ind ?_ ?_
  · intro x
    assumption
  · intro x
    refine ite_ind ?_ ?_
    · intro x
      assumption
    · intro x
      refine ite_ind ?_ ?_
      · intro x
        apply Node.putPt_sound
        assumption
      · intro x
        apply Node.putPt_sound
        assumption
theorem setApUnit_sound (keys : Keys) (i : ℕ) (n : Node) (h2 : Sound n) : okE Sound1 (setApUnit keys i n) := by
  unfold setApUnit
  refine okE_bind ?_
  intro x x
  apply okE_pure
  apply sound1_mk
  apply Node.apChanged_sound
  · assumption
  · apply Node.apApply_sound
    assumption
theorem execSetAp_sound (l : Line) (s : State) (h0 : Sound s.node) : Good (execSetAp l s) := by
  unfold execSetAp
  refine lift_good (fun n hn => ?_) h0
  apply Node.runMulti_sound
  · assumption
  · intro x x x
    apply setApUnit_sound
    assumption
theorem Node.engineSet_sound (n : Node) (on : Bool) (h0 : Sound n) : Sound (Node.engineSet n on) := by
  unfold Node.engineSet
  refine ite_ind ?_ ?_
  · intro x
    refine ite_ind ?_ ?_
    · intro x
      assumption
    · intro x
      extract_lets +onlyGivenNames m6
      have hm6 : Sound m6 := by
        unfold m6
        apply Node.setFd_sound
        assumption
      clear_value m6
      extract_lets +onlyGivenNames m8
      have hm8 : Sound m8 := by
        unfold m8
        refine foldl_ok ?_ ?_
        · intro x x x
          apply Node.clearFo_sound
          assumption
        · assumption
      clear_value m8
      refine foldl_ok ?_ ?_
      · intro x x x
        refine ite_ind ?_ ?_
        · intro x
          apply Node.putPt_sound
          assumption
        · intro x
          assumption
      · assumption
  · intro x
    refine ite_ind ?_ ?_
    · intro x
      extract_lets +onlyGivenNames m6
      have hm6 : Sound m6 := by
        unfold m6
        apply Node.setFd_sound
        assumption
      clear_value m6
      refine sound_mk ?_ rfl rfl rfl
      assumption
    · intro x
      assumption
theorem execSetApEngine_sound (l : Line) (s : State) (h0 : Sound s.node) : Good (execSetApEngine l s) := by
  unfold execSetApEngine
  refine lift_good (fun n hn => ?_) h0
  apply Node.runWhole_sound
  · assumption
  · intro x x
    extract_lets +onlyGivenNames m8
    have hm8 : Sound m8 := by
      unfold m8
      apply Node.setKeys_sound
      assumption
    clear_value m8
    apply okE_ok
    apply sound1_mk
    apply Node.engineSet_sound
    assumption
theorem Node.agApply_sound (n : Node) (keys : Keys) (g : ℕ) (h0 : Sound n) : Sound (Node.agApply n keys g) := by
  unfold Node.agApply
  extract_lets +onlyGivenNames m5
  have hm5 : Sound m5 := by
    unfold m5
    apply Node.setKeys_sound
    assumption
  clear_value m5
  split
  · apply Node.dirty_sound
    apply Node.setFd_sound
    assumption
  · apply Node.dirty_sound
    apply Node.setFds_sound
    assumption
  · assumption
theorem setAgUnit_sound (keys : Keys) (g : ℕ) (n : Node) (h2 : Sound n) : okE Sound1 (setAgUnit keys g n) := by
  unfold setAgUnit
  refine okE_bind ?_
  intro x x
  apply okE_pure
  apply sound1_mk
  apply Node.agApply_sound
  assumption
theorem execSetAg_sound (l : Line) (s : State) (h0 : Sound s.node) : Good (execSetAg l s) := by
  unfold execSetAg
  refine lift_good (fun n hn => ?_) h0
  apply Node.runMulti_sound
  · assumption
  · intro x x x
    apply setAgUnit_sound
    assumption
theorem execSetCall_sound (l : Line) (s : State) (h0 : Sound s.node) : Good (execSetCall l s) := by
  unfold execSetCall
  refine lift_good (fun n hn => ?_) h0
  apply Node.runWhole_sound
  · assumption
  · intro x x
    apply okE_ok
    apply sound1_mk
    apply Node.setKeys_sound
    assumption
theorem setCallUnit_sound (keys : Keys) (k : ℕ) (n : Node) (h2 : Sound n) : okE Sound1 (setCallUnit keys k n) := by
  unfold setCallUnit
  refine okE_bind ?_
  intro x x
  refine okE_bind ?_
  intro x x
  apply okE_pure
  apply sound1_mk
  apply Node.setKeys_sound
  assumption
theorem execSetCallLine_sound (l : Line) (s : State) (h0 : Sound s.node) : Good (execSetCallLine l s) := by
  unfold execSetCallLine
  refine lift_good (fun n hn => ?_) h0
  apply Node.runMulti_sound
  · assumption
  · intro x x x
    apply setCallUnit_sound
    assumption
theorem execGetAp_sound (l : Line) (s : State) (h0 : Sound s.node) : Good (execGetAp l s) := by
  unfold execGetAp
  refine lift_good (fun n hn => ?_) h0
  apply Node.runRead_sound
  assumption
theorem execGetAg_sound (l : Line) (s : State) (h0 : Sound s.node) : Good (execGetAg l s) := by
  unfold execGetAg
  refine lift_good (fun n hn => ?_) h0
  apply Node.runRead_sound
  assumption
theorem execGetCall_sound (l : Line) (s : State) (h0 : Sound s.node) : Good (execGetCall l s) := by
  unfold execGetCall
  refine lift_good (fun n hn => ?_) h0
  apply Node.runRead_sound
  assumption
theorem execShowAp_sound (l : Line) (s : State) (h0 : Sound s.node) : Good (execShowAp l s) := by
  unfold execShowAp
  refine lift_good (fun n hn => ?_) h0
  apply Node.runRead_sound
  assumption
theorem execShowAg_sound (l : Line) (s : State) (h0 : Sound s.node) : Good (execShowAg l s) := by
  unfold execShowAg
  refine lift_good (fun n hn => ?_) h0
  apply Node.runRead_sound
  assumption
theorem execShowCall_sound (l : Line) (s : State) (h0 : Sound s.node) : Good (execShowCall l s) := by
  unfold execShowCall
  refine lift_good (fun n hn => ?_) h0
  apply Node.runRead_sound
  assumption
theorem execWatchAp_sound (l : Line) (s : State) (h0 : Sound s.node) : Good (execWatchAp l s) := by
  unfold execWatchAp
  refine lift_good (fun n hn => ?_) h0
  apply Node.runWatch_sound
  assumption
theorem apAckUnit_sound (keys : Keys) (i : ℕ) (n : Node) (h2 : Sound n) : okE Sound1 (apAckUnit keys i n) := by
  unfold apAckUnit
  refine okE_bind ?_
  intro x x
  apply okE_pure
  apply sound1_mk
  apply Node.ack_sound
  assumption
theorem execDoApAck_sound (l : Line) (s : State) (h0 : Sound s.node) : Good (execDoApAck l s) := by
  unfold execDoApAck
  refine lift_good (fun n hn => ?_) h0
  apply Node.runMulti_sound
  · assumption
  · intro x x x
    apply apAckUnit_sound
    assumption
theorem agAckUnit_sound (keys : Keys) (g : ℕ) (n : Node) (h2 : Sound n) : okE Sound1 (agAckUnit keys g n) := by
  unfold agAckUnit
  refine okE_bind ?_
  intro x x
  extract_lets +onlyGivenNames m7
  clear_value m7
  apply okE_pure
  apply sound1_mk
  apply Node.ackGroup_sound
  assumption
theorem execDoAgAck_sound (l : Line) (s : State) (h0 : Sound s.node) : Good (execDoAgAck l s) := by
  unfold execDoAgAck
  refine lift_good (fun n hn => ?_) h0
  apply Node.runMulti_sound
  · assumption
  · intro x x x
    apply agAckUnit_sound
    assumption
theorem execAlmAckWrite_sound (v : Word) (s : State) (h0 : Sound s.node) : Good (execAlmAckWrite v s) := by
  unfold execAlmAckWrite
  refine lift_good (fun n hn => ?_) h0
  refine ite_ind ?_ ?_
  · intro x
    apply Node.ackWrite_sound
    assumption
  · intro x
    assumption
theorem apShelveUnit_sound (keys : Keys) (i : ℕ) (n : Node) (h2 : Sound n) : okE Sound1 (apShelveUnit keys i n) := by
  unfold apShelveUnit
  refine okE_bind ?_
  intro x x
  apply okE_pure
  apply sound1_mk
  apply Node.shelve_sound
  assumption
theorem execDoApShelve_sound (l : Line) (s : State) (h0 : Sound s.node) : Good (execDoApShelve l s) := by
  unfold execDoApShelve
  refine lift_good (fun n hn => ?_) h0
  apply Node.runMulti_sound
  · assumption
  · intro x x x
    apply apShelveUnit_sound
    assumption
theorem apUnshelveUnit_sound (keys : Keys) (i : ℕ) (n : Node) (h2 : Sound n) : okE Sound1 (apUnshelveUnit keys i n) := by
  unfold apUnshelveUnit
  refine okE_bind ?_
  intro x x
  apply okE_pure
  apply sound1_mk
  refine ite_ind ?_ ?_
  · intro x
    apply Node.unshelve_sound
    assumption
  · intro x
    assumption
theorem execDoApUnshelve_sound (l : Line) (s : State) (h0 : Sound s.node) : Good (execDoApUnshelve l s) := by
  unfold execDoApUnshelve
  refine lift_good (fun n hn => ?_) h0
  apply Node.runMulti_sound
  · assumption
  · intro x x x
    apply apUnshelveUnit_sound
    assumption
theorem agForesetUnit_sound (keys : Keys) (g : ℕ) (n : Node) (h2 : Sound n) : okE Sound1 (agForesetUnit keys g n) := by
  unfold agForesetUnit
  refine okE_bind ?_
  intro x x
  apply okE_pure
  apply sound1_mk
  apply Node.clearFo_sound
  assumption
theorem execDoAgForeset_sound (l : Line) (s : State) (h0 : Sound s.node) : Good (execDoAgForeset l s) := by
  unfold execDoAgForeset
  refine lift_good (fun n hn => ?_) h0
  apply Node.runMulti_sound
  · assumption
  · intro x x x
    apply agForesetUnit_sound
    assumption
theorem Node.almCfgErr_sound (n : Node) (h0 : Sound n) : Sound (Node.almCfgErr n) := by
  unfold Node.almCfgErr
  apply Node.almRing_sound
  apply Node.setOn_sound
  assumption
theorem Node.reloadKid_sound (n : Node) (k : ℕ) (h0 : Sound n) : Sound (Node.reloadKid n k) := by
  unfold Node.reloadKid
  apply Node.setK_sound
  assumption
theorem Node.apLoad_sound (n : Node) (i : ℕ) (h0 : Sound n) : Sound (Node.apLoad n i) := by
  unfold Node.apLoad
  extract_lets +onlyGivenNames m4
  have hm4 : Sound m4 := by
    unfold m4
    apply Node.reloadKid_sound
    apply Node.reloadRegs_sound
    assumption
  clear_value m4
  refine ite_ind ?_ ?_
  · intro x
    assumption
  · intro x
    extract_lets +onlyGivenNames m7
    have hm7 : Sound m7 := by
      unfold m7
      refine ite_ind ?_ ?_
      · intro x
        assumption
      · intro x
        refine foldl_ok ?_ ?_
        · intro x x x
          apply Node.wr_sound
          assumption
        · assumption
    clear_value m7
    apply Node.almCfgErr_sound
    refine ite_ind ?_ ?_
    · intro x
      assumption
    · intro x
      apply Node.setK_sound
      refine foldl_ok ?_ ?_
      · intro x x x
        apply Node.wr_sound
        assumption
      · assumption
theorem Node.apReinit_sound (n : Node) (i : ℕ) (h0 : Sound n) : Sound (Node.apReinit n i) := by
  unfold Node.apReinit
  extract_lets +onlyGivenNames m4
  have hm4 : Sound m4 := by
    unfold m4
    assumption
  clear_value m4
  extract_lets +onlyGivenNames m6
  have hm6 : Sound m6 := by
    unfold m6
    apply Node.apLoad_sound
    assumption
  clear_value m6
  refine ite_ind ?_ ?_
  · intro x
    extract_lets +onlyGivenNames m9
    clear_value m9
    apply Node.putPt_sound
    assumption
  · intro x
    assumption
theorem Node.agLoad_sound (n : Node) (g : ℕ) (h0 : Sound n) : Sound (Node.agLoad n g) := by
  unfold Node.agLoad
  extract_lets +onlyGivenNames m4
  have hm4 : Sound m4 := by
    unfold m4
    apply Node.reloadKid_sound
    apply Node.reloadRegs_sound
    assumption
  clear_value m4
  refine ite_ind ?_ ?_
  · intro x
    assumption
  · intro x
    apply Node.almCfgErr_sound
    refine foldl_ok ?_ ?_
    · intro x x x
      apply Node.wr_sound
      assumption
    · assumption
theorem Node.agReinit_sound (n : Node) (g : ℕ) (h0 : Sound n) : Sound (Node.agReinit n g) := by
  unfold Node.agReinit
  extract_lets +onlyGivenNames m4
  have hm4 : Sound m4 := by
    unfold m4
    apply Node.agLoad_sound
    assumption
  clear_value m4
  extract_lets +onlyGivenNames m6
  have hm6 : Sound m6 := by
    unfold m6
    refine ite_ind ?_ ?_
    · intro x
      apply Node.grpRecord_sound
      apply Node.almRing_sound
      apply Node.setFds_sound
      assumption
    · intro x
      assumption
  clear_value m6
  apply Node.clearFo_sound
  assumption
theorem Node.callLoad_sound (n : Node) (h0 : Sound n) : Sound (Node.callLoad n) := by
  unfold Node.callLoad
  extract_lets +onlyGivenNames m3
  have hm3 : Sound m3 := by
    unfold m3
    apply Node.reloadRegs_sound
    assumption
  clear_value m3
  refine ite_ind ?_ ?_
  · intro x
    assumption
  · intro x
    apply Node.almCfgErr_sound
    refine foldl_ok ?_ ?_
    · intro x x x
      apply Node.wr_sound
      assumption
    · assumption
theorem Node.callRestart_sound (n : Node) (w : Wh) (h0 : Sound n) : Sound (Node.callRestart n w) := by
  unfold Node.callRestart
  refine foldl_ok ?_ ?_
  · intro x x x
    refine ite_ind ?_ ?_
    · intro x
      assumption
    · intro x
      apply Node.callStage_sound
      apply Node.setGrp_sound
      assumption
  · assumption
theorem Node.callReinit_sound (n : Node) (h0 : Sound n) : Sound (Node.callReinit n) := by
  unfold Node.callReinit
  apply Node.callRestart_sound
  apply Node.callLoad_sound
  assumption
theorem execDoApReinit_sound (l : Line) (s : State) (h0 : Sound s.node) : Good (execDoApReinit l s) := by
  unfold execDoApReinit
  refine lift_good (fun n hn => ?_) h0
  apply Node.runOpen_sound
  · assumption
  · intro x x
    refine okE_bind ?_
    intro x x
    refine okE_bind ?_
    intro x x
    refine okE_bind ?_
    intro x x
    apply okE_pure
    apply Node.startMr_sound
    assumption
theorem execDoAgReinit_sound (l : Line) (s : State) (h0 : Sound s.node) : Good (execDoAgReinit l s) := by
  unfold execDoAgReinit
  refine lift_good (fun n hn => ?_) h0
  apply Node.runOpen_sound
  · assumption
  · intro x x
    refine okE_bind ?_
    intro x x
    refine okE_bind ?_
    intro x x
    refine okE_bind ?_
    intro x x
    apply okE_pure
    apply Node.startMr_sound
    assumption
theorem execDoCallReinit_sound (l : Line) (s : State) (h0 : Sound s.node) : Good (execDoCallReinit l s) := by
  unfold execDoCallReinit
  refine lift_good (fun n hn => ?_) h0
  apply Node.runOpen_sound
  · assumption
  · intro x x
    refine okE_bind ?_
    intro x x
    refine okE_bind ?_
    intro x x
    refine okE_bind ?_
    intro x x
    apply okE_pure
    apply Node.startMr_sound
    assumption
theorem Node.almLoad_sound (n : Node) (h0 : Sound n) : Sound (Node.almLoad n) := by
  unfold Node.almLoad
  extract_lets +onlyGivenNames m3
  have hm3 : Sound m3 := by
    unfold m3
    apply Node.setFds_sound
    assumption
  clear_value m3
  refine foldl_ok ?_ ?_
  · intro x x x
    refine ite_ind ?_ ?_
    · intro x
      apply Node.putPt_sound
      assumption
    · intro x
      assumption
  · assumption
theorem Node.almWake_sound (n : Node) (h0 : Sound n) : Sound (Node.almWake n) := by
  unfold Node.almWake
  extract_lets +onlyGivenNames m3
  have hm3 : Sound m3 := by
    unfold m3
    refine foldl_ok ?_ ?_
    · intro x x x
      refine ite_ind ?_ ?_
      · intro x
        assumption
      · intro x
        apply Node.setGrp_sound
        assumption
    · assumption
  clear_value m3
  refine foldl_ok ?_ ?_
  · intro x x x
    extract_lets +onlyGivenNames m8
    clear_value m8
    apply Node.putPt_sound
    assumption
  · assumption
end Sys2Proof.Machine
end

