-- ==== Sys2Proof/Laws/SoundRecv.lean ====
section
/-! SUPPORT. Every operation and every meaning of Machine/Recv.lean keeps `Sound`. -/
set_option linter.unusedVariables false
namespace Sys2Proof.Machine
theorem Node.countCrc_sound (n : Node) (p : Port) (c : ℕ) (h0 : Sound n) : Sound (Node.countCrc n p c) := by
  unfold Node.countCrc
  refine ite_ind ?_ ?_
  · intro x
    apply Node.bump_sound
    apply Node.setPort_sound
    assumption
  · intro x
    assumption
theorem Node.serve_sound (n : Node) (p : Port) (y2 : ℕ) (h0 : Sound n) : Sound (Node.serve n p y2) := by
  unfold Node.serve
  split
  · assumption
  · refine ite_ind ?_ ?_
    · intro x
      assumption
    · intro x
      split
      · assumption
      · split
        · assumption
        · extract_lets +onlyGivenNames m19
          extract_lets +onlyGivenNames m20
          have hm20 : Sound m20 := by
            unfold m20
            apply Node.setPort_sound
            assumption
          clear_value m20
          extract_lets +onlyGivenNames m22
          have hm22 : Sound m22 := by
            unfold m22
            apply Node.countCrc_sound
            assumption
          clear_value m22
          apply Node.serve_sound
          apply Node.send_sound
          assumption
theorem Node.hostBack_sound (n : Node) (m : Moment) (h0 : Sound n) : Sound (Node.hostBack n m) := by
  unfold Node.hostBack
  extract_lets +onlyGivenNames m4
  have hm4 : Sound m4 := by
    unfold m4
    apply Node.setOn_sound
    assumption
  clear_value m4
  extract_lets +onlyGivenNames m6
  have hm6 : Sound m6 := by
    unfold m6
    apply Node.raiseM_sound
    assumption
  clear_value m6
  apply Node.notify_sound
  assumption
theorem Node.lineIn_sound (n : Node) (p : Port) (cs : List ℕ) (station : ℕ) (via : ℕ) (bulk : Bool) (m : Moment) (h0 : Sound n) : Sound (Node.lineIn n p cs station via bulk m) := by
  unfold Node.lineIn
  refine ite_ind ?_ ?_
  · intro x
    assumption
  · intro x
    extract_lets +onlyGivenNames m10
    clear_value m10
    extract_lets +onlyGivenNames m11
    clear_value m11
    extract_lets +onlyGivenNames m12
    clear_value m12
    extract_lets +onlyGivenNames m13
    have hm13 : Sound m13 := by
      unfold m13
      apply Node.setPort_sound
      assumption
    clear_value m13
    extract_lets +onlyGivenNames m15
    extract_lets +onlyGivenNames m16
    have hm16 : Sound m16 := by
      unfold m16
      refine ite_ind ?_ ?_
      · intro x
        refine sound_mk ?_ rfl rfl rfl
        assumption
      · intro x
        assumption
    clear_value m16
    extract_lets +onlyGivenNames m18
    have hm18 : Sound m18 := by
      unfold m18
      refine ite_ind ?_ ?_
      · intro x
        apply Node.hostBack_sound
        assumption
      · intro x
        assumption
    clear_value m18
    extract_lets +onlyGivenNames m20
    clear_value m20
    extract_lets +onlyGivenNames m21
    clear_value m21
    extract_lets +onlyGivenNames m22
    clear_value m22
    refine ite_ind ?_ ?_
    · intro x
      apply Node.setPort_sound
      assumption
    · intro x
      extract_lets +onlyGivenNames m24
      clear_value m24
      extract_lets +onlyGivenNames m25
      clear_value m25
      refine ite_ind ?_ ?_
      · intro x
        extract_lets +onlyGivenNames m27
        clear_value m27
        refine ite_ind ?_ ?_
        · intro x
          apply Node.setPort_sound
          assumption
        · intro x
          apply Node.setPort_sound
          assumption
      · intro x
        extract_lets +onlyGivenNames m27
        clear_value m27
        apply Node.serve_sound
        apply Node.setPort_sound
        assumption
end Sys2Proof.Machine
end

