-- ==== Sys2Proof/Laws/SoundBus.lean ====
section
/-! SUPPORT. Every operation and every meaning of Machine/Bus.lean keeps `Sound`. -/
set_option linter.unusedVariables false
namespace Sys2Proof.Machine
theorem Node.setBp_sound (n : Node) (p : ℕ) (x : BusPort) (h0 : Sound n) : Sound (Node.setBp n p x) := by
  unfold Node.setBp
  refine sound_mk ?_ rfl rfl rfl
  assumption
theorem Node.busRing_sound (n : Node) (p : ℕ) (o : ℕ) (h0 : Sound n) : Sound (Node.busRing n p o) := by
  unfold Node.busRing
  apply Node.ring_sound
  assumption
theorem Node.busRec_sound (n : Node) (c : ℕ) (pl : List ℕ) (p : ℕ) (m : Moment) (h0 : Sound n) : Sound (Node.busRec n c pl p m) := by
  unfold Node.busRec
  apply Node.raiseM_sound
  assumption
theorem Node.busEvt_sound (n : Node) (f : ℕ → Fd) (p : ℕ) (h0 : Sound n) : Sound (Node.busEvt n f p) := by
  unfold Node.busEvt
  apply Node.setOn_sound
  assumption
theorem Node.busWatch_sound (n : Node) (p : ℕ) (what : String) (val : String) (h0 : Sound n) : Sound (Node.busWatch n p what val) := by
  unfold Node.busWatch
  apply Node.notifyWatch_sound
  assumption
theorem Node.endSendWait_sound (n : Node) (p : ℕ) (m : ℕ) (sent : Bool) (h0 : Sound n) : Sound (Node.endSendWait n p m sent) := by
  unfold Node.endSendWait
  refine foldl_ok ?_ ?_
  · intro x x x
    split
    · refine ite_ind ?_ ?_
      · intro x
        extract_lets +onlyGivenNames m15
        extract_lets +onlyGivenNames m16
        have hm16 : Sound m16 := by
          unfold m16
          apply Node.setPort_sound
          assumption
        clear_value m16
        refine ite_ind ?_ ?_
        · intro x
          apply Node.send_sound
          assumption
        · intro x
          apply Node.send_sound
          assumption
      · intro x
        assumption
    · assumption
  · assumption
theorem Node.mbEnd_sound (n : Node) (p : ℕ) (m : ℕ) (sent : Bool) (h0 : Sound n) : Sound (Node.mbEnd n p m sent) := by
  unfold Node.mbEnd
  extract_lets +onlyGivenNames m6
  have hm6 : Sound m6 := by
    unfold m6
    apply Node.setFd_sound
    assumption
  clear_value m6
  extract_lets +onlyGivenNames m8
  clear_value m8
  extract_lets +onlyGivenNames m9
  have hm9 : Sound m9 := by
    unfold m9
    apply Node.setBp_sound
    assumption
  clear_value m9
  extract_lets +onlyGivenNames m11
  have hm11 : Sound m11 := by
    unfold m11
    refine ite_ind ?_ ?_
    · intro x
      apply Node.busRing_sound
      assumption
    · intro x
      assumption
  clear_value m11
  apply Node.endSendWait_sound
  assumption
theorem Node.loadMsg_sound (n : Node) (p : ℕ) (o : OutMsg) (h0 : Sound n) : okO Sound (Node.loadMsg n p o) := by
  unfold Node.loadMsg
  extract_lets +onlyGivenNames m5
  clear_value m5
  refine ite_ind ?_ ?_
  · intro x
    exact okO_none
  · intro x
    split
    · exact okO_none
    · extract_lets +onlyGivenNames m12
      have hm12 : ∀ x0 x1 x2 x3, Sound x0 → Sound (m12 x0 x1 x2 x3) := by
        unfold m12
        intro x x x x x
        apply Node.setFds_sound
        assumption
      clear_value m12
      extract_lets +onlyGivenNames m14
      have hm14 : Sound m14 := by
        unfold m14
        apply Node.setBp_sound
        assumption
      clear_value m14
      split
      · apply okO_some
        apply Node.setBytes_sound
        apply_assumption
        assumption
      · extract_lets +onlyGivenNames m21
        clear_value m21
        split
        · exact okO_none
        · extract_lets +onlyGivenNames m27
          have hm27 : Sound m27 := by
            unfold m27
            apply Node.setBytes_sound
            apply_assumption
            assumption
          clear_value m27
          apply okO_some
          refine ite_ind ?_ ?_
          · intro x
            assumption
          · intro x
            refine sound_mk ?_ rfl rfl rfl
            assumption
theorem Node.pump_sound (n : Node) (p : ℕ) (h0 : Sound n) : Sound (Node.pump n p) := by
  unfold Node.pump
  refine foldl_ok ?_ ?_
  · intro x x x
    split
    · refine okO_eq (by assumption) ?_
      apply Node.loadMsg_sound
      assumption
    · apply Node.setBp_sound
      assumption
  · apply Node.setBp_sound
    assumption
theorem Node.wakeBegin_sound (n : Node) (p : ℕ) (cause : ℕ) (h0 : Sound n) : Sound (Node.wakeBegin n p cause) := by
  unfold Node.wakeBegin
  extract_lets +onlyGivenNames m5
  clear_value m5
  refine ite_ind ?_ ?_
  · intro x
    apply Node.setBp_sound
    assumption
  · intro x
    refine ite_ind ?_ ?_
    · intro x
      apply Node.setBp_sound
      assumption
    · intro x
      assumption
theorem Node.wakeBoth_sound (n : Node) (p : ℕ) (cause : ℕ) (h0 : Sound n) : Sound (Node.wakeBoth n p cause) := by
  unfold Node.wakeBoth
  refine ite_ind ?_ ?_
  · intro x
    apply Node.wakeBegin_sound
    apply Node.wakeBegin_sound
    assumption
  · intro x
    apply Node.wakeBegin_sound
    assumption
theorem Node.queueMsg_sound (n : Node) (p : ℕ) (o : OutMsg) (h0 : Sound n) : Sound (Node.queueMsg n p o) := by
  unfold Node.queueMsg
  refine ite_ind ?_ ?_
  · intro x
    assumption
  · intro x
    extract_lets +onlyGivenNames m6
    clear_value m6
    extract_lets +onlyGivenNames m7
    have hm7 : Sound m7 := by
      unfold m7
      apply Node.setBp_sound
      assumption
    clear_value m7
    extract_lets +onlyGivenNames m9
    have hm9 : Sound m9 := by
      unfold m9
      apply Node.pump_sound
      assumption
    clear_value m9
    refine ite_ind ?_ ?_
    · intro x
      apply Node.wakeBoth_sound
      assumption
    · intro x
      assumption
theorem Node.sendBoth_sound (n : Node) (o : OutMsg) (h0 : Sound n) : Sound (Node.sendBoth n o) := by
  unfold Node.sendBoth
  apply Node.queueMsg_sound
  apply Node.queueMsg_sound
  assumption
theorem Node.sendLink_sound (n : Node) (p : ℕ) (o : OutMsg) (h0 : Sound n) : Sound (Node.sendLink n p o) := by
  unfold Node.sendLink
  refine ite_ind ?_ ?_
  · intro x
    apply Node.queueMsg_sound
    assumption
  · intro x
    apply Node.sendBoth_sound
    assumption
theorem Node.busIdle_sound (n : Node) (p : ℕ) (h0 : Sound n) : Sound (Node.busIdle n p) := by
  unfold Node.busIdle
  extract_lets +onlyGivenNames m4
  clear_value m4
  refine ite_ind ?_ ?_
  · intro x
    apply Node.setBp_sound
    assumption
  · intro x
    assumption
theorem Node.wayDrop_sound (n : Node) (p : ℕ) (m : Moment) (h0 : Sound n) : Sound (Node.wayDrop n p m) := by
  unfold Node.wayDrop
  extract_lets +onlyGivenNames m5
  have hm5 : Sound m5 := by
    unfold m5
    apply Node.bump_sound
    assumption
  clear_value m5
  extract_lets +onlyGivenNames m7
  clear_value m7
  refine ite_ind ?_ ?_
  · intro x
    refine sound_mk ?_ rfl rfl rfl
    assumption
  · intro x
    extract_lets +onlyGivenNames m9
    extract_lets +onlyGivenNames m10
    have hm10 : Sound m10 := by
      unfold m10
      refine sound_mk ?_ rfl rfl rfl
      assumption
    clear_value m10
    apply Node.busRing_sound
    apply Node.raiseM_sound
    assumption
theorem Node.wayPrune_sound (n : Node) (p : ℕ) (m : Moment) (h0 : Sound n) : Sound (Node.wayPrune n p m) := by
  unfold Node.wayPrune
  extract_lets +onlyGivenNames m5
  clear_value m5
  extract_lets +onlyGivenNames m6
  clear_value m6
  extract_lets +onlyGivenNames m7
  have hm7 : Sound m7 := by
    unfold m7
    refine sound_mk ?_ rfl rfl rfl
    assumption
  clear_value m7
  refine foldl_ok ?_ ?_
  · intro x x x
    apply Node.wayDrop_sound
    assumption
  · assumption
theorem Node.txStart_sound (n : Node) (p : ℕ) (m : Moment) (h0 : Sound n) : Sound (Node.txStart n p m) := by
  unfold Node.txStart
  refine ite_ind ?_ ?_
  · intro x
    assumption
  · intro x
    extract_lets +onlyGivenNames m6
    have hm6 : Sound m6 := by
      unfold m6
      apply Node.wayPrune_sound
      apply Node.busIdle_sound
      assumption
    clear_value m6
    extract_lets +onlyGivenNames m8
    clear_value m8
    extract_lets +onlyGivenNames m9
    clear_value m9
    extract_lets +onlyGivenNames m10
    clear_value m10
    extract_lets +onlyGivenNames m11
    clear_value m11
    split
    · assumption
    · extract_lets +onlyGivenNames m19
      clear_value m19
      split
      · assumption
      · apply Node.setBp_sound
        assumption
theorem Node.errState_sound (n : Node) (p : ℕ) (h0 : Sound n) : Sound (Node.errState n p) := by
  unfold Node.errState
  refine ite_ind ?_ ?_
  · intro x
    assumption
  · intro x
    extract_lets +onlyGivenNames m5
    clear_value m5
    refine ite_ind ?_ ?_
    · intro x
      assumption
    · intro x
      apply Node.busWatch_sound
      apply Node.setFd_sound
      assumption
theorem Node.txGood_sound (n : Node) (p : ℕ) (h0 : Sound n) : Sound (Node.txGood n p) := by
  unfold Node.txGood
  apply Node.errState_sound
  apply Node.setFd_sound
  assumption
theorem Node.rxGood_sound (n : Node) (p : ℕ) (h0 : Sound n) : Sound (Node.rxGood n p) := by
  unfold Node.rxGood
  extract_lets +onlyGivenNames m4
  clear_value m4
  refine ite_ind ?_ ?_
  · intro x
    apply Node.errState_sound
    apply Node.setFd_sound
    assumption
  · intro x
    split
    apply Node.errState_sound
    apply Node.setFd_sound
    refine sound2_eq (by assumption) ?_
    apply Node.fresh_sound
    assumption
theorem Node.setEv_sound (n : Node) (q : ℕ) (e : ℕ) (w : ℕ) (h0 : Sound n) : Sound (Node.setEv n q e w) := by
  unfold Node.setEv
  apply Node.setBytes_sound
  apply Node.wr_sound
  assumption
theorem Node.armGates_sound (n : Node) (p : ℕ) (r : RxA) (m : Moment) (h0 : Sound n) : Sound (Node.armGates n p r m) := by
  unfold Node.armGates
  extract_lets +onlyGivenNames m6
  clear_value m6
  split
  · assumption
  · refine ite_ind ?_ ?_
    · intro x
      assumption
    · intro x
      refine foldl_ok ?_ ?_
      · intro x x x
        refine ite_ind ?_ ?_
        · intro x
          extract_lets +onlyGivenNames m18
          clear_value m18
          apply Node.setOn_sound
          apply Node.setBp_sound
          assumption
        · intro x
          assumption
      · assumption
theorem Node.freeGate_sound (n : Node) (q : ℕ) (g : ℕ) (h0 : Sound n) : Sound (Node.freeGate n q g) := by
  unfold Node.freeGate
  apply Node.setBp_sound
  assumption
theorem Node.gateOff_sound (n : Node) (q : ℕ) (g : ℕ) (h0 : Sound n) : Sound (Node.gateOff n q g) := by
  unfold Node.gateOff
  extract_lets +onlyGivenNames m5
  have hm5 : Sound m5 := by
    unfold m5
    apply Node.freeGate_sound
    apply Node.setOn_sound
    assumption
  clear_value m5
  apply Node.setBp_sound
  assumption
theorem Node.gatesDone_sound (n : Node) (q : ℕ) (filts : List ℕ) (fire : Bool) (m : Moment) (h0 : Sound n) : Sound (Node.gatesDone n q filts fire m) := by
  unfold Node.gatesDone
  refine foldl_ok ?_ ?_
  · intro x x x
    split
    refine ite_ind ?_ ?_
    · intro x
      extract_lets +onlyGivenNames m17
      have hm17 : Sound m17 := by
        unfold m17
        apply Node.setOn_sound
        assumption
      clear_value m17
      refine ite_ind ?_ ?_
      · intro x
        extract_lets +onlyGivenNames m20
        have hm20 : Sound m20 := by
          unfold m20
          apply Node.busRing_sound
          apply Node.setOn_sound
          assumption
        clear_value m20
        refine ite_ind ?_ ?_
        · intro x
          assumption
        · intro x
          apply Node.setBp_sound
          assumption
      · intro x
        apply Node.freeGate_sound
        assumption
    · intro x
      assumption
  · assumption
theorem Node.hwWrite_sound (n : Node) (pins : List ℕ) (level : Node → ℕ → Bool) (h0 : Sound n) : Sound (Node.hwWrite n pins level) := by
  unfold Node.hwWrite
  refine ite_ind ?_ ?_
  · intro x
    assumption
  · intro x
    extract_lets +onlyGivenNames m6
    have hm6 : Sound m6 := by
      unfold m6
      refine foldl_ok ?_ ?_
      · intro x x x
        apply Node.setOn_sound
        assumption
      · assumption
    clear_value m6
    apply Node.setFd_sound
    assumption
theorem Node.hwWriteIf_sound (n : Node) (pick : ℕ → Bool) (h0 : Sound n) : Sound (Node.hwWriteIf n pick) := by
  unfold Node.hwWriteIf
  refine foldl_ok ?_ ?_
  · intro x x x
    apply Node.hwWrite_sound
    assumption
  · assumption
theorem Node.hwSync_sound (n : Node) (h0 : Sound n) : Sound (Node.hwSync n) := by
  unfold Node.hwSync
  apply Node.hwWriteIf_sound
  assumption
theorem Node.hwGates_sound (n : Node) (q : ℕ) (h0 : Sound n) : Sound (Node.hwGates n q) := by
  unfold Node.hwGates
  apply Node.hwWriteIf_sound
  assumption
theorem Node.earlyMatch_sound (n : Node) (p : ℕ) (f : Frame) (len : ℕ) (sof : ℕ) (h0 : Sound n) : Sound (Node.earlyMatch n p f len sof) := by
  unfold Node.earlyMatch
  split
  · assumption
  extract_lets +onlyGivenNames m7
  clear_value m7
  extract_lets +onlyGivenNames m8
  clear_value m8
  split
  · apply Node.setBp_sound
    assumption
  · split
    · apply Node.bump_sound
      apply Node.setBp_sound
      assumption
    · extract_lets +onlyGivenNames m20
      clear_value m20
      extract_lets +onlyGivenNames m21
      have hm21 : Sound m21 := by
        unfold m21
        apply Node.setEv_sound
        assumption
      clear_value m21
      extract_lets +onlyGivenNames m23
      clear_value m23
      extract_lets +onlyGivenNames m24
      have hm24 : Sound m24 := by
        unfold m24
        apply Node.setFd_sound
        apply Node.setBytes_sound
        assumption
      clear_value m24
      extract_lets +onlyGivenNames m26
      extract_lets +onlyGivenNames m27
      have hm27 : Sound m27 := by
        unfold m27
        apply Node.setBp_sound
        assumption
      clear_value m27
      apply Node.busRing_sound
      assumption
theorem Node.earlyBytes_sound (n : Node) (p : ℕ) (bytes : List Byte) (m : Moment) (h0 : Sound n) : Sound (Node.earlyBytes n p bytes m) := by
  unfold Node.earlyBytes
  split
  · assumption
  · extract_lets +onlyGivenNames m11
    clear_value m11
    extract_lets +onlyGivenNames m12
    clear_value m12
    extract_lets +onlyGivenNames m13
    clear_value m13
    extract_lets +onlyGivenNames m14
    clear_value m14
    extract_lets +onlyGivenNames m15
    clear_value m15
    extract_lets +onlyGivenNames m16
    clear_value m16
    extract_lets +onlyGivenNames m17
    have hm17 : Sound m17 := by
      unfold m17
      apply Node.setEv_sound
      apply Node.setBytes_sound
      assumption
    clear_value m17
    extract_lets +onlyGivenNames m19
    clear_value m19
    extract_lets +onlyGivenNames m20
    have hm20 : Sound m20 := by
      unfold m20
      apply Node.setBp_sound
      assumption
    clear_value m20
    refine ite_ind ?_ ?_
    · intro x
      apply Node.armGates_sound
      assumption
    · intro x
      assumption
theorem Node.earlyEnd_sound (n : Node) (p : ℕ) (ok : Bool) (m : Moment) (h0 : Sound n) : Sound (Node.earlyEnd n p ok m) := by
  unfold Node.earlyEnd
  split
  · apply Node.setBp_sound
    assumption
  · extract_lets +onlyGivenNames m11
    clear_value m11
    extract_lets +onlyGivenNames m12
    clear_value m12
    extract_lets +onlyGivenNames m13
    have hm13 : Sound m13 := by
      unfold m13
      apply Node.setEv_sound
      assumption
    clear_value m13
    extract_lets +onlyGivenNames m15
    extract_lets +onlyGivenNames m16
    have hm16 : Sound m16 := by
      unfold m16
      apply Node.setBp_sound
      assumption
    clear_value m16
    apply Node.hwGates_sound
    apply Node.gatesDone_sound
    apply Node.busRing_sound
    assumption
theorem Node.fifoPush_sound (n : Node) (p : ℕ) (f : Frame) (filt : ℕ) (sof : ℕ) (h0 : Sound n) : Sound (Node.fifoPush n p f filt sof) := by
  unfold Node.fifoPush
  extract_lets +onlyGivenNames m7
  clear_value m7
  extract_lets +onlyGivenNames m8
  clear_value m8
  refine ite_ind ?_ ?_
  · intro x
    apply Node.busEvt_sound
    apply Node.bump_sound
    assumption
  · intro x
    extract_lets +onlyGivenNames m10
    clear_value m10
    extract_lets +onlyGivenNames m11
    have hm11 : Sound m11 := by
      unfold m11
      apply Node.setBytes_sound
      assumption
    clear_value m11
    extract_lets +onlyGivenNames m13
    have hm13 : Sound m13 := by
      unfold m13
      apply Node.setFd_sound
      assumption
    clear_value m13
    refine ite_ind ?_ ?_
    · intro x
      apply Node.busRing_sound
      apply Node.setBp_sound
      assumption
    · intro x
      assumption
theorem Node.fifoPop_sound (n : Node) (p : ℕ) (h0 : Sound n) : Sound (Node.fifoPop n p) := by
  unfold Node.fifoPop
  extract_lets +onlyGivenNames m4
  clear_value m4
  refine ite_ind ?_ ?_
  · intro x
    assumption
  · intro x
    apply Node.setFds_sound
    assumption
theorem Node.carDiscard_sound (n : Node) (p : ℕ) (cause : ℕ) (src : ℕ) (num : ℕ) (m : Moment) (h0 : Sound n) : Sound (Node.carDiscard n p cause src num m) := by
  unfold Node.carDiscard
  apply Node.busRing_sound
  apply Node.busRec_sound
  apply Node.busEvt_sound
  assumption
theorem Node.userCaravan_sound (n : Node) (p : ℕ) (f : Frame) (filt : ℕ) (m : Moment) (h0 : Sound n) : Sound (Node.userCaravan n p f filt m) := by
  unfold Node.userCaravan
  extract_lets +onlyGivenNames m7
  clear_value m7
  split
  extract_lets +onlyGivenNames m15
  extract_lets +onlyGivenNames m16
  have hm16 : Sound m16 := by
    unfold m16
    apply Node.setBp_sound
    assumption
  clear_value m16
  extract_lets +onlyGivenNames m18
  have hm18 : Sound m18 := by
    unfold m18
    refine foldl_ok ?_ ?_
    · intro x x x
      split
      apply Node.carDiscard_sound
      assumption
    · assumption
  clear_value m18
  extract_lets +onlyGivenNames m20
  have hm20 : Sound m20 := by
    unfold m20
    split
    · apply Node.setBytes_sound
      assumption
    · assumption
  clear_value m20
  split
  · assumption
  · extract_lets +onlyGivenNames m25
    have hm25 : Sound m25 := by
      unfold m25
      apply Node.setBytes_sound
      assumption
    clear_value m25
    extract_lets +onlyGivenNames m27
    have hm27 : Sound m27 := by
      unfold m27
      apply Node.setFds_sound
      assumption
    clear_value m27
    apply Node.busRing_sound
    assumption
theorem Node.busCommand_sound (n : Node) (p : ℕ) (src : ℕ) (text : List Sys2Proof.Byte) (m : Moment) (h0 : Sound n) : Sound (Node.busCommand n p src text m) := by
  unfold Node.busCommand
  refine ite_ind ?_ ?_
  · intro x
    assumption
  · intro x
    extract_lets +onlyGivenNames m8
    clear_value m8
    refine Sound1.h ?_
    refine foldl1_ok ?_ ?_
    · intro x x x
      apply sound1_mk
      apply Node.lineIn_sound
      refine Sound1.h ?_
      assumption
    · apply sound1_mk
      assumption
theorem Node.busReply_sound (n : Node) (p : ℕ) (src : ℕ) (text : List Sys2Proof.Byte) (h0 : Sound n) : Sound (Node.busReply n p src text) := by
  unfold Node.busReply
  extract_lets +onlyGivenNames m6
  clear_value m6
  refine ite_ind ?_ ?_
  · intro x
    assumption
  · intro x
    split
    · assumption
    · split
      · assumption
      · extract_lets +onlyGivenNames m18
        clear_value m18
        refine ite_ind ?_ ?_
        · intro x
          apply Node.send_sound
          apply Node.setPort_sound
          assumption
        · intro x
          apply Node.send_sound
          apply Node.setPort_sound
          assumption
theorem Node.nodeCaravan_sound (n : Node) (p : ℕ) (f : Frame) (m : Moment) (h0 : Sound n) : Sound (Node.nodeCaravan n p f m) := by
  unfold Node.nodeCaravan
  extract_lets +onlyGivenNames m6
  clear_value m6
  extract_lets +onlyGivenNames m7
  clear_value m7
  split
  extract_lets +onlyGivenNames m15
  have hm15 : Sound m15 := by
    unfold m15
    apply Node.setBp_sound
    assumption
  clear_value m15
  extract_lets +onlyGivenNames m17
  have hm17 : Sound m17 := by
    unfold m17
    refine foldl_ok ?_ ?_
    · intro x x x
      split
      apply Node.carDiscard_sound
      assumption
    · assumption
  clear_value m17
  split
  · assumption
  · refine ite_ind ?_ ?_
    · intro x
      apply Node.busCommand_sound
      assumption
    · intro x
      apply Node.busReply_sound
      assumption
theorem Node.dropCaravans_sound (n : Node) (p : ℕ) (cause : ℕ) (m : Moment) (h0 : Sound n) : Sound (Node.dropCaravans n p cause m) := by
  unfold Node.dropCaravans
  extract_lets +onlyGivenNames m6
  clear_value m6
  extract_lets +onlyGivenNames m7
  have hm7 : Sound m7 := by
    unfold m7
    apply Node.setBp_sound
    assumption
  clear_value m7
  refine foldl_ok ?_ ?_
  · intro x x x
    apply Node.carDiscard_sound
    assumption
  · assumption
theorem Node.trim_sound (n : Node) (p : ℕ) (f : Frame) (edges : ℕ × ℤ) (h0 : Sound n) : Sound (Node.trim n p f edges) := by
  unfold Node.trim
  refine ite_ind ?_ ?_
  · intro x
    assumption
  · intro x
    split
    · assumption
    · extract_lets +onlyGivenNames m12
      clear_value m12
      refine ite_ind ?_ ?_
      · intro x
        assumption
      · intro x
        extract_lets +onlyGivenNames m14
        clear_value m14
        extract_lets +onlyGivenNames m15
        clear_value m15
        extract_lets +onlyGivenNames m16
        clear_value m16
        extract_lets +onlyGivenNames m17
        clear_value m17
        extract_lets +onlyGivenNames m18
        clear_value m18
        extract_lets +onlyGivenNames m19
        have hm19 : Sound m19 := by
          unfold m19
          apply Node.setFds_sound
          assumption
        clear_value m19
        apply Node.setBp_sound
        assumption
theorem Node.forward_sound (n : Node) (p : ℕ) (f : Frame) (m : Moment) (h0 : Sound n) : Sound (Node.forward n p f m) := by
  unfold Node.forward
  refine ite_ind ?_ ?_
  · intro x
    assumption
  · intro x
    extract_lets +onlyGivenNames m7
    clear_value m7
    extract_lets +onlyGivenNames m8
    clear_value m8
    extract_lets +onlyGivenNames m9
    clear_value m9
    extract_lets +onlyGivenNames m10
    clear_value m10
    extract_lets +onlyGivenNames m11
    clear_value m11
    extract_lets +onlyGivenNames m12
    clear_value m12
    refine ite_ind ?_ ?_
    · intro x
      assumption
    · intro x
      extract_lets +onlyGivenNames m14
      clear_value m14
      refine ite_ind ?_ ?_
      · intro x
        apply Node.wayDrop_sound
        assumption
      · intro x
        refine sound_mk ?_ rfl rfl rfl
        assumption
theorem Node.duplicate_sound (n : Node) (p : ℕ) (f : Frame) (t : ℕ) (h0 : Sound n) : Sound1 (Node.duplicate n p f t) := by
  unfold Node.duplicate
  refine ite_ind ?_ ?_
  · intro x
    apply sound1_mk
    assumption
  · intro x
    extract_lets +onlyGivenNames m7
    clear_value m7
    split
    · extract_lets +onlyGivenNames m13
      clear_value m13
      extract_lets +onlyGivenNames m14
      have hm14 : Sound m14 := by
        unfold m14
        refine sound_mk ?_ rfl rfl rfl
        assumption
      clear_value m14
      apply sound1_mk
      apply Node.setFd_sound
      assumption
    · apply sound1_mk
      refine sound_mk ?_ rfl rfl rfl
      assumption
theorem Node.pairSettle_sound (n : Node) (h0 : Sound n) : Sound (Node.pairSettle n) := by
  unfold Node.pairSettle
  refine ite_ind ?_ ?_
  · intro x
    assumption
  · intro x
    refine foldl_ok ?_ ?_
    · intro x x x
      extract_lets +onlyGivenNames m7
      clear_value m7
      refine ite_ind ?_ ?_
      · intro x
        extract_lets +onlyGivenNames m9
        have hm9 : Sound m9 := by
          unfold m9
          apply Node.mbEnd_sound
          assumption
        clear_value m9
        apply Node.setBp_sound
        apply Node.setBp_sound
        assumption
      · intro x
        assumption
    · assumption
theorem Node.goBusOff_sound (n : Node) (p : ℕ) (m : Moment) (h0 : Sound n) : Sound (Node.goBusOff n p m) := by
  unfold Node.goBusOff
  extract_lets +onlyGivenNames m5
  have hm5 : Sound m5 := by
    unfold m5
    apply Node.earlyEnd_sound
    assumption
  clear_value m5
  extract_lets +onlyGivenNames m7
  have hm7 : Sound m7 := by
    unfold m7
    apply Node.setFd_sound
    assumption
  clear_value m7
  extract_lets +onlyGivenNames m9
  have hm9 : Sound m9 := by
    unfold m9
    apply Node.busEvt_sound
    apply Node.bump_sound
    assumption
  clear_value m9
  extract_lets +onlyGivenNames m11
  have hm11 : Sound m11 := by
    unfold m11
    apply Node.busRec_sound
    assumption
  clear_value m11
  extract_lets +onlyGivenNames m13
  have hm13 : Sound m13 := by
    unfold m13
    apply Node.busWatch_sound
    apply Node.busRing_sound
    assumption
  clear_value m13
  extract_lets +onlyGivenNames m15
  have hm15 : Sound m15 := by
    unfold m15
    apply Node.dropCaravans_sound
    assumption
  clear_value m15
  apply Node.pairSettle_sound
  apply Node.setBp_sound
  assumption
theorem Node.genFallback_sound (n : Node) (p : ℕ) (m : Moment) (h0 : Sound n) : Sound (Node.genFallback n p m) := by
  unfold Node.genFallback
  extract_lets +onlyGivenNames m5
  have hm5 : Sound m5 := by
    unfold m5
    apply Node.setFds_sound
    assumption
  clear_value m5
  apply Node.busWatch_sound
  apply Node.busRing_sound
  apply Node.busRec_sound
  assumption
theorem Node.sendReply_sound (n : Node) (p : ℕ) (dst : ℕ) (lines : List OutLine) (h0 : Sound n) : Sound (Node.sendReply n p dst lines) := by
  unfold Node.sendReply
  extract_lets +onlyGivenNames m6
  clear_value m6
  refine foldl_ok ?_ ?_
  · intro x x x
    apply Node.sendLink_sound
    assumption
  · assumption
theorem Node.flushBusPort_sound (n : Node) (h0 : Sound n) : Sound (Node.flushBusPort n) := by
  unfold Node.flushBusPort
  extract_lets +onlyGivenNames m3
  clear_value m3
  extract_lets +onlyGivenNames m4
  clear_value m4
  refine ite_ind ?_ ?_
  · intro x
    assumption
  · intro x
    extract_lets +onlyGivenNames m6
    have hm6 : Sound m6 := by
      unfold m6
      refine ite_ind ?_ ?_
      · intro x
        assumption
      · intro x
        apply Node.sendReply_sound
        apply Node.setPort_sound
        assumption
    clear_value m6
    extract_lets +onlyGivenNames m8
    clear_value m8
    refine ite_ind ?_ ?_
    · intro x
      assumption
    · intro x
      extract_lets +onlyGivenNames m10
      clear_value m10
      extract_lets +onlyGivenNames m11
      have hm11 : Sound m11 := by
        unfold m11
        apply Node.setPort_sound
        assumption
      clear_value m11
      extract_lets +onlyGivenNames m13
      clear_value m13
      refine ite_ind ?_ ?_
      · intro x
        apply Node.sendReply_sound
        apply Node.sendReply_sound
        assumption
      · intro x
        apply Node.sendReply_sound
        assumption
theorem Node.flushAlarms_sound (n : Node) (h0 : Sound n) : Sound (Node.flushAlarms n) := by
  unfold Node.flushAlarms
  extract_lets +onlyGivenNames m3
  clear_value m3
  extract_lets +onlyGivenNames m4
  clear_value m4
  extract_lets +onlyGivenNames m5
  extract_lets +onlyGivenNames m6
  have hm6 : Sound m6 := by
    unfold m6
    refine sound_mk ?_ rfl rfl rfl
    assumption
  clear_value m6
  extract_lets +onlyGivenNames m8
  have hm8 : Sound m8 := by
    unfold m8
    refine foldl_ok ?_ ?_
    · intro x x x
      refine ite_ind ?_ ?_
      · intro x
        apply Node.sendBoth_sound
        assumption
      · intro x
        apply Node.sendBoth_sound
        assumption
    · assumption
  clear_value m8
  extract_lets +onlyGivenNames m10
  clear_value m10
  refine ite_ind ?_ ?_
  · intro x
    assumption
  · intro x
    refine foldl_ok ?_ ?_
    · intro x x x
      split
      apply Node.sendBoth_sound
      assumption
    · assumption
theorem Node.flushGrid_sound (n : Node) (h0 : Sound n) : Sound (Node.flushGrid n) := by
  unfold Node.flushGrid
  refine ite_ind ?_ ?_
  · intro x
    assumption
  · intro x
    extract_lets +onlyGivenNames m4
    extract_lets +onlyGivenNames m5
    have hm5 : Sound m5 := by
      unfold m5
      refine sound_mk ?_ rfl rfl rfl
      assumption
    clear_value m5
    extract_lets +onlyGivenNames m7
    clear_value m7
    extract_lets +onlyGivenNames m8
    clear_value m8
    extract_lets +onlyGivenNames m9
    clear_value m9
    extract_lets +onlyGivenNames m10
    clear_value m10
    extract_lets +onlyGivenNames m11
    clear_value m11
    extract_lets +onlyGivenNames m12
    clear_value m12
    extract_lets +onlyGivenNames m13
    clear_value m13
    extract_lets +onlyGivenNames m14
    clear_value m14
    extract_lets +onlyGivenNames m15
    have hm15 : ∀ x0 x1, Sound x0 → Sound (m15 x0 x1) := by
      unfold m15
      intro x x x
      refine ite_ind ?_ ?_
      · intro x
        apply Node.queueMsg_sound
        apply Node.queueMsg_sound
        apply Node.queueMsg_sound
        assumption
      · intro x
        assumption
    clear_value m15
    apply_assumption
    apply_assumption
    assumption
theorem Node.busFlush_sound (n : Node) (h0 : Sound n) : Sound (Node.busFlush n) := by
  unfold Node.busFlush
  apply Node.flushBusPort_sound
  apply Node.flushGrid_sound
  apply Node.flushAlarms_sound
  assumption
end Sys2Proof.Machine
end

