-- ==== Sys2Proof/Laws/SoundSurvey.lean ====
section
/-! SUPPORT. Every operation and every meaning of Machine/Survey.lean keeps `Sound`. -/
set_option linter.unusedVariables false
namespace Sys2Proof.Machine
theorem Node.setSv_sound (n : Node) (p : ℕ) (x : SvPort) (h0 : Sound n) : Sound (Node.setSv n p x) := by
  unfold Node.setSv
  extract_lets +onlyGivenNames m5
  clear_value m5
  refine sound_mk ?_ rfl rfl rfl
  assumption
theorem Node.svSend_sound (n : Node) (q : ℕ) (typ : ℕ) (dst : ℕ) (data : List Sys2Proof.Byte) (h0 : Sound n) : Sound (Node.svSend n q typ dst data) := by
  unfold Node.svSend
  apply Node.queueMsg_sound
  assumption
theorem Node.svShow_sound (n : Node) (p : ℕ) (st : ℕ) (h0 : Sound n) : Sound (Node.svShow n p st) := by
  unfold Node.svShow
  extract_lets +onlyGivenNames m5
  have hm5 : Sound m5 := by
    unfold m5
    apply Node.setFds_sound
    assumption
  clear_value m5
  refine ite_ind ?_ ?_
  · intro x
    apply Node.pauseMrs_sound
    assumption
  · intro x
    assumption
theorem Node.saveStations_sound (n : Node) (h0 : Sound n) : Sound (Node.saveStations n) := by
  unfold Node.saveStations
  extract_lets +onlyGivenNames m3
  clear_value m3
  split
  refine ite_ind ?_ ?_
  · intro x
    assumption
  · intro x
    extract_lets +onlyGivenNames m12
    clear_value m12
    apply Node.setBytes_sound
    assumption
theorem Node.loadStations_sound (n : Node) (h0 : Sound n) : Sound (Node.loadStations n) := by
  unfold Node.loadStations
  extract_lets +onlyGivenNames m3
  clear_value m3
  extract_lets +onlyGivenNames m4
  have hm4 : Sound m4 := by
    unfold m4
    apply Node.setFd_sound
    assumption
  clear_value m4
  refine foldl_ok ?_ ?_
  · intro x x x
    refine foldl_ok ?_ ?_
    · intro x x x
      extract_lets +onlyGivenNames m12
      clear_value m12
      apply Node.setFds_sound
      assumption
    · assumption
  · assumption
theorem Node.putDelay_sound (n : Node) (h : ℕ) (p : ℕ) (st : ℕ) (dly : ℕ) (spread : ℕ) (h0 : Sound n) : Sound (Node.putDelay n h p st dly spread) := by
  unfold Node.putDelay
  extract_lets +onlyGivenNames m8
  clear_value m8
  extract_lets +onlyGivenNames m9
  clear_value m9
  extract_lets +onlyGivenNames m10
  clear_value m10
  extract_lets +onlyGivenNames m11
  clear_value m11
  split
  · assumption
  · apply Node.setFds_sound
    refine ite_ind ?_ ?_
    · intro x
      assumption
    · intro x
      apply Node.setSv_sound
      assumption
theorem Node.dropDelays_sound (n : Node) (p : ℕ) (h0 : Sound n) : Sound (Node.dropDelays n p) := by
  unfold Node.dropDelays
  extract_lets +onlyGivenNames m4
  clear_value m4
  refine foldl_ok ?_ ?_
  · intro x x x
    refine foldl_ok ?_ ?_
    · intro x x x
      refine ite_ind ?_ ?_
      · intro x
        assumption
      · intro x
        apply Node.wr_sound
        apply Node.wr_sound
        assumption
    · assumption
  · assumption
theorem Node.svRestore_sound (n : Node) (l : List (ℕ × Sys2Proof.Word)) (h0 : Sound n) : Sound (Node.svRestore n l) := by
  unfold Node.svRestore
  refine foldl_ok ?_ ?_
  · intro x x x
    split
    apply Node.wr_sound
    assumption
  · assumption
theorem Node.takeStation_sound (n : Node) (p : ℕ) (st : ℕ) (m : Moment) (h0 : Sound n) : Sound (Node.takeStation n p st m) := by
  unfold Node.takeStation
  extract_lets +onlyGivenNames m6
  clear_value m6
  extract_lets +onlyGivenNames m7
  have hm7 : Sound m7 := by
    unfold m7
    apply Node.setFd_sound
    assumption
  clear_value m7
  extract_lets +onlyGivenNames m9
  have hm9 : Sound m9 := by
    unfold m9
    apply Node.busRing_sound
    apply Node.busRec_sound
    assumption
  clear_value m9
  apply Node.notify_sound
  assumption
theorem Node.vanish_sound (n : Node) (p : ℕ) (st : ℕ) (uid : ℕ) (m : Moment) (h0 : Sound n) : Sound (Node.vanish n p st uid m) := by
  unfold Node.vanish
  extract_lets +onlyGivenNames m7
  clear_value m7
  extract_lets +onlyGivenNames m8
  have hm8 : Sound m8 := by
    unfold m8
    apply Node.setSv_sound
    assumption
  clear_value m8
  extract_lets +onlyGivenNames m10
  have hm10 : Sound m10 := by
    unfold m10
    apply Node.raiseM_sound
    assumption
  clear_value m10
  apply Node.notify_sound
  assumption
theorem Node.sendQuery_sound (n : Node) (p : ℕ) (r : ℕ) (h0 : Sound n) : Sound (Node.sendQuery n p r) := by
  unfold Node.sendQuery
  extract_lets +onlyGivenNames m5
  clear_value m5
  extract_lets +onlyGivenNames m6
  have hm6 : Sound m6 := by
    unfold m6
    apply Node.setSv_sound
    assumption
  clear_value m6
  apply Node.svSend_sound
  assumption
theorem Node.sendAssign_sound (n : Node) (p : ℕ) (h0 : Sound n) : Sound (Node.sendAssign n p) := by
  unfold Node.sendAssign
  extract_lets +onlyGivenNames m4
  clear_value m4
  extract_lets +onlyGivenNames m5
  have hm5 : Sound m5 := by
    unfold m5
    apply Node.setSv_sound
    assumption
  clear_value m5
  apply Node.svSend_sound
  assumption
theorem Node.nextNode_sound (n : Node) (p : ℕ) (h0 : Sound n) : Sound (Node.nextNode n p) := by
  unfold Node.nextNode
  apply Node.sendQuery_sound
  apply Node.setSv_sound
  assumption
theorem Node.svEnd_sound (n : Node) (p : ℕ) (res : ℕ) (h0 : Sound n) : Sound (Node.svEnd n p res) := by
  unfold Node.svEnd
  extract_lets +onlyGivenNames m5
  clear_value m5
  extract_lets +onlyGivenNames m6
  have hm6 : Sound m6 := by
    unfold m6
    apply Node.setSv_sound
    assumption
  clear_value m6
  apply Node.svSend_sound
  assumption
theorem Node.svOver_sound (n : Node) (p : ℕ) (res : ℕ) (assigned : ℕ) (vanished : ℕ) (joined : ℕ) (measured : ℕ) (expected : ℕ) (m : Moment) (h0 : Sound n) : Sound (Node.svOver n p res assigned vanished joined measured expected m) := by
  unfold Node.svOver
  extract_lets +onlyGivenNames m11
  clear_value m11
  extract_lets +onlyGivenNames m12
  have hm12 : Sound m12 := by
    unfold m12
    refine ite_ind ?_ ?_
    · intro x
      apply Node.setFd_sound
      assumption
    · intro x
      assumption
  clear_value m12
  extract_lets +onlyGivenNames m14
  clear_value m14
  extract_lets +onlyGivenNames m15
  have hm15 : Sound m15 := by
    unfold m15
    refine sound_mk ?_ rfl rfl rfl
    assumption
  clear_value m15
  extract_lets +onlyGivenNames m17
  have hm17 : Sound m17 := by
    unfold m17
    refine ite_ind ?_ ?_
    · intro x
      apply Node.svRestore_sound
      assumption
    · intro x
      refine ite_ind ?_ ?_
      · intro x
        assumption
      · intro x
        apply Node.dropDelays_sound
        assumption
  clear_value m17
  extract_lets +onlyGivenNames m19
  have hm19 : Sound m19 := by
    unfold m19
    apply Node.setFds_sound
    assumption
  clear_value m19
  extract_lets +onlyGivenNames m21
  have hm21 : Sound m21 := by
    unfold m21
    apply Node.svShow_sound
    assumption
  clear_value m21
  extract_lets +onlyGivenNames m23
  have hm23 : Sound m23 := by
    unfold m23
    apply Node.raiseM_sound
    assumption
  clear_value m23
  extract_lets +onlyGivenNames m25
  have hm25 : Sound m25 := by
    unfold m25
    apply Node.notify_sound
    apply Node.busRing_sound
    assumption
  clear_value m25
  extract_lets +onlyGivenNames m27
  clear_value m27
  extract_lets +onlyGivenNames m28
  have hm28 : Sound m28 := by
    unfold m28
    refine ite_ind ?_ ?_
    · intro x
      assumption
    · intro x
      apply Node.setBp_sound
      assumption
  clear_value m28
  apply Node.saveStations_sound
  apply Node.setSv_sound
  assumption
theorem Node.svAdvance_sound (n : Node) (p : ℕ) (h0 : Sound n) : Sound (Node.svAdvance n p) := by
  unfold Node.svAdvance
  extract_lets +onlyGivenNames m4
  clear_value m4
  split
  · refine ite_ind ?_ ?_
    · intro x
      apply Node.svEnd_sound
      assumption
    · intro x
      apply Node.setSv_sound
      assumption
  · refine ite_ind ?_ ?_
    · intro x
      apply Node.svSend_sound
      apply Node.setSv_sound
      assumption
    · intro x
      apply Node.setSv_sound
      assumption
theorem Node.delayRound_sound (n : Node) (p : ℕ) (h0 : Sound n) : Sound (Node.delayRound n p) := by
  unfold Node.delayRound
  extract_lets +onlyGivenNames m4
  clear_value m4
  extract_lets +onlyGivenNames m5
  clear_value m5
  apply Node.svAdvance_sound
  apply Node.setSv_sound
  assumption
theorem Node.seePair_sound (n : Node) (p : ℕ) (q : ℕ) (a : ℕ) (b : ℕ) (h0 : Sound n) : Sound (Node.seePair n p q a b) := by
  unfold Node.seePair
  extract_lets +onlyGivenNames m7
  clear_value m7
  refine ite_ind ?_ ?_
  · intro x
    apply Node.svAdvance_sound
    apply Node.setSv_sound
    assumption
  · intro x
    assumption
theorem Node.exchangeDone_sound (n : Node) (p : ℕ) (q : ℕ) (b : ℕ) (t2 : ℕ) (t3 : ℕ) (h0 : Sound n) : Sound (Node.exchangeDone n p q b t2 t3) := by
  unfold Node.exchangeDone
  extract_lets +onlyGivenNames m8
  clear_value m8
  extract_lets +onlyGivenNames m9
  clear_value m9
  extract_lets +onlyGivenNames m10
  have hm10 : Sound m10 := by
    unfold m10
    apply Node.setSv_sound
    assumption
  clear_value m10
  refine ite_ind ?_ ?_
  · intro x
    apply Node.svSend_sound
    assumption
  · intro x
    split
    apply Node.svSend_sound
    assumption
theorem Node.delaySent_sound (n : Node) (p : ℕ) (q : ℕ) (b : ℕ) (h0 : Sound n) : Sound (Node.delaySent n p q b) := by
  unfold Node.delaySent
  extract_lets +onlyGivenNames m6
  clear_value m6
  split
  extract_lets +onlyGivenNames m13
  have hm13 : Sound m13 := by
    unfold m13
    refine ite_ind ?_ ?_
    · intro x
      apply Node.putDelay_sound
      assumption
    · intro x
      assumption
  clear_value m13
  apply Node.svAdvance_sound
  apply Node.setSv_sound
  assumption
theorem Node.svBegun_sound (n : Node) (p : ℕ) (m : Moment) (h0 : Sound n) : Sound (Node.svBegun n p m) := by
  unfold Node.svBegun
  extract_lets +onlyGivenNames m5
  clear_value m5
  extract_lets +onlyGivenNames m6
  clear_value m6
  extract_lets +onlyGivenNames m7
  have hm7 : Sound m7 := by
    unfold m7
    apply Node.busRing_sound
    apply Node.raiseM_sound
    assumption
  clear_value m7
  extract_lets +onlyGivenNames m9
  have hm9 : Sound m9 := by
    unfold m9
    apply Node.notify_sound
    assumption
  clear_value m9
  extract_lets +onlyGivenNames m11
  clear_value m11
  extract_lets +onlyGivenNames m12
  have hm12 : Sound m12 := by
    unfold m12
    refine ite_ind ?_ ?_
    · intro x
      assumption
    · intro x
      apply Node.takeStation_sound
      assumption
  clear_value m12
  extract_lets +onlyGivenNames m14
  clear_value m14
  apply Node.nextNode_sound
  apply Node.setSv_sound
  assumption
theorem Node.svStart_sound (n : Node) (p : ℕ) (renumber : Bool) (h0 : Sound n) : Sound (Node.svStart n p renumber) := by
  unfold Node.svStart
  extract_lets +onlyGivenNames m5
  clear_value m5
  extract_lets +onlyGivenNames m6
  have hm6 : Sound m6 := by
    unfold m6
    apply Node.setFd_sound
    apply Node.svShow_sound
    apply Node.setSv_sound
    assumption
  clear_value m6
  apply Node.svSend_sound
  assumption
theorem Node.svJoin_sound (n : Node) (p : ℕ) (src : ℕ) (uid : ℕ) (m : Moment) (h0 : Sound n) : Sound (Node.svJoin n p src uid m) := by
  unfold Node.svJoin
  extract_lets +onlyGivenNames m7
  clear_value m7
  split
  extract_lets +onlyGivenNames m14
  clear_value m14
  extract_lets +onlyGivenNames m15
  have hm15 : Sound m15 := by
    unfold m15
    apply Node.svShow_sound
    apply Node.setSv_sound
    refine sound2_eq (by assumption) ?_
    apply Node.fresh_sound
    assumption
  clear_value m15
  extract_lets +onlyGivenNames m17
  clear_value m17
  extract_lets +onlyGivenNames m18
  have hm18 : Sound m18 := by
    unfold m18
    refine sound_mk ?_ rfl rfl rfl
    assumption
  clear_value m18
  extract_lets +onlyGivenNames m20
  clear_value m20
  extract_lets +onlyGivenNames m21
  have hm21 : Sound m21 := by
    unfold m21
    apply Node.setBp_sound
    assumption
  clear_value m21
  extract_lets +onlyGivenNames m23
  have hm23 : Sound m23 := by
    unfold m23
    apply Node.busRing_sound
    apply Node.raiseM_sound
    assumption
  clear_value m23
  apply Node.notify_sound
  assumption
theorem Node.withdraw_sound (n : Node) (p : ℕ) (h0 : Sound n) : Sound (Node.withdraw n p) := by
  unfold Node.withdraw
  extract_lets +onlyGivenNames m4
  clear_value m4
  refine foldl_ok ?_ ?_
  · intro x x x
    split
    refine ite_ind ?_ ?_
    · intro x
      apply Node.mbEnd_sound
      assumption
    · intro x
      assumption
  · apply Node.setBp_sound
    assumption
theorem Node.onBegin_sound (n : Node) (p : ℕ) (f : Frame) (m : Moment) (h0 : Sound n) : Sound (Node.onBegin n p f m) := by
  unfold Node.onBegin
  extract_lets +onlyGivenNames m6
  clear_value m6
  extract_lets +onlyGivenNames m7
  clear_value m7
  extract_lets +onlyGivenNames m8
  clear_value m8
  refine ite_ind ?_ ?_
  · intro x
    refine ite_ind ?_ ?_
    · intro x
      apply Node.svJoin_sound
      apply Node.withdraw_sound
      assumption
    · intro x
      refine ite_ind ?_ ?_
      · intro x
        apply Node.svJoin_sound
        apply Node.withdraw_sound
        assumption
      · intro x
        assumption
  · intro x
    apply Node.svJoin_sound
    assumption
theorem Node.onQuery_sound (n : Node) (p : ℕ) (f : Frame) (h0 : Sound n) : Sound (Node.onQuery n p f) := by
  unfold Node.onQuery
  extract_lets +onlyGivenNames m5
  clear_value m5
  extract_lets +onlyGivenNames m6
  clear_value m6
  extract_lets +onlyGivenNames m7
  clear_value m7
  extract_lets +onlyGivenNames m8
  clear_value m8
  extract_lets +onlyGivenNames m9
  have hm9 : Sound m9 := by
    unfold m9
    apply Node.setSv_sound
    assumption
  clear_value m9
  refine ite_ind ?_ ?_
  · intro x
    assumption
  · intro x
    extract_lets +onlyGivenNames m12
    clear_value m12
    extract_lets +onlyGivenNames m13
    clear_value m13
    extract_lets +onlyGivenNames m14
    clear_value m14
    extract_lets +onlyGivenNames m15
    clear_value m15
    extract_lets +onlyGivenNames m16
    have hm16 : ∀ x0 x1 x2, Sound x0 → Sound (m16 x0 x1 x2) := by
      unfold m16
      intro x x x x
      apply Node.queueMsg_sound
      assumption
    clear_value m16
    refine ite_ind ?_ ?_
    · intro x
      apply_assumption
      assumption
    · intro x
      refine ite_ind ?_ ?_
      · intro x
        refine ite_ind ?_ ?_
        · intro x
          apply_assumption
          assumption
        · intro x
          assumption
      · intro x
        refine ite_ind ?_ ?_
        · intro x
          apply_assumption
          assumption
        · intro x
          assumption
theorem Node.onBid_sound (n : Node) (p : ℕ) (f : Frame) (_m : Moment) (h0 : Sound n) : Sound (Node.onBid n p f _m) := by
  unfold Node.onBid
  extract_lets +onlyGivenNames m6
  clear_value m6
  refine ite_ind ?_ ?_
  · intro x
    assumption
  · intro x
    extract_lets +onlyGivenNames m8
    clear_value m8
    refine ite_ind ?_ ?_
    · intro x
      apply Node.sendQuery_sound
      apply Node.setSv_sound
      assumption
    · intro x
      extract_lets +onlyGivenNames m10
      clear_value m10
      split
      · apply Node.delayRound_sound
        apply Node.setSv_sound
        assumption
      · apply Node.sendAssign_sound
        apply Node.setSv_sound
        assumption
theorem Node.onAssign_sound (n : Node) (p : ℕ) (f : Frame) (m : Moment) (h0 : Sound n) : Sound (Node.onAssign n p f m) := by
  unfold Node.onAssign
  extract_lets +onlyGivenNames m6
  clear_value m6
  extract_lets +onlyGivenNames m7
  clear_value m7
  refine ite_ind ?_ ?_
  · intro x
    refine ite_ind ?_ ?_
    · intro x
      apply Node.setSv_sound
      assumption
    · intro x
      assumption
  · intro x
    refine ite_ind ?_ ?_
    · intro x
      assumption
    · intro x
      extract_lets +onlyGivenNames m10
      have hm10 : Sound m10 := by
        unfold m10
        refine ite_ind ?_ ?_
        · intro x
          apply Node.svShow_sound
          apply Node.setSv_sound
          assumption
        · intro x
          assumption
      clear_value m10
      extract_lets +onlyGivenNames m12
      clear_value m12
      extract_lets +onlyGivenNames m13
      have hm13 : Sound m13 := by
        unfold m13
        refine ite_ind ?_ ?_
        · intro x
          assumption
        · intro x
          apply Node.takeStation_sound
          assumption
      clear_value m13
      extract_lets +onlyGivenNames m15
      clear_value m15
      extract_lets +onlyGivenNames m16
      have hm16 : Sound m16 := by
        unfold m16
        apply Node.setBp_sound
        assumption
      clear_value m16
      extract_lets +onlyGivenNames m18
      clear_value m18
      extract_lets +onlyGivenNames m19
      have hm19 : Sound m19 := by
        unfold m19
        apply Node.setSv_sound
        assumption
      clear_value m19
      apply Node.svSend_sound
      assumption
theorem Node.foldJoin_sound (n : Node) (p : ℕ) (st : ℕ) (mst : ℕ) (fl : ℕ) (h0 : Sound n) : Sound (Node.foldJoin n p st mst fl) := by
  unfold Node.foldJoin
  extract_lets +onlyGivenNames m7
  clear_value m7
  extract_lets +onlyGivenNames m8
  clear_value m8
  extract_lets +onlyGivenNames m9
  clear_value m9
  extract_lets +onlyGivenNames m10
  have hm10 : Sound m10 := by
    unfold m10
    apply Node.svShow_sound
    apply Node.setSv_sound
    assumption
  clear_value m10
  apply Node.svAdvance_sound
  apply Node.setBp_sound
  assumption
theorem Node.onAssigned_sound (n : Node) (p : ℕ) (f : Frame) (m : Moment) (h0 : Sound n) : Sound (Node.onAssigned n p f m) := by
  unfold Node.onAssigned
  extract_lets +onlyGivenNames m6
  clear_value m6
  extract_lets +onlyGivenNames m7
  clear_value m7
  extract_lets +onlyGivenNames m8
  clear_value m8
  refine ite_ind ?_ ?_
  · intro x
    refine ite_ind ?_ ?_
    · intro x
      assumption
    · intro x
      extract_lets +onlyGivenNames m11
      clear_value m11
      extract_lets +onlyGivenNames m12
      clear_value m12
      extract_lets +onlyGivenNames m13
      clear_value m13
      refine ite_ind ?_ ?_
      · intro x
        extract_lets +onlyGivenNames m15
        have hm15 : Sound m15 := by
          unfold m15
          apply Node.setSv_sound
          assumption
        clear_value m15
        extract_lets +onlyGivenNames m17
        have hm17 : Sound m17 := by
          unfold m17
          apply Node.raiseM_sound
          assumption
        clear_value m17
        extract_lets +onlyGivenNames m19
        have hm19 : Sound m19 := by
          unfold m19
          apply Node.notify_sound
          assumption
        clear_value m19
        extract_lets +onlyGivenNames m21
        clear_value m21
        apply Node.svAdvance_sound
        apply Node.setSv_sound
        assumption
      · intro x
        apply Node.nextNode_sound
        apply Node.setSv_sound
        assumption
  · intro x
    refine ite_ind ?_ ?_
    · intro x
      apply Node.setSv_sound
      assumption
    · intro x
      refine ite_ind ?_ ?_
      · intro x
        apply Node.foldJoin_sound
        assumption
      · intro x
        assumption
theorem Node.pingOver_sound (n : Node) (p : ℕ) (m : Moment) (h0 : Sound n) : Sound (Node.pingOver n p m) := by
  unfold Node.pingOver
  extract_lets +onlyGivenNames m5
  clear_value m5
  split
  · assumption
  · refine ite_ind ?_ ?_
    · intro x
      extract_lets +onlyGivenNames m15
      have hm15 : Sound m15 := by
        unfold m15
        apply Node.setSv_sound
        assumption
      clear_value m15
      refine ite_ind ?_ ?_
      · intro x
        apply Node.svSend_sound
        assumption
      · intro x
        assumption
    · intro x
      extract_lets +onlyGivenNames m15
      clear_value m15
      extract_lets +onlyGivenNames m16
      have hm16 : Sound m16 := by
        unfold m16
        refine ite_ind ?_ ?_
        · intro x
          apply Node.vanish_sound
          assumption
        · intro x
          assumption
      clear_value m16
      extract_lets +onlyGivenNames m18
      clear_value m18
      apply Node.svAdvance_sound
      apply Node.setSv_sound
      assumption
theorem Node.pingSeen_sound (n : Node) (h : ℕ) (p : ℕ) (src : ℕ) (dst : ℕ) (pong : Bool) (h0 : Sound n) : Sound (Node.pingSeen n h p src dst pong) := by
  unfold Node.pingSeen
  extract_lets +onlyGivenNames m8
  clear_value m8
  split
  · refine ite_ind ?_ ?_
    · intro x
      assumption
    · intro x
      refine ite_ind ?_ ?_
      · intro x
        refine ite_ind ?_ ?_
        · intro x
          apply Node.setSv_sound
          assumption
        · intro x
          assumption
      · intro x
        refine ite_ind ?_ ?_
        · intro x
          apply Node.setSv_sound
          assumption
        · intro x
          assumption
  · assumption
theorem Node.windowOver_sound (n : Node) (p : ℕ) (m : Moment) (h0 : Sound n) : Sound (Node.windowOver n p m) := by
  unfold Node.windowOver
  extract_lets +onlyGivenNames m5
  clear_value m5
  refine ite_ind ?_ ?_
  · intro x
    refine ite_ind ?_ ?_
    · intro x
      apply Node.delayRound_sound
      apply Node.setSv_sound
      assumption
    · intro x
      refine ite_ind ?_ ?_
      · intro x
        apply Node.pingOver_sound
        assumption
      · intro x
        assumption
  · intro x
    refine ite_ind ?_ ?_
    · intro x
      assumption
    · intro x
      split
      · refine ite_ind ?_ ?_
        · intro x
          apply Node.delayRound_sound
          assumption
        · intro x
          refine ite_ind ?_ ?_
          · intro x
            apply Node.sendQuery_sound
            apply Node.setSv_sound
            assumption
          · intro x
            apply Node.nextNode_sound
            apply Node.vanish_sound
            assumption
      · refine ite_ind ?_ ?_
        · intro x
          apply Node.sendAssign_sound
          apply Node.setSv_sound
          assumption
        · intro x
          extract_lets +onlyGivenNames m13
          have hm13 : Sound m13 := by
            unfold m13
            apply Node.vanish_sound
            assumption
          clear_value m13
          refine ite_ind ?_ ?_
          · intro x
            apply Node.svEnd_sound
            assumption
          · intro x
            apply Node.nextNode_sound
            assumption
      · apply Node.pingOver_sound
        assumption
      · apply Node.pingOver_sound
        assumption
      · assumption
theorem Node.windowError_sound (n : Node) (p : ℕ) (h0 : Sound n) : Sound (Node.windowError n p) := by
  unfold Node.windowError
  extract_lets +onlyGivenNames m4
  clear_value m4
  refine ite_ind ?_ ?_
  · intro x
    assumption
  · intro x
    refine ite_ind ?_ ?_
    · intro x
      apply Node.sendQuery_sound
      apply Node.setSv_sound
      assumption
    · intro x
      apply Node.delayRound_sound
      apply Node.setSv_sound
      assumption
theorem Node.onAnnounce_sound (n : Node) (p : ℕ) (f : Frame) (h0 : Sound n) : Sound (Node.onAnnounce n p f) := by
  unfold Node.onAnnounce
  extract_lets +onlyGivenNames m5
  clear_value m5
  extract_lets +onlyGivenNames m6
  clear_value m6
  refine ite_ind ?_ ?_
  · intro x
    assumption
  · intro x
    extract_lets +onlyGivenNames m8
    clear_value m8
    split
    · assumption
    · extract_lets +onlyGivenNames m14
      clear_value m14
      apply Node.sendAssign_sound
      apply Node.svShow_sound
      apply Node.setSv_sound
      assumption
theorem Node.keepMap_sound (n : Node) (p : ℕ) (h0 : Sound n) : Sound (Node.keepMap n p) := by
  unfold Node.keepMap
  extract_lets +onlyGivenNames m4
  clear_value m4
  refine ite_ind ?_ ?_
  · intro x
    assumption
  · intro x
    refine sound_mk ?_ rfl rfl rfl
    assumption
theorem Node.masterDone_sound (n : Node) (p : ℕ) (m : Moment) (h0 : Sound n) : Sound (Node.masterDone n p m) := by
  unfold Node.masterDone
  extract_lets +onlyGivenNames m5
  clear_value m5
  extract_lets +onlyGivenNames m6
  clear_value m6
  extract_lets +onlyGivenNames m7
  have hm7 : Sound m7 := by
    unfold m7
    apply Node.svOver_sound
    apply Node.keepMap_sound
    assumption
  clear_value m7
  refine ite_ind ?_ ?_
  · intro x
    apply Node.svStart_sound
    refine sound_mk ?_ rfl rfl rfl
    assumption
  · intro x
    refine sound_mk ?_ rfl rfl rfl
    assumption
theorem Node.onEnd_sound (n : Node) (p : ℕ) (f : Frame) (m : Moment) (h0 : Sound n) : Sound (Node.onEnd n p f m) := by
  unfold Node.onEnd
  refine ite_ind ?_ ?_
  · intro x
    apply Node.saveStations_sound
    apply Node.setSv_sound
    assumption
  · intro x
    refine ite_ind ?_ ?_
    · intro x
      assumption
    · intro x
      extract_lets +onlyGivenNames m8
      clear_value m8
      apply Node.svOver_sound
      assumption
theorem Node.svAbort_sound (n : Node) (p : ℕ) (m : Moment) (h0 : Sound n) : Sound (Node.svAbort n p m) := by
  unfold Node.svAbort
  extract_lets +onlyGivenNames m5
  clear_value m5
  refine ite_ind ?_ ?_
  · intro x
    assumption
  · intro x
    apply Node.svOver_sound
    apply Node.withdraw_sound
    assumption
theorem Node.listenOn_sound (n : Node) (p : ℕ) (kind : ℕ) (h0 : Sound n) : Sound (Node.listenOn n p kind) := by
  unfold Node.listenOn
  extract_lets +onlyGivenNames m5
  extract_lets +onlyGivenNames m6
  have hm6 : Sound m6 := by
    unfold m6
    apply Node.setBp_sound
    assumption
  clear_value m6
  refine ite_ind ?_ ?_
  · intro x
    assumption
  · intro x
    apply Node.svShow_sound
    assumption
theorem Node.listenOff_sound (n : Node) (p : ℕ) (h0 : Sound n) : Sound (Node.listenOff n p) := by
  unfold Node.listenOff
  extract_lets +onlyGivenNames m4
  extract_lets +onlyGivenNames m5
  have hm5 : Sound m5 := by
    unfold m5
    apply Node.setBp_sound
    assumption
  clear_value m5
  extract_lets +onlyGivenNames m7
  have hm7 : Sound m7 := by
    unfold m7
    refine ite_ind ?_ ?_
    · intro x
      apply Node.setFd_sound
      assumption
    · intro x
      assumption
  clear_value m7
  apply Node.svSend_sound
  assumption
theorem Node.listenHear_sound (n : Node) (p : ℕ) (isEnd : Bool) (h0 : Sound n) : Sound (Node.listenHear n p isEnd) := by
  unfold Node.listenHear
  extract_lets +onlyGivenNames m5
  clear_value m5
  refine ite_ind ?_ ?_
  · intro x
    apply Node.listenOff_sound
    refine ite_ind ?_ ?_
    · intro x
      apply Node.listenOn_sound
      assumption
    · intro x
      assumption
  · intro x
    refine ite_ind ?_ ?_
    · intro x
      apply Node.listenOn_sound
      assumption
    · intro x
      apply Node.setBp_sound
      assumption
theorem Node.markRequest_sound (n : Node) (p : ℕ) (m : Moment) (h0 : Sound n) : Sound (Node.markRequest n p m) := by
  unfold Node.markRequest
  extract_lets +onlyGivenNames m5
  clear_value m5
  extract_lets +onlyGivenNames m6
  clear_value m6
  extract_lets +onlyGivenNames m7
  have hm7 : Sound m7 := by
    unfold m7
    apply Node.setOn_sound
    assumption
  clear_value m7
  refine ite_ind ?_ ?_
  · intro x
    assumption
  · intro x
    extract_lets +onlyGivenNames m10
    clear_value m10
    extract_lets +onlyGivenNames m11
    have hm11 : Sound m11 := by
      unfold m11
      apply Node.setBp_sound
      assumption
    clear_value m11
    apply Node.queueMsg_sound
    assumption
theorem Node.markAbandon_sound (n : Node) (p : ℕ) (m : Moment) (h0 : Sound n) : Sound (Node.markAbandon n p m) := by
  unfold Node.markAbandon
  extract_lets +onlyGivenNames m5
  clear_value m5
  split
  · assumption
  · extract_lets +onlyGivenNames m11
    clear_value m11
    extract_lets +onlyGivenNames m12
    clear_value m12
    refine ite_ind ?_ ?_
    · intro x
      assumption
    · intro x
      extract_lets +onlyGivenNames m14
      have hm14 : Sound m14 := by
        unfold m14
        apply Node.setBp_sound
        assumption
      clear_value m14
      refine foldl_ok ?_ ?_
      · intro x x x
        apply Node.mbEnd_sound
        assumption
      · assumption
theorem Node.sendFollowUp_sound (n : Node) (p : ℕ) (f : Frame) (sof : ℕ) (h0 : Sound n) : Sound (Node.sendFollowUp n p f sof) := by
  unfold Node.sendFollowUp
  extract_lets +onlyGivenNames m6
  extract_lets +onlyGivenNames m7
  have hm7 : Sound m7 := by
    unfold m7
    apply Node.setBp_sound
    assumption
  clear_value m7
  apply Node.queueMsg_sound
  assumption
theorem Node.markReject_sound (n : Node) (p : ℕ) (fromSel : Bool) (major : Bool) (h0 : Sound n) : Sound (Node.markReject n p fromSel major) := by
  unfold Node.markReject
  extract_lets +onlyGivenNames m6
  have hm6 : Sound m6 := by
    unfold m6
    apply Node.setFd_sound
    assumption
  clear_value m6
  extract_lets +onlyGivenNames m8
  have hm8 : Sound m8 := by
    unfold m8
    refine ite_ind ?_ ?_
    · intro x
      apply Node.setOn_sound
      assumption
    · intro x
      assumption
  clear_value m8
  refine ite_ind ?_ ?_
  · intro x
    refine sound_mk ?_ rfl rfl rfl
    assumption
  · intro x
    assumption
theorem Node.onMark_sound (n : Node) (p : ℕ) (f : Frame) (sof : ℕ) (h0 : Sound n) : Sound (Node.onMark n p f sof) := by
  unfold Node.onMark
  extract_lets +onlyGivenNames m6
  clear_value m6
  extract_lets +onlyGivenNames m7
  clear_value m7
  extract_lets +onlyGivenNames m8
  clear_value m8
  extract_lets +onlyGivenNames m9
  clear_value m9
  extract_lets +onlyGivenNames m10
  clear_value m10
  extract_lets +onlyGivenNames m11
  clear_value m11
  extract_lets +onlyGivenNames m12
  clear_value m12
  refine ite_ind ?_ ?_
  · intro x
    apply Node.setFd_sound
    apply Node.setBp_sound
    assumption
  · intro x
    apply Node.markReject_sound
    apply Node.setBp_sound
    assumption
theorem Node.markFeed_sound (n : Node) (major : Bool) (off : ℤ) (m : Moment) (h0 : Sound n) : Sound (Node.markFeed n major off m) := by
  unfold Node.markFeed
  extract_lets +onlyGivenNames t next run s1 m1 m2
  have h1 : Sound m1 := sound_mk h0 rfl rfl rfl
  have h2 : Sound m2 := ite_ind (fun _ => Node.setOn_sound _ _ _ h1) (fun _ => h1)
  exact ite_ind (fun _ => Node.servoOffset_sound _ _ _ h2) (fun _ => h2)
theorem Node.markAccept_sound (n : Node) (p : ℕ) (k : MarkRx) (tSend : ℕ) (dly : ℕ) (m : Moment) (h0 : Sound n) : Sound (Node.markAccept n p k tSend dly m) := by
  unfold Node.markAccept
  extract_lets +onlyGivenNames m8
  have hm8 : Sound m8 := by
    unfold m8
    apply Node.setFds_sound
    assumption
  clear_value m8
  extract_lets +onlyGivenNames m10
  extract_lets +onlyGivenNames m11
  have hm11 : Sound m11 := by
    unfold m11
    apply Node.setBp_sound
    assumption
  clear_value m11
  refine ite_ind ?_ ?_
  · intro x
    assumption
  · intro x
    apply Node.markFeed_sound
    assumption
theorem Node.onFollowUp_sound (n : Node) (p : ℕ) (f : Frame) (m : Moment) (h0 : Sound n) : Sound (Node.onFollowUp n p f m) := by
  unfold Node.onFollowUp
  extract_lets +onlyGivenNames m6
  clear_value m6
  extract_lets +onlyGivenNames m7
  clear_value m7
  extract_lets +onlyGivenNames m8
  clear_value m8
  extract_lets +onlyGivenNames m9
  clear_value m9
  split
  · assumption
  · extract_lets +onlyGivenNames m15
    have hm15 : Sound m15 := by
      unfold m15
      apply Node.setBp_sound
      assumption
    clear_value m15
    extract_lets +onlyGivenNames m17
    clear_value m17
    split
    · apply Node.markAccept_sound
      assumption
    · apply Node.markReject_sound
      assumption
theorem Node.followUpsLate_sound (n : Node) (p : ℕ) (m : Moment) (h0 : Sound n) : Sound (Node.followUpsLate n p m) := by
  unfold Node.followUpsLate
  extract_lets +onlyGivenNames m5
  clear_value m5
  extract_lets +onlyGivenNames m6
  clear_value m6
  extract_lets +onlyGivenNames m7
  have hm7 : Sound m7 := by
    unfold m7
    apply Node.setBp_sound
    assumption
  clear_value m7
  refine foldl_ok ?_ ?_
  · intro x x x
    apply Node.markReject_sound
    assumption
  · assumption
theorem Node.markSelect_sound (n : Node) (p : ℕ) (m : Moment) (h0 : Sound n) : Sound (Node.markSelect n p m) := by
  unfold Node.markSelect
  extract_lets +onlyGivenNames m5
  clear_value m5
  extract_lets +onlyGivenNames m6
  clear_value m6
  extract_lets +onlyGivenNames m7
  clear_value m7
  split
  refine ite_ind ?_ ?_
  · intro x
    assumption
  · intro x
    extract_lets +onlyGivenNames m15
    have hm15 : Sound m15 := by
      unfold m15
      apply Node.setFds_sound
      assumption
    clear_value m15
    extract_lets +onlyGivenNames m17
    clear_value m17
    extract_lets +onlyGivenNames m18
    have hm18 : Sound m18 := by
      unfold m18
      refine ite_ind ?_ ?_
      · intro x
        refine sound_mk ?_ rfl rfl rfl
        assumption
      · intro x
        assumption
    clear_value m18
    apply Node.busRing_sound
    apply Node.busRec_sound
    assumption
theorem Node.markSecond_sound (n : Node) (m : Moment) (h0 : Sound n) : Sound (Node.markSecond n m) := by
  unfold Node.markSecond
  extract_lets +onlyGivenNames m4
  have hm4 : Sound m4 := by
    unfold m4
    apply Node.markSelect_sound
    apply Node.markSelect_sound
    assumption
  clear_value m4
  extract_lets +onlyGivenNames m6
  clear_value m6
  refine ite_ind ?_ ?_
  · intro x
    refine sound_mk ?_ rfl rfl rfl
    assumption
  · intro x
    assumption
theorem Node.protoFrame_sound (n : Node) (p : ℕ) (f : Frame) (sof : ℕ) (m : Moment) (h0 : Sound n) : Sound (Node.protoFrame n p f sof m) := by
  unfold Node.protoFrame
  extract_lets +onlyGivenNames m7
  clear_value m7
  extract_lets +onlyGivenNames m8
  clear_value m8
  extract_lets +onlyGivenNames m9
  clear_value m9
  extract_lets +onlyGivenNames m10
  clear_value m10
  extract_lets +onlyGivenNames m11
  have hm11 : Sound m11 := by
    unfold m11
    refine ite_ind ?_ ?_
    · intro x
      apply Node.setSv_sound
      assumption
    · intro x
      assumption
  clear_value m11
  extract_lets +onlyGivenNames m13
  clear_value m13
  extract_lets +onlyGivenNames m14
  have hm14 : Sound m14 := by
    unfold m14
    apply Node.pingSeen_sound
    assumption
  clear_value m14
  extract_lets +onlyGivenNames m16
  clear_value m16
  extract_lets +onlyGivenNames m17
  have hm17 : Sound m17 := by
    unfold m17
    apply Node.pingSeen_sound
    assumption
  clear_value m17
  extract_lets +onlyGivenNames m19
  clear_value m19
  extract_lets +onlyGivenNames m20
  clear_value m20
  extract_lets +onlyGivenNames m21
  clear_value m21
  extract_lets +onlyGivenNames m22
  have hm22 : Sound m22 := by
    unfold m22
    refine ite_ind ?_ ?_
    · intro x
      apply Node.putDelay_sound
      assumption
    · intro x
      assumption
  clear_value m22
  extract_lets +onlyGivenNames m24
  have hm24 : Sound m24 := by
    unfold m24
    refine ite_ind ?_ ?_
    · intro x
      apply Node.onMark_sound
      assumption
    · intro x
      refine ite_ind ?_ ?_
      · intro x
        apply Node.onFollowUp_sound
        assumption
      · intro x
        refine ite_ind ?_ ?_
        · intro x
          apply Node.onBegin_sound
          assumption
        · intro x
          refine ite_ind ?_ ?_
          · intro x
            apply Node.onQuery_sound
            assumption
          · intro x
            refine ite_ind ?_ ?_
            · intro x
              apply Node.onBid_sound
              assumption
            · intro x
              refine ite_ind ?_ ?_
              · intro x
                apply Node.onAssign_sound
                assumption
              · intro x
                refine ite_ind ?_ ?_
                · intro x
                  apply Node.onAssigned_sound
                  assumption
                · intro x
                  refine ite_ind ?_ ?_
                  · intro x
                    refine ite_ind ?_ ?_
                    · intro x
                      apply Node.svSend_sound
                      apply Node.setSv_sound
                      assumption
                    · intro x
                      assumption
                  · intro x
                    refine ite_ind ?_ ?_
                    · intro x
                      split
                      · refine ite_ind ?_ ?_
                        · intro x
                          apply Node.setSv_sound
                          assumption
                        · intro x
                          assumption
                      · assumption
                    · intro x
                      refine ite_ind ?_ ?_
                      · intro x
                        split
                        · refine ite_ind ?_ ?_
                          · intro x
                            apply Node.exchangeDone_sound
                            assumption
                          · intro x
                            assumption
                        · assumption
                      · intro x
                        refine ite_ind ?_ ?_
                        · intro x
                          apply Node.seePair_sound
                          assumption
                        · intro x
                          refine ite_ind ?_ ?_
                          · intro x
                            apply Node.onAnnounce_sound
                            assumption
                          · intro x
                            refine ite_ind ?_ ?_
                            · intro x
                              apply Node.onEnd_sound
                              assumption
                            · intro x
                              assumption
  clear_value m24
  refine ite_ind ?_ ?_
  · intro x
    apply Node.listenHear_sound
    assumption
  · intro x
    assumption
theorem Node.protoSent_sound (n : Node) (p : ℕ) (f : Frame) (sof : ℕ) (m : Moment) (h0 : Sound n) : Sound (Node.protoSent n p f sof m) := by
  unfold Node.protoSent
  extract_lets +onlyGivenNames m7
  clear_value m7
  extract_lets +onlyGivenNames m8
  clear_value m8
  extract_lets +onlyGivenNames m9
  clear_value m9
  extract_lets +onlyGivenNames m10
  have hm10 : Sound m10 := by
    unfold m10
    refine ite_ind ?_ ?_
    · intro x
      apply Node.setSv_sound
      assumption
    · intro x
      assumption
  clear_value m10
  extract_lets +onlyGivenNames m12
  clear_value m12
  refine ite_ind ?_ ?_
  · intro x
    apply Node.sendFollowUp_sound
    assumption
  · intro x
    refine ite_ind ?_ ?_
    · intro x
      refine ite_ind ?_ ?_
      · intro x
        apply Node.svBegun_sound
        assumption
      · intro x
        assumption
    · intro x
      refine ite_ind ?_ ?_
      · intro x
        apply Node.setSv_sound
        assumption
      · intro x
        refine ite_ind ?_ ?_
        · intro x
          apply Node.setSv_sound
          assumption
        · intro x
          refine ite_ind ?_ ?_
          · intro x
            apply Node.svSend_sound
            assumption
          · intro x
            refine ite_ind ?_ ?_
            · intro x
              apply Node.delaySent_sound
              assumption
            · intro x
              refine ite_ind ?_ ?_
              · intro x
                apply Node.masterDone_sound
                assumption
              · intro x
                assumption
end Sys2Proof.Machine
end

