-- ==== Sys2Proof/Laws/SoundBusCmd.lean ====
section
/-! SUPPORT. Every operation and every meaning of Machine/BusCmd.lean keeps `Sound`. -/
set_option linter.unusedVariables false
namespace Sys2Proof.Machine
theorem Node.ackFrame_sound (n : Node) (f : Frame) (h0 : Sound n) : Sound (Node.ackFrame n f) := by
  unfold Node.ackFrame
  extract_lets +onlyGivenNames m4
  clear_value m4
  extract_lets +onlyGivenNames m5
  clear_value m5
  refine ite_ind ?_ ?_
  · intro x
    apply Node.queueAck_sound
    assumption
  · intro x
    refine ite_ind ?_ ?_
    · intro x
      apply Node.queueAck_sound
      assumption
    · intro x
      refine ite_ind ?_ ?_
      · intro x
        apply Node.queueAck_sound
        assumption
      · intro x
        assumption
theorem Node.doorbellFrame_sound (n : Node) (p : ℕ) (f : Frame) (h0 : Sound n) : Sound (Node.doorbellFrame n p f) := by
  unfold Node.doorbellFrame
  extract_lets +onlyGivenNames m5
  clear_value m5
  refine ite_ind ?_ ?_
  · intro x
    apply Node.busEvt_sound
    assumption
  · intro x
    apply Node.ring_sound
    assumption
theorem Node.valueFrame_sound (n : Node) (f : Frame) (h0 : Sound n) : Sound (Node.valueFrame n f) := by
  unfold Node.valueFrame
  refine ite_ind ?_ ?_
  · intro x
    assumption
  · intro x
    extract_lets +onlyGivenNames m5
    clear_value m5
    extract_lets +onlyGivenNames m6
    clear_value m6
    extract_lets +onlyGivenNames m7
    clear_value m7
    refine sound_mk ?_ rfl rfl rfl
    assumption
theorem Node.nodeFrame_sound (n : Node) (p : ℕ) (f : Frame) (m : Moment) (h0 : Sound n) : Sound (Node.nodeFrame n p f m) := by
  unfold Node.nodeFrame
  refine ite_ind ?_ ?_
  · intro x
    assumption
  · intro x
    split
    · refine ite_ind ?_ ?_
      · intro x
        apply Node.doorbellFrame_sound
        assumption
      · intro x
        apply Node.ackFrame_sound
        assumption
    · refine ite_ind ?_ ?_
      · intro x
        apply Node.valueFrame_sound
        assumption
      · intro x
        assumption
    · refine ite_ind ?_ ?_
      · intro x
        apply Node.nodeCaravan_sound
        assumption
      · intro x
        assumption
    · assumption
theorem Node.filterFrame_sound (n : Node) (p : ℕ) (f : Frame) (sof : ℕ) (m : Moment) (h0 : Sound n) : Sound (Node.filterFrame n p f sof m) := by
  unfold Node.filterFrame
  extract_lets +onlyGivenNames m7
  clear_value m7
  extract_lets +onlyGivenNames m8
  clear_value m8
  split
  · assumption
  · extract_lets +onlyGivenNames m12
    have hm12 : Sound m12 := by
      unfold m12
      refine ite_ind ?_ ?_
      · intro x
        assumption
      · intro x
        apply Node.fifoPush_sound
        assumption
    clear_value m12
    refine ite_ind ?_ ?_
    · intro x
      assumption
    · intro x
      split
      · apply Node.userCaravan_sound
        assumption
      · assumption
theorem Node.confirmed_sound (n : Node) (p : ℕ) (f : Frame) (sof : ℕ) (edges : ℕ × ℤ) (m : Moment) (h0 : Sound n) : Sound (Node.confirmed n p f sof edges m) := by
  unfold Node.confirmed
  extract_lets +onlyGivenNames m8
  have hm8 : Sound m8 := by
    unfold m8
    apply Node.rxGood_sound
    assumption
  clear_value m8
  extract_lets +onlyGivenNames m10
  clear_value m10
  extract_lets +onlyGivenNames m11
  have hm11 : Sound m11 := by
    unfold m11
    apply Node.setBp_sound
    assumption
  clear_value m11
  extract_lets +onlyGivenNames m13
  have hm13 : Sound m13 := by
    unfold m13
    refine ite_ind ?_ ?_
    · intro x
      apply Node.busRec_sound
      assumption
    · intro x
      assumption
  clear_value m13
  extract_lets +onlyGivenNames m15
  have hm15 : Sound m15 := by
    unfold m15
    refine ite_ind ?_ ?_
    · intro x
      assumption
    · intro x
      apply Node.earlyMatch_sound
      assumption
  clear_value m15
  extract_lets +onlyGivenNames m17
  have hm17 : Sound m17 := by
    unfold m17
    split
    · apply Node.earlyBytes_sound
      assumption
    · assumption
  clear_value m17
  extract_lets +onlyGivenNames m19
  have hm19 : Sound m19 := by
    unfold m19
    apply Node.earlyEnd_sound
    assumption
  clear_value m19
  extract_lets +onlyGivenNames m21
  have hm21 : Sound m21 := by
    unfold m21
    apply Node.trim_sound
    assumption
  clear_value m21
  extract_lets +onlyGivenNames m23
  have hm23 : Sound m23 := by
    unfold m23
    apply Node.busIdle_sound
    assumption
  clear_value m23
  refine ite_ind ?_ ?_
  · intro x
    apply Node.protoFrame_sound
    apply Node.filterFrame_sound
    assumption
  · intro x
    split
    refine ite_ind ?_ ?_
    · intro x
      refine sound1_eq (by assumption) ?_
      apply Node.duplicate_sound
      assumption
    · intro x
      apply Node.nodeFrame_sound
      apply Node.forward_sound
      apply Node.filterFrame_sound
      refine sound1_eq (by assumption) ?_
      apply Node.duplicate_sound
      assumption
theorem execFrameConfirmed_sound (p : Nat) (f : Frame) (sofQ : Nat) (edges : Nat × Int) (m : Moment) (s : State) (h0 : Sound s.node) : Good (execFrameConfirmed p f sofQ edges m s) := by
  unfold execFrameConfirmed
  refine lift_good (fun n hn => ?_) h0
  refine ite_ind ?_ ?_
  · intro x
    apply Node.confirmed_sound
    assumption
  · intro x
    assumption
theorem execAckFrame_sound (f : Frame) (s : State) (h0 : Sound s.node) : Good (execAckFrame f s) := by
  unfold execAckFrame
  refine lift_good (fun n hn => ?_) h0
  refine ite_ind ?_ ?_
  · intro x
    apply Node.ackFrame_sound
    assumption
  · intro x
    assumption
theorem execDoorbellFrame_sound (p : Nat) (f : Frame) (s : State) (h0 : Sound s.node) : Good (execDoorbellFrame p f s) := by
  unfold execDoorbellFrame
  refine lift_good (fun n hn => ?_) h0
  refine ite_ind ?_ ?_
  · intro x
    apply Node.doorbellFrame_sound
    assumption
  · intro x
    assumption
theorem execValueFrame_sound (f : Frame) (s : State) (h0 : Sound s.node) : Good (execValueFrame f s) := by
  unfold execValueFrame
  refine lift_good (fun n hn => ?_) h0
  refine ite_ind ?_ ?_
  · intro x
    apply Node.valueFrame_sound
    assumption
  · intro x
    assumption
theorem execEarlyMatch_sound (p : Nat) (f : Frame) (len : Nat) (bytes : List Byte) (sofQ : Nat) (m : Moment) (s : State) (h0 : Sound s.node) : Good (execEarlyMatch p f len bytes sofQ m s) := by
  unfold execEarlyMatch
  refine lift_good (fun n hn => ?_) h0
  refine ite_ind ?_ ?_
  · intro x
    assumption
  · intro x
    extract_lets +onlyGivenNames m12
    have hm12 : Sound m12 := by
      unfold m12
      refine ite_ind ?_ ?_
      · intro x
        assumption
      · intro x
        apply Node.earlyMatch_sound
        assumption
    clear_value m12
    apply Node.earlyBytes_sound
    assumption
theorem execTransmissionStart_sound (p : Nat) (m : Moment) (s : State) (h0 : Sound s.node) : Good (execTransmissionStart p m s) := by
  unfold execTransmissionStart
  refine lift_good (fun n hn => ?_) h0
  refine ite_ind ?_ ?_
  · intro x
    apply Node.txStart_sound
    assumption
  · intro x
    assumption
theorem Node.txDone_sound (n : Node) (p : ℕ) (t : TxA) (m : Moment) (h0 : Sound n) : Sound (Node.txDone n p t m) := by
  unfold Node.txDone
  extract_lets +onlyGivenNames m6
  have hm6 : Sound m6 := by
    unfold m6
    apply Node.txGood_sound
    assumption
  clear_value m6
  extract_lets +onlyGivenNames m8
  clear_value m8
  extract_lets +onlyGivenNames m9
  clear_value m9
  extract_lets +onlyGivenNames m10
  have hm10 : Sound m10 := by
    unfold m10
    apply Node.busIdle_sound
    apply Node.setBp_sound
    assumption
  clear_value m10
  refine ite_ind ?_ ?_
  · intro x
    refine sound_mk ?_ rfl rfl rfl
    assumption
  · intro x
    refine ite_ind ?_ ?_
    · intro x
      refine ite_ind ?_ ?_
      · intro x
        apply Node.mbEnd_sound
        assumption
      · intro x
        apply Node.setBp_sound
        assumption
    · intro x
      extract_lets +onlyGivenNames m14
      extract_lets +onlyGivenNames m15
      have hm15 : Sound m15 := by
        unfold m15
        apply Node.setBp_sound
        assumption
      clear_value m15
      extract_lets +onlyGivenNames m17
      extract_lets +onlyGivenNames m18
      have hm18 : Sound m18 := by
        unfold m18
        refine ite_ind ?_ ?_
        · intro x
          apply Node.pairSettle_sound
          apply Node.setBp_sound
          assumption
        · intro x
          apply Node.mbEnd_sound
          assumption
      clear_value m18
      extract_lets +onlyGivenNames m20
      have hm20 : Sound m20 := by
        unfold m20
        refine ite_ind ?_ ?_
        · intro x
          apply Node.protoSent_sound
          assumption
        · intro x
          assumption
      clear_value m20
      apply Node.pump_sound
      assumption
theorem execFrameSent_sound (p : Nat) (m : Moment) (s : State) (h0 : Sound s.node) : Good (execFrameSent p m s) := by
  unfold execFrameSent
  refine lift_good (fun n hn => ?_) h0
  split
  · refine ite_ind ?_ ?_
    · intro x
      apply Node.txDone_sound
      assumption
    · intro x
      assumption
  · assumption
theorem Node.txUndone_sound (n : Node) (p : ℕ) (t : TxA) (h0 : Sound n) : Sound (Node.txUndone n p t) := by
  unfold Node.txUndone
  extract_lets +onlyGivenNames m5
  clear_value m5
  extract_lets +onlyGivenNames m6
  extract_lets +onlyGivenNames m7
  have hm7 : Sound m7 := by
    unfold m7
    apply Node.busIdle_sound
    apply Node.setBp_sound
    assumption
  clear_value m7
  refine ite_ind ?_ ?_
  · intro x
    apply Node.mbEnd_sound
    assumption
  · intro x
    refine ite_ind ?_ ?_
    · intro x
      apply Node.pump_sound
      apply Node.mbEnd_sound
      assumption
    · intro x
      assumption
theorem Node.guardStep_sound (n : Node) (p : ℕ) (gen : ℕ) (afterBrs : Bool) (m : Moment) (h0 : Sound n) : Sound (Node.guardStep n p gen afterBrs m) := by
  unfold Node.guardStep
  refine ite_ind ?_ ?_
  · intro x
    assumption
  · intro x
    extract_lets +onlyGivenNames m8
    clear_value m8
    extract_lets +onlyGivenNames m9
    extract_lets +onlyGivenNames m10
    have hm10 : Sound m10 := by
      unfold m10
      apply Node.setBp_sound
      assumption
    clear_value m10
    refine ite_ind ?_ ?_
    · intro x
      apply Node.genFallback_sound
      apply Node.setBp_sound
      assumption
    · intro x
      assumption
theorem execFrameError_sound (p : ℕ) (afterBrs : Bool) (special : Bool) (m : Moment) (s : State) (h0 : Sound s.node) : Good (execFrameError p afterBrs special m s) := by
  unfold execFrameError
  refine lift_good (fun n hn => ?_) h0
  refine ite_ind ?_ ?_
  · intro x
    assumption
  · intro x
    extract_lets +onlyGivenNames m10
    have hm10 : Sound m10 := by
      unfold m10
      apply Node.earlyEnd_sound
      assumption
    clear_value m10
    extract_lets +onlyGivenNames m12
    have hm12 : Sound m12 := by
      unfold m12
      refine ite_ind ?_ ?_
      · intro x
        apply Node.windowError_sound
        assumption
      · intro x
        assumption
    clear_value m12
    split
    · extract_lets +onlyGivenNames m19
      clear_value m19
      extract_lets +onlyGivenNames m20
      have hm20 : Sound m20 := by
        unfold m20
        apply Node.txUndone_sound
        assumption
      clear_value m20
      extract_lets +onlyGivenNames m22
      have hm22 : Sound m22 := by
        unfold m22
        apply Node.guardStep_sound
        assumption
      clear_value m22
      refine ite_ind ?_ ?_
      · intro x
        assumption
      · intro x
        extract_lets +onlyGivenNames m25
        have hm25 : Sound m25 := by
          unfold m25
          apply Node.errState_sound
          apply Node.setFd_sound
          assumption
        clear_value m25
        refine ite_ind ?_ ?_
        · intro x
          apply Node.goBusOff_sound
          assumption
        · intro x
          assumption
    · extract_lets +onlyGivenNames m18
      clear_value m18
      apply Node.busIdle_sound
      apply Node.errState_sound
      apply Node.setFd_sound
      assumption
theorem execArbitrationLost_sound (p : Nat) (m : Moment) (s : State) (h0 : Sound s.node) : Good (execArbitrationLost p m s) := by
  unfold execArbitrationLost
  refine lift_good (fun n hn => ?_) h0
  split
  · refine ite_ind ?_ ?_
    · intro x
      apply Node.guardStep_sound
      apply Node.txUndone_sound
      apply Node.earlyEnd_sound
      assumption
    · intro x
      assumption
  · assumption
theorem execBusOffRecovery_sound (p : Nat) (m : Moment) (s : State) (h0 : Sound s.node) : Good (execBusOffRecovery p m s) := by
  unfold execBusOffRecovery
  refine lift_good (fun n hn => ?_) h0
  refine ite_ind ?_ ?_
  · intro x
    assumption
  · intro x
    extract_lets +onlyGivenNames m8
    have hm8 : Sound m8 := by
      unfold m8
      apply Node.setFds_sound
      assumption
    clear_value m8
    extract_lets +onlyGivenNames m10
    have hm10 : Sound m10 := by
      unfold m10
      apply Node.busRec_sound
      apply Node.busEvt_sound
      assumption
    clear_value m10
    apply Node.busWatch_sound
    apply Node.busRing_sound
    assumption
theorem execGatePulseEnd_sound (p g : Nat) (m : Moment) (s : State) (h0 : Sound s.node) : Good (execGatePulseEnd p g m s) := by
  unfold execGatePulseEnd
  refine lift_good (fun n hn => ?_) h0
  split
  · refine ite_ind ?_ ?_
    · intro x
      apply Node.hwGates_sound
      apply Node.gateOff_sound
      assumption
    · intro x
      assumption
  · assumption
theorem execCaravanGapTimeout_sound (p : Nat) (m : Moment) (s : State) (h0 : Sound s.node) : Good (execCaravanGapTimeout p m s) := by
  unfold execCaravanGapTimeout
  refine lift_good (fun n hn => ?_) h0
  refine ite_ind ?_ ?_
  · intro x
    assumption
  · intro x
    extract_lets +onlyGivenNames m8
    clear_value m8
    extract_lets +onlyGivenNames m9
    extract_lets +onlyGivenNames m10
    have hm10 : Sound m10 := by
      unfold m10
      apply Node.setBp_sound
      assumption
    clear_value m10
    refine foldl_ok ?_ ?_
    · intro x x x
      apply Node.carDiscard_sound
      assumption
    · assumption
theorem Node.valuePublish_sound (n : Node) (v : ℕ) (h0 : Sound n) : Sound (Node.valuePublish n v) := by
  unfold Node.valuePublish
  extract_lets +onlyGivenNames m4
  clear_value m4
  split
  · assumption
  · refine ite_ind ?_ ?_
    · intro x
      assumption
    · intro x
      extract_lets +onlyGivenNames m12
      clear_value m12
      extract_lets +onlyGivenNames m13
      clear_value m13
      extract_lets +onlyGivenNames m14
      clear_value m14
      extract_lets +onlyGivenNames m15
      clear_value m15
      extract_lets +onlyGivenNames m16
      refine ite_ind ?_ ?_
      · intro x
        assumption
      · intro x
        extract_lets +onlyGivenNames m18
        clear_value m18
        extract_lets +onlyGivenNames m19
        clear_value m19
        extract_lets +onlyGivenNames m20
        extract_lets +onlyGivenNames m21
        have hm21 : Sound m21 := by
          unfold m21
          refine sound_mk ?_ rfl rfl rfl
          assumption
        clear_value m21
        apply Node.sendBoth_sound
        assumption
theorem execValuePublish_sound (v : Nat) (s : State) (h0 : Sound s.node) : Good (execValuePublish v s) := by
  unfold execValuePublish
  refine lift_good (fun n hn => ?_) h0
  refine ite_ind ?_ ?_
  · intro x
    apply Node.valuePublish_sound
    assumption
  · intro x
    assumption
theorem Node.setBusState_sound (n : Node) (p : ℕ) (st : ℕ) (h0 : Sound n) : Sound (Node.setBusState n p st) := by
  unfold Node.setBusState
  apply Node.busWatch_sound
  apply Node.setFd_sound
  assumption
theorem Node.drainPort_sound (n : Node) (p : ℕ) (m : Moment) (h0 : Sound n) : Sound (Node.drainPort n p m) := by
  unfold Node.drainPort
  refine ite_ind ?_ ?_
  · intro x
    assumption
  · intro x
    extract_lets +onlyGivenNames m6
    have hm6 : Sound m6 := by
      unfold m6
      apply Node.setBusState_sound
      assumption
    clear_value m6
    extract_lets +onlyGivenNames m8
    extract_lets +onlyGivenNames m9
    have hm9 : Sound m9 := by
      unfold m9
      apply Node.setBp_sound
      assumption
    clear_value m9
    refine ite_ind ?_ ?_
    · intro x
      apply Node.svAbort_sound
      assumption
    · intro x
      assumption
theorem Node.enablePort_sound (n : Node) (p : ℕ) (h0 : Sound n) : Sound (Node.enablePort n p) := by
  unfold Node.enablePort
  apply Node.listenOn_sound
  apply Node.setBp_sound
  apply Node.setBusState_sound
  assumption
theorem Node.linkSettle_sound (n : Node) (h0 : Sound n) : Sound (Node.linkSettle n) := by
  unfold Node.linkSettle
  extract_lets +onlyGivenNames m3
  clear_value m3
  extract_lets +onlyGivenNames m4
  extract_lets +onlyGivenNames m5
  have hm5 : Sound m5 := by
    unfold m5
    refine ite_ind ?_ ?_
    · intro x
      refine sound_mk ?_ rfl rfl rfl
      assumption
    · intro x
      assumption
  clear_value m5
  refine ite_ind ?_ ?_
  · intro x
    assumption
  · intro x
    refine foldl_ok ?_ ?_
    · intro x x x
      refine ite_ind ?_ ?_
      · intro x
        apply Node.enablePort_sound
        assumption
      · intro x
        assumption
    · assumption
theorem Node.portOff_sound (n : Node) (p : ℕ) (m : Moment) (h0 : Sound n) : Sound (Node.portOff n p m) := by
  unfold Node.portOff
  extract_lets +onlyGivenNames m5
  clear_value m5
  extract_lets +onlyGivenNames m6
  have hm6 : Sound m6 := by
    unfold m6
    refine foldl_ok ?_ ?_
    · intro x x x
      apply Node.mbEnd_sound
      assumption
    · assumption
  clear_value m6
  extract_lets +onlyGivenNames m8
  extract_lets +onlyGivenNames m9
  have hm9 : Sound m9 := by
    unfold m9
    apply Node.setBp_sound
    assumption
  clear_value m9
  extract_lets +onlyGivenNames m11
  extract_lets +onlyGivenNames m12
  have hm12 : Sound m12 := by
    unfold m12
    refine sound_mk ?_ rfl rfl rfl
    assumption
  clear_value m12
  extract_lets +onlyGivenNames m14
  have hm14 : Sound m14 := by
    unfold m14
    apply Node.setBusState_sound
    split
    · assumption
    · apply Node.dropCaravans_sound
      exact (Node.fresh_sound _ (by assumption)).h
  clear_value m14
  extract_lets +onlyGivenNames m16
  have hm16 : Sound m16 := by
    unfold m16
    apply Node.raiseM_sound
    apply Node.busEvt_sound
    assumption
  clear_value m16
  apply Node.linkSettle_sound
  apply Node.pairSettle_sound
  apply Node.busRing_sound
  assumption
theorem execBusPortOff_sound (p : Nat) (m : Moment) (s : State) (h0 : Sound s.node) : Good (execBusPortOff p m s) := by
  unfold execBusPortOff
  refine lift_good (fun n hn => ?_) h0
  refine ite_ind ?_ ?_
  · intro x
    apply Node.portOff_sound
    assumption
  · intro x
    assumption
theorem Node.noteBlock_sound (n : Node) (h0 : Sound n) : Sound (Node.noteBlock n) := by
  unfold Node.noteBlock
  refine sound_mk ?_ rfl rfl rfl
  assumption
theorem Node.busChanged_sound (old : Node) (n : Node) (m : Moment) (h0 : Sound old) (h1 : Sound n) : Sound (Node.busChanged old n m) := by
  unfold Node.busChanged
  extract_lets +onlyGivenNames m6
  have hm6 : Sound m6 := by
    unfold m6
    apply Node.noteBlock_sound
    assumption
  clear_value m6
  extract_lets +onlyGivenNames m8
  extract_lets +onlyGivenNames m9
  have hm9 : Sound m9 := by
    unfold m9
    refine ite_ind ?_ ?_
    · intro x
      refine sound_mk ?_ rfl rfl rfl
      assumption
    · intro x
      assumption
  clear_value m9
  extract_lets +onlyGivenNames m11
  have hm11 : Sound m11 := by
    unfold m11
    refine foldl_ok ?_ ?_
    · intro x x x
      extract_lets +onlyGivenNames m15
      have hm15 : Sound m15 := by
        unfold m15
        apply Node.busIdle_sound
        assumption
      extract_lets +onlyGivenNames m17
      clear_value m17
      extract_lets +onlyGivenNames m18
      clear_value m18
      refine ite_ind ?_ ?_
      · intro x
        apply Node.drainPort_sound
        apply Node.setBp_sound
        assumption
      · intro x
        refine ite_ind ?_ ?_
        · intro x
          refine ite_ind ?_ ?_
          · intro x
            apply Node.enablePort_sound
            assumption
          · intro x
            apply Node.setBp_sound
            assumption
        · intro x
          assumption
    · assumption
  clear_value m11
  refine ite_ind ?_ ?_
  · intro x
    extract_lets +onlyGivenNames m14
    have hm14 : Sound m14 := by
      unfold m14
      refine foldl_ok ?_ ?_
      · intro x x x
        refine ite_ind ?_ ?_
        · intro x
          apply Node.drainPort_sound
          apply Node.setBp_sound
          assumption
        · intro x
          assumption
      · assumption
    clear_value m14
    apply Node.linkSettle_sound
    assumption
  · intro x
    assumption
theorem Node.putWide_sound (n : Node) (keys : Keys) (k : String) (a : ℕ → ℕ) (h0 : Sound n) : Sound (Node.putWide n keys k a) := by
  unfold Node.putWide
  split
  · apply Node.wr_sound
    apply Node.wr_sound
    assumption
  · assumption
theorem execSetBusPort_sound (l : Line) (s : State) (h0 : Sound s.node) : Good (execSetBusPort l s) := by
  unfold execSetBusPort
  refine lift_good (fun n hn => ?_) h0
  apply Node.runWhole_sound
  · assumption
  · intro x x
    extract_lets +onlyGivenNames m8
    clear_value m8
    extract_lets +onlyGivenNames m9
    clear_value m9
    extract_lets +onlyGivenNames m10
    have hm10 : Sound m10 := by
      unfold m10
      apply Node.putWide_sound
      apply Node.putWide_sound
      apply Node.setKeys_sound
      assumption
    clear_value m10
    extract_lets +onlyGivenNames m12
    have hm12 : Sound m12 := by
      unfold m12
      refine ite_ind ?_ ?_
      · intro x
        apply Node.dirty_sound
        assumption
      · intro x
        assumption
    clear_value m12
    apply okE_ok
    apply sound1_mk
    apply Node.busChanged_sound
    · assumption
    · assumption
theorem setFilterUnit_sound (keys : Keys) (i : ℕ) (n : Node) (h2 : Sound n) : okE Sound1 (setFilterUnit keys i n) := by
  unfold setFilterUnit
  apply okE_ok
  apply sound1_mk
  apply Node.setKeys_sound
  assumption
theorem execSetBusFilter_sound (l : Line) (s : State) (h0 : Sound s.node) : Good (execSetBusFilter l s) := by
  unfold execSetBusFilter
  refine lift_good (fun n hn => ?_) h0
  apply Node.runMulti_sound
  · assumption
  · intro x x x
    apply setFilterUnit_sound
    assumption
theorem execSetBusGate_sound (l : Line) (s : State) (h0 : Sound s.node) : Good (execSetBusGate l s) := by
  unfold execSetBusGate
  refine lift_good (fun n hn => ?_) h0
  apply Node.runWhole_sound
  · assumption
  · intro x x
    extract_lets +onlyGivenNames m8
    clear_value m8
    apply okE_ok
    apply sound1_mk
    apply Node.setKeys_sound
    assumption
theorem execSetBusVal_sound (l : Line) (s : State) (h0 : Sound s.node) : Good (execSetBusVal l s) := by
  unfold execSetBusVal
  refine lift_good (fun n hn => ?_) h0
  apply Node.runWhole_sound
  · assumption
  · intro x x
    extract_lets +onlyGivenNames m8
    clear_value m8
    extract_lets +onlyGivenNames m9
    have hm9 : Sound m9 := by
      unfold m9
      apply Node.setKeys_sound
      assumption
    clear_value m9
    extract_lets +onlyGivenNames m11
    clear_value m11
    extract_lets +onlyGivenNames m12
    clear_value m12
    apply okE_ok
    apply sound1_mk
    refine sound_mk ?_ rfl rfl rfl
    assumption
theorem execSetBusAlmto_sound (l : Line) (s : State) (h0 : Sound s.node) : Good (execSetBusAlmto l s) := by
  unfold execSetBusAlmto
  refine lift_good (fun n hn => ?_) h0
  apply Node.runWhole_sound
  · assumption
  · intro x x
    apply okE_ok
    apply sound1_mk
    apply Node.setKeys_sound
    assumption
theorem execGetBus_sound (l : Line) (s : State) (h0 : Sound s.node) : Good (execGetBus l s) := by
  unfold execGetBus
  refine lift_good (fun n hn => ?_) h0
  apply Node.runRead_sound
  assumption
theorem execShowBus_sound (l : Line) (s : State) (h0 : Sound s.node) : Good (execShowBus l s) := by
  unfold execShowBus
  refine lift_good (fun n hn => ?_) h0
  apply Node.runRead_sound
  assumption
theorem execShowBusTrim_sound (l : Line) (s : State) (h0 : Sound s.node) : Good (execShowBusTrim l s) := by
  unfold execShowBusTrim
  refine lift_good (fun n hn => ?_) h0
  apply Node.runRead_sound
  assumption
theorem Node.request_sound (n : Node) (p : ℕ) (k : ℕ) (h0 : Sound n) : Sound (Node.request n p k) := by
  unfold Node.request
  extract_lets +onlyGivenNames m5
  clear_value m5
  apply Node.setBp_sound
  apply Node.setFd_sound
  assumption
theorem Node.busCfgErr_sound (n : Node) (p : ℕ) (h0 : Sound n) : Sound (Node.busCfgErr n p) := by
  unfold Node.busCfgErr
  apply Node.busRing_sound
  apply Node.busEvt_sound
  assumption
theorem Node.mbReq_sound (old : Node) (n : Node) (p : ℕ) (k : ℕ) (h0 : Sound old) (h1 : Sound n) : Sound (Node.mbReq old n p k) := by
  unfold Node.mbReq
  extract_lets +onlyGivenNames m7
  clear_value m7
  extract_lets +onlyGivenNames m8
  clear_value m8
  refine ite_ind ?_ ?_
  · intro x
    apply Node.busCfgErr_sound
    assumption
  · intro x
    apply Node.request_sound
    assumption
theorem execMailboxReq_sound (p k : Nat) (s : State) (h0 : Sound s.node) : Good (execMailboxReq p k s) := by
  unfold execMailboxReq
  refine lift_good (fun n hn => ?_) h0
  refine ite_ind ?_ ?_
  · intro x
    apply Node.mbReq_sound
    · assumption
    · assumption
  · intro x
    assumption
theorem Node.abortMb_sound (n : Node) (p : ℕ) (k : ℕ) (h0 : Sound n) : Sound (Node.abortMb n p k) := by
  unfold Node.abortMb
  refine ite_ind ?_ ?_
  · intro x
    assumption
  · intro x
    extract_lets +onlyGivenNames m6
    clear_value m6
    refine ite_ind ?_ ?_
    · intro x
      apply Node.setBp_sound
      assumption
    · intro x
      refine ite_ind ?_ ?_
      · intro x
        apply Node.setBp_sound
        assumption
      · intro x
        apply Node.mbEnd_sound
        assumption
theorem Node.mbAbort_sound (old : Node) (n : Node) (p : ℕ) (k : ℕ) (h0 : Sound old) (h1 : Sound n) : Sound (Node.mbAbort old n p k) := by
  unfold Node.mbAbort
  refine ite_ind ?_ ?_
  · intro x
    apply Node.busCfgErr_sound
    assumption
  · intro x
    apply Node.abortMb_sound
    assumption
theorem execMailboxAbort_sound (p k : Nat) (s : State) (h0 : Sound s.node) : Good (execMailboxAbort p k s) := by
  unfold execMailboxAbort
  refine lift_good (fun n hn => ?_) h0
  refine ite_ind ?_ ?_
  · intro x
    apply Node.mbAbort_sound
    · assumption
    · assumption
  · intro x
    assumption
theorem execDoBusSend_sound (l : Line) (s : State) (h0 : Sound s.node) : Good (execDoBusSend l s) := by
  unfold execDoBusSend
  refine lift_good (fun n hn => ?_) h0
  apply Node.runOpen_sound
  · assumption
  · intro x x
    refine okE_bind ?_
    intro x x
    refine okE_bind ?_
    intro x x
    extract_lets +onlyGivenNames m12
    clear_value m12
    extract_lets +onlyGivenNames m13
    clear_value m13
    extract_lets +onlyGivenNames m14
    clear_value m14
    extract_lets +onlyGivenNames m15
    clear_value m15
    extract_lets +onlyGivenNames m16
    clear_value m16
    extract_lets +onlyGivenNames m17
    have hm17 : ∀ x0, okE Sound (m17 x0) := by
      unfold m17
      intro x
      refine okE_bind ?_
      intro x x
      refine okE_bind ?_
      intro x x
      refine okE_bind ?_
      intro x x
      split
      · exact okE_refuse
      · refine okE_bind ?_
        intro x x
        extract_lets +onlyGivenNames m30
        have hm30 : Sound m30 := by
          unfold m30
          refine ite_ind ?_ ?_
          · intro x
            assumption
          · intro x
            apply Node.setBytes_sound
            assumption
        clear_value m30
        extract_lets +onlyGivenNames m32
        have hm32 : Sound m32 := by
          unfold m32
          apply Node.setFds_sound
          assumption
        clear_value m32
        extract_lets +onlyGivenNames m34
        have hm34 : Sound m34 := by
          unfold m34
          apply Node.request_sound
          assumption
        clear_value m34
        refine ite_ind ?_ ?_
        · intro x
          extract_lets +onlyGivenNames m37
          have hm37 : Sound m37 := by
            unfold m37
            apply Node.send_sound
            assumption
          clear_value m37
          apply okE_pure
          apply Node.setPort_sound
          assumption
        · intro x
          apply okE_pure
          apply Node.replyOk_sound
          assumption
    clear_value m17
    split
    · refine okE_bind ?_
      intro x x
      apply_assumption
    · split
      · refine okE_bind ?_
        intro x x
        apply_assumption
      · refine ite_ind ?_ ?_
        · intro x
          refine okE_bind ?_
          intro x x
          apply_assumption
        · intro x
          refine okE_bind ?_
          intro x x
          apply_assumption
theorem execDoBusAbort_sound (l : Line) (s : State) (h0 : Sound s.node) : Good (execDoBusAbort l s) := by
  unfold execDoBusAbort
  refine lift_good (fun n hn => ?_) h0
  apply Node.runWhole_sound
  · assumption
  · intro x x
    apply okE_ok
    apply sound1_mk
    apply Node.abortMb_sound
    assumption
theorem execDoBusTunnel_sound (l : Line) (s : State) (h0 : Sound s.node) : Good (execDoBusTunnel l s) := by
  unfold execDoBusTunnel
  refine lift_good (fun n hn => ?_) h0
  apply Node.runOpen_sound
  · assumption
  · intro x x
    refine okE_bind ?_
    intro x x
    extract_lets +onlyGivenNames m10
    clear_value m10
    refine okE_bind ?_
    intro x x
    extract_lets +onlyGivenNames m13
    clear_value m13
    extract_lets +onlyGivenNames m14
    clear_value m14
    refine okE_bind ?_
    intro x x
    refine okE_bind ?_
    intro x x
    refine okE_bind ?_
    intro x x
    split
    · extract_lets +onlyGivenNames m26
      have hm26 : Sound m26 := by
        unfold m26
        apply Node.sendLink_sound
        assumption
      clear_value m26
      apply okE_pure
      apply Node.setPort_sound
      assumption
    · exact okE_refuse
theorem execTunnelTimeout_sound (c : Port) (s : State) (h0 : Sound s.node) : Good (execTunnelTimeout c s) := by
  unfold execTunnelTimeout
  refine lift_good (fun n hn => ?_) h0
  split
  · refine ite_ind ?_ ?_
    · intro x
      apply Node.send_sound
      apply Node.setPort_sound
      assumption
    · intro x
      assumption
  · assumption
theorem Node.gateReset_sound (n : Node) (p : ℕ) (g : ℕ) (h0 : Sound n) : Sound (Node.gateReset n p g) := by
  unfold Node.gateReset
  split
  refine ite_ind ?_ ?_
  · intro x
    apply Node.hwGates_sound
    apply Node.gateOff_sound
    assumption
  · intro x
    assumption
theorem execDoBusGateReset_sound (l : Line) (s : State) (h0 : Sound s.node) : Good (execDoBusGateReset l s) := by
  unfold execDoBusGateReset
  refine lift_good (fun n hn => ?_) h0
  apply Node.runWhole_sound
  · assumption
  · intro x x
    apply okE_ok
    apply sound1_mk
    apply Node.gateReset_sound
    assumption
theorem execGateResetWrite_sound (p g : Nat) (v : Word) (s : State) (h0 : Sound s.node) : Good (execGateResetWrite p g v s) := by
  unfold execGateResetWrite
  refine lift_good (fun n hn => ?_) h0
  refine ite_ind ?_ ?_
  · intro x
    apply Node.gateReset_sound
    assumption
  · intro x
    assumption
theorem Node.trimDrop_sound (n : Node) (p : ℕ) (k : ℕ) (h0 : Sound n) : Sound (Node.trimDrop n p k) := by
  unfold Node.trimDrop
  apply Node.setBp_sound
  apply Node.wr_sound
  assumption
theorem execDoBusTrimclr_sound (l : Line) (s : State) (h0 : Sound s.node) : Good (execDoBusTrimclr l s) := by
  unfold execDoBusTrimclr
  refine lift_good (fun n hn => ?_) h0
  apply Node.runWhole_sound
  · assumption
  · intro x x
    extract_lets +onlyGivenNames m8
    clear_value m8
    split
    · apply okE_ok
      apply sound1_mk
      split
      · apply Node.trimDrop_sound
        assumption
      · assumption
    · apply okE_ok
      apply sound1_mk
      refine foldl_ok ?_ ?_
      · intro x x x
        apply Node.trimDrop_sound
        assumption
      · assumption
theorem execSetBusTrimlock_sound (l : Line) (s : State) (h0 : Sound s.node) : Good (execSetBusTrimlock l s) := by
  unfold execSetBusTrimlock
  refine lift_good (fun n hn => ?_) h0
  apply Node.runWhole_sound
  · assumption
  · intro x x
    extract_lets +onlyGivenNames m8
    clear_value m8
    split
    · apply okE_ok
      apply sound1_mk
      apply Node.setOn_sound
      assumption
    · exact okE_refuse
theorem execWatchBus_sound (l : Line) (s : State) (h0 : Sound s.node) : Good (execWatchBus l s) := by
  unfold execWatchBus
  refine lift_good (fun n hn => ?_) h0
  apply Node.runWatch_sound
  assumption
theorem Node.busReload_sound (n : Node) (p : ℕ) (h0 : Sound n) : Sound (Node.busReload n p) := by
  unfold Node.busReload
  extract_lets +onlyGivenNames m4
  have hm4 : Sound m4 := by
    unfold m4
    apply Node.reload_sound
    assumption
  clear_value m4
  extract_lets +onlyGivenNames m6
  have hm6 : Sound m6 := by
    unfold m6
    apply Node.reloadRegs_sound
    assumption
  clear_value m6
  extract_lets +onlyGivenNames m8
  have hm8 : Sound m8 := by
    unfold m8
    refine foldl_ok ?_ ?_
    · intro x x x
      apply Node.reload_sound
      assumption
    · assumption
  clear_value m8
  refine foldl_ok ?_ ?_
  · intro x x x
    apply Node.reload_sound
    assumption
  · assumption
theorem Node.busReinit_sound (n : Node) (p : ℕ) (m : Moment) (h0 : Sound n) : Sound (Node.busReinit n p m) := by
  unfold Node.busReinit
  extract_lets +onlyGivenNames m5
  have hm5 : Sound m5 := by
    unfold m5
    refine ite_ind ?_ ?_
    · intro x
      apply Node.busWatch_sound
      assumption
    · intro x
      assumption
  clear_value m5
  extract_lets +onlyGivenNames m7
  have hm7 : Sound m7 := by
    unfold m7
    refine ite_ind ?_ ?_
    · intro x
      assumption
    · intro x
      apply Node.busWatch_sound
      assumption
  clear_value m7
  extract_lets +onlyGivenNames m9
  have hm9 : Sound m9 := by
    unfold m9
    apply Node.busReload_sound
    assumption
  clear_value m9
  extract_lets +onlyGivenNames m11
  have hm11 : Sound m11 := by
    unfold m11
    refine foldl_ok ?_ ?_
    · intro x x x
      apply Node.setEv_sound
      assumption
    · assumption
  clear_value m11
  extract_lets +onlyGivenNames m13
  have hm13 : Sound m13 := by
    unfold m13
    refine foldl_ok ?_ ?_
    · intro x x x
      apply Node.gateOff_sound
      apply Node.setOn_sound
      assumption
    · assumption
  clear_value m13
  extract_lets +onlyGivenNames m15
  have hm15 : Sound m15 := by
    unfold m15
    refine foldl_ok ?_ ?_
    · intro x x x
      apply Node.setFd_sound
      assumption
    · assumption
  clear_value m15
  extract_lets +onlyGivenNames m17
  have hm17 : Sound m17 := by
    unfold m17
    apply Node.setFds_sound
    assumption
  clear_value m17
  extract_lets +onlyGivenNames m19
  clear_value m19
  extract_lets +onlyGivenNames m20
  have hm20 : Sound m20 := by
    unfold m20
    apply Node.setBp_sound
    apply Node.wr_sound
    assumption
  clear_value m20
  extract_lets +onlyGivenNames m22
  have hm22 : Sound m22 := by
    unfold m22
    apply Node.noteBlock_sound
    assumption
  clear_value m22
  extract_lets +onlyGivenNames m24
  clear_value m24
  refine ite_ind ?_ ?_
  · intro x
    apply Node.enablePort_sound
    apply Node.busIdle_sound
    assumption
  · intro x
    apply Node.busIdle_sound
    assumption
theorem Node.busReinitUnit_sound (n : Node) (p : ℕ) (h0 : Sound n) : Sound1 (Node.busReinitUnit n p) := by
  unfold Node.busReinitUnit
  refine ite_ind ?_ ?_
  · intro x
    apply sound1_mk
    apply Node.busReinit_sound
    assumption
  · intro x
    apply sound1_mk
    apply Node.drainPort_sound
    assumption
theorem execDoBusReinit_sound (l : Line) (s : State) (h0 : Sound s.node) : Good (execDoBusReinit l s) := by
  unfold execDoBusReinit
  refine lift_good (fun n hn => ?_) h0
  apply Node.runOpen_sound
  · assumption
  · intro x x
    refine okE_bind ?_
    intro x x
    refine okE_bind ?_
    intro x x
    refine okE_bind ?_
    intro x x
    apply okE_pure
    apply Node.startMr_sound
    assumption
theorem execFifoPop_sound (p : Nat) (v : Word) (s : State) (h0 : Sound s.node) : Good (execFifoPop p v s) := by
  unfold execFifoPop
  refine lift_good (fun n hn => ?_) h0
  refine ite_ind ?_ ?_
  · intro x
    apply Node.fifoPop_sound
    assumption
  · intro x
    assumption
theorem execCaravanRelease_sound (p : Nat) (v : Word) (s : State) (h0 : Sound s.node) : Good (execCaravanRelease p v s) := by
  unfold execCaravanRelease
  refine lift_good (fun n hn => ?_) h0
  refine ite_ind ?_ ?_
  · intro x
    apply Node.setFd_sound
    assumption
  · intro x
    assumption
theorem Node.evRelease_sound (n : Node) (p : ℕ) (v : Sys2Proof.Word) (h0 : Sound n) : Sound (Node.evRelease n p v) := by
  unfold Node.evRelease
  refine foldl_ok ?_ ?_
  · intro x x x
    refine ite_ind ?_ ?_
    · intro x
      apply Node.setEv_sound
      assumption
    · intro x
      assumption
  · assumption
theorem execEarlyViewRelease_sound (p : Nat) (v : Word) (s : State) (h0 : Sound s.node) : Good (execEarlyViewRelease p v s) := by
  unfold execEarlyViewRelease
  refine lift_good (fun n hn => ?_) h0
  refine ite_ind ?_ ?_
  · intro x
    apply Node.evRelease_sound
    assumption
  · intro x
    assumption
theorem execDoSurveyStart_sound (l : Line) (s : State) (h0 : Sound s.node) : Good (execDoSurveyStart l s) := by
  unfold execDoSurveyStart
  refine lift_good (fun n hn => ?_) h0
  apply Node.runWhole_sound
  · assumption
  · intro x x
    extract_lets +onlyGivenNames m8
    clear_value m8
    extract_lets +onlyGivenNames m9
    extract_lets +onlyGivenNames m10
    have hm10 : Sound m10 := by
      unfold m10
      refine sound_mk ?_ rfl rfl rfl
      assumption
    clear_value m10
    apply okE_ok
    apply sound1_mk
    apply Node.svStart_sound
    assumption
theorem execDoSurveyAbort_sound (l : Line) (s : State) (h0 : Sound s.node) : Good (execDoSurveyAbort l s) := by
  unfold execDoSurveyAbort
  refine lift_good (fun n hn => ?_) h0
  apply Node.runWhole_sound
  · assumption
  · intro x x
    apply okE_ok
    apply sound1_mk
    refine foldl_ok ?_ ?_
    · intro x x x
      refine ite_ind ?_ ?_
      · intro x
        apply Node.svEnd_sound
        apply Node.withdraw_sound
        assumption
      · intro x
        assumption
    · assumption
theorem execSetSurvey_sound (l : Line) (s : State) (h0 : Sound s.node) : Good (execSetSurvey l s) := by
  unfold execSetSurvey
  refine lift_good (fun n hn => ?_) h0
  apply Node.runWhole_sound
  · assumption
  · intro x x
    apply okE_ok
    apply sound1_mk
    apply Node.setKeys_sound
    assumption
theorem execSetBusLink_sound (l : Line) (s : State) (h0 : Sound s.node) : Good (execSetBusLink l s) := by
  unfold execSetBusLink
  refine lift_good (fun n hn => ?_) h0
  apply Node.runWhole_sound
  · assumption
  · intro x x
    apply okE_ok
    apply sound1_mk
    apply Node.busChanged_sound
    · assumption
    · apply Node.setKeys_sound
      assumption
theorem execShowSurvey_sound (l : Line) (s : State) (h0 : Sound s.node) : Good (execShowSurvey l s) := by
  unfold execShowSurvey
  refine lift_good (fun n hn => ?_) h0
  apply Node.runRead_sound
  assumption
theorem execShowSurveyMap_sound (l : Line) (s : State) (h0 : Sound s.node) : Good (execShowSurveyMap l s) := by
  unfold execShowSurveyMap
  refine lift_good (fun n hn => ?_) h0
  apply Node.runRead_sound
  assumption
theorem execShowBusMark_sound (l : Line) (s : State) (h0 : Sound s.node) : Good (execShowBusMark l s) := by
  unfold execShowBusMark
  refine lift_good (fun n hn => ?_) h0
  apply Node.runRead_sound
  assumption
theorem execShowBusDelay_sound (l : Line) (s : State) (h0 : Sound s.node) : Good (execShowBusDelay l s) := by
  unfold execShowBusDelay
  refine lift_good (fun n hn => ?_) h0
  apply Node.runRead_sound
  assumption
theorem execGetBusLink_sound (l : Line) (s : State) (h0 : Sound s.node) : Good (execGetBusLink l s) := by
  unfold execGetBusLink
  refine lift_good (fun n hn => ?_) h0
  apply Node.runRead_sound
  assumption
theorem Node.sleepAsk_sound (n : Node) (p : ℕ) (cause : ℕ) (h0 : Sound n) : Sound (Node.sleepAsk n p cause) := by
  unfold Node.sleepAsk
  extract_lets +onlyGivenNames m5
  clear_value m5
  refine ite_ind ?_ ?_
  · intro x
    apply Node.setBp_sound
    assumption
  · intro x
    assumption
theorem execDoBusSleep_sound (l : Line) (s : State) (h0 : Sound s.node) : Good (execDoBusSleep l s) := by
  unfold execDoBusSleep
  refine lift_good (fun n hn => ?_) h0
  apply Node.runWhole_sound
  · assumption
  · intro x x
    apply okE_ok
    apply sound1_mk
    refine ite_ind ?_ ?_
    · intro x
      apply Node.sleepAsk_sound
      apply Node.sleepAsk_sound
      assumption
    · intro x
      apply Node.sleepAsk_sound
      assumption
theorem Node.sleepReach_sound (n : Node) (p : ℕ) (m : Moment) (h0 : Sound n) : Sound (Node.sleepReach n p m) := by
  unfold Node.sleepReach
  extract_lets +onlyGivenNames m5
  clear_value m5
  extract_lets +onlyGivenNames m6
  have hm6 : Sound m6 := by
    unfold m6
    apply Node.setFd_sound
    apply Node.setBp_sound
    assumption
  clear_value m6
  apply Node.pairSettle_sound
  apply Node.busRec_sound
  assumption
theorem execPortSleep_sound (p : Nat) (m : Moment) (s : State) (h0 : Sound s.node) : Good (execPortSleep p m s) := by
  unfold execPortSleep
  refine lift_good (fun n hn => ?_) h0
  extract_lets +onlyGivenNames m7
  clear_value m7
  refine ite_ind ?_ ?_
  · intro x
    apply Node.sleepReach_sound
    assumption
  · intro x
    assumption
theorem execWakePattern_sound (p : Nat) (s : State) (h0 : Sound s.node) : Good (execWakePattern p s) := by
  unfold execWakePattern
  refine lift_good (fun n hn => ?_) h0
  refine ite_ind ?_ ?_
  · intro x
    apply Node.wakeBoth_sound
    assumption
  · intro x
    assumption
theorem execWakeFrame_sound (p : Nat) (f : Frame) (s : State) (h0 : Sound s.node) : Good (execWakeFrame p f s) := by
  unfold execWakeFrame
  refine lift_good (fun n hn => ?_) h0
  refine ite_ind ?_ ?_
  · intro x
    apply Node.wakeBoth_sound
    assumption
  · intro x
    assumption
theorem Node.wakeReach_sound (n : Node) (p : ℕ) (m : Moment) (h0 : Sound n) : Sound (Node.wakeReach n p m) := by
  unfold Node.wakeReach
  extract_lets +onlyGivenNames m5
  clear_value m5
  extract_lets +onlyGivenNames m6
  have hm6 : Sound m6 := by
    unfold m6
    apply Node.setFd_sound
    apply Node.setBp_sound
    assumption
  clear_value m6
  apply Node.busRec_sound
  apply Node.busRing_sound
  assumption
theorem execPortWake_sound (p : Nat) (m : Moment) (s : State) (h0 : Sound s.node) : Good (execPortWake p m s) := by
  unfold execPortWake
  refine lift_good (fun n hn => ?_) h0
  refine ite_ind ?_ ?_
  · intro x
    apply Node.wakeReach_sound
    assumption
  · intro x
    assumption
theorem execDoBusWake_sound (l : Line) (s : State) (h0 : Sound s.node) : Good (execDoBusWake l s) := by
  unfold execDoBusWake
  refine lift_good (fun n hn => ?_) h0
  apply Node.runWhole_sound
  · assumption
  · intro x x
    apply okE_ok
    apply sound1_mk
    apply Node.wakeBoth_sound
    assumption
theorem execDoBusWakeup_sound (l : Line) (s : State) (h0 : Sound s.node) : Good (execDoBusWakeup l s) := by
  unfold execDoBusWakeup
  refine lift_good (fun n hn => ?_) h0
  apply Node.runWhole_sound
  · assumption
  · intro x x
    extract_lets +onlyGivenNames m8
    clear_value m8
    extract_lets +onlyGivenNames m9
    clear_value m9
    extract_lets +onlyGivenNames m10
    clear_value m10
    extract_lets +onlyGivenNames m11
    clear_value m11
    extract_lets +onlyGivenNames m12
    clear_value m12
    apply okE_ok
    apply sound1_mk
    refine ite_ind ?_ ?_
    · intro x
      apply Node.sendBoth_sound
      assumption
    · intro x
      apply Node.queueMsg_sound
      assumption
theorem Node.protoRow_sound (n : Node) (p : ℕ) (f : Frame) (sofQ : ℕ) (lo : ℕ) (hi : ℕ) (m : Moment) (h0 : Sound n) : Sound (Node.protoRow n p f sofQ lo hi m) := by
  unfold Node.protoRow
  refine ite_ind ?_ ?_
  · intro x
    apply Node.protoFrame_sound
    assumption
  · intro x
    assumption
theorem execBegin_sound (p : Nat) (f : Frame) (sofQ : Nat) (m : Moment) (s : State) (h0 : Sound s.node) : Good (execBegin p f sofQ m s) := by
  unfold execBegin
  refine lift_good (fun n hn => ?_) h0
  apply Node.protoRow_sound
  assumption
theorem execQuery_sound (p : Nat) (f : Frame) (sofQ : Nat) (m : Moment) (s : State) (h0 : Sound s.node) : Good (execQuery p f sofQ m s) := by
  unfold execQuery
  refine lift_good (fun n hn => ?_) h0
  apply Node.protoRow_sound
  assumption
theorem execBid_sound (p : Nat) (f : Frame) (sofQ : Nat) (m : Moment) (s : State) (h0 : Sound s.node) : Good (execBid p f sofQ m s) := by
  unfold execBid
  refine lift_good (fun n hn => ?_) h0
  apply Node.protoRow_sound
  assumption
theorem execAssign_sound (p : Nat) (f : Frame) (sofQ : Nat) (m : Moment) (s : State) (h0 : Sound s.node) : Good (execAssign p f sofQ m s) := by
  unfold execAssign
  refine lift_good (fun n hn => ?_) h0
  apply Node.protoRow_sound
  assumption
theorem execAssigned_sound (p : Nat) (f : Frame) (sofQ : Nat) (m : Moment) (s : State) (h0 : Sound s.node) : Good (execAssigned p f sofQ m s) := by
  unfold execAssigned
  refine lift_good (fun n hn => ?_) h0
  apply Node.protoRow_sound
  assumption
theorem execPing_sound (p : Nat) (f : Frame) (sofQ : Nat) (m : Moment) (s : State) (h0 : Sound s.node) : Good (execPing p f sofQ m s) := by
  unfold execPing
  refine lift_good (fun n hn => ?_) h0
  apply Node.protoRow_sound
  assumption
theorem execPong_sound (p : Nat) (f : Frame) (sofQ : Nat) (m : Moment) (s : State) (h0 : Sound s.node) : Good (execPong p f sofQ m s) := by
  unfold execPong
  refine lift_good (fun n hn => ?_) h0
  apply Node.protoRow_sound
  assumption
theorem execPongFollowUp_sound (p : Nat) (f : Frame) (sofQ : Nat) (m : Moment) (s : State) (h0 : Sound s.node) : Good (execPongFollowUp p f sofQ m s) := by
  unfold execPongFollowUp
  refine lift_good (fun n hn => ?_) h0
  apply Node.protoRow_sound
  assumption
theorem execDelay_sound (p : Nat) (f : Frame) (sofQ : Nat) (m : Moment) (s : State) (h0 : Sound s.node) : Good (execDelay p f sofQ m s) := by
  unfold execDelay
  refine lift_good (fun n hn => ?_) h0
  apply Node.protoRow_sound
  assumption
theorem execSurveyEnd_sound (p : Nat) (f : Frame) (sofQ : Nat) (m : Moment) (s : State) (h0 : Sound s.node) : Good (execSurveyEnd p f sofQ m s) := by
  unfold execSurveyEnd
  refine lift_good (fun n hn => ?_) h0
  apply Node.protoRow_sound
  assumption
theorem execAnnounce_sound (p : Nat) (f : Frame) (sofQ : Nat) (m : Moment) (s : State) (h0 : Sound s.node) : Good (execAnnounce p f sofQ m s) := by
  unfold execAnnounce
  refine lift_good (fun n hn => ?_) h0
  apply Node.protoRow_sound
  assumption
theorem execMajorMark_sound (p : Nat) (f : Frame) (sofQ : Nat) (m : Moment) (s : State) (h0 : Sound s.node) : Good (execMajorMark p f sofQ m s) := by
  unfold execMajorMark
  refine lift_good (fun n hn => ?_) h0
  apply Node.protoRow_sound
  assumption
theorem execMinorMark_sound (p : Nat) (f : Frame) (sofQ : Nat) (m : Moment) (s : State) (h0 : Sound s.node) : Good (execMinorMark p f sofQ m s) := by
  unfold execMinorMark
  refine lift_good (fun n hn => ?_) h0
  apply Node.protoRow_sound
  assumption
theorem execMarkFollowUp_sound (p : Nat) (f : Frame) (sofQ : Nat) (m : Moment) (s : State) (h0 : Sound s.node) : Good (execMarkFollowUp p f sofQ m s) := by
  unfold execMarkFollowUp
  refine lift_good (fun n hn => ?_) h0
  apply Node.protoRow_sound
  assumption
theorem execBidWindowExpiry_sound (p : Nat) (m : Moment) (s : State) (h0 : Sound s.node) : Good (execBidWindowExpiry p m s) := by
  unfold execBidWindowExpiry
  refine lift_good (fun n hn => ?_) h0
  refine ite_ind ?_ ?_
  · intro x
    apply Node.windowOver_sound
    assumption
  · intro x
    assumption
theorem execSurveyMemberTimeout_sound (p : ℕ) (m : Moment) (s : State) (h0 : Sound s.node) : Good (execSurveyMemberTimeout p m s) := by
  unfold execSurveyMemberTimeout
  refine lift_good (fun n hn => ?_) h0
  extract_lets +onlyGivenNames m7
  clear_value m7
  refine ite_ind ?_ ?_
  · intro x
    assumption
  · intro x
    refine ite_ind ?_ ?_
    · intro x
      apply Node.svAbort_sound
      assumption
    · intro x
      apply Node.svEnd_sound
      apply Node.setSv_sound
      assumption
theorem execListenEnd_sound (p : Nat) (s : State) (h0 : Sound s.node) : Good (execListenEnd p s) := by
  unfold execListenEnd
  refine lift_good (fun n hn => ?_) h0
  extract_lets +onlyGivenNames m6
  clear_value m6
  refine ite_ind ?_ ?_
  · intro x
    apply Node.listenOff_sound
    assumption
  · intro x
    assumption
theorem execMarkRequest_sound (p : Nat) (m : Moment) (s : State) (h0 : Sound s.node) : Good (execMarkRequest p m s) := by
  unfold execMarkRequest
  refine lift_good (fun n hn => ?_) h0
  refine ite_ind ?_ ?_
  · intro x
    apply Node.markRequest_sound
    assumption
  · intro x
    assumption
theorem execMarkAbandon_sound (p : Nat) (m : Moment) (s : State) (h0 : Sound s.node) : Good (execMarkAbandon p m s) := by
  unfold execMarkAbandon
  refine lift_good (fun n hn => ?_) h0
  refine ite_ind ?_ ?_
  · intro x
    apply Node.markAbandon_sound
    assumption
  · intro x
    assumption
theorem execFollowUpTimeout_sound (p : Nat) (m : Moment) (s : State) (h0 : Sound s.node) : Good (execFollowUpTimeout p m s) := by
  unfold execFollowUpTimeout
  refine lift_good (fun n hn => ?_) h0
  refine ite_ind ?_ ?_
  · intro x
    apply Node.followUpsLate_sound
    assumption
  · intro x
    assumption
theorem execTportFallback_sound (m : Moment) (s : State) (h0 : Sound s.node) : Good (execTportFallback m s) := by
  unfold execTportFallback
  refine lift_good (fun n hn => ?_) h0
  extract_lets +onlyGivenNames m6
  clear_value m6
  refine ite_ind ?_ ?_
  · intro x
    refine sound_mk ?_ rfl rfl rfl
    assumption
  · intro x
    assumption
theorem execPairPortSilent_sound (p : Nat) (m : Moment) (s : State) (h0 : Sound s.node) : Good (execPairPortSilent p m s) := by
  unfold execPairPortSilent
  refine lift_good (fun n hn => ?_) h0
  extract_lets +onlyGivenNames m7
  clear_value m7
  refine ite_ind ?_ ?_
  · intro x
    apply Node.busRing_sound
    apply Node.busRec_sound
    apply Node.setBp_sound
    assumption
  · intro x
    assumption
theorem Node.busLoad_sound (n : Node) (h0 : Sound n) : Sound (Node.busLoad n) := by
  unfold Node.busLoad
  extract_lets +onlyGivenNames m3
  have hm3 : Sound m3 := by
    unfold m3
    apply Node.noteBlock_sound
    apply Node.loadStations_sound
    assumption
  clear_value m3
  extract_lets +onlyGivenNames m5
  extract_lets +onlyGivenNames m6
  have hm6 : Sound m6 := by
    unfold m6
    refine sound_mk ?_ rfl rfl rfl
    assumption
  clear_value m6
  extract_lets +onlyGivenNames m8
  clear_value m8
  extract_lets +onlyGivenNames m9
  extract_lets +onlyGivenNames m10
  have hm10 : Sound m10 := by
    unfold m10
    refine sound_mk ?_ rfl rfl rfl
    assumption
  clear_value m10
  refine foldl_ok ?_ ?_
  · intro x x x
    extract_lets +onlyGivenNames m15
    have hm15 : Sound m15 := by
      unfold m15
      apply Node.busIdle_sound
      assumption
    clear_value m15
    refine ite_ind ?_ ?_
    · intro x
      apply Node.enablePort_sound
      assumption
    · intro x
      apply Node.setFd_sound
      assumption
  · assumption
end Sys2Proof.Machine
end

