-- ==== Sys2Proof/Laws/SoundGp.lean ====
section
/-! SUPPORT. Every operation and every meaning of Machine/Gp.lean keeps `Sound`. -/
set_option linter.unusedVariables false
namespace Sys2Proof.Machine
theorem Node.pinEdge_sound (n : Node) (i : ℕ) (level : Bool) (h0 : Sound n) : Sound (Node.pinEdge n i level) := by
  unfold Node.pinEdge
  refine ite_ind ?_ ?_
  · intro x
    assumption
  · intro x
    extract_lets +onlyGivenNames m6
    have hm6 : Sound m6 := by
      unfold m6
      apply Node.setOn_sound
      assumption
    clear_value m6
    extract_lets +onlyGivenNames m8
    clear_value m8
    extract_lets +onlyGivenNames m9
    clear_value m9
    extract_lets +onlyGivenNames m10
    have hm10 : Sound m10 := by
      unfold m10
      refine ite_ind ?_ ?_
      · intro x
        apply Node.pinEvent_sound
        assumption
      · intro x
        assumption
    clear_value m10
    refine ite_ind ?_ ?_
    · intro x
      apply Node.notifyWatch_sound
      refine sound_mk ?_ rfl rfl rfl
      assumption
    · intro x
      assumption
theorem execPinEdge_sound (i : Nat) (level : Bool) (_m : Moment) (s : State) (h0 : Sound s.node) : Good (execPinEdge i level _m s) := by
  unfold execPinEdge
  refine lift_good (fun n hn => ?_) h0
  refine ite_ind ?_ ?_
  · intro x
    apply Node.pinEdge_sound
    assumption
  · intro x
    assumption
theorem Node.bankTo_sound (n : Node) (b : ℕ) (cls : ℕ) (levels : ℕ) (m : Moment) (h0 : Sound n) : Sound (Node.bankTo n b cls levels m) := by
  unfold Node.bankTo
  extract_lets +onlyGivenNames m7
  clear_value m7
  extract_lets +onlyGivenNames m8
  have hm8 : Sound m8 := by
    unfold m8
    apply Node.setOn_sound
    apply Node.setFd_sound
    assumption
  clear_value m8
  extract_lets +onlyGivenNames m10
  have hm10 : Sound m10 := by
    unfold m10
    apply Node.raiseM_sound
    assumption
  clear_value m10
  extract_lets +onlyGivenNames m12
  have hm12 : Sound m12 := by
    unfold m12
    apply Node.notifyWatch_sound
    assumption
  clear_value m12
  refine ite_ind ?_ ?_
  · intro x
    refine foldl_ok ?_ ?_
    · intro x x x
      apply Node.setOn_sound
      assumption
    · assumption
  · intro x
    refine ite_ind ?_ ?_
    · intro x
      refine foldl_ok ?_ ?_
      · intro x x x
        apply Node.setOn_sound
        assumption
      · assumption
    · intro x
      assumption
theorem Node.fnApply_sound (n : Node) (i : ℕ) (h0 : Sound n) : Sound (Node.fnApply n i) := by
  unfold Node.fnApply
  extract_lets +onlyGivenNames m4
  clear_value m4
  extract_lets +onlyGivenNames m5
  extract_lets +onlyGivenNames m6
  have hm6 : Sound m6 := by
    unfold m6
    refine sound_mk ?_ rfl rfl rfl
    assumption
  clear_value m6
  extract_lets +onlyGivenNames m8
  have hm8 : Sound m8 := by
    unfold m8
    refine ite_ind ?_ ?_
    · intro x
      apply Node.setFd_sound
      assumption
    · intro x
      apply Node.setFd_sound
      assumption
  clear_value m8
  refine ite_ind ?_ ?_
  · intro x
    apply Node.hwWrite_sound
    assumption
  · intro x
    refine ite_ind ?_ ?_
    · intro x
      apply Node.hwWrite_sound
      assumption
    · intro x
      assumption
theorem Node.gpChanged_sound (old : Node) (n : Node) (i : ℕ) (atS7 : Bool) (h0 : Sound old) (h1 : Sound n) : Sound (Node.gpChanged old n i atS7) := by
  unfold Node.gpChanged
  extract_lets +onlyGivenNames m7
  clear_value m7
  extract_lets +onlyGivenNames m8
  clear_value m8
  extract_lets +onlyGivenNames m9
  have hm9 : Sound m9 := by
    unfold m9
    refine ite_ind ?_ ?_
    · intro x
      apply Node.pinEvent_sound
      assumption
    · intro x
      assumption
  clear_value m9
  refine ite_ind ?_ ?_
  · intro x
    assumption
  · intro x
    refine ite_ind ?_ ?_
    · intro x
      apply Node.fnApply_sound
      assumption
    · intro x
      refine sound_mk ?_ rfl rfl rfl
      assumption
theorem Node.gpS7_sound (n : Node) (h0 : Sound n) : Sound (Node.gpS7 n) := by
  unfold Node.gpS7
  refine foldl_ok ?_ ?_
  · intro x x x
    apply Node.fnApply_sound
    assumption
  · assumption
theorem Node.gpCfgErr_sound (n : Node) (h0 : Sound n) : Sound (Node.gpCfgErr n) := by
  unfold Node.gpCfgErr
  apply Node.setOn_sound
  assumption
theorem execGpoutWrite_sound (_rq : Rq) (k : Nat) (v : Word) (s : State) (h0 : Sound s.node) : Good (execGpoutWrite _rq k v s) := by
  unfold execGpoutWrite
  refine lift_good (fun n hn => ?_) h0
  refine ite_ind ?_ ?_
  · intro x
    assumption
  · intro x
    refine ite_ind ?_ ?_
    · intro x
      apply Node.setFd_sound
      assumption
    · intro x
      refine ite_ind ?_ ?_
      · intro x
        apply Node.setFd_sound
        assumption
      · intro x
        assumption
theorem execHwrefresh_sound (_rq : Rq) (v : Word) (s : State) (h0 : Sound s.node) : Good (execHwrefresh _rq v s) := by
  unfold execHwrefresh
  refine lift_good (fun n hn => ?_) h0
  refine ite_ind ?_ ?_
  · intro x
    apply Node.hwWriteIf_sound
    assumption
  · intro x
    assumption
theorem Node.lockErr_sound (n : Node) (h0 : Sound n) : Sound (Node.lockErr n) := by
  unfold Node.lockErr
  apply Node.setOn_sound
  refine sound_mk ?_ rfl rfl rfl
  assumption
theorem Node.lockPins_sound (n : Node) (b : ℕ) (mask : ℕ) (h0 : Sound n) : Sound (Node.lockPins n b mask) := by
  unfold Node.lockPins
  extract_lets +onlyGivenNames m5
  clear_value m5
  extract_lets +onlyGivenNames m6
  have hm6 : Sound m6 := by
    unfold m6
    apply Node.setFd_sound
    assumption
  clear_value m6
  refine foldl_ok ?_ ?_
  · intro x x x
    refine ite_ind ?_ ?_
    · intro x
      apply Node.setOn_sound
      assumption
    · intro x
      assumption
  · assumption
theorem Node.gplock_sound (n : Node) (rq : Rq) (v : Sys2Proof.Word) (t : ℕ) (h0 : Sound n) : Sound (Node.gplock n rq v t) := by
  unfold Node.gplock
  extract_lets +onlyGivenNames m6
  have hm6 : Sound m6 := by
    unfold m6
    refine ite_ind ?_ ?_
    · intro x
      apply Node.lockErr_sound
      assumption
    · intro x
      assumption
  clear_value m6
  refine ite_ind ?_ ?_
  · intro x
    extract_lets +onlyGivenNames m9
    extract_lets +onlyGivenNames m10
    have hm10 : Sound m10 := by
      unfold m10
      refine sound_mk ?_ rfl rfl rfl
      assumption
    clear_value m10
    extract_lets +onlyGivenNames m12
    clear_value m12
    extract_lets +onlyGivenNames m13
    clear_value m13
    extract_lets +onlyGivenNames m14
    have hm14 : Sound m14 := by
      unfold m14
      apply Node.lockPins_sound
      assumption
    clear_value m14
    extract_lets +onlyGivenNames m16
    clear_value m16
    split
    · apply Node.raiseCmd_sound
      assumption
    · apply Node.raiseM_sound
      assumption
  · intro x
    refine ite_ind ?_ ?_
    · intro x
      extract_lets +onlyGivenNames m10
      have hm10 : Sound m10 := by
        unfold m10
        refine ite_ind ?_ ?_
        · intro x
          apply Node.lockErr_sound
          assumption
        · intro x
          assumption
      clear_value m10
      refine sound_mk ?_ rfl rfl rfl
      assumption
    · intro x
      refine ite_ind ?_ ?_
      · intro x
        refine sound_mk ?_ rfl rfl rfl
        assumption
      · intro x
        apply Node.lockErr_sound
        assumption
theorem execGplockWrite_sound (rq : Rq) (v : Word) (m : Moment) (s : State) (h0 : Sound s.node) : Good (execGplockWrite rq v m s) := by
  unfold execGplockWrite
  refine lift_good (fun n hn => ?_) h0
  refine ite_ind ?_ ?_
  · intro x
    apply Node.gplock_sound
    assumption
  · intro x
    assumption
theorem execDoGpLock_sound (l : Line) (s : State) (h0 : Sound s.node) : Good (execDoGpLock l s) := by
  unfold execDoGpLock
  refine lift_good (fun n hn => ?_) h0
  apply Node.runWhole_sound
  · assumption
  · intro x x
    extract_lets +onlyGivenNames m8
    clear_value m8
    extract_lets +onlyGivenNames m9
    clear_value m9
    extract_lets +onlyGivenNames m10
    clear_value m10
    apply okE_ok
    apply sound1_mk
    apply Node.gplock_sound
    apply Node.gplock_sound
    apply Node.gplock_sound
    assumption
theorem setGpUnit_sound (keys : Keys) (i : ℕ) (n : Node) (h2 : Sound n) : okE Sound1 (setGpUnit keys i n) := by
  unfold setGpUnit
  refine okE_bind ?_
  intro x x
  extract_lets +onlyGivenNames m7
  have hm7 : Sound m7 := by
    unfold m7
    apply Node.gpChanged_sound
    · assumption
    · apply Node.setKeys_sound
      assumption
  clear_value m7
  apply okE_pure
  apply sound1_mk
  apply Node.putKeys_sound
  assumption
theorem execSetGp_sound (l : Line) (s : State) (h0 : Sound s.node) : Good (execSetGp l s) := by
  unfold execSetGp
  refine lift_good (fun n hn => ?_) h0
  apply Node.runMulti_sound
  · assumption
  · intro x x x
    apply setGpUnit_sound
    assumption
theorem Node.maskWrite_sound (n : Node) (a : ℕ) (mask : ℕ) (v : ℕ) (h0 : Sound n) : Sound (Node.maskWrite n a mask v) := by
  unfold Node.maskWrite
  apply Node.wr_sound
  assumption
theorem execSetGpMask_sound (l : Line) (s : State) (h0 : Sound s.node) : Good (execSetGpMask l s) := by
  unfold execSetGpMask
  refine lift_good (fun n hn => ?_) h0
  extract_lets +onlyGivenNames m6
  clear_value m6
  apply Node.runWhole_sound
  · assumption
  · intro x x
    apply okE_ok
    apply sound1_mk
    apply Node.maskWrite_sound
    apply Node.maskWrite_sound
    assumption
theorem gpToggleUnit_sound (i : ℕ) (n : Node) (h1 : Sound n) : okE Sound1 (gpToggleUnit i n) := by
  unfold gpToggleUnit
  refine ite_ind ?_ ?_
  · intro x
    exact okE_refuse
  · intro x
    apply okE_ok
    apply sound1_mk
    apply Node.setOn_sound
    assumption
theorem execDoGpToggle_sound (l : Line) (s : State) (h0 : Sound s.node) : Good (execDoGpToggle l s) := by
  unfold execDoGpToggle
  refine lift_good (fun n hn => ?_) h0
  apply Node.runMulti_sound
  · assumption
  · intro x x x
    apply gpToggleUnit_sound
    assumption
theorem execGetGp_sound (l : Line) (s : State) (h0 : Sound s.node) : Good (execGetGp l s) := by
  unfold execGetGp
  refine lift_good (fun n hn => ?_) h0
  apply Node.runRead_sound
  assumption
theorem execGetGpBank_sound (l : Line) (s : State) (h0 : Sound s.node) : Good (execGetGpBank l s) := by
  unfold execGetGpBank
  refine lift_good (fun n hn => ?_) h0
  apply Node.runRead_sound
  assumption
theorem execShowGp_sound (l : Line) (s : State) (h0 : Sound s.node) : Good (execShowGp l s) := by
  unfold execShowGp
  refine lift_good (fun n hn => ?_) h0
  apply Node.runRead_sound
  assumption
theorem execWatchGp_sound (l : Line) (s : State) (h0 : Sound s.node) : Good (execWatchGp l s) := by
  unfold execWatchGp
  refine lift_good (fun n hn => ?_) h0
  apply Node.runWatch_sound
  assumption
theorem execWatchGpBank_sound (l : Line) (s : State) (h0 : Sound s.node) : Good (execWatchGpBank l s) := by
  unfold execWatchGpBank
  refine lift_good (fun n hn => ?_) h0
  apply Node.runWatch_sound
  assumption
theorem Node.gpReinit_sound (n : Node) (i : ℕ) (h0 : Sound n) : Sound (Node.gpReinit n i) := by
  unfold Node.gpReinit
  refine ite_ind ?_ ?_
  · intro x
    assumption
  · intro x
    extract_lets +onlyGivenNames m5
    have hm5 : Sound m5 := by
      unfold m5
      apply Node.reload_sound
      assumption
    clear_value m5
    extract_lets +onlyGivenNames m7
    have hm7 : Sound m7 := by
      unfold m7
      refine ite_ind ?_ ?_
      · intro x
        apply Node.setFd_sound
        assumption
      · intro x
        assumption
    clear_value m7
    extract_lets +onlyGivenNames m9
    have hm9 : Sound m9 := by
      unfold m9
      refine ite_ind ?_ ?_
      · intro x
        apply Node.gpCfgErr_sound
        apply Node.wr_sound
        assumption
      · intro x
        assumption
    clear_value m9
    apply Node.gpChanged_sound
    · assumption
    · assumption
theorem execDoGpReinit_sound (l : Line) (s : State) (h0 : Sound s.node) : Good (execDoGpReinit l s) := by
  unfold execDoGpReinit
  refine lift_good (fun n hn => ?_) h0
  apply Node.runOpen_sound
  · assumption
  · intro x x
    extract_lets +onlyGivenNames m8
    have hm8 : ∀ x0, okE Sound (m8 x0) := by
      unfold m8
      intro x
      refine okE_bind ?_
      intro x x
      refine okE_bind ?_
      intro x x
      apply okE_pure
      apply Node.startMr_sound
      assumption
    clear_value m8
    split
    · refine okE_bind ?_
      intro x x
      apply_assumption
    · refine okE_bind ?_
      intro x x
      apply_assumption
theorem execLifeToggle_sound (served : Bool) (s : State) (h0 : Sound s.node) : Good (execLifeToggle served s) := by
  unfold execLifeToggle
  refine lift_good (fun n hn => ?_) h0
  refine ite_ind ?_ ?_
  · intro x
    refine sound_mk ?_ rfl rfl rfl
    assumption
  · intro x
    assumption
end Sys2Proof.Machine
end

