-- ==== Sys2Proof/Laws/SoundTw.lean ====
section
/-! SUPPORT. Every operation and every meaning of Machine/Tw.lean keeps `Sound`. -/
set_option linter.unusedVariables false
namespace Sys2Proof.Machine
theorem Node.setTw_sound (n : Node) (t : Tw) (h0 : Sound n) : Sound (Node.setTw n t) := by
  unfold Node.setTw
  refine sound_mk ?_ rfl rfl rfl
  assumption
theorem Node.twPhase_sound (n : Node) (p : TwPhase) (h0 : Sound n) : Sound (Node.twPhase n p) := by
  unfold Node.twPhase
  apply Node.setOn_sound
  refine sound_mk ?_ rfl rfl rfl
  assumption
theorem Node.twReply_sound (n : Node) (p : Port) (lines : List (LineKind × List Item)) (h0 : Sound n) : Sound (Node.twReply n p lines) := by
  unfold Node.twReply
  split
  · apply Node.send_sound
    apply Node.setPort_sound
    assumption
  · assumption
theorem Node.twResult_sound (n : Node) (j : TwJob) (code : ℕ) (bytes : List Sys2Proof.Byte) (h0 : Sound n) : Sound (Node.twResult n j code bytes) := by
  unfold Node.twResult
  extract_lets +onlyGivenNames m6
  have hm6 : Sound m6 := by
    unfold m6
    apply Node.setFds_sound
    assumption
  clear_value m6
  refine ite_ind ?_ ?_
  · intro x
    refine foldl_ok ?_ ?_
    · intro x x x
      apply Node.setFd_sound
      assumption
    · assumption
  · intro x
    assumption
theorem Node.twEnd_sound (n : Node) (code : ℕ) (k : ℕ) (bytes : List Sys2Proof.Byte) (h0 : Sound n) : Sound (Node.twEnd n code k bytes) := by
  unfold Node.twEnd
  split
  · assumption
  · extract_lets +onlyGivenNames m11
    extract_lets +onlyGivenNames m12
    have hm12 : Sound m12 := by
      unfold m12
      apply Node.twResult_sound
      refine sound_mk ?_ rfl rfl rfl
      assumption
    clear_value m12
    extract_lets +onlyGivenNames m14
    have hm14 : Sound m14 := by
      unfold m14
      split
      · apply Node.ring_sound
        apply Node.setOn_sound
        assumption
      · apply Node.ring_sound
        apply Node.bump_sound
        apply Node.setOn_sound
        assumption
      · apply Node.ring_sound
        apply Node.bump_sound
        apply Node.setOn_sound
        assumption
      · apply Node.ring_sound
        apply Node.setOn_sound
        assumption
      · assumption
    clear_value m14
    split
    · apply Node.twReply_sound
      assumption
    · assumption
theorem Node.twFlush_sound (n : Node) (code : ℕ) (h0 : Sound n) : Sound (Node.twFlush n code) := by
  unfold Node.twFlush
  extract_lets +onlyGivenNames m4
  have hm4 : Sound m4 := by
    unfold m4
    refine foldl_ok ?_ ?_
    · intro x x x
      split
      · apply Node.twReply_sound
        assumption
      · assumption
    · assumption
  clear_value m4
  refine sound_mk ?_ rfl rfl rfl
  assumption
theorem Node.twClearEnd_sound (n : Node) (clocks : Option ℕ) (h0 : Sound n) : Sound (Node.twClearEnd n clocks) := by
  unfold Node.twClearEnd
  split
  · assumption
  · extract_lets +onlyGivenNames m9
    extract_lets +onlyGivenNames m10
    have hm10 : Sound m10 := by
      unfold m10
      refine sound_mk ?_ rfl rfl rfl
      assumption
    clear_value m10
    split
    · apply Node.twReply_sound
      assumption
    · apply Node.twReply_sound
      assumption
    · assumption
theorem Node.twGo_sound (n : Node) (h0 : Sound n) : Sound (Node.twGo n) := by
  unfold Node.twGo
  extract_lets +onlyGivenNames m3
  extract_lets +onlyGivenNames m4
  have hm4 : Sound m4 := by
    unfold m4
    apply Node.twClearEnd_sound
    refine sound_mk ?_ rfl rfl rfl
    assumption
  clear_value m4
  split
  · apply Node.twPhase_sound
    assumption
  · apply Node.twPhase_sound
    assumption
theorem Node.twLook_sound (n : Node) (h0 : Sound n) : Sound (Node.twLook n) := by
  unfold Node.twLook
  refine ite_ind ?_ ?_
  · intro x
    apply Node.twPhase_sound
    assumption
  · intro x
    refine ite_ind ?_ ?_
    · intro x
      apply Node.twPhase_sound
      assumption
    · intro x
      apply Node.twGo_sound
      assumption
theorem Node.twCheck_sound (n : Node) (h0 : Sound n) : Sound (Node.twCheck n) := by
  unfold Node.twCheck
  apply Node.twLook_sound
  assumption
theorem Node.twNext_sound (n : Node) (h0 : Sound n) : Sound (Node.twNext n) := by
  unfold Node.twNext
  refine ite_ind ?_ ?_
  · intro x
    assumption
  · intro x
    split
    · apply Node.twCheck_sound
      refine sound_mk ?_ rfl rfl rfl
      assumption
    · assumption
theorem Node.twStuck_sound (n : Node) (cause : ℕ) (clocks : ℕ) (m : Moment) (h0 : Sound n) : Sound (Node.twStuck n cause clocks m) := by
  unfold Node.twStuck
  extract_lets +onlyGivenNames m6
  extract_lets +onlyGivenNames m7
  have hm7 : Sound m7 := by
    unfold m7
    apply Node.setFd_sound
    refine sound_mk ?_ rfl rfl rfl
    assumption
  clear_value m7
  extract_lets +onlyGivenNames m9
  have hm9 : Sound m9 := by
    unfold m9
    apply Node.ring_sound
    apply Node.bump_sound
    apply Node.setOn_sound
    assumption
  clear_value m9
  extract_lets +onlyGivenNames m11
  have hm11 : Sound m11 := by
    unfold m11
    apply Node.raiseM_sound
    assumption
  clear_value m11
  extract_lets +onlyGivenNames m13
  have hm13 : Sound m13 := by
    unfold m13
    apply Node.twClearEnd_sound
    apply Node.twPhase_sound
    assumption
  clear_value m13
  extract_lets +onlyGivenNames m15
  clear_value m15
  apply Node.twFlush_sound
  apply Node.twEnd_sound
  assumption
theorem Node.twOff_sound (n : Node) (h0 : Sound n) : Sound (Node.twOff n) := by
  unfold Node.twOff
  extract_lets +onlyGivenNames m3
  have hm3 : Sound m3 := by
    unfold m3
    apply Node.setOn_sound
    apply Node.setFd_sound
    apply Node.twPhase_sound
    assumption
  extract_lets +onlyGivenNames m5
  extract_lets +onlyGivenNames m6
  have hm6 : Sound m6 := by
    unfold m6
    apply Node.ring_sound
    refine sound_mk ?_ rfl rfl rfl
    assumption
  refine ite_ind ?_ ?_
  · intro x
    apply Node.twCheck_sound
    apply Node.setFd_sound
    refine sound_mk ?_ rfl rfl rfl
    assumption
  · intro x
    assumption
theorem Node.twEnable_sound (n : Node) (h0 : Sound n) : Sound (Node.twEnable n) := by
  unfold Node.twEnable
  refine ite_ind ?_ ?_
  · intro x
    apply Node.twCheck_sound
    apply Node.setFd_sound
    assumption
  · intro x
    refine ite_ind ?_ ?_
    · intro x
      refine sound_mk ?_ rfl rfl rfl
      assumption
    · intro x
      assumption
theorem Node.twDrain_sound (n : Node) (h0 : Sound n) : Sound (Node.twDrain n) := by
  unfold Node.twDrain
  extract_lets +onlyGivenNames m3
  extract_lets +onlyGivenNames m4
  have hm4 : Sound m4 := by
    unfold m4
    refine sound_mk ?_ rfl rfl rfl
    assumption
  clear_value m4
  split
  · assumption
  · assumption
  · refine ite_ind ?_ ?_
    · intro x
      apply Node.twOff_sound
      apply Node.twFlush_sound
      assumption
    · intro x
      apply Node.setFd_sound
      assumption
theorem Node.twS0_sound (n : Node) (inp : S0In) (h0 : Sound n) : Sound (Node.twS0 n inp) := by
  unfold Node.twS0
  extract_lets +onlyGivenNames m4
  clear_value m4
  extract_lets +onlyGivenNames m5
  clear_value m5
  extract_lets +onlyGivenNames m6
  have hm6 : Sound m6 := by
    unfold m6
    apply Node.setFds_sound
    assumption
  clear_value m6
  extract_lets +onlyGivenNames m8
  extract_lets +onlyGivenNames m9
  have hm9 : Sound m9 := by
    unfold m9
    refine sound_mk ?_ rfl rfl rfl
    assumption
  clear_value m9
  refine ite_ind ?_ ?_
  · intro x
    apply Node.twLook_sound
    assumption
  · intro x
    assumption
theorem execTwTransferEnd_sound (res : TwEnd) (bytes : List (BitVec 8)) (m : Moment) (s : State) (h0 : Sound s.node) : Good (execTwTransferEnd res bytes m s) := by
  unfold execTwTransferEnd
  refine lift_good (fun n hn => ?_) h0
  refine ite_ind ?_ ?_
  · intro x
    assumption
  · intro x
    split
    · apply Node.twNext_sound
      apply Node.twEnd_sound
      apply Node.twPhase_sound
      assumption
    · apply Node.twNext_sound
      apply Node.twEnd_sound
      apply Node.twPhase_sound
      assumption
    · apply Node.twNext_sound
      apply Node.twEnd_sound
      apply Node.twPhase_sound
      assumption
    · apply Node.twEnd_sound
      apply Node.twPhase_sound
      assumption
theorem execTwClockStretchTimeout_sound (bytes : List (BitVec 8)) (m : Moment) (s : State) (h0 : Sound s.node) : Good (execTwClockStretchTimeout bytes m s) := by
  unfold execTwClockStretchTimeout
  refine lift_good (fun n hn => ?_) h0
  refine ite_ind ?_ ?_
  · intro x
    assumption
  · intro x
    refine ite_ind ?_ ?_
    · intro x
      apply Node.twNext_sound
      apply Node.twEnd_sound
      apply Node.twPhase_sound
      assumption
    · intro x
      refine ite_ind ?_ ?_
      · intro x
        apply Node.twStuck_sound
        assumption
      · intro x
        assumption
theorem execTwBusClearEnd_sound (clocks : Nat) (freed : Bool) (m : Moment) (s : State) (h0 : Sound s.node) : Good (execTwBusClearEnd clocks freed m s) := by
  unfold execTwBusClearEnd
  refine lift_good (fun n hn => ?_) h0
  refine ite_ind ?_ ?_
  · intro x
    assumption
  · intro x
    refine ite_ind ?_ ?_
    · intro x
      extract_lets +onlyGivenNames m10
      have hm10 : Sound m10 := by
        unfold m10
        apply Node.setFds_sound
        apply Node.raiseM_sound
        assumption
      clear_value m10
      extract_lets +onlyGivenNames m12
      have hm12 : Sound m12 := by
        unfold m12
        apply Node.twClearEnd_sound
        apply Node.ring_sound
        apply Node.bump_sound
        assumption
      clear_value m12
      apply Node.twNext_sound
      apply Node.twGo_sound
      refine sound_mk ?_ rfl rfl rfl
      assumption
    · intro x
      refine ite_ind ?_ ?_
      · intro x
        assumption
      · intro x
        apply Node.twStuck_sound
        assumption
theorem Node.twDrained_sound (n : Node) (bytes : List Sys2Proof.Byte) (h0 : Sound n) : Sound (Node.twDrained n bytes) := by
  unfold Node.twDrained
  refine ite_ind ?_ ?_
  · intro x
    apply Node.twOff_sound
    apply Node.twFlush_sound
    apply Node.twEnd_sound
    apply Node.twClearEnd_sound
    apply Node.twPhase_sound
    assumption
  · intro x
    assumption
theorem execTwDrained_sound (bytes : List (BitVec 8)) (_m : Moment) (s : State) (h0 : Sound s.node) : Good (execTwDrained bytes _m s) := by
  unfold execTwDrained
  refine lift_good (fun n hn => ?_) h0
  refine ite_ind ?_ ?_
  · intro x
    apply Node.twDrained_sound
    assumption
  · intro x
    assumption
theorem Node.twChanged_sound (old : Node) (n : Node) (h0 : Sound old) (h1 : Sound n) : Sound (Node.twChanged old n) := by
  unfold Node.twChanged
  extract_lets +onlyGivenNames m5
  extract_lets +onlyGivenNames m6
  have hm6 : Sound m6 := by
    unfold m6
    refine ite_ind ?_ ?_
    · intro x
      assumption
    · intro x
      refine sound_mk ?_ rfl rfl rfl
      assumption
  clear_value m6
  refine ite_ind ?_ ?_
  · intro x
    refine ite_ind ?_ ?_
    · intro x
      assumption
    · intro x
      apply Node.twEnable_sound
      assumption
  · intro x
    refine ite_ind ?_ ?_
    · intro x
      apply Node.twDrain_sound
      assumption
    · intro x
      assumption
theorem Node.twCfgErr_sound (n : Node) (h0 : Sound n) : Sound (Node.twCfgErr n) := by
  unfold Node.twCfgErr
  apply Node.ring_sound
  apply Node.setOn_sound
  assumption
theorem execSetTw_sound (l : Line) (s : State) (h0 : Sound s.node) : Good (execSetTw l s) := by
  unfold execSetTw
  refine lift_good (fun n hn => ?_) h0
  apply Node.runWhole_sound
  · assumption
  · intro x x
    apply okE_ok
    apply sound1_mk
    apply Node.twChanged_sound
    · assumption
    · apply Node.setKeys_sound
      assumption
theorem Node.twAsk_sound (n : Node) (l : Line) (j : TwJob) (h0 : Sound n) : Sound (Node.twAsk n l j) := by
  unfold Node.twAsk
  extract_lets +onlyGivenNames m5
  extract_lets +onlyGivenNames m6
  have hm6 : Sound m6 := by
    unfold m6
    apply Node.setPort_sound
    assumption
  clear_value m6
  apply Node.twNext_sound
  refine sound_mk ?_ rfl rfl rfl
  assumption
theorem execDoTwWrite_sound (l : Line) (s : State) (h0 : Sound s.node) : Good (execDoTwWrite l s) := by
  unfold execDoTwWrite
  refine lift_good (fun n hn => ?_) h0
  apply Node.runOpen_sound
  · assumption
  · intro x x
    refine okE_bind ?_
    intro x x
    refine okE_bind ?_
    intro x x
    refine okE_bind ?_
    intro x x
    refine okE_bind ?_
    intro x x
    refine okE_bind ?_
    intro x x
    refine okE_bind ?_
    intro x x
    apply okE_pure
    apply Node.twAsk_sound
    assumption
theorem execDoTwRead_sound (l : Line) (s : State) (h0 : Sound s.node) : Good (execDoTwRead l s) := by
  unfold execDoTwRead
  refine lift_good (fun n hn => ?_) h0
  apply Node.runOpen_sound
  · assumption
  · intro x x
    refine okE_bind ?_
    intro x x
    refine okE_bind ?_
    intro x x
    refine okE_bind ?_
    intro x x
    refine okE_bind ?_
    intro x x
    apply okE_pure
    apply Node.twAsk_sound
    assumption
theorem Node.twClear_sound (n : Node) (who : Option Port) (h0 : Sound n) : Sound (Node.twClear n who) := by
  unfold Node.twClear
  extract_lets +onlyGivenNames m4
  extract_lets +onlyGivenNames m5
  have hm5 : Sound m5 := by
    unfold m5
    refine sound_mk ?_ rfl rfl rfl
    assumption
  clear_value m5
  refine ite_ind ?_ ?_
  · intro x
    extract_lets +onlyGivenNames m8
    extract_lets +onlyGivenNames m9
    have hm9 : Sound m9 := by
      unfold m9
      apply Node.setFd_sound
      refine sound_mk ?_ rfl rfl rfl
      assumption
    clear_value m9
    apply Node.twNext_sound
    apply Node.twGo_sound
    apply Node.twClearEnd_sound
    assumption
  · intro x
    apply Node.twLook_sound
    apply Node.setFd_sound
    assumption
theorem execDoTwClear_sound (l : Line) (s : State) (h0 : Sound s.node) : Good (execDoTwClear l s) := by
  unfold execDoTwClear
  refine lift_good (fun n hn => ?_) h0
  apply Node.runOpen_sound
  · assumption
  · intro x x
    refine okE_bind ?_
    intro x x
    refine okE_bind ?_
    intro x x
    refine okE_bind ?_
    intro x x
    refine okE_bind ?_
    intro x x
    refine okE_bind ?_
    intro x x
    apply okE_pure
    apply Node.twClear_sound
    apply Node.setPort_sound
    assumption
theorem Node.twCmdKeep_sound (n : Node) (v : Sys2Proof.Word) (h0 : Sound n) : Sound (Node.twCmdKeep n v) := by
  unfold Node.twCmdKeep
  apply Node.wr_sound
  assumption
theorem Node.twCmdWrite_sound (n : Node) (v : Sys2Proof.Word) (h0 : Sound n) : Sound (Node.twCmdWrite n v) := by
  unfold Node.twCmdWrite
  refine ite_ind ?_ ?_
  · intro x
    apply Node.twCfgErr_sound
    assumption
  · intro x
    apply Node.twCmdKeep_sound
    assumption
theorem Node.twCmdStart_sound (n : Node) (v : Sys2Proof.Word) (h0 : Sound n) : Sound (Node.twCmdStart n v) := by
  unfold Node.twCmdStart
  refine ite_ind ?_ ?_
  · intro x
    apply Node.twCfgErr_sound
    assumption
  · intro x
    extract_lets +onlyGivenNames m5
    clear_value m5
    extract_lets +onlyGivenNames m6
    clear_value m6
    extract_lets +onlyGivenNames m7
    clear_value m7
    extract_lets +onlyGivenNames m8
    have hm8 : Sound m8 := by
      unfold m8
      apply Node.twCmdKeep_sound
      assumption
    clear_value m8
    apply Node.twCheck_sound
    refine sound_mk ?_ rfl rfl rfl
    assumption
theorem Node.twCmdClear_sound (n : Node) (v : Sys2Proof.Word) (h0 : Sound n) : Sound (Node.twCmdClear n v) := by
  unfold Node.twCmdClear
  refine ite_ind ?_ ?_
  · intro x
    apply Node.twCfgErr_sound
    assumption
  · intro x
    apply Node.twClear_sound
    apply Node.twCmdKeep_sound
    assumption
theorem execTwCmdStart_sound (_rq : Rq) (v : Word) (_m : Moment) (s : State) (h0 : Sound s.node) : Good (execTwCmdStart _rq v _m s) := by
  unfold execTwCmdStart
  refine lift_good (fun n hn => ?_) h0
  refine ite_ind ?_ ?_
  · intro x
    apply Node.twCmdStart_sound
    assumption
  · intro x
    assumption
theorem execTwCmdClear_sound (_rq : Rq) (v : Word) (_m : Moment) (s : State) (h0 : Sound s.node) : Good (execTwCmdClear _rq v _m s) := by
  unfold execTwCmdClear
  refine lift_good (fun n hn => ?_) h0
  refine ite_ind ?_ ?_
  · intro x
    apply Node.twCmdClear_sound
    assumption
  · intro x
    assumption
theorem execGetTw_sound (l : Line) (s : State) (h0 : Sound s.node) : Good (execGetTw l s) := by
  unfold execGetTw
  refine lift_good (fun n hn => ?_) h0
  apply Node.runRead_sound
  assumption
theorem execClearTw_sound (l : Line) (s : State) (h0 : Sound s.node) : Good (execClearTw l s) := by
  unfold execClearTw
  refine lift_good (fun n hn => ?_) h0
  apply Node.runWhole_sound
  · assumption
  · intro x x
    apply okE_ok
    apply sound1_mk
    apply Node.wr_sound
    assumption
theorem Node.twReinitUnit_sound (n : Node) (h0 : Sound n) : Sound1 (Node.twReinitUnit n) := by
  unfold Node.twReinitUnit
  refine ite_ind ?_ ?_
  · intro x
    extract_lets +onlyGivenNames m4
    have hm4 : Sound m4 := by
      unfold m4
      apply Node.reload_sound
      assumption
    clear_value m4
    extract_lets +onlyGivenNames m6
    have hm6 : Sound m6 := by
      unfold m6
      refine ite_ind ?_ ?_
      · intro x
        assumption
      · intro x
        apply Node.twCfgErr_sound
        apply Node.wr_sound
        assumption
    clear_value m6
    extract_lets +onlyGivenNames m8
    have hm8 : Sound m8 := by
      unfold m8
      apply Node.setOn_sound
      assumption
    clear_value m8
    extract_lets +onlyGivenNames m10
    extract_lets +onlyGivenNames m11
    have hm11 : Sound m11 := by
      unfold m11
      refine sound_mk ?_ rfl rfl rfl
      assumption
    clear_value m11
    apply sound1_mk
    apply Node.twEnable_sound
    assumption
  · intro x
    extract_lets +onlyGivenNames m4
    have hm4 : Sound m4 := by
      unfold m4
      apply Node.twDrain_sound
      assumption
    clear_value m4
    apply sound1_mk
    assumption
theorem execDoTwReinit_sound (l : Line) (s : State) (h0 : Sound s.node) : Good (execDoTwReinit l s) := by
  unfold execDoTwReinit
  refine lift_good (fun n hn => ?_) h0
  apply Node.runOpen_sound
  · assumption
  · intro x x
    refine okE_bind ?_
    intro x x
    refine okE_bind ?_
    intro x x
    refine okE_bind ?_
    intro x x
    apply okE_pure
    apply Node.startMr_sound
    assumption
theorem Node.twLoad_sound (n : Node) (h0 : Sound n) : Sound (Node.twLoad n) := by
  unfold Node.twLoad
  extract_lets +onlyGivenNames m3
  have hm3 : Sound m3 := by
    unfold m3
    apply Node.reload_sound
    assumption
  clear_value m3
  extract_lets +onlyGivenNames m5
  have hm5 : Sound m5 := by
    unfold m5
    refine ite_ind ?_ ?_
    · intro x
      assumption
    · intro x
      apply Node.twCfgErr_sound
      apply Node.wr_sound
      assumption
  clear_value m5
  extract_lets +onlyGivenNames m7
  extract_lets +onlyGivenNames m8
  have hm8 : Sound m8 := by
    unfold m8
    refine sound_mk ?_ rfl rfl rfl
    assumption
  clear_value m8
  refine ite_ind ?_ ?_
  · intro x
    apply Node.twEnable_sound
    assumption
  · intro x
    assumption
theorem Node.twWake_sound (n : Node) (h0 : Sound n) : Sound (Node.twWake n) := by
  unfold Node.twWake
  refine ite_ind ?_ ?_
  · intro x
    apply Node.twEnable_sound
    assumption
  · intro x
    assumption
end Sys2Proof.Machine
end

