-- ==== Sys2Proof/Laws/SoundDisp.lean ====
section
/-! SUPPORT. Every operation and every meaning of Machine/Disp.lean keeps `Sound`. -/
set_option linter.unusedVariables false
namespace Sys2Proof.Machine
theorem Node.setDisp_sound (n : Node) (d : Disp) (h0 : Sound n) : Sound (Node.setDisp n d) := by
  unfold Node.setDisp
  refine sound_mk ?_ rfl rfl rfl
  assumption
theorem Node.dispWatch_sound (n : Node) (items : List Item) (h0 : Sound n) : Sound (Node.dispWatch n items) := by
  unfold Node.dispWatch
  apply Node.notifyWatch_sound
  assumption
theorem Node.dispReply_sound (n : Node) (p : Option Port) (lines : List (LineKind × List Item)) (h0 : Sound n) : Sound (Node.dispReply n p lines) := by
  unfold Node.dispReply
  split
  · apply Node.twReply_sound
    assumption
  · assumption
theorem Node.dispOff_sound (n : Node) (h0 : Sound n) : Sound (Node.dispOff n) := by
  unfold Node.dispOff
  extract_lets +onlyGivenNames m3
  have hm3 : Sound m3 := by
    unfold m3
    apply Node.dispWatch_sound
    apply Node.ring_sound
    apply Node.setOn_sound
    apply Node.setFd_sound
    assumption
  clear_value m3
  refine ite_ind ?_ ?_
  · intro x
    apply Node.dispWatch_sound
    apply Node.setFd_sound
    refine sound_mk ?_ rfl rfl rfl
    assumption
  · intro x
    assumption
theorem Node.updCount_sound (n : Node) (u : Upd) (h0 : Sound n) : Sound (Node.updCount n u) := by
  unfold Node.updCount
  refine ite_ind ?_ ?_
  · intro x
    assumption
  · intro x
    extract_lets +onlyGivenNames m5
    have hm5 : Sound m5 := by
      unfold m5
      apply Node.setFd_sound
      assumption
    clear_value m5
    refine ite_ind ?_ ?_
    · intro x
      assumption
    · intro x
      apply Node.bump_sound
      assumption
theorem Node.updDone_sound (n : Node) (u : Upd) (h0 : Sound n) : Sound (Node.updDone n u) := by
  unfold Node.updDone
  extract_lets +onlyGivenNames m4
  have hm4 : Sound m4 := by
    unfold m4
    apply Node.setFds_sound
    apply Node.updCount_sound
    assumption
  clear_value m4
  extract_lets +onlyGivenNames m6
  extract_lets +onlyGivenNames m7
  have hm7 : Sound m7 := by
    unfold m7
    refine sound_mk ?_ rfl rfl rfl
    assumption
  clear_value m7
  extract_lets +onlyGivenNames m9
  have hm9 : Sound m9 := by
    unfold m9
    apply Node.dispWatch_sound
    apply Node.ring_sound
    assumption
  clear_value m9
  apply Node.dispReply_sound
  assumption
theorem Node.updAbandon_sound (n : Node) (cause : Sys2Proof.Byte) (err : LineKind × List Item) (m : Moment) (h0 : Sound n) : Sound (Node.updAbandon n cause err m) := by
  unfold Node.updAbandon
  split
  · assumption
  · extract_lets +onlyGivenNames m11
    have hm11 : Sound m11 := by
      unfold m11
      apply Node.setFds_sound
      apply Node.updCount_sound
      assumption
    clear_value m11
    extract_lets +onlyGivenNames m13
    have hm13 : Sound m13 := by
      unfold m13
      apply Node.bump_sound
      assumption
    clear_value m13
    extract_lets +onlyGivenNames m15
    extract_lets +onlyGivenNames m16
    have hm16 : Sound m16 := by
      unfold m16
      refine sound_mk ?_ rfl rfl rfl
      assumption
    clear_value m16
    extract_lets +onlyGivenNames m18
    have hm18 : Sound m18 := by
      unfold m18
      apply Node.dispWatch_sound
      apply Node.ring_sound
      apply Node.raiseM_sound
      assumption
    clear_value m18
    apply Node.dispReply_sound
    assumption
theorem Node.railFault_sound (n : Node) (k : ℕ) (phase : ℕ) (mv : ℤ) (m : Moment) (h0 : Sound n) : Sound (Node.railFault n k phase mv m) := by
  unfold Node.railFault
  extract_lets +onlyGivenNames m7
  have hm7 : Sound m7 := by
    unfold m7
    apply Node.raiseM_sound
    apply Node.ring_sound
    apply Node.setOn_sound
    assumption
  clear_value m7
  apply Node.dispWatch_sound
  assumption
theorem Node.railBit_sound (n : Node) (k : ℕ) (b : Bool) (h0 : Sound n) : Sound (Node.railBit n k b) := by
  unfold Node.railBit
  apply Node.setOn_sound
  assumption
theorem Node.railMv_sound (n : Node) (k : ℕ) (mv : ℤ) (h0 : Sound n) : Sound (Node.railMv n k mv) := by
  unfold Node.railMv
  apply Node.setFd_sound
  assumption
theorem Node.railsStart_sound (n : Node) (t : ℕ) (h0 : Sound n) : Sound (Node.railsStart n t) := by
  unfold Node.railsStart
  refine sound_mk ?_ rfl rfl rfl
  assumption
theorem Node.railsFall_sound (n : Node) (l : List ℕ) (t : ℕ) (h0 : Sound n) : Sound (Node.railsFall n l t) := by
  unfold Node.railsFall
  extract_lets +onlyGivenNames m5
  extract_lets +onlyGivenNames m6
  have hm6 : Sound m6 := by
    unfold m6
    refine sound_mk ?_ rfl rfl rfl
    assumption
  clear_value m6
  split
  · apply Node.railBit_sound
    assumption
  · assumption
theorem Node.railsUp_sound (n : Node) (t : ℕ) (h0 : Sound n) : Sound (Node.railsUp n t) := by
  unfold Node.railsUp
  extract_lets +onlyGivenNames m4
  extract_lets +onlyGivenNames m5
  have hm5 : Sound m5 := by
    unfold m5
    refine sound_mk ?_ rfl rfl rfl
    assumption
  clear_value m5
  refine ite_ind ?_ ?_
  · intro x
    extract_lets +onlyGivenNames m8
    have hm8 : Sound m8 := by
      unfold m8
      apply Node.dispReply_sound
      apply Node.ring_sound
      assumption
    clear_value m8
    refine sound_mk ?_ rfl rfl rfl
    assumption
  · intro x
    assumption
theorem Node.railsDown_sound (n : Node) (t : ℕ) (h0 : Sound n) : Sound (Node.railsDown n t) := by
  unfold Node.railsDown
  extract_lets +onlyGivenNames m4
  extract_lets +onlyGivenNames m5
  have hm5 : Sound m5 := by
    unfold m5
    refine sound_mk ?_ rfl rfl rfl
    assumption
  clear_value m5
  split
  · refine ite_ind ?_ ?_
    · intro x
      extract_lets +onlyGivenNames m13
      have hm13 : Sound m13 := by
        unfold m13
        apply Node.updDone_sound
        assumption
      clear_value m13
      refine ite_ind ?_ ?_
      · intro x
        apply Node.dispOff_sound
        assumption
      · intro x
        assumption
    · intro x
      refine ite_ind ?_ ?_
      · intro x
        apply Node.railsStart_sound
        assumption
      · intro x
        assumption
  · refine ite_ind ?_ ?_
    · intro x
      apply Node.dispOff_sound
      assumption
    · intro x
      refine ite_ind ?_ ?_
      · intro x
        apply Node.railsStart_sound
        assumption
      · intro x
        assumption
theorem Node.unhold_sound (n : Node) (line : LineKind × List Item) (h0 : Sound n) : Sound (Node.unhold n line) := by
  unfold Node.unhold
  extract_lets +onlyGivenNames m4
  clear_value m4
  apply Node.dispReply_sound
  refine sound_mk ?_ rfl rfl rfl
  assumption
theorem Node.updStart_sound (n : Node) (wantFull : Bool) (grey : Option ℕ) (who : Option Port) (m : Moment) (h0 : Sound n) : okE Sound1 (Node.updStart n wantFull grey who m) := by
  unfold Node.updStart
  refine okE_bind ?_
  intro x x
  refine okE_bind ?_
  intro x x
  extract_lets +onlyGivenNames m11
  clear_value m11
  extract_lets +onlyGivenNames m12
  clear_value m12
  extract_lets +onlyGivenNames m13
  clear_value m13
  split
  extract_lets +onlyGivenNames m20
  clear_value m20
  extract_lets +onlyGivenNames m21
  clear_value m21
  extract_lets +onlyGivenNames m22
  clear_value m22
  refine okE_bind ?_
  intro x x
  extract_lets +onlyGivenNames m25
  clear_value m25
  extract_lets +onlyGivenNames m26
  clear_value m26
  extract_lets +onlyGivenNames m27
  have hm27 : Sound m27 := by
    unfold m27
    refine ite_ind ?_ ?_
    · intro x
      apply Node.dispWatch_sound
      apply Node.ring_sound
      apply Node.setOn_sound
      assumption
    · intro x
      assumption
  clear_value m27
  extract_lets +onlyGivenNames m29
  have hm29 : Sound m29 := by
    unfold m29
    apply Node.setOn_sound
    assumption
  clear_value m29
  extract_lets +onlyGivenNames m31
  have hm31 : Sound m31 := by
    unfold m31
    refine ite_ind ?_ ?_
    · intro x
      apply Node.raiseM_sound
      apply Node.ring_sound
      apply Node.setOn_sound
      assumption
    · intro x
      assumption
  clear_value m31
  extract_lets +onlyGivenNames m33
  have hm33 : Sound m33 := by
    unfold m33
    apply Node.setFds_sound
    assumption
  clear_value m33
  extract_lets +onlyGivenNames m35
  clear_value m35
  apply okE_pure
  apply sound1_mk
  apply Node.dispWatch_sound
  refine sound_mk ?_ rfl rfl rfl
  assumption
theorem Node.dispBegin_sound (n : Node) (u : Upd) (t : ℕ) (inc : Image) (h0 : Sound n) : Sound (Node.dispBegin n u t inc) := by
  unfold Node.dispBegin
  extract_lets +onlyGivenNames v s1 m1 m2
  have h1 : Sound m1 := sound_mk h0 rfl rfl rfl
  have h2 : Sound m2 := ite_ind (fun _ => Node.setOn_sound _ _ _ h1) (fun _ => h1)
  exact ite_ind (fun _ => Node.railsStart_sound _ _ h2) (fun _ => h2)
theorem Node.dispBeat_sound (n : Node) (h0 : Sound n) : Sound (Node.dispBeat n) := by
  unfold Node.dispBeat
  split
  · refine ite_ind ?_ ?_
    · intro x
      assumption
    · intro x
      apply Node.dispBegin_sound
      assumption
  · refine ite_ind ?_ ?_
    · intro x
      apply Node.railsStart_sound
      assumption
    · intro x
      assumption
theorem Node.snapDone_sound (n : Node) (h0 : Sound n) : Sound (Node.snapDone n) := by
  unfold Node.snapDone
  extract_lets +onlyGivenNames m3
  clear_value m3
  extract_lets +onlyGivenNames m4
  clear_value m4
  extract_lets +onlyGivenNames m5
  clear_value m5
  extract_lets +onlyGivenNames m6
  have hm6 : Sound m6 := by
    unfold m6
    refine foldl_ok ?_ ?_
    · intro x x x
      extract_lets +onlyGivenNames m10
      clear_value m10
      extract_lets +onlyGivenNames m11
      clear_value m11
      refine ite_ind ?_ ?_
      · intro x
        assumption
      · intro x
        split
        extract_lets +onlyGivenNames m19
        clear_value m19
        refine sound_mk ?_ rfl rfl rfl
        refine sound2_eq (by assumption) ?_
        apply Node.fresh_sound
        assumption
    · assumption
  clear_value m6
  apply Node.setOn_sound
  assumption
theorem execSnapshotEnd_sound (m : Moment) (s : State) (h0 : Sound s.node) : Good (execSnapshotEnd m s) := by
  unfold execSnapshotEnd
  refine lift_good (fun n hn => ?_) h0
  split
  · refine ite_ind ?_ ?_
    · intro x
      apply Node.snapDone_sound
      assumption
    · intro x
      assumption
  · assumption
theorem execRailPowerUpStep_sound (mv : Int) (m : Moment) (s : State) (h0 : Sound s.node) : Good (execRailPowerUpStep mv m s) := by
  unfold execRailPowerUpStep
  refine lift_good (fun n hn => ?_) h0
  split
  · refine ite_ind ?_ ?_
    · intro x
      assumption
    · intro x
      extract_lets +onlyGivenNames m13
      have hm13 : Sound m13 := by
        unfold m13
        apply Node.railMv_sound
        assumption
      clear_value m13
      split
      extract_lets +onlyGivenNames m21
      clear_value m21
      refine ite_ind ?_ ?_
      · intro x
        extract_lets +onlyGivenNames m23
        have hm23 : Sound m23 := by
          unfold m23
          apply Node.railBit_sound
          assumption
        clear_value m23
        refine ite_ind ?_ ?_
        · intro x
          apply Node.railsUp_sound
          assumption
        · intro x
          refine sound_mk ?_ rfl rfl rfl
          assumption
      · intro x
        extract_lets +onlyGivenNames m23
        have hm23 : Sound m23 := by
          unfold m23
          apply Node.updAbandon_sound
          apply Node.railFault_sound
          assumption
        clear_value m23
        extract_lets +onlyGivenNames m25
        have hm25 : Sound m25 := by
          unfold m25
          refine ite_ind ?_ ?_
          · intro x
            apply Node.unhold_sound
            assumption
          · intro x
            assumption
        clear_value m25
        apply Node.railsFall_sound
        assumption
  · assumption
theorem execRailPowerDownStep_sound (mv : Int) (m : Moment) (s : State) (h0 : Sound s.node) : Good (execRailPowerDownStep mv m s) := by
  unfold execRailPowerDownStep
  refine lift_good (fun n hn => ?_) h0
  split
  · refine ite_ind ?_ ?_
    · intro x
      assumption
    · intro x
      extract_lets +onlyGivenNames m14
      clear_value m14
      extract_lets +onlyGivenNames m15
      clear_value m15
      extract_lets +onlyGivenNames m16
      have hm16 : Sound m16 := by
        unfold m16
        apply Node.railMv_sound
        assumption
      clear_value m16
      extract_lets +onlyGivenNames m18
      have hm18 : Sound m18 := by
        unfold m18
        refine ite_ind ?_ ?_
        · intro x
          assumption
        · intro x
          apply Node.railFault_sound
          assumption
      clear_value m18
      split
      · apply Node.railBit_sound
        refine sound_mk ?_ rfl rfl rfl
        assumption
      · refine ite_ind ?_ ?_
        · intro x
          apply Node.railsDown_sound
          assumption
        · intro x
          refine sound_mk ?_ rfl rfl rfl
          assumption
  · refine ite_ind ?_ ?_
    · intro x
      apply Node.railsDown_sound
      assumption
    · intro x
      assumption
  · assumption
theorem execRailFault_sound (k : Nat) (mv : Int) (m : Moment) (s : State) (h0 : Sound s.node) : Good (execRailFault k mv m s) := by
  unfold execRailFault
  refine lift_good (fun n hn => ?_) h0
  refine ite_ind ?_ ?_
  · intro x
    extract_lets +onlyGivenNames m9
    have hm9 : Sound m9 := by
      unfold m9
      apply Node.updAbandon_sound
      apply Node.railFault_sound
      apply Node.railMv_sound
      assumption
    clear_value m9
    apply Node.railsFall_sound
    refine sound_mk ?_ rfl rfl rfl
    assumption
  · intro x
    assumption
theorem execDispFrameStart_sound (m : Moment) (s : State) (h0 : Sound s.node) : Good (execDispFrameStart m s) := by
  unfold execDispFrameStart
  refine lift_good (fun n hn => ?_) h0
  split
  · split
    · refine ite_ind ?_ ?_
      · intro x
        assumption
      · intro x
        refine ite_ind ?_ ?_
        · intro x
          apply Node.setFd_sound
          refine sound_mk ?_ rfl rfl rfl
          assumption
        · intro x
          refine ite_ind ?_ ?_
          · intro x
            extract_lets +onlyGivenNames m19
            have hm19 : Sound m19 := by
              unfold m19
              apply Node.updDone_sound
              assumption
            clear_value m19
            refine sound_mk ?_ rfl rfl rfl
            assumption
          · intro x
            apply Node.railsFall_sound
            refine sound_mk ?_ rfl rfl rfl
            assumption
    · assumption
  · assumption
theorem execRailholdExpiry_sound (m : Moment) (s : State) (h0 : Sound s.node) : Good (execRailholdExpiry m s) := by
  unfold execRailholdExpiry
  refine lift_good (fun n hn => ?_) h0
  split
  · refine ite_ind ?_ ?_
    · intro x
      apply Node.railsFall_sound
      assumption
    · intro x
      assumption
  · assumption
theorem Node.fastStart_sound (n : Node) (h0 : Sound n) : Sound (Node.fastStart n) := by
  unfold Node.fastStart
  split
  · assumption
  · assumption
  · extract_lets +onlyGivenNames m8
    have hm8 : Sound m8 := by
      unfold m8
      refine ite_ind ?_ ?_
      · intro x
        apply Node.unhold_sound
        assumption
      · intro x
        assumption
    clear_value m8
    apply Node.railBit_sound
    apply Node.railBit_sound
    refine sound_mk ?_ rfl rfl rfl
    assumption
theorem execDisplayUndervoltage_sound (m : Moment) (s : State) (h0 : Sound s.node) : Good (execDisplayUndervoltage m s) := by
  unfold execDisplayUndervoltage
  refine lift_good (fun n hn => ?_) h0
  refine ite_ind ?_ ?_
  · intro x
    assumption
  · intro x
    split
    apply Node.fastStart_sound
    apply Node.updAbandon_sound
    refine sound2_eq (by assumption) ?_
    refine ite_ind ?_ ?_
    · intro x
      apply Node.fresh_sound
      assumption
    · intro x
      apply sound2_mk
      assumption
theorem execFastDischargeStep_sound (m : Moment) (s : State) (h0 : Sound s.node) : Good (execFastDischargeStep m s) := by
  unfold execFastDischargeStep
  refine lift_good (fun n hn => ?_) h0
  split
  · apply Node.railBit_sound
    refine sound_mk ?_ rfl rfl rfl
    assumption
  · apply Node.railBit_sound
    refine sound_mk ?_ rfl rfl rfl
    assumption
  · apply Node.railsDown_sound
    apply Node.railBit_sound
    assumption
  · assumption
theorem Node.dispBankB_sound (n : Node) (m : Moment) (h0 : Sound n) : Sound (Node.dispBankB n m) := by
  unfold Node.dispBankB
  refine ite_ind ?_ ?_
  · intro x
    assumption
  · intro x
    apply Node.fastStart_sound
    apply Node.updAbandon_sound
    assumption
theorem Node.dispDrain_sound (n : Node) (h0 : Sound n) : Sound (Node.dispDrain n) := by
  unfold Node.dispDrain
  extract_lets +onlyGivenNames m3
  extract_lets +onlyGivenNames m4
  have hm4 : Sound m4 := by
    unfold m4
    refine sound_mk ?_ rfl rfl rfl
    assumption
  clear_value m4
  refine ite_ind ?_ ?_
  · intro x
    assumption
  · intro x
    extract_lets +onlyGivenNames m7
    have hm7 : Sound m7 := by
      unfold m7
      apply Node.dispWatch_sound
      apply Node.setFd_sound
      assumption
    clear_value m7
    refine ite_ind ?_ ?_
    · intro x
      assumption
    · intro x
      extract_lets +onlyGivenNames m10
      have hm10 : Sound m10 := by
        unfold m10
        refine ite_ind ?_ ?_
        · intro x
          apply Node.unhold_sound
          assumption
        · intro x
          assumption
      clear_value m10
      split
      · apply Node.dispOff_sound
        assumption
      · apply Node.railsFall_sound
        assumption
      · apply Node.railsFall_sound
        assumption
      · assumption
theorem Node.dispEnable_sound (n : Node) (h0 : Sound n) : Sound (Node.dispEnable n) := by
  unfold Node.dispEnable
  split
  · apply Node.dispWatch_sound
    apply Node.setFd_sound
    assumption
  · refine sound_mk ?_ rfl rfl rfl
    assumption
  · assumption
theorem Node.lcdFollow_sound (n : Node) (h0 : Sound n) : Sound (Node.lcdFollow n) := by
  unfold Node.lcdFollow
  split
  · apply Node.setFd_sound
    refine sound_mk ?_ rfl rfl rfl
    assumption
  · apply Node.setFd_sound
    assumption
  · apply Node.setFd_sound
    assumption
  · assumption
theorem Node.dispChanged_sound (old : Node) (n : Node) (h0 : Sound old) (h1 : Sound n) : Sound (Node.dispChanged old n) := by
  unfold Node.dispChanged
  extract_lets +onlyGivenNames m5
  clear_value m5
  extract_lets +onlyGivenNames m6
  clear_value m6
  extract_lets +onlyGivenNames m7
  have hm7 : Sound m7 := by
    unfold m7
    refine ite_ind ?_ ?_
    · intro x
      refine ite_ind ?_ ?_
      · intro x
        assumption
      · intro x
        apply Node.dispEnable_sound
        assumption
    · intro x
      refine ite_ind ?_ ?_
      · intro x
        apply Node.dispDrain_sound
        assumption
      · intro x
        assumption
  clear_value m7
  apply Node.lcdFollow_sound
  assumption
theorem Node.dispCfgErr_sound (n : Node) (h0 : Sound n) : Sound (Node.dispCfgErr n) := by
  unfold Node.dispCfgErr
  apply Node.ring_sound
  apply Node.setOn_sound
  assumption
theorem execSetDisp_sound (l : Line) (s : State) (h0 : Sound s.node) : Good (execSetDisp l s) := by
  unfold execSetDisp
  refine lift_good (fun n hn => ?_) h0
  apply Node.runWhole_sound
  · assumption
  · intro x x
    apply okE_ok
    apply sound1_mk
    apply Node.dispChanged_sound
    · assumption
    · apply Node.setKeys_sound
      assumption
theorem execSetDispWaveLen_sound (l : Line) (s : State) (h0 : Sound s.node) : Good (execSetDispWaveLen l s) := by
  unfold execSetDispWaveLen
  refine lift_good (fun n hn => ?_) h0
  apply Node.runWhole_sound
  · assumption
  · intro x x
    apply okE_ok
    apply sound1_mk
    apply Node.dirty_sound
    apply Node.setK_sound
    assumption
theorem Node.setWave_sound (n : Node) (bn : ℕ) (from_ : ℕ) (to_ : ℕ) (k : ℕ) (w : Sys2Proof.Word) (h0 : Sound n) : Sound (Node.setWave n bn from_ to_ k w) := by
  unfold Node.setWave
  apply Node.setK_sound
  assumption
theorem execSetDispWaveData_sound (l : Line) (s : State) (h0 : Sound s.node) : Good (execSetDispWaveData l s) := by
  unfold execSetDispWaveData
  refine lift_good (fun n hn => ?_) h0
  apply Node.runWhole_sound
  · assumption
  · intro x x
    refine okE_bind ?_
    intro x x
    extract_lets +onlyGivenNames m10
    clear_value m10
    extract_lets +onlyGivenNames m11
    have hm11 : Sound m11 := by
      unfold m11
      refine foldl_ok ?_ ?_
      · intro x x x
        apply Node.setWave_sound
        assumption
      · assumption
    clear_value m11
    apply okE_pure
    apply sound1_mk
    apply Node.dirty_sound
    assumption
theorem execDoDispUpdate_sound (l : Line) (s : State) (h0 : Sound s.node) : Good (execDoDispUpdate l s) := by
  unfold execDoDispUpdate
  refine lift_good (fun n hn => ?_) h0
  apply Node.runOpen_sound
  · assumption
  · intro x x
    refine okE_bind ?_
    intro x x
    refine okE_bind ?_
    intro x x
    extract_lets +onlyGivenNames m12
    clear_value m12
    extract_lets +onlyGivenNames m13
    clear_value m13
    refine okE_bind ?_
    intro x x
    split
    refine okE_bind ?_
    intro x x
    extract_lets +onlyGivenNames m22
    clear_value m22
    refine ite_ind ?_ ?_
    · intro x
      extract_lets +onlyGivenNames m24
      have hm24 : Sound m24 := by
        unfold m24
        apply Node.send_sound
        refine okE_eq1 (by assumption) ?_
        apply Node.updStart_sound
        assumption
      clear_value m24
      apply okE_pure
      apply Node.setPort_sound
      assumption
    · intro x
      apply okE_pure
      apply Node.replyOk_sound
      refine okE_eq1 (by assumption) ?_
      apply Node.updStart_sound
      assumption
theorem execDoDispLoad_sound (l : Line) (s : State) (h0 : Sound s.node) : Good (execDoDispLoad l s) := by
  unfold execDoDispLoad
  refine lift_good (fun n hn => ?_) h0
  apply Node.runWhole_sound
  · assumption
  · intro x x
    refine okE_bind ?_
    intro x x
    extract_lets +onlyGivenNames m10
    clear_value m10
    refine ite_ind ?_ ?_
    · intro x
      apply okE_pure
      apply sound1_mk
      refine sound_mk ?_ rfl rfl rfl
      assumption
    · intro x
      apply okE_pure
      apply sound1_mk
      apply Node.setBytes_sound
      assumption
theorem Node.dispS7_sound (n : Node) (h0 : Sound n) : Sound (Node.dispS7 n) := by
  unfold Node.dispS7
  refine ite_ind ?_ ?_
  · intro x
    assumption
  · intro x
    refine foldl_ok ?_ ?_
    · intro x x x
      apply Node.setBytes_sound
      assumption
    · refine sound_mk ?_ rfl rfl rfl
      assumption
theorem Node.railsOn_sound (n : Node) (who : Option Port) (h0 : Sound n) : okE Sound1 (Node.railsOn n who) := by
  unfold Node.railsOn
  refine okE_bind ?_
  intro x x
  extract_lets +onlyGivenNames m6
  extract_lets +onlyGivenNames m7
  have hm7 : Sound m7 := by
    unfold m7
    refine sound_mk ?_ rfl rfl rfl
    assumption
  refine ite_ind ?_ ?_
  · intro x
    apply okE_pure
    apply sound1_mk
    apply Node.ring_sound
    assumption
  · intro x
    apply okE_pure
    apply sound1_mk
    refine sound_mk ?_ rfl rfl rfl
    assumption
theorem Node.railsOff_sound (n : Node) (t : ℕ) (h0 : Sound n) : Sound (Node.railsOff n t) := by
  unfold Node.railsOff
  refine ite_ind ?_ ?_
  · intro x
    assumption
  · intro x
    extract_lets +onlyGivenNames m5
    have hm5 : Sound m5 := by
      unfold m5
      apply Node.unhold_sound
      assumption
    clear_value m5
    split
    · apply Node.railsFall_sound
      assumption
    · apply Node.railsFall_sound
      assumption
    · assumption
theorem execDoDispRails_sound (l : Line) (s : State) (h0 : Sound s.node) : Good (execDoDispRails l s) := by
  unfold execDoDispRails
  refine lift_good (fun n hn => ?_) h0
  apply Node.runOpen_sound
  · assumption
  · intro x x
    refine okE_bind ?_
    intro x x
    refine okE_bind ?_
    intro x x
    refine okE_bind ?_
    intro x x
    refine ite_ind ?_ ?_
    · intro x
      refine okE_bind ?_
      intro x x
      split
      refine okE_bind ?_
      intro x x
      refine ite_ind ?_ ?_
      · intro x
        apply okE_pure
        apply Node.replyOk_sound
        refine sound_mk ?_ rfl rfl rfl
        refine okE_eq1 (by assumption) ?_
        apply Node.railsOn_sound
        assumption
      · intro x
        apply okE_pure
        apply Node.setPort_sound
        refine okE_eq1 (by assumption) ?_
        apply Node.railsOn_sound
        assumption
    · intro x
      refine okE_bind ?_
      intro x x
      apply okE_pure
      apply Node.replyOk_sound
      apply Node.railsOff_sound
      assumption
theorem Node.lcdCommit_sound (n : Node) (h0 : Sound n) : Sound (Node.lcdCommit n) := by
  unfold Node.lcdCommit
  apply Node.setOn_sound
  assumption
theorem execLcdCommit_sound (_rq : Rq) (v : Word) (s : State) (h0 : Sound s.node) : Good (execLcdCommit _rq v s) := by
  unfold execLcdCommit
  refine lift_good (fun n hn => ?_) h0
  refine ite_ind ?_ ?_
  · intro x
    apply Node.lcdCommit_sound
    assumption
  · intro x
    assumption
theorem Node.lcdFrame_sound (n : Node) (m : Moment) (h0 : Sound n) : Sound (Node.lcdFrame n m) := by
  unfold Node.lcdFrame
  refine ite_ind ?_ ?_
  · intro x
    apply Node.ring_sound
    apply Node.setOn_sound
    apply Node.setFd_sound
    assumption
  · intro x
    extract_lets +onlyGivenNames m5
    clear_value m5
    extract_lets +onlyGivenNames m6
    clear_value m6
    extract_lets +onlyGivenNames m7
    extract_lets +onlyGivenNames m8
    have hm8 : Sound m8 := by
      unfold m8
      refine sound_mk ?_ rfl rfl rfl
      assumption
    clear_value m8
    refine ite_ind ?_ ?_
    · intro x
      extract_lets +onlyGivenNames m11
      extract_lets +onlyGivenNames m12
      have hm12 : Sound m12 := by
        unfold m12
        refine sound_mk ?_ rfl rfl rfl
        assumption
      clear_value m12
      apply Node.ring_sound
      apply Node.setOn_sound
      apply Node.setOn_sound
      assumption
    · intro x
      assumption
theorem execLcdFrameStart_sound (m : Moment) (s : State) (h0 : Sound s.node) : Good (execLcdFrameStart m s) := by
  unfold execLcdFrameStart
  refine lift_good (fun n hn => ?_) h0
  refine ite_ind ?_ ?_
  · intro x
    apply Node.lcdFrame_sound
    assumption
  · intro x
    assumption
theorem execSetDispCom_sound (l : Line) (s : State) (h0 : Sound s.node) : Good (execSetDispCom l s) := by
  unfold execSetDispCom
  refine lift_good (fun n hn => ?_) h0
  apply Node.runWhole_sound
  · assumption
  · intro x x
    extract_lets +onlyGivenNames m8
    clear_value m8
    extract_lets +onlyGivenNames m9
    have hm9 : ∀ x0 x1 x2, Sound x0 → Sound (m9 x0 x1 x2) := by
      unfold m9
      intro x x x x
      split
      · apply Node.setFd_sound
        assumption
      · assumption
    clear_value m9
    extract_lets +onlyGivenNames m11
    have hm11 : Sound m11 := by
      unfold m11
      apply_assumption
      apply_assumption
      assumption
    clear_value m11
    extract_lets +onlyGivenNames m13
    have hm13 : Sound m13 := by
      unfold m13
      apply_assumption
      apply_assumption
      assumption
    clear_value m13
    apply okE_ok
    apply sound1_mk
    apply Node.lcdCommit_sound
    assumption
theorem Node.dispCmdUpdate_sound (n : Node) (v : Sys2Proof.Word) (m : Moment) (h0 : Sound n) : Sound (Node.dispCmdUpdate n v m) := by
  unfold Node.dispCmdUpdate
  split
  · refine okE_eq1 (by assumption) ?_
    apply Node.updStart_sound
    assumption
  · apply Node.ring_sound
    apply Node.setFd_sound
    assumption
theorem Node.dispCmdRailsOn_sound (n : Node) (h0 : Sound n) : Sound (Node.dispCmdRailsOn n) := by
  unfold Node.dispCmdRailsOn
  split
  · refine okE_eq1 (by assumption) ?_
    apply Node.railsOn_sound
    assumption
  · apply Node.dispCfgErr_sound
    assumption
theorem Node.dispCmdRailsOff_sound (n : Node) (m : Moment) (h0 : Sound n) : Sound (Node.dispCmdRailsOff n m) := by
  unfold Node.dispCmdRailsOff
  refine ite_ind ?_ ?_
  · intro x
    apply Node.dispCfgErr_sound
    assumption
  · intro x
    apply Node.railsOff_sound
    assumption
theorem execDispCmdUpdate_sound (_rq : Rq) (v : Word) (m : Moment) (s : State) (h0 : Sound s.node) : Good (execDispCmdUpdate _rq v m s) := by
  unfold execDispCmdUpdate
  refine lift_good (fun n hn => ?_) h0
  refine ite_ind ?_ ?_
  · intro x
    apply Node.dispCmdUpdate_sound
    assumption
  · intro x
    assumption
theorem execDispCmdRailsOn_sound (_rq : Rq) (v : Word) (_m : Moment) (s : State) (h0 : Sound s.node) : Good (execDispCmdRailsOn _rq v _m s) := by
  unfold execDispCmdRailsOn
  refine lift_good (fun n hn => ?_) h0
  refine ite_ind ?_ ?_
  · intro x
    apply Node.dispCmdRailsOn_sound
    assumption
  · intro x
    assumption
theorem execDispCmdRailsOff_sound (_rq : Rq) (v : Word) (m : Moment) (s : State) (h0 : Sound s.node) : Good (execDispCmdRailsOff _rq v m s) := by
  unfold execDispCmdRailsOff
  refine lift_good (fun n hn => ?_) h0
  refine ite_ind ?_ ?_
  · intro x
    apply Node.dispCmdRailsOff_sound
    assumption
  · intro x
    assumption
theorem execGetDisp_sound (l : Line) (s : State) (h0 : Sound s.node) : Good (execGetDisp l s) := by
  unfold execGetDisp
  refine lift_good (fun n hn => ?_) h0
  apply Node.runRead_sound
  assumption
theorem execShowDisp_sound (l : Line) (s : State) (h0 : Sound s.node) : Good (execShowDisp l s) := by
  unfold execShowDisp
  refine lift_good (fun n hn => ?_) h0
  apply Node.runRead_sound
  assumption
theorem execShowDispWave_sound (l : Line) (s : State) (h0 : Sound s.node) : Good (execShowDispWave l s) := by
  unfold execShowDispWave
  refine lift_good (fun n hn => ?_) h0
  apply Node.runRead_sound
  assumption
theorem execWatchDisp_sound (l : Line) (s : State) (h0 : Sound s.node) : Good (execWatchDisp l s) := by
  unfold execWatchDisp
  refine lift_good (fun n hn => ?_) h0
  apply Node.runWatch_sound
  assumption
theorem Node.dispReload_sound (n : Node) (h0 : Sound n) : Sound (Node.dispReload n) := by
  unfold Node.dispReload
  extract_lets +onlyGivenNames m3
  clear_value m3
  extract_lets +onlyGivenNames m4
  have hm4 : Sound m4 := by
    unfold m4
    apply Node.reload_sound
    assumption
  clear_value m4
  extract_lets +onlyGivenNames m6
  have hm6 : Sound m6 := by
    unfold m6
    refine ite_ind ?_ ?_
    · intro x
      assumption
    · intro x
      apply Node.dispCfgErr_sound
      refine foldl_ok ?_ ?_
      · intro x x x
        apply Node.wr_sound
        assumption
      · assumption
  clear_value m6
  extract_lets +onlyGivenNames m8
  clear_value m8
  extract_lets +onlyGivenNames m9
  clear_value m9
  refine foldl_ok ?_ ?_
  · intro x x x
    apply Node.setK_sound
    assumption
  · refine sound_mk ?_ rfl rfl rfl
    assumption
theorem Node.dispReinitUnit_sound (n : Node) (h0 : Sound n) : Sound1 (Node.dispReinitUnit n) := by
  unfold Node.dispReinitUnit
  refine ite_ind ?_ ?_
  · intro x
    extract_lets +onlyGivenNames m4
    have hm4 : Sound m4 := by
      unfold m4
      apply Node.setOn_sound
      apply Node.setOn_sound
      apply Node.dispReload_sound
      assumption
    clear_value m4
    apply sound1_mk
    apply Node.lcdFollow_sound
    apply Node.dispEnable_sound
    assumption
  · intro x
    apply sound1_mk
    apply Node.dispDrain_sound
    assumption
theorem execDoDispReinit_sound (l : Line) (s : State) (h0 : Sound s.node) : Good (execDoDispReinit l s) := by
  unfold execDoDispReinit
  refine lift_good (fun n hn => ?_) h0
  apply Node.runOpen_sound
  · assumption
  · intro x x
    refine okE_bind ?_
    intro x x
    refine okE_bind ?_
    intro x x
    refine okE_bind ?_
    intro x x
    refine okE_bind ?_
    intro x x
    apply okE_pure
    apply Node.startMr_sound
    assumption
theorem Node.dispLoad_sound (n : Node) (h0 : Sound n) : Sound (Node.dispLoad n) := by
  unfold Node.dispLoad
  extract_lets +onlyGivenNames m3
  have hm3 : Sound m3 := by
    unfold m3
    apply Node.dispReload_sound
    assumption
  clear_value m3
  extract_lets +onlyGivenNames m5
  have hm5 : Sound m5 := by
    unfold m5
    refine ite_ind ?_ ?_
    · intro x
      apply Node.dispEnable_sound
      assumption
    · intro x
      assumption
  clear_value m5
  apply Node.lcdFollow_sound
  assumption
theorem Node.dispSleep_sound (n : Node) (h0 : Sound n) : Sound (Node.dispSleep n) := by
  unfold Node.dispSleep
  extract_lets +onlyGivenNames m3
  have hm3 : Sound m3 := by
    unfold m3
    apply Node.dispDrain_sound
    assumption
  clear_value m3
  refine ite_ind ?_ ?_
  · intro x
    apply Node.setFd_sound
    assumption
  · intro x
    assumption
theorem Node.dispWake_sound (n : Node) (h0 : Sound n) : Sound (Node.dispWake n) := by
  unfold Node.dispWake
  extract_lets +onlyGivenNames m3
  have hm3 : Sound m3 := by
    unfold m3
    refine ite_ind ?_ ?_
    · intro x
      apply Node.dispEnable_sound
      assumption
    · intro x
      assumption
  clear_value m3
  apply Node.lcdFollow_sound
  assumption
theorem Node.dispPowerFail_sound (n : Node) (m : Moment) (h0 : Sound n) : Sound (Node.dispPowerFail n m) := by
  unfold Node.dispPowerFail
  apply Node.updAbandon_sound
  assumption
end Sys2Proof.Machine
end

