-- ==== Sys2Proof/Laws/SoundAnnex.lean ====
section
/-! SUPPORT. Every operation and every meaning of Machine/Annex.lean keeps `Sound`. -/
set_option linter.unusedVariables false
namespace Sys2Proof.Machine
theorem Node.endLeases_sound (n : Node) (gone : Lease → Bool) (h0 : Sound n) : Sound (Node.endLeases n gone) := by
  unfold Node.endLeases
  extract_lets +onlyGivenNames m4
  clear_value m4
  extract_lets +onlyGivenNames m5
  extract_lets +onlyGivenNames m6
  have hm6 : Sound m6 := by
    unfold m6
    refine ⟨?_, ?_, ?_, ?_⟩
    · dsimp only; exact Sound.mem (by assumption)
    · dsimp only; exact Nat.le_trans (List.length_filter_le _ _) (Sound.leases (by assumption))
    · dsimp only; exact Sound.streams (by assumption)
    · dsimp only; exact Sound.stack (by assumption)
  clear_value m6
  refine foldl_ok ?_ ?_
  · intro x x x
    apply Node.notifyPort_sound
    assumption
  · assumption
theorem Node.annexTo_sound (n : Node) (st : ℕ) (fault : List Item) (h0 : Sound n) : Sound (Node.annexTo n st fault) := by
  unfold Node.annexTo
  refine ite_ind ?_ ?_
  · intro x
    assumption
  · intro x
    extract_lets +onlyGivenNames m6
    have hm6 : Sound m6 := by
      unfold m6
      apply Node.ring_sound
      apply Node.setFd_sound
      assumption
    clear_value m6
    apply Node.notifyWatch_sound
    assumption
theorem Node.annexHalt_sound (n : Node) (fault : List Item) (m : Moment) (h0 : Sound n) : Sound (Node.annexHalt n fault m) := by
  unfold Node.annexHalt
  extract_lets +onlyGivenNames m5
  clear_value m5
  extract_lets +onlyGivenNames m6
  extract_lets +onlyGivenNames m7
  have hm7 : Sound m7 := by
    unfold m7
    refine sound_mk ?_ rfl rfl rfl
    assumption
  clear_value m7
  extract_lets +onlyGivenNames m9
  have hm9 : Sound m9 := by
    unfold m9
    apply Node.dicStop_sound
    apply Node.annexTo_sound
    assumption
  clear_value m9
  apply Node.endLeases_sound
  assumption
theorem Node.annexStop_sound (n : Node) (cause : ℕ) (m : Moment) (h0 : Sound n) : Sound (Node.annexStop n cause m) := by
  unfold Node.annexStop
  refine ite_ind ?_ ?_
  · intro x
    assumption
  · intro x
    extract_lets +onlyGivenNames m6
    have hm6 : Sound m6 := by
      unfold m6
      apply Node.annexHalt_sound
      assumption
    clear_value m6
    extract_lets +onlyGivenNames m8
    extract_lets +onlyGivenNames m9
    have hm9 : Sound m9 := by
      unfold m9
      refine sound_mk ?_ rfl rfl rfl
      assumption
    clear_value m9
    refine ite_ind ?_ ?_
    · intro x
      apply Node.raiseCmd_sound
      assumption
    · intro x
      apply Node.raiseM_sound
      assumption
theorem Node.annexResume_sound (n : Node) (m : Moment) (h0 : Sound n) : Sound (Node.annexResume n m) := by
  unfold Node.annexResume
  refine ite_ind ?_ ?_
  · intro x
    extract_lets +onlyGivenNames m5
    extract_lets +onlyGivenNames m6
    have hm6 : Sound m6 := by
      unfold m6
      refine sound_mk ?_ rfl rfl rfl
      assumption
    clear_value m6
    apply Node.annexTo_sound
    assumption
  · intro x
    assumption
theorem Node.annexStart_sound (n : Node) (entry : ℕ) (crc : ℕ) (src : ℕ) (raise : Node → List Sys2Proof.Byte → Node) (h0 : Sound n) (h4 : ∀ x0 x1, Sound x0 → Sound (raise x0 x1)) : Sound (Node.annexStart n entry crc src raise) := by
  unfold Node.annexStart
  extract_lets +onlyGivenNames m8
  extract_lets +onlyGivenNames m9
  extract_lets +onlyGivenNames m10
  have hm10 : Sound m10 := by
    unfold m10
    refine ⟨?_, ?_, ?_, ?_⟩
    · dsimp only; exact Sound.mem (by assumption)
    · dsimp only; exact Sound.leases (by assumption)
    · dsimp only; exact Sound.streams (by assumption)
    · dsimp only; exact Nat.zero_le _
  clear_value m10
  extract_lets +onlyGivenNames m12
  have hm12 : Sound m12 := by
    unfold m12
    apply Node.annexTo_sound
    apply Node.setOn_sound
    assumption
  clear_value m12
  apply_assumption
  assumption
theorem Node.annexBegin_sound (n : Node) (h0 : Sound n) : Sound (Node.annexBegin n) := by
  unfold Node.annexBegin
  refine ite_ind ?_ ?_
  · intro x
    refine sound_mk ?_ rfl rfl rfl
    assumption
  · intro x
    assumption
theorem Node.annexFaultRecord_sound (n : Node) (cause : ℕ) (m : Moment) (h0 : Sound n) : Sound (Node.annexFaultRecord n cause m) := by
  unfold Node.annexFaultRecord
  extract_lets +onlyGivenNames m5
  clear_value m5
  extract_lets +onlyGivenNames m6
  clear_value m6
  apply Node.ring_sound
  apply Node.raiseM_sound
  assumption
theorem Node.badImage_sound (n : Node) (m : Moment) (h0 : Sound n) : Sound (Node.badImage n m) := by
  unfold Node.badImage
  extract_lets +onlyGivenNames m4
  have hm4 : Sound m4 := by
    unfold m4
    apply Node.wr_sound
    apply Node.wr_sound
    apply Node.setFd_sound
    assumption
  clear_value m4
  apply Node.annexFaultRecord_sound
  apply Node.annexTo_sound
  assumption
theorem Node.annexRestart_sound (n : Node) (m : Moment) (h0 : Sound n) : Sound (Node.annexRestart n m) := by
  unfold Node.annexRestart
  extract_lets +onlyGivenNames m4
  clear_value m4
  refine ite_ind ?_ ?_
  · intro x
    assumption
  · intro x
    refine ite_ind ?_ ?_
    · intro x
      extract_lets +onlyGivenNames m7
      extract_lets +onlyGivenNames m8
      have hm8 : Sound m8 := by
        unfold m8
        apply Node.bump_sound
        refine sound_mk ?_ rfl rfl rfl
        assumption
      clear_value m8
      apply Node.annexStart_sound
      · assumption
      · intro x x x
        apply Node.raiseM_sound
        assumption
    · intro x
      apply Node.badImage_sound
      assumption
theorem Node.annexFault_sound (n : Node) (cause : ℕ) (m : Moment) (h0 : Sound n) : Sound (Node.annexFault n cause m) := by
  unfold Node.annexFault
  extract_lets +onlyGivenNames m5
  clear_value m5
  extract_lets +onlyGivenNames m6
  have hm6 : Sound m6 := by
    unfold m6
    apply Node.wr_sound
    apply Node.wr_sound
    apply Node.setFd_sound
    assumption
  clear_value m6
  extract_lets +onlyGivenNames m8
  have hm8 : Sound m8 := by
    unfold m8
    apply Node.annexHalt_sound
    assumption
  clear_value m8
  extract_lets +onlyGivenNames m10
  have hm10 : Sound m10 := by
    unfold m10
    apply Node.annexFaultRecord_sound
    assumption
  clear_value m10
  extract_lets +onlyGivenNames m12
  have hm12 : Sound m12 := by
    unfold m12
    apply Node.raiseM_sound
    assumption
  clear_value m12
  apply Node.annexRestart_sound
  assumption
theorem execAnnexWatchdogExpiry_sound (m : Moment) (s : State) (h0 : Sound s.node) : Good (execAnnexWatchdogExpiry m s) := by
  unfold execAnnexWatchdogExpiry
  refine lift_good (fun n hn => ?_) h0
  refine ite_ind ?_ ?_
  · intro x
    apply Node.annexFault_sound
    assumption
  · intro x
    assumption
theorem Node.dogServe_sound (n : Node) (v : Sys2Proof.Word) (m : Moment) (h0 : Sound n) : Sound (Node.dogServe n v m) := by
  unfold Node.dogServe
  refine ite_ind ?_ ?_
  · intro x
    assumption
  · intro x
    refine ite_ind ?_ ?_
    · intro x
      refine sound_mk ?_ rfl rfl rfl
      assumption
    · intro x
      apply Node.annexFault_sound
      assumption
theorem execAwdserveWrite_sound (_rq : Rq) (v : Word) (m : Moment) (s : State) (h0 : Sound s.node) : Good (execAwdserveWrite _rq v m s) := by
  unfold execAwdserveWrite
  refine lift_good (fun n hn => ?_) h0
  refine ite_ind ?_ ?_
  · intro x
    apply Node.dogServe_sound
    assumption
  · intro x
    assumption
theorem execDoNodeLoad_sound (l : Line) (s : State) (h0 : Sound s.node) : Good (execDoNodeLoad l s) := by
  unfold execDoNodeLoad
  refine lift_good (fun n hn => ?_) h0
  apply Node.runWhole_sound
  · assumption
  · intro x x
    refine okE_bind ?_
    intro x x
    extract_lets +onlyGivenNames m10
    have hm10 : Sound m10 := by
      unfold m10
      apply Node.setBytes_sound
      assumption
    clear_value m10
    apply okE_pure
    apply sound1_mk
    apply Node.annexTo_sound
    assumption
theorem execDoNodeStart_sound (l : Line) (s : State) (h0 : Sound s.node) : Good (execDoNodeStart l s) := by
  unfold execDoNodeStart
  refine lift_good (fun n hn => ?_) h0
  apply Node.runOpen_sound
  · assumption
  · intro x x
    refine okE_bind ?_
    intro x x
    refine okE_bind ?_
    intro x x
    extract_lets +onlyGivenNames m12
    clear_value m12
    extract_lets +onlyGivenNames m13
    clear_value m13
    extract_lets +onlyGivenNames m14
    clear_value m14
    extract_lets +onlyGivenNames m15
    extract_lets +onlyGivenNames m16
    have hm16 : Sound m16 := by
      unfold m16
      apply Node.wr_sound
      apply Node.wr_sound
      apply Node.wr_sound
      assumption
    clear_value m16
    extract_lets +onlyGivenNames m18
    have hm18 : ∀ x0, okE Sound (m18 x0) := by
      unfold m18
      intro x
      refine okE_bind ?_
      intro x x
      refine ite_ind ?_ ?_
      · intro x
        apply okE_pure
        apply Node.replyErr_sound
        apply Node.annexTo_sound
        assumption
      · intro x
        apply okE_pure
        apply Node.replyOk_sound
        apply Node.annexStart_sound
        · assumption
        · intro x x x
          apply Node.raiseCmd_sound
          assumption
    clear_value m18
    extract_lets +onlyGivenNames m20
    have hm20 : ∀ x0, okE Sound (m20 x0) := by
      unfold m20
      intro x
      refine ite_ind ?_ ?_
      · intro x
        refine okE_bind ?_
        intro x x
        apply_assumption
      · intro x
        apply_assumption
    clear_value m20
    extract_lets +onlyGivenNames m22
    have hm22 : ∀ x0, okE Sound (m22 x0) := by
      unfold m22
      intro x
      refine ite_ind ?_ ?_
      · intro x
        refine okE_bind ?_
        intro x x
        apply_assumption
      · intro x
        apply_assumption
    clear_value m22
    refine ite_ind ?_ ?_
    · intro x
      refine okE_bind ?_
      intro x x
      apply_assumption
    · intro x
      apply_assumption
theorem execDoNodeStop_sound (l : Line) (s : State) (h0 : Sound s.node) : Good (execDoNodeStop l s) := by
  unfold execDoNodeStop
  refine lift_good (fun n hn => ?_) h0
  apply Node.runWhole_sound
  · assumption
  · intro x x
    apply okE_ok
    apply sound1_mk
    apply Node.annexStop_sound
    assumption
theorem Node.nodeChanged_sound (old : Node) (n : Node) (m : Moment) (h0 : Sound old) (h1 : Sound n) : Sound (Node.nodeChanged old n m) := by
  unfold Node.nodeChanged
  refine ite_ind ?_ ?_
  · intro x
    refine sound_mk ?_ rfl rfl rfl
    assumption
  · intro x
    assumption
theorem execSetNode_sound (l : Line) (s : State) (h0 : Sound s.node) : Good (execSetNode l s) := by
  unfold execSetNode
  refine lift_good (fun n hn => ?_) h0
  apply Node.runWhole_sound
  · assumption
  · intro x x
    apply okE_ok
    apply sound1_mk
    apply Node.nodeChanged_sound
    · assumption
    · apply Node.setKeys_sound
      assumption
theorem execShowNodeAnnex_sound (l : Line) (s : State) (h0 : Sound s.node) : Good (execShowNodeAnnex l s) := by
  unfold execShowNodeAnnex
  refine lift_good (fun n hn => ?_) h0
  apply Node.runLine_sound
  · assumption
  · intro x x
    refine okE_bind ?_
    intro x x
    refine okE_bind ?_
    intro x x
    extract_lets +onlyGivenNames m12
    clear_value m12
    extract_lets +onlyGivenNames m13
    clear_value m13
    apply okE_pure
    apply sound1_mk
    assumption
theorem execWatchNode_sound (l : Line) (s : State) (h0 : Sound s.node) : Good (execWatchNode l s) := by
  unfold execWatchNode
  refine lift_good (fun n hn => ?_) h0
  apply Node.runWatch_sound
  assumption
theorem Node.bootBegin_sound (n : Node) (h0 : Sound n) : Sound (Node.bootBegin n) := by
  unfold Node.bootBegin
  refine ite_ind ?_ ?_
  · intro x
    assumption
  · intro x
    extract_lets +onlyGivenNames m4
    clear_value m4
    extract_lets +onlyGivenNames m5
    extract_lets +onlyGivenNames m6
    have hm6 : Sound m6 := by
      unfold m6
      refine sound_mk ?_ rfl rfl rfl
      assumption
    clear_value m6
    refine ite_ind ?_ ?_
    · intro x
      refine ite_ind ?_ ?_
      · intro x
        apply Node.twPhase_sound
        assumption
      · intro x
        assumption
    · intro x
      apply Node.twEnable_sound
      assumption
theorem Node.bootEnd_sound (n : Node) (image : Option (List Sys2Proof.Byte)) (m : Moment) (h0 : Sound n) : Sound (Node.bootEnd n image m) := by
  unfold Node.bootEnd
  extract_lets +onlyGivenNames m5
  clear_value m5
  extract_lets +onlyGivenNames m6
  extract_lets +onlyGivenNames m7
  have hm7 : Sound m7 := by
    unfold m7
    refine sound_mk ?_ rfl rfl rfl
    assumption
  clear_value m7
  extract_lets +onlyGivenNames m9
  have hm9 : Sound m9 := by
    unfold m9
    refine ite_ind ?_ ?_
    · intro x
      apply Node.twPhase_sound
      assumption
    · intro x
      assumption
  clear_value m9
  extract_lets +onlyGivenNames m11
  have hm11 : Sound m11 := by
    unfold m11
    refine ite_ind ?_ ?_
    · intro x
      apply Node.twDrain_sound
      assumption
    · intro x
      assumption
  clear_value m11
  split
  · apply Node.badImage_sound
    assumption
  · extract_lets +onlyGivenNames m22
    have hm22 : Sound m22 := by
      unfold m22
      apply Node.setBytes_sound
      assumption
    clear_value m22
    extract_lets +onlyGivenNames m24
    have hm24 : Sound m24 := by
      unfold m24
      apply Node.wr_sound
      apply Node.wr_sound
      apply Node.wr_sound
      apply Node.wr_sound
      assumption
    clear_value m24
    apply Node.annexStart_sound
    · assumption
    · intro x x x
      apply Node.raiseM_sound
      assumption
theorem execAnnexBootReadEnd_sound (image : Option (List (BitVec 8))) (m : Moment) (s : State) (h0 : Sound s.node) : Good (execAnnexBootReadEnd image m s) := by
  unfold execAnnexBootReadEnd
  refine lift_good (fun n hn => ?_) h0
  refine ite_ind ?_ ?_
  · intro x
    assumption
  · intro x
    refine ite_ind ?_ ?_
    · intro x
      apply Node.bootEnd_sound
      assumption
    · intro x
      refine ite_ind ?_ ?_
      · intro x
        apply Node.bootEnd_sound
        assumption
      · intro x
        assumption
theorem Node.mbCfgErr_sound (n : Node) (h0 : Sound n) : Sound (Node.mbCfgErr n) := by
  unfold Node.mbCfgErr
  apply Node.ring_sound
  apply Node.setOn_sound
  assumption
theorem Node.ringPut_sound (n : Node) (y1 : List Sys2Proof.Byte) (h0 : Sound n) : Sound (Node.ringPut n y1) := by
  unfold Node.ringPut
  split
  · assumption
  · extract_lets +onlyGivenNames m7
    clear_value m7
    apply Node.ringPut_sound
    apply Node.setFd_sound
    apply Node.setByte_sound
    assumption
theorem Node.ringLine_sound (n : Node) (o : OutLine) (h0 : Sound n) : Sound (Node.ringLine n o) := by
  unfold Node.ringLine
  extract_lets +onlyGivenNames m4
  have hm4 : Sound m4 := by
    unfold m4
    apply Node.setOn_sound
    apply Node.ringPut_sound
    assumption
  clear_value m4
  extract_lets +onlyGivenNames m6
  extract_lets +onlyGivenNames m7
  have hm7 : Sound m7 := by
    unfold m7
    apply Node.setPort_sound
    assumption
  clear_value m7
  refine ite_ind ?_ ?_
  · intro x
    apply Node.ring_sound
    apply Node.setOn_sound
    assumption
  · intro x
    assumption
theorem Node.annexPump_sound (n : Node) (y1 : ℕ) (h0 : Sound n) : Sound (Node.annexPump n y1) := by
  unfold Node.annexPump
  split
  · assumption
  · extract_lets +onlyGivenNames m6
    clear_value m6
    extract_lets +onlyGivenNames m7
    clear_value m7
    split
    · extract_lets +onlyGivenNames m14
      have hm14 : Sound m14 := by
        unfold m14
        apply Node.setPort_sound
        assumption
      clear_value m14
      refine ite_ind ?_ ?_
      · intro x
        apply Node.annexPump_sound
        apply Node.ringLine_sound
        assumption
      · intro x
        refine ite_ind ?_ ?_
        · intro x
          apply Node.setOn_sound
          assumption
        · intro x
          apply Node.annexPump_sound
          apply Node.ring_sound
          apply Node.setOn_sound
          apply Node.bump_sound
          assumption
    · extract_lets +onlyGivenNames m12
      have hm12 : Sound m12 := by
        unfold m12
        apply Node.setOn_sound
        assumption
      clear_value m12
      refine ite_ind ?_ ?_
      · intro x
        assumption
      · intro x
        split
        · refine ite_ind ?_ ?_
          · intro x
            apply Node.annexPump_sound
            apply Node.ringLine_sound
            apply Node.setPort_sound
            assumption
          · intro x
            assumption
        · assumption
theorem Node.annexFlush_sound (n : Node) (h0 : Sound n) : Sound (Node.annexFlush n) := by
  unfold Node.annexFlush
  apply Node.annexPump_sound
  assumption
theorem Node.annexTell_sound (n : Node) (h0 : Sound n) : Sound (Node.annexTell n) := by
  unfold Node.annexTell
  extract_lets +onlyGivenNames m3
  clear_value m3
  refine ite_ind ?_ ?_
  · intro x
    apply Node.ring_sound
    apply Node.setPort_sound
    assumption
  · intro x
    assumption
theorem Node.reqWrite_sound (n : Node) (v : Sys2Proof.Word) (h0 : Sound n) : Sound (Node.reqWrite n v) := by
  unfold Node.reqWrite
  extract_lets +onlyGivenNames m4
  clear_value m4
  extract_lets +onlyGivenNames m5
  clear_value m5
  refine ite_ind ?_ ?_
  · intro x
    apply Node.setFd_sound
    assumption
  · intro x
    refine ite_ind ?_ ?_
    · intro x
      apply Node.mbCfgErr_sound
      assumption
    · intro x
      extract_lets +onlyGivenNames m8
      have hm8 : Sound m8 := by
        unfold m8
        apply Node.setFds_sound
        assumption
      clear_value m8
      refine sound_mk ?_ rfl rfl rfl
      assumption
theorem execMailboxGo_sound (rq : Rq) (v : Word) (_m : Moment) (s : State) (h0 : Sound s.node) : Good (execMailboxGo rq v _m s) := by
  unfold execMailboxGo
  refine lift_good (fun n hn => ?_) h0
  refine ite_ind ?_ ?_
  · intro x
    apply Node.reqWrite_sound
    assumption
  · intro x
    assumption
theorem Node.reqCopy_sound (n : Node) (m : Moment) (h0 : Sound n) : Sound (Node.reqCopy n m) := by
  unfold Node.reqCopy
  refine ite_ind ?_ ?_
  · intro x
    assumption
  · intro x
    extract_lets +onlyGivenNames m5
    clear_value m5
    extract_lets +onlyGivenNames m6
    have hm6 : Sound m6 := by
      unfold m6
      apply Node.ring_sound
      apply Node.setOn_sound
      apply Node.setOn_sound
      assumption
    clear_value m6
    apply Node.lineIn_sound
    assumption
theorem Node.rxrdWrite_sound (n : Node) (v : Sys2Proof.Word) (h0 : Sound n) : Sound (Node.rxrdWrite n v) := by
  unfold Node.rxrdWrite
  apply Node.annexFlush_sound
  apply Node.setFd_sound
  assumption
theorem execRxrdWrite_sound (rq : Rq) (v : Word) (s : State) (h0 : Sound s.node) : Good (execRxrdWrite rq v s) := by
  unfold execRxrdWrite
  refine lift_good (fun n hn => ?_) h0
  refine ite_ind ?_ ?_
  · intro x
    apply Node.rxrdWrite_sound
    assumption
  · intro x
    assumption
theorem Node.rxcfgWrite_sound (n : Node) (v : Sys2Proof.Word) (h0 : Sound n) : Sound (Node.rxcfgWrite n v) := by
  unfold Node.rxcfgWrite
  extract_lets +onlyGivenNames m4
  clear_value m4
  extract_lets +onlyGivenNames m5
  clear_value m5
  extract_lets +onlyGivenNames m6
  clear_value m6
  extract_lets +onlyGivenNames m7
  clear_value m7
  refine ite_ind ?_ ?_
  · intro x
    refine ite_ind ?_ ?_
    · intro x
      apply Node.mbCfgErr_sound
      assumption
    · intro x
      apply Node.setFd_sound
      assumption
  · intro x
    refine ite_ind ?_ ?_
    · intro x
      apply Node.mbCfgErr_sound
      assumption
    · intro x
      refine ite_ind ?_ ?_
      · intro x
        apply Node.setFd_sound
        assumption
      · intro x
        refine ite_ind ?_ ?_
        · intro x
          apply Node.mbCfgErr_sound
          assumption
        · intro x
          apply Node.annexFlush_sound
          apply Node.setFds_sound
          assumption
theorem execRxcfgEnable_sound (rq : Rq) (v : Word) (s : State) (h0 : Sound s.node) : Good (execRxcfgEnable rq v s) := by
  unfold execRxcfgEnable
  refine lift_good (fun n hn => ?_) h0
  refine ite_ind ?_ ?_
  · intro x
    apply Node.rxcfgWrite_sound
    assumption
  · intro x
    assumption
theorem Node.rxbaseWrite_sound (n : Node) (v : Sys2Proof.Word) (h0 : Sound n) : Sound (Node.rxbaseWrite n v) := by
  unfold Node.rxbaseWrite
  refine ite_ind ?_ ?_
  · intro x
    apply Node.mbCfgErr_sound
    assumption
  · intro x
    apply Node.wr_sound
    assumption
end Sys2Proof.Machine
end

