-- ==== Sys2Proof/Laws/SoundPorts.lean ====
section
/-! SUPPORT. Every operation and every meaning of Machine/Ports.lean keeps `Sound`. -/
set_option linter.unusedVariables false
namespace Sys2Proof.Machine
theorem execGetSysDevid_sound (l : Line) (s : State) (h0 : Sound s.node) : Good (execGetSysDevid l s) := by
  unfold execGetSysDevid
  refine lift_good (fun n hn => ?_) h0
  apply Node.runLine_sound
  · assumption
  · intro x x
    refine okE_bind ?_
    intro x x
    refine okE_bind ?_
    intro x x
    apply okE_pure
    apply sound1_mk
    assumption
theorem execGetSysUid_sound (l : Line) (s : State) (h0 : Sound s.node) : Good (execGetSysUid l s) := by
  unfold execGetSysUid
  refine lift_good (fun n hn => ?_) h0
  apply Node.runLine_sound
  · assumption
  · intro x x
    refine okE_bind ?_
    intro x x
    refine okE_bind ?_
    intro x x
    apply okE_pure
    apply sound1_mk
    assumption
theorem execGetSysRomver_sound (l : Line) (s : State) (h0 : Sound s.node) : Good (execGetSysRomver l s) := by
  unfold execGetSysRomver
  refine lift_good (fun n hn => ?_) h0
  apply Node.runLine_sound
  · assumption
  · intro x x
    refine okE_bind ?_
    intro x x
    refine okE_bind ?_
    intro x x
    apply okE_pure
    apply sound1_mk
    assumption
theorem execShowNode_sound (l : Line) (s : State) (h0 : Sound s.node) : Good (execShowNode l s) := by
  unfold execShowNode
  refine lift_good (fun n hn => ?_) h0
  apply Node.runLine_sound
  · assumption
  · intro x x
    refine okE_bind ?_
    intro x x
    refine okE_bind ?_
    intro x x
    apply okE_pure
    apply sound1_mk
    assumption
theorem execShowNodeModes_sound (l : Line) (s : State) (h0 : Sound s.node) : Good (execShowNodeModes l s) := by
  unfold execShowNodeModes
  refine lift_good (fun n hn => ?_) h0
  apply Node.runLine_sound
  · assumption
  · intro x x
    refine okE_bind ?_
    intro x x
    refine okE_bind ?_
    intro x x
    apply okE_pure
    apply sound1_mk
    assumption
theorem Node.echo_sound (n : Node) (p : Port) (c : ℕ) (h0 : Sound n) : Sound (Node.echo n p c) := by
  unfold Node.echo
  apply Node.setPort_sound
  assumption
theorem Node.endLine_sound (n : Node) (p : Port) (m : Moment) (h0 : Sound n) : Sound (Node.endLine n p m) := by
  unfold Node.endLine
  extract_lets +onlyGivenNames m5
  clear_value m5
  extract_lets +onlyGivenNames m6
  clear_value m6
  apply Node.lineIn_sound
  apply Node.setPort_sound
  assumption
theorem Node.charIn_sound (n : Node) (p : Port) (c : ℕ) (m : Moment) (h0 : Sound n) : Sound (Node.charIn n p c m) := by
  unfold Node.charIn
  extract_lets +onlyGivenNames m6
  clear_value m6
  extract_lets +onlyGivenNames m7
  clear_value m7
  extract_lets +onlyGivenNames m8
  have hm8 : Sound m8 := by
    unfold m8
    apply Node.setPort_sound
    assumption
  clear_value m8
  extract_lets +onlyGivenNames m10
  clear_value m10
  extract_lets +onlyGivenNames m11
  clear_value m11
  extract_lets +onlyGivenNames m12
  clear_value m12
  refine ite_ind ?_ ?_
  · intro x
    assumption
  · intro x
    refine ite_ind ?_ ?_
    · intro x
      apply Node.endLine_sound
      refine ite_ind ?_ ?_
      · intro x
        apply Node.echo_sound
        assumption
      · intro x
        assumption
    · intro x
      refine ite_ind ?_ ?_
      · intro x
        apply Node.echo_sound
        apply Node.setPort_sound
        assumption
      · intro x
        refine ite_ind ?_ ?_
        · intro x
          apply Node.echo_sound
          apply Node.setPort_sound
          assumption
        · intro x
          refine ite_ind ?_ ?_
          · intro x
            refine ite_ind ?_ ?_
            · intro x
              assumption
            · intro x
              apply Node.setPort_sound
              assumption
          · intro x
            refine ite_ind ?_ ?_
            · intro x
              extract_lets +onlyGivenNames m19
              have hm19 : Sound m19 := by
                unfold m19
                apply Node.setPort_sound
                assumption
              clear_value m19
              refine ite_ind ?_ ?_
              · intro x
                apply Node.echo_sound
                assumption
              · intro x
                assumption
            · intro x
              extract_lets +onlyGivenNames m19
              have hm19 : Sound m19 := by
                unfold m19
                apply Node.setPort_sound
                assumption
              clear_value m19
              refine ite_ind ?_ ?_
              · intro x
                apply Node.echo_sound
                assumption
              · intro x
                assumption
theorem Node.armAuto_sound (n : Node) (h0 : Sound n) : Sound (Node.armAuto n) := by
  unfold Node.armAuto
  extract_lets +onlyGivenNames m3
  extract_lets +onlyGivenNames m4
  have hm4 : Sound m4 := by
    unfold m4
    apply Node.setPort_sound
    assumption
  clear_value m4
  refine ite_ind ?_ ?_
  · intro x
    apply Node.setOn_sound
    assumption
  · intro x
    assumption
theorem Node.charBad_sound (n : Node) (p : Port) (h0 : Sound n) : Sound (Node.charBad n p) := by
  unfold Node.charBad
  extract_lets +onlyGivenNames m4
  clear_value m4
  extract_lets +onlyGivenNames m5
  have hm5 : Sound m5 := by
    unfold m5
    apply Node.setPort_sound
    assumption
  clear_value m5
  extract_lets +onlyGivenNames m7
  have hm7 : Sound m7 := by
    unfold m7
    apply Node.bump_sound
    assumption
  clear_value m7
  refine ite_ind ?_ ?_
  · intro x
    apply Node.armAuto_sound
    assumption
  · intro x
    assumption
theorem Node.autoBaud_sound (n : Node) (ch : RxChar) (h0 : Sound n) : Sound (Node.autoBaud n ch) := by
  unfold Node.autoBaud
  extract_lets +onlyGivenNames m4
  clear_value m4
  refine ite_ind ?_ ?_
  · intro x
    extract_lets +onlyGivenNames m6
    have hm6 : Sound m6 := by
      unfold m6
      apply Node.setFds_sound
      assumption
    clear_value m6
    extract_lets +onlyGivenNames m8
    clear_value m8
    apply Node.setPort_sound
    assumption
  · intro x
    assumption
theorem Node.rxMark_sound (n : Node) (p : Port) (m : Moment) (h0 : Sound n) : Sound (Node.rxMark n p m) := by
  unfold Node.rxMark
  apply Node.setPort_sound
  assumption
theorem execCharacterReceived_sound (p : Port) (ch : RxChar) (m : Moment) (s : State) (h0 : Sound s.node) : Good (execCharacterReceived p ch m s) := by
  unfold execCharacterReceived
  refine lift_good (fun n hn => ?_) h0
  refine ite_ind ?_ ?_
  · intro x
    assumption
  · intro x
    extract_lets +onlyGivenNames m9
    have hm9 : Sound m9 := by
      unfold m9
      apply Node.rxMark_sound
      assumption
    clear_value m9
    refine ite_ind ?_ ?_
    · intro x
      apply Node.autoBaud_sound
      assumption
    · intro x
      extract_lets +onlyGivenNames m12
      clear_value m12
      extract_lets +onlyGivenNames m13
      clear_value m13
      refine ite_ind ?_ ?_
      · intro x
        apply Node.charBad_sound
        assumption
      · intro x
        apply Node.charIn_sound
        apply Node.setPort_sound
        assumption
theorem execLineReceived_sound (p : Port) (cs : List ℕ) (m : Moment) (s : State) (h0 : Sound s.node) : Good (execLineReceived p cs m s) := by
  unfold execLineReceived
  refine lift_good (fun n hn => ?_) h0
  split
  · refine ite_ind ?_ ?_
    · intro x
      refine foldl_ok ?_ ?_
      · intro x x x
        apply Node.charIn_sound
        assumption
      · apply Node.rxMark_sound
        assumption
    · intro x
      assumption
  · refine ite_ind ?_ ?_
    · intro x
      refine foldl_ok ?_ ?_
      · intro x x x
        apply Node.charIn_sound
        assumption
      · apply Node.rxMark_sound
        assumption
    · intro x
      assumption
  · apply Node.lineIn_sound
    assumption
  · apply Node.lineIn_sound
    assumption
theorem Node.nextOut_sound (n : Node) (p : Port) (h0 : Sound n) : Sound (Node.nextOut n p) := by
  unfold Node.nextOut
  extract_lets +onlyGivenNames m4
  clear_value m4
  refine ite_ind ?_ ?_
  · intro x
    assumption
  · intro x
    refine ite_ind ?_ ?_
    · intro x
      apply Node.setPort_sound
      assumption
    · intro x
      split
      · extract_lets +onlyGivenNames m13
        clear_value m13
        extract_lets +onlyGivenNames m14
        clear_value m14
        apply Node.setPort_sound
        assumption
      · refine ite_ind ?_ ?_
        · intro x
          assumption
        · intro x
          split
          · apply Node.setPort_sound
            assumption
          · assumption
theorem Node.charGone_sound (n : Node) (p : Port) (h0 : Sound n) : Sound (Node.charGone n p) := by
  unfold Node.charGone
  extract_lets +onlyGivenNames m4
  clear_value m4
  extract_lets +onlyGivenNames m5
  clear_value m5
  extract_lets +onlyGivenNames m6
  have hm6 : Sound m6 := by
    unfold m6
    apply Node.setPort_sound
    assumption
  clear_value m6
  refine ite_ind ?_ ?_
  · intro x
    apply Node.setPort_sound
    assumption
  · intro x
    assumption
theorem execCharacterSent_sound (p : Port) (s : State) (h0 : Sound s.node) : Good (execCharacterSent p s) := by
  unfold execCharacterSent
  refine lift_good (fun n hn => ?_) h0
  refine ite_ind ?_ ?_
  · intro x
    apply Node.charGone_sound
    apply Node.nextOut_sound
    assumption
  · intro x
    assumption
theorem execHostDeTurnaround_sound (_m : Moment) (s : State) (h0 : Sound s.node) : Good (execHostDeTurnaround _m s) := by
  unfold execHostDeTurnaround
  refine lift_good (fun n hn => ?_) h0
  refine ite_ind ?_ ?_
  · intro x
    apply Node.setPort_sound
    assumption
  · intro x
    assumption
theorem execLostNotice_sound (p : Port) (s : State) (h0 : Sound s.node) : Good (execLostNotice p s) := by
  unfold execLostNotice
  refine lift_good (fun n hn => ?_) h0
  extract_lets +onlyGivenNames m6
  clear_value m6
  refine ite_ind ?_ ?_
  · intro x
    apply Node.setPort_sound
    assumption
  · intro x
    assumption
theorem execStreamEmit_sound (p : Port) (o : Obj) (i : Option Nat) (s : State) (h0 : Sound s.node) : Good (execStreamEmit p o i s) := by
  unfold execStreamEmit
  refine lift_good (fun n hn => ?_) h0
  split
  split
  · assumption
  · refine ite_ind ?_ ?_
    · intro x
      assumption
    · intro x
      extract_lets +onlyGivenNames m20
      extract_lets +onlyGivenNames m21
      have hm21 : Sound m21 := by
        unfold m21
        refine ⟨?_, ?_, ?_, ?_⟩
        · dsimp only; exact Sound.mem (by assumption)
        · dsimp only; exact Sound.leases (by assumption)
        · dsimp only; rw [List.length_map]; exact Sound.streams (by assumption)
        · dsimp only; exact Sound.stack (by assumption)
      clear_value m21
      apply Node.notifyPort_sound
      assumption
theorem execStoredReplyResend_sound (p : Port) (s : State) (h0 : Sound s.node) : Good (execStoredReplyResend p s) := by
  unfold execStoredReplyResend
  refine lift_good (fun n hn => ?_) h0
  extract_lets +onlyGivenNames m6
  clear_value m6
  split
  · assumption
  · refine ite_ind ?_ ?_
    · intro x
      assumption
    · intro x
      extract_lets +onlyGivenNames m13
      clear_value m13
      apply Node.setPort_sound
      assumption
theorem execStoredReplyExpiry_sound (p : Port) (s : State) (h0 : Sound s.node) : Good (execStoredReplyExpiry p s) := by
  unfold execStoredReplyExpiry
  refine lift_good (fun n hn => ?_) h0
  extract_lets +onlyGivenNames m6
  clear_value m6
  split
  · assumption
  · split
    · assumption
    · refine ite_ind ?_ ?_
      · intro x
        apply Node.setPort_sound
        assumption
      · intro x
        assumption
theorem execConfirmationExpiry_sound (p : Port) (s : State) (h0 : Sound s.node) : Good (execConfirmationExpiry p s) := by
  unfold execConfirmationExpiry
  refine lift_good (fun n hn => ?_) h0
  extract_lets +onlyGivenNames m6
  clear_value m6
  split
  · assumption
  · refine ite_ind ?_ ?_
    · intro x
      apply Node.setPort_sound
      assumption
    · intro x
      assumption
theorem execHold_sound (l : Line) (o : Obj) (s : State) (h0 : Sound s.node) : Good (execHold l o s) := by
  unfold execHold
  refine lift_good (fun n hn => ?_) h0
  refine Node.runLine_sound n l false _ hn (fun x hx => ?_)
  refine okE_bind (fun _ _ => okE_bind (fun _ _ => ?_))
  extract_lets +onlyGivenNames t mine rest
  refine ite_ind (fun _ => ?_) (fun hr => ?_)
  · exact okE_bind (fun _ e => by cases e)
  · split
    · exact okE_error
    · refine okE_pure ⟨⟨hx.mem, ?_, hx.streams, hx.stack⟩⟩
      rw [List.length_append]
      show rest.length + 1 ≤ 32
      omega
theorem execFree_sound (l : Line) (o : Obj) (s : State) (h0 : Sound s.node) : Good (execFree l o s) := by
  unfold execFree
  refine lift_good (fun n hn => ?_) h0
  apply Node.runLine_sound
  · assumption
  · intro x x
    refine okE_bind ?_
    intro x x
    refine okE_bind ?_
    intro x x
    extract_lets +onlyGivenNames m13
    clear_value m13
    extract_lets +onlyGivenNames m14
    extract_lets +onlyGivenNames m15
    have hm15 : ∀ x0, okE Sound1 (m15 x0) := by
      unfold m15
      intro x
      apply okE_pure
      apply sound1_mk
      refine ⟨?_, ?_, ?_, ?_⟩
      · dsimp only; exact Sound.mem (by assumption)
      · dsimp only; exact Nat.le_trans (List.length_filter_le _ _) (Sound.leases (by assumption))
      · dsimp only; exact Sound.streams (by assumption)
      · dsimp only; exact Sound.stack (by assumption)
    clear_value m15
    refine ite_ind ?_ ?_
    · intro x
      refine okE_bind ?_
      intro x x
      apply_assumption
    · intro x
      apply_assumption
theorem execLeaseTimeExpiry_sound (p : Port) (o : Obj) (idx : Option (List (Nat × Nat))) (s : State) (h0 : Sound s.node) : Good (execLeaseTimeExpiry p o idx s) := by
  unfold execLeaseTimeExpiry
  refine lift_good (fun n hn => ?_) h0
  refine ite_ind ?_ ?_
  · intro x
    apply Node.endLeases_sound
    assumption
  · intro x
    assumption
theorem execLeaseSilenceExpiry_sound (p : Port) (o : Obj) (idx : Option (List (Nat × Nat))) (s : State) (h0 : Sound s.node) : Good (execLeaseSilenceExpiry p o idx s) := by
  unfold execLeaseSilenceExpiry
  refine lift_good (fun n hn => ?_) h0
  refine ite_ind ?_ ?_
  · intro x
    apply Node.endLeases_sound
    assumption
  · intro x
    assumption
theorem Node.hostLost_sound (n : Node) (m : Moment) (h0 : Sound n) : Sound (Node.hostLost n m) := by
  unfold Node.hostLost
  extract_lets +onlyGivenNames m4
  have hm4 : Sound m4 := by
    unfold m4
    apply Node.setOn_sound
    assumption
  clear_value m4
  extract_lets +onlyGivenNames m6
  have hm6 : Sound m6 := by
    unfold m6
    apply Node.raiseM_sound
    assumption
  clear_value m6
  extract_lets +onlyGivenNames m8
  have hm8 : Sound m8 := by
    unfold m8
    apply Node.notifyPort_sound
    apply Node.notifyPort_sound
    assumption
  clear_value m8
  apply Node.armAuto_sound
  apply Node.ucHostLoss_sound
  apply Node.loHostLoss_sound
  assumption
theorem execHostHeartbeatExpiry_sound (m : Moment) (s : State) (h0 : Sound s.node) : Good (execHostHeartbeatExpiry m s) := by
  unfold execHostHeartbeatExpiry
  refine lift_good (fun n hn => ?_) h0
  refine ite_ind ?_ ?_
  · intro x
    apply Node.hostLost_sound
    assumption
  · intro x
    assumption
theorem Node.sysCfgErr_sound (n : Node) (h0 : Sound n) : Sound (Node.sysCfgErr n) := by
  unfold Node.sysCfgErr
  apply Node.setOn_sound
  assumption
theorem Node.cmdChanged_sound (old : Node) (n : Node) (by_ : Option Port) (m : Moment) (h0 : Sound old) (h1 : Sound n) : Sound (Node.cmdChanged old n by_ m) := by
  unfold Node.cmdChanged
  extract_lets +onlyGivenNames m7
  have hm7 : Sound m7 := by
    unfold m7
    refine foldl_ok ?_ ?_
    · intro x x x
      refine ite_ind ?_ ?_
      · intro x
        assumption
      · intro x
        apply Node.setPort_sound
        assumption
    · assumption
  clear_value m7
  extract_lets +onlyGivenNames m9
  have hm9 : Sound m9 := by
    unfold m9
    refine ite_ind ?_ ?_
    · intro x
      assumption
    · intro x
      apply Node.setOn_sound
      assumption
  clear_value m9
  refine ite_ind ?_ ?_
  · intro x
    apply Node.hostLost_sound
    assumption
  · intro x
    assumption
theorem Node.takeSettings_sound (n : Node) (p : Port) (h0 : Sound n) : Sound (Node.takeSettings n p) := by
  unfold Node.takeSettings
  extract_lets +onlyGivenNames m4
  clear_value m4
  extract_lets +onlyGivenNames m5
  clear_value m5
  refine ite_ind ?_ ?_
  · intro x
    apply Node.setPort_sound
    assumption
  · intro x
    assumption
theorem execPortSettingsTakeEffect_sound (p : Port) (s : State) (h0 : Sound s.node) : Good (execPortSettingsTakeEffect p s) := by
  unfold execPortSettingsTakeEffect
  refine lift_good (fun n hn => ?_) h0
  refine ite_ind ?_ ?_
  · intro x
    apply Node.takeSettings_sound
    assumption
  · intro x
    assumption
theorem Node.setSys_sound (n : Node) (l : Line) (h0 : Sound n) : Sound (Node.setSys n l) := by
  unfold Node.setSys
  apply Node.runWhole_sound
  · assumption
  · intro x x
    apply okE_ok
    apply sound1_mk
    apply Node.cmdChanged_sound
    · assumption
    · apply Node.setKeys_sound
      assumption
theorem execSetSys_sound (l : Line) (s : State) (h0 : Sound s.node) : Good (execSetSys l s) := by
  unfold execSetSys
  refine lift_good (fun n hn => ?_) h0
  apply Node.setSys_sound
  assumption
theorem execSetSysPower_sound (l : Line) (s : State) (h0 : Sound s.node) : Good (execSetSysPower l s) := by
  unfold execSetSysPower
  refine lift_good (fun n hn => ?_) h0
  apply Node.runWhole_sound
  · assumption
  · intro x x
    apply okE_ok
    apply sound1_mk
    apply Node.cmdChanged_sound
    · assumption
    · apply Node.setKeys_sound
      assumption
theorem execGetSys_sound (l : Line) (names : List String) (s : State) (h0 : Sound s.node) : Good (execGetSys l names s) := by
  unfold execGetSys
  refine lift_good (fun n hn => ?_) h0
  apply Node.runLine_sound
  · assumption
  · intro x x
    refine okE_bind ?_
    intro x x
    refine okE_bind ?_
    intro x x
    extract_lets +onlyGivenNames m13
    clear_value m13
    extract_lets +onlyGivenNames m14
    extract_lets +onlyGivenNames m15
    have hm15 : ∀ x0, okE Sound1 (m15 x0) := by
      unfold m15
      intro x
      apply okE_pure
      apply sound1_mk
      assumption
    clear_value m15
    refine ite_ind ?_ ?_
    · intro x
      refine okE_bind ?_
      intro x x
      apply_assumption
    · intro x
      apply_assumption
theorem execShowSysLease_sound (l : Line) (s : State) (h0 : Sound s.node) : Good (execShowSysLease l s) := by
  unfold execShowSysLease
  refine lift_good (fun n hn => ?_) h0
  apply Node.runRead_sound
  assumption
theorem execShowSysMr_sound (l : Line) (s : State) (h0 : Sound s.node) : Good (execShowSysMr l s) := by
  unfold execShowSysMr
  refine lift_good (fun n hn => ?_) h0
  apply Node.runRead_sound
  assumption
theorem execShowSysPort_sound (l : Line) (s : State) (h0 : Sound s.node) : Good (execShowSysPort l s) := by
  unfold execShowSysPort
  refine lift_good (fun n hn => ?_) h0
  apply Node.runRead_sound
  assumption
theorem Node.reinitPort_sound (n : Node) (p : Port) (by_ : Port) (h0 : Sound n) : Sound (Node.reinitPort n p by_) := by
  unfold Node.reinitPort
  extract_lets +onlyGivenNames m5
  extract_lets +onlyGivenNames m6
  have hm6 : Sound m6 := by
    unfold m6
    apply Node.setPort_sound
    assumption
  clear_value m6
  extract_lets +onlyGivenNames m8
  have hm8 : Sound m8 := by
    unfold m8
    apply Node.endLeases_sound
    assumption
  clear_value m8
  extract_lets +onlyGivenNames m10
  clear_value m10
  extract_lets +onlyGivenNames m11
  have hm11 : Sound m11 := by
    unfold m11
    apply Node.cmdChanged_sound
    · assumption
    · apply Node.reload_sound
      assumption
  clear_value m11
  refine ite_ind ?_ ?_
  · intro x
    apply Node.armAuto_sound
    assumption
  · intro x
    assumption
theorem execDoSysReinitPort_sound (l : Line) (s : State) (h0 : Sound s.node) : Good (execDoSysReinitPort l s) := by
  unfold execDoSysReinitPort
  refine lift_good (fun n hn => ?_) h0
  apply Node.runWhole_sound
  · assumption
  · intro x x
    apply okE_ok
    apply sound1_mk
    apply Node.reinitPort_sound
    assumption
theorem execTypedHelpQuery_sound (p : Port) (s : State) (h0 : Sound s.node) : Good (execTypedHelpQuery p s) := by
  unfold execTypedHelpQuery
  refine lift_good (fun n hn => ?_) h0
  split
  · assumption
  · refine ite_ind ?_ ?_
    · intro x
      assumption
    · intro x
      extract_lets +onlyGivenNames m13
      clear_value m13
      apply Node.runLine_sound
      · assumption
      · intro x x
        apply okE_ok
        apply sound1_mk
        assumption
theorem execHelp_sound (l : Line) (word : Option String) (s : State) (h0 : Sound s.node) : Good (execHelp l word s) := by
  unfold execHelp
  refine lift_good (fun n hn => ?_) h0
  apply Node.runLine_sound
  · assumption
  · intro x x
    extract_lets +onlyGivenNames m9
    have hm9 : ∀ x0, okE Sound1 (m9 x0) := by
      unfold m9
      intro x
      apply okE_pure
      apply sound1_mk
      assumption
    clear_value m9
    split
    · refine ite_ind ?_ ?_
      · intro x
        refine okE_bind ?_
        intro x x
        apply_assumption
      · intro x
        apply_assumption
    · apply_assumption
theorem execMicroRoutineResume_sound (p : Port) (s : State) (h0 : Sound s.node) : Good (execMicroRoutineResume p s) := by
  unfold execMicroRoutineResume
  refine lift_good (fun n hn => ?_) h0
  split
  · assumption
  · refine ite_ind ?_ ?_
    · intro x
      assumption
    · intro x
      extract_lets +onlyGivenNames m12
      extract_lets +onlyGivenNames m13
      have hm13 : Sound m13 := by
        unfold m13
        apply Node.setPort_sound
        assumption
      clear_value m13
      refine ite_ind ?_ ?_
      · intro x
        extract_lets +onlyGivenNames m16
        extract_lets +onlyGivenNames m17
        have hm17 : Sound m17 := by
          unfold m17
          apply Node.setPort_sound
          assumption
        clear_value m17
        apply Node.failMr_sound
        assumption
      · intro x
        apply Node.send_sound
        assumption
end Sys2Proof.Machine
end

