-- ==== Sys2Proof/Laws/SoundPower.lean ====
section
/-! SUPPORT. Every operation and every meaning of Machine/Power.lean keeps `Sound`. -/
set_option linter.unusedVariables false
namespace Sys2Proof.Machine
theorem execHoldokChange_sound (mv : Nat) (m : Moment) (s : State) (h0 : Sound s.node) : Good (execHoldokChange mv m s) := by
  unfold execHoldokChange
  refine lift_good (fun n hn => ?_) h0
  refine ite_ind ?_ ?_
  · intro x
    assumption
  · intro x
    extract_lets +onlyGivenNames m8
    clear_value m8
    extract_lets +onlyGivenNames m9
    have hm9 : Sound m9 := by
      unfold m9
      apply Node.setFd_sound
      assumption
    clear_value m9
    extract_lets +onlyGivenNames m11
    refine ite_ind ?_ ?_
    · intro x
      assumption
    · intro x
      extract_lets +onlyGivenNames m13
      have hm13 : Sound m13 := by
        unfold m13
        apply Node.ring_sound
        apply Node.setOn_sound
        assumption
      clear_value m13
      extract_lets +onlyGivenNames m15
      have hm15 : Sound m15 := by
        unfold m15
        apply Node.setOn_sound
        assumption
      clear_value m15
      apply Node.raiseM_sound
      assumption
theorem Node.avsStep_sound (n : Node) (margin : Bool) (spare : Bool) (h0 : Sound n) : Sound (Node.avsStep n margin spare) := by
  unfold Node.avsStep
  extract_lets +onlyGivenNames m5
  clear_value m5
  extract_lets +onlyGivenNames m6
  have hm6 : ∀ x0 x1, Sound x1 → Sound (m6 x0 x1) := by
    unfold m6
    intro x x x
    extract_lets +onlyGivenNames m10
    have hm10 : Sound m10 := by
      unfold m10
      apply Node.setFd_sound
      assumption
    clear_value m10
    refine sound_mk ?_ rfl rfl rfl
    assumption
  clear_value m6
  refine ite_ind ?_ ?_
  · intro x
    refine ite_ind ?_ ?_
    · intro x
      refine ite_ind ?_ ?_
      · intro x
        apply_assumption
        assumption
      · intro x
        refine ite_ind ?_ ?_
        · intro x
          assumption
        · intro x
          extract_lets +onlyGivenNames m12
          have hm12 : Sound m12 := by
            unfold m12
            apply Node.ring_sound
            apply Node.setOn_sound
            apply Node.setOn_sound
            assumption
          clear_value m12
          apply Node.raise_sound
          assumption
    · intro x
      refine ite_ind ?_ ?_
      · intro x
        apply Node.setOn_sound
        apply_assumption
        assumption
      · intro x
        apply Node.setOn_sound
        assumption
  · intro x
    extract_lets +onlyGivenNames m9
    clear_value m9
    refine ite_ind ?_ ?_
    · intro x
      apply_assumption
      assumption
    · intro x
      refine ite_ind ?_ ?_
      · intro x
        apply_assumption
        assumption
      · intro x
        assumption
theorem execAvsStep_sound (margin spare : Bool) (s : State) (h0 : Sound s.node) : Good (execAvsStep margin spare s) := by
  unfold execAvsStep
  refine lift_good (fun n hn => ?_) h0
  refine ite_ind ?_ ?_
  · intro x
    apply Node.avsStep_sound
    assumption
  · intro x
    assumption
theorem Node.cutMrs_sound (n : Node) (h0 : Sound n) : Sound (Node.cutMrs n) := by
  unfold Node.cutMrs
  refine foldl_ok ?_ ?_
  · intro x x x
    split
    · assumption
    · extract_lets +onlyGivenNames m11
      extract_lets +onlyGivenNames m12
      have hm12 : Sound m12 := by
        unfold m12
        apply Node.setPort_sound
        assumption
      clear_value m12
      refine sound_mk ?_ rfl rfl rfl
      assumption
  · assumption
theorem Node.reborn_sound (n : Node) (h0 : Sound n) : Sound (Node.reborn n) := by
  unfold Node.reborn
  extract_lets +onlyGivenNames x1
  have h1 : Sound x1 := ⟨filter_wf _ h0.mem, Nat.zero_le _, Nat.zero_le _, Nat.zero_le _⟩
  clear_value x1
  extract_lets +onlyGivenNames x2
  have h2 : Sound x2 := foldl_ok (fun y k hy => Node.wr_sound _ _ _ hy) h1
  clear_value x2
  extract_lets +onlyGivenNames x3
  have h3 : Sound x3 := foldl_ok (fun y k hy => Node.setFd_sound _ _ _ hy) h2
  clear_value x3
  extract_lets +onlyGivenNames x4
  have h4 : Sound x4 := foldl_ok (fun y k hy => Node.railBit_sound _ _ _ hy) h3
  clear_value x4
  split
  · exact h4
  · apply Node.fastStart_sound
    exact h4
theorem Node.begin__sound (n : Node) (causes : ℕ) (h0 : Sound n) : Sound (Node.begin_ n causes) := by
  unfold Node.begin_
  apply Node.setFd_sound
  refine sound_mk ?_ rfl rfl rfl
  assumption
theorem Node.resetTo_sound (n : Node) (causes : ℕ) (h0 : Sound n) : Sound (Node.resetTo n causes) := by
  unfold Node.resetTo
  extract_lets +onlyGivenNames m4
  have hm4 : Sound m4 := by
    unfold m4
    apply Node.reborn_sound
    assumption
  clear_value m4
  refine ite_ind ?_ ?_
  · intro x
    refine sound_mk ?_ rfl rfl rfl
    assumption
  · intro x
    apply Node.begin__sound
    assumption
theorem Node.passTime_sound (n : Node) (q : ℕ) (h0 : Sound n) : Sound (Node.passTime n q) := by
  unfold Node.passTime
  extract_lets +onlyGivenNames m4
  clear_value m4
  refine sound_mk ?_ rfl rfl rfl
  assumption
theorem Node.passSome_sound (n : Node) (h0 : Sound n) : Sound (Node.passSome n) := by
  unfold Node.passSome
  split
  apply Node.passTime_sound
  refine sound2_eq (by assumption) ?_
  apply Node.freshNat_sound
  assumption
theorem Node.powerUp_sound (n : Node) (causes : ℕ) (h0 : Sound n) : Sound (Node.powerUp n causes) := by
  unfold Node.powerUp
  extract_lets +onlyGivenNames m4
  clear_value m4
  extract_lets +onlyGivenNames m5
  extract_lets +onlyGivenNames m6
  extract_lets +onlyGivenNames m7
  have hm7 : Sound m7 := by
    unfold m7
    refine sound_mk ?_ rfl rfl rfl
    assumption
  clear_value m7
  apply Node.resetTo_sound
  assumption
theorem execPowerOn_sound (s : State) (h0 : Sound s.node) : Good (execPowerOn s) := by
  unfold execPowerOn
  refine lift_good (fun n hn => ?_) h0
  apply Node.powerUp_sound
  refine ite_ind ?_ ?_
  · intro x
    assumption
  · intro x
    apply Node.tear_sound
    assumption
theorem execPowerFailRestart_sound (s : State) (h0 : Sound s.node) : Good (execPowerFailRestart s) := by
  unfold execPowerFailRestart
  refine lift_good (fun n hn => ?_) h0
  refine ite_ind ?_ ?_
  · intro x
    apply Node.powerUp_sound
    assumption
  · intro x
    assumption
theorem execResetPin_sound (s : State) (h0 : Sound s.node) : Good (execResetPin s) := by
  unfold execResetPin
  refine lift_good (fun n hn => ?_) h0
  extract_lets +onlyGivenNames m5
  clear_value m5
  extract_lets +onlyGivenNames m6
  have hm6 : Sound m6 := by
    unfold m6
    refine sound_mk ?_ rfl rfl rfl
    assumption
  clear_value m6
  refine ite_ind ?_ ?_
  · intro x
    assumption
  · intro x
    apply Node.resetTo_sound
    apply Node.cutMrs_sound
    refine ite_ind ?_ ?_
    · intro x
      apply Node.passSome_sound
      assumption
    · intro x
      apply Node.tear_sound
      assumption
theorem execResetNRelease_sound (s : State) (h0 : Sound s.node) : Good (execResetNRelease s) := by
  unfold execResetNRelease
  refine lift_good (fun n hn => ?_) h0
  extract_lets +onlyGivenNames m5
  clear_value m5
  extract_lets +onlyGivenNames m6
  have hm6 : Sound m6 := by
    unfold m6
    refine sound_mk ?_ rfl rfl rfl
    assumption
  clear_value m6
  refine ite_ind ?_ ?_
  · intro x
    apply Node.begin__sound
    apply Node.passSome_sound
    assumption
  · intro x
    assumption
theorem execNodeCoreWatchdog_sound (s : State) (h0 : Sound s.node) : Good (execNodeCoreWatchdog s) := by
  unfold execNodeCoreWatchdog
  refine lift_good (fun n hn => ?_) h0
  refine ite_ind ?_ ?_
  · intro x
    apply Node.resetTo_sound
    apply Node.tear_sound
    assumption
  · intro x
    assumption
theorem execCoreUndervoltage_sound (s : State) (h0 : Sound s.node) : Good (execCoreUndervoltage s) := by
  unfold execCoreUndervoltage
  refine lift_good (fun n hn => ?_) h0
  refine ite_ind ?_ ?_
  · intro x
    apply Node.resetTo_sound
    apply Node.tear_sound
    assumption
  · intro x
    assumption
theorem execFirstPrompt_sound (s : State) (h0 : Sound s.node) : Good (execFirstPrompt s) := by
  unfold execFirstPrompt
  refine lift_good (fun n hn => ?_) h0
  refine ite_ind ?_ ?_
  · intro x
    extract_lets +onlyGivenNames m6
    have hm6 : Sound m6 := by
      unfold m6
      apply Node.passSome_sound
      assumption
    clear_value m6
    extract_lets +onlyGivenNames m8
    clear_value m8
    extract_lets +onlyGivenNames m9
    have hm9 : Sound m9 := by
      unfold m9
      refine sound_mk ?_ rfl rfl rfl
      assumption
    clear_value m9
    extract_lets +onlyGivenNames m11
    have hm11 : Sound m11 := by
      unfold m11
      refine foldl_ok ?_ ?_
      · intro x x x
        apply Node.setPort_sound
        assumption
      · assumption
    clear_value m11
    extract_lets +onlyGivenNames m13
    clear_value m13
    extract_lets +onlyGivenNames m14
    have hm14 : Sound m14 := by
      unfold m14
      apply Node.setPort_sound
      assumption
    clear_value m14
    apply Node.armAuto_sound
    assumption
  · intro x
    assumption
theorem Node.commitEnd_sound (n : Node) (c : Commit) (ok : Bool) (h0 : Sound n) : Sound (Node.commitEnd n c ok) := by
  unfold Node.commitEnd
  extract_lets +onlyGivenNames m5
  extract_lets +onlyGivenNames m6
  have hm6 : Sound m6 := by
    unfold m6
    refine sound_mk ?_ rfl rfl rfl
    assumption
  clear_value m6
  extract_lets +onlyGivenNames m8
  have hm8 : Sound m8 := by
    unfold m8
    apply Node.ring_sound
    apply Node.setOn_sound
    apply Node.setFd_sound
    assumption
  clear_value m8
  apply Node.raiseCmd_sound
  assumption
theorem Node.commitUnit_sound (n : Node) (c : Commit) (u : ℕ) (bad : List ℕ) (h0 : Sound n) : okE Sound (Node.commitUnit n c u bad) := by
  unfold Node.commitUnit
  extract_lets +onlyGivenNames m6
  clear_value m6
  extract_lets +onlyGivenNames m7
  clear_value m7
  split
  extract_lets +onlyGivenNames m14
  clear_value m14
  refine ite_ind ?_ ?_
  · intro x
    exact okE_error
  · intro x
    refine ite_ind ?_ ?_
    · intro x
      extract_lets +onlyGivenNames m17
      have hm17 : Sound m17 := by
        unfold m17
        apply Node.setBytes_sound
        apply Node.setBytes_sound
        assumption
      clear_value m17
      extract_lets +onlyGivenNames m19
      have hm19 : Sound m19 := by
        unfold m19
        apply Node.setCopy_sound
        assumption
      clear_value m19
      apply okE_ok
      apply Node.setFds_sound
      assumption
    · intro x
      refine ite_ind ?_ ?_
      · intro x
        apply okE_ok
        apply Node.setBytes_sound
        apply Node.setCopy_sound
        assumption
      · intro x
        apply okE_ok
        apply Node.setBytes_sound
        apply Node.setCopy_sound
        assumption
theorem Node.commitFail_sound (n : Node) (c : Commit) (u : ℕ) (bad : List ℕ) (h0 : Sound n) : Sound (Node.commitFail n c u bad) := by
  unfold Node.commitFail
  split
  refine foldl_ok ?_ ?_
  · intro x x x
    apply Node.spoil_sound
    assumption
  · apply Node.setCopy_sound
    assumption
theorem execDoSysCommit_sound (l : Line) (s : State) (h0 : Sound s.node) : Good (execDoSysCommit l s) := by
  unfold execDoSysCommit
  refine lift_good (fun n hn => ?_) h0
  apply Node.runOpen_sound
  · assumption
  · intro x x
    refine okE_bind ?_
    intro x x
    refine okE_bind ?_
    intro x x
    extract_lets +onlyGivenNames m12
    clear_value m12
    extract_lets +onlyGivenNames m13
    clear_value m13
    refine ite_ind ?_ ?_
    · intro x
      exact okE_error
    · intro x
      extract_lets +onlyGivenNames m15
      extract_lets +onlyGivenNames m16
      have hm16 : ∀ x0, okE Sound (m16 x0) := by
        unfold m16
        intro x
        refine okE_bind ?_
        intro x x
        split
        extract_lets +onlyGivenNames m26
        have hm26 : Sound m26 := by
          unfold m26
          refine sound_mk ?_ rfl rfl rfl
          assumption
        clear_value m26
        apply okE_pure
        apply Node.startMr_sound
        apply Node.setFd_sound
        assumption
      clear_value m16
      refine ite_ind ?_ ?_
      · intro x
        refine okE_bind ?_
        intro x x
        apply_assumption
      · intro x
        apply_assumption
theorem execShowSysStore_sound (l : Line) (s : State) (h0 : Sound s.node) : Good (execShowSysStore l s) := by
  unfold execShowSysStore
  refine lift_good (fun n hn => ?_) h0
  apply Node.runRead_sound
  assumption
theorem Node.loadAll_sound (n : Node) (h0 : Sound n) : Sound (Node.loadAll n) := by
  unfold Node.loadAll
  extract_lets +onlyGivenNames m3
  have hm3 : Sound m3 := by
    unfold m3
    assumption
  clear_value m3
  extract_lets +onlyGivenNames m5
  have hm5 : Sound m5 := by
    unfold m5
    apply Node.reload_sound
    assumption
  clear_value m5
  extract_lets +onlyGivenNames m7
  have hm7 : Sound m7 := by
    unfold m7
    refine foldl_ok ?_ ?_
    · intro x x x
      extract_lets +onlyGivenNames m11
      have hm11 : Sound m11 := by
        unfold m11
        apply Node.reload_sound
        assumption
      clear_value m11
      apply Node.setFd_sound
      assumption
    · assumption
  clear_value m7
  extract_lets +onlyGivenNames m9
  have hm9 : Sound m9 := by
    unfold m9
    apply Node.timeChanged_sound
    · assumption
    · assumption
  clear_value m9
  extract_lets +onlyGivenNames m11
  have hm11 : Sound m11 := by
    unfold m11
    refine foldl_ok ?_ ?_
    · intro x x x
      apply Node.ucReinit_sound
      assumption
    · apply Node.ucReinit_sound
      assumption
  clear_value m11
  extract_lets +onlyGivenNames m13
  extract_lets +onlyGivenNames m14
  have hm14 : Sound m14 := by
    unfold m14
    refine sound_mk ?_ rfl rfl rfl
    assumption
  clear_value m14
  extract_lets +onlyGivenNames m16
  have hm16 : Sound m16 := by
    unfold m16
    apply Node.loLoad_sound
    refine foldl_ok ?_ ?_
    · intro x x x
      apply Node.loReinit_sound
      assumption
    · assumption
  clear_value m16
  extract_lets +onlyGivenNames m18
  have hm18 : Sound m18 := by
    unfold m18
    apply Node.transReinit_sound
    apply Node.gridReinit_sound
    assumption
  clear_value m18
  extract_lets +onlyGivenNames m20
  have hm20 : Sound m20 := by
    unfold m20
    refine foldl_ok ?_ ?_
    · intro x x x
      apply Node.apLoad_sound
      assumption
    · assumption
  clear_value m20
  extract_lets +onlyGivenNames m22
  have hm22 : Sound m22 := by
    unfold m22
    apply Node.callLoad_sound
    refine foldl_ok ?_ ?_
    · intro x x x
      apply Node.agLoad_sound
      assumption
    · assumption
  clear_value m22
  extract_lets +onlyGivenNames m24
  have hm24 : Sound m24 := by
    unfold m24
    apply Node.almLoad_sound
    apply Node.reload_sound
    assumption
  clear_value m24
  extract_lets +onlyGivenNames m26
  have hm26 : Sound m26 := by
    unfold m26
    apply Node.reload_sound
    assumption
  clear_value m26
  extract_lets +onlyGivenNames m28
  have hm28 : Sound m28 := by
    unfold m28
    refine foldl_ok ?_ ?_
    · intro x x x
      apply Node.reload_sound
      assumption
    · assumption
  clear_value m28
  extract_lets +onlyGivenNames m30
  have hm30 : Sound m30 := by
    unfold m30
    apply Node.reload_sound
    apply Node.busReload_sound
    apply Node.busReload_sound
    assumption
  clear_value m30
  extract_lets +onlyGivenNames m32
  have hm32 : Sound m32 := by
    unfold m32
    apply Node.reload_sound
    apply Node.reload_sound
    assumption
  clear_value m32
  extract_lets +onlyGivenNames m34
  have hm34 : Sound m34 := by
    unfold m34
    refine foldl_ok ?_ ?_
    · intro x x x
      apply Node.reload_sound
      assumption
    · assumption
  clear_value m34
  extract_lets +onlyGivenNames m36
  have hm36 : Sound m36 := by
    unfold m36
    apply Node.busLoad_sound
    assumption
  clear_value m36
  extract_lets +onlyGivenNames m38
  have hm38 : Sound m38 := by
    unfold m38
    refine foldl_ok ?_ ?_
    · intro x x x
      apply Node.gpReinit_sound
      assumption
    · assumption
  clear_value m38
  extract_lets +onlyGivenNames m40
  have hm40 : Sound m40 := by
    unfold m40
    apply Node.dicReinit_sound
    assumption
  clear_value m40
  extract_lets +onlyGivenNames m42
  have hm42 : Sound m42 := by
    unfold m42
    refine foldl_ok ?_ ?_
    · intro x x x
      apply Node.reload_sound
      assumption
    · assumption
  clear_value m42
  extract_lets +onlyGivenNames m44
  have hm44 : Sound m44 := by
    unfold m44
    apply Node.nodeChanged_sound
    · assumption
    · apply Node.reload_sound
      assumption
  clear_value m44
  extract_lets +onlyGivenNames m46
  have hm46 : Sound m46 := by
    unfold m46
    apply Node.cmdChanged_sound
    · assumption
    · assumption
  clear_value m46
  apply Node.dispLoad_sound
  apply Node.twLoad_sound
  assumption
theorem execConfigStoreLoaded_sound (s : State) (h0 : Sound s.node) : Good (execConfigStoreLoaded s) := by
  unfold execConfigStoreLoaded
  refine lift_good (fun n hn => ?_) h0
  refine ite_ind ?_ ?_
  · intro x
    assumption
  · intro x
    extract_lets +onlyGivenNames m6
    clear_value m6
    extract_lets +onlyGivenNames m7
    clear_value m7
    extract_lets +onlyGivenNames m8
    clear_value m8
    extract_lets +onlyGivenNames m9
    clear_value m9
    extract_lets +onlyGivenNames m10
    have hm10 : Sound m10 := by
      unfold m10
      apply Node.loadAll_sound
      assumption
    clear_value m10
    extract_lets +onlyGivenNames m12
    clear_value m12
    split
    extract_lets +onlyGivenNames m20
    have hm20 : Sound m20 := by
      unfold m20
      apply Node.setFds_sound
      assumption
    clear_value m20
    extract_lets +onlyGivenNames m22
    have hm22 : Sound m22 := by
      unfold m22
      refine ite_ind ?_ ?_
      · intro x
        apply Node.ring_sound
        apply Node.setOn_sound
        assumption
      · intro x
        assumption
    clear_value m22
    extract_lets +onlyGivenNames m24
    clear_value m24
    extract_lets +onlyGivenNames m25
    have hm25 : Sound m25 := by
      unfold m25
      refine ite_ind ?_ ?_
      · intro x
        assumption
      · intro x
        apply Node.raise_sound
        assumption
    clear_value m25
    extract_lets +onlyGivenNames m27
    have hm27 : Sound m27 := by
      unfold m27
      apply Node.ring_sound
      assumption
    clear_value m27
    extract_lets +onlyGivenNames m29
    extract_lets +onlyGivenNames m30
    have hm30 : Sound m30 := by
      unfold m30
      refine sound_mk ?_ rfl rfl rfl
      assumption
    clear_value m30
    apply Node.bootBegin_sound
    apply Node.arcStart_sound
    assumption
theorem Node.factoryClear_sound (n : Node) (h0 : Sound n) : Sound (Node.factoryClear n) := by
  unfold Node.factoryClear
  extract_lets +onlyGivenNames m3
  have hm3 : Sound m3 := by
    unfold m3
    apply Node.setBytes_sound
    apply Node.setCopy_sound
    apply Node.setCopy_sound
    assumption
  clear_value m3
  extract_lets +onlyGivenNames m5
  have hm5 : Sound m5 := by
    unfold m5
    apply Node.setBytes_sound
    assumption
  clear_value m5
  apply Node.setBytes_sound
  apply Node.setBytes_sound
  assumption
theorem Node.drainReset_sound (n : Node) (l : Line) (cause : ℕ) (h0 : Sound n) : Sound (Node.drainReset n l cause) := by
  unfold Node.drainReset
  extract_lets +onlyGivenNames m5
  have hm5 : Sound m5 := by
    unfold m5
    apply Node.replyOk_sound
    assumption
  clear_value m5
  extract_lets +onlyGivenNames m7
  clear_value m7
  extract_lets +onlyGivenNames m8
  extract_lets +onlyGivenNames m9
  have hm9 : Sound m9 := by
    unfold m9
    refine sound_mk ?_ rfl rfl rfl
    assumption
  clear_value m9
  extract_lets +onlyGivenNames m11
  have hm11 : Sound m11 := by
    unfold m11
    refine foldl_ok ?_ ?_
    · intro x x x
      apply Node.failMr_sound
      assumption
    · assumption
  clear_value m11
  refine sound_mk ?_ rfl rfl rfl
  assumption
theorem execDoSysFactory_sound (l : Line) (s : State) (h0 : Sound s.node) : Good (execDoSysFactory l s) := by
  unfold execDoSysFactory
  refine lift_good (fun n hn => ?_) h0
  apply Node.runConfirm_sound
  · assumption
  · intro x x
    apply okE_ok
    apply Node.drainReset_sound
    apply Node.factoryClear_sound
    assumption
theorem execDoNodeReset_sound (l : Line) (s : State) (h0 : Sound s.node) : Good (execDoNodeReset l s) := by
  unfold execDoNodeReset
  refine lift_good (fun n hn => ?_) h0
  apply Node.runOpen_sound
  · assumption
  · intro x x
    refine okE_bind ?_
    intro x x
    refine okE_bind ?_
    intro x x
    refine okE_bind ?_
    intro x x
    apply okE_pure
    apply Node.drainReset_sound
    assumption
theorem execNodeResetDrainEnd_sound (s : State) (h0 : Sound s.node) : Good (execNodeResetDrainEnd s) := by
  unfold execNodeResetDrainEnd
  refine lift_good (fun n hn => ?_) h0
  split
  · assumption
  · extract_lets +onlyGivenNames m10
    clear_value m10
    refine ite_ind ?_ ?_
    · intro x
      apply Node.resetTo_sound
      assumption
    · intro x
      assumption
theorem execGetSysPower_sound (l : Line) (s : State) (h0 : Sound s.node) : Good (execGetSysPower l s) := by
  unfold execGetSysPower
  refine lift_good (fun n hn => ?_) h0
  apply Node.runLine_sound
  · assumption
  · intro x x
    refine okE_bind ?_
    intro x x
    refine okE_bind ?_
    intro x x
    apply okE_pure
    apply sound1_mk
    assumption
theorem execGetSysRstcause_sound (l : Line) (s : State) (h0 : Sound s.node) : Good (execGetSysRstcause l s) := by
  unfold execGetSysRstcause
  refine lift_good (fun n hn => ?_) h0
  apply Node.runLine_sound
  · assumption
  · intro x x
    refine okE_bind ?_
    intro x x
    refine okE_bind ?_
    intro x x
    extract_lets +onlyGivenNames m12
    clear_value m12
    extract_lets +onlyGivenNames m13
    clear_value m13
    apply okE_pure
    apply sound1_mk
    assumption
theorem Node.powerRecord_sound (n : Node) (new : ℕ) (old : ℕ) (cause : ℕ) (raise : Node → ℕ → List Sys2Proof.Byte → Node) (h0 : Sound n) (h4 : ∀ x0 x1 x2, Sound x0 → Sound (raise x0 x1 x2)) : Sound (Node.powerRecord n new old cause raise) := by
  unfold Node.powerRecord
  apply_assumption
  apply Node.ring_sound
  assumption
theorem Node.goQuiet_sound (n : Node) (cause : ℕ) (m : Moment) (h0 : Sound n) : Sound (Node.goQuiet n cause m) := by
  unfold Node.goQuiet
  extract_lets +onlyGivenNames m5
  extract_lets +onlyGivenNames m6
  have hm6 : Sound m6 := by
    unfold m6
    apply Node.setFd_sound
    refine sound_mk ?_ rfl rfl rfl
    assumption
  clear_value m6
  apply Node.powerRecord_sound
  · apply Node.ucQuietEdge_sound
    apply Node.annexStop_sound
    assumption
  · intro x x x x
    apply Node.raiseCmd_sound
    assumption
theorem Node.goFull_sound (n : Node) (cause : ℕ) (m : Moment) (h0 : Sound n) : Sound (Node.goFull n cause m) := by
  unfold Node.goFull
  extract_lets +onlyGivenNames m5
  extract_lets +onlyGivenNames m6
  have hm6 : Sound m6 := by
    unfold m6
    apply Node.setFd_sound
    refine sound_mk ?_ rfl rfl rfl
    assumption
  clear_value m6
  apply Node.powerRecord_sound
  · apply Node.ucQuietEdge_sound
    apply Node.annexResume_sound
    assumption
  · intro x x x x
    apply Node.raiseCmd_sound
    assumption
theorem execDoNodeQuiet_sound (l : Line) (s : State) (h0 : Sound s.node) : Good (execDoNodeQuiet l s) := by
  unfold execDoNodeQuiet
  refine lift_good (fun n hn => ?_) h0
  apply Node.runWhole_sound
  · assumption
  · intro x x
    apply okE_ok
    apply sound1_mk
    apply Node.goQuiet_sound
    assumption
theorem execDoNodeFull_sound (l : Line) (s : State) (h0 : Sound s.node) : Good (execDoNodeFull l s) := by
  unfold execDoNodeFull
  refine lift_good (fun n hn => ?_) h0
  apply Node.runWhole_sound
  · assumption
  · intro x x
    apply okE_ok
    apply sound1_mk
    apply Node.goFull_sound
    assumption
theorem Node.sleepBegin_sound (n : Node) (timer : ℕ) (byReg : Bool) (m : Moment) (h0 : Sound n) : Sound (Node.sleepBegin n timer byReg m) := by
  unfold Node.sleepBegin
  extract_lets +onlyGivenNames m6
  clear_value m6
  extract_lets +onlyGivenNames m7
  extract_lets +onlyGivenNames m8
  have hm8 : Sound m8 := by
    unfold m8
    apply Node.setOn_sound
    refine sound_mk ?_ rfl rfl rfl
    assumption
  clear_value m8
  extract_lets +onlyGivenNames m10
  have hm10 : Sound m10 := by
    unfold m10
    refine foldl_ok ?_ ?_
    · intro x x x
      apply Node.setPort_sound
      assumption
    · assumption
  clear_value m10
  extract_lets +onlyGivenNames m12
  extract_lets +onlyGivenNames m13
  have hm13 : Sound m13 := by
    unfold m13
    refine sound_mk ?_ rfl rfl rfl
    assumption
  clear_value m13
  extract_lets +onlyGivenNames m15
  have hm15 : Sound m15 := by
    unfold m15
    apply Node.annexStop_sound
    assumption
  clear_value m15
  apply Node.svAbort_sound
  apply Node.svAbort_sound
  apply Node.twDrain_sound
  apply Node.dispSleep_sound
  assumption
theorem execDoNodeDormant_sound (l : Line) (s : State) (h0 : Sound s.node) : Good (execDoNodeDormant l s) := by
  unfold execDoNodeDormant
  refine lift_good (fun n hn => ?_) h0
  apply Node.runOpen_sound
  · assumption
  · intro x x
    refine okE_bind ?_
    intro x x
    refine okE_bind ?_
    intro x x
    extract_lets +onlyGivenNames m12
    clear_value m12
    split
    · exact okE_refuse
    · refine okE_bind ?_
      intro x x
      apply okE_pure
      apply Node.sleepBegin_sound
      apply Node.replyOk_sound
      assumption
theorem Node.sleepStep_sound (n : Node) (h0 : Sound n) : Sound (Node.sleepStep n) := by
  unfold Node.sleepStep
  split
  · assumption
  · extract_lets +onlyGivenNames m8
    have hm8 : ∀ x0 x1, Sound x1 → Sound (m8 x0 x1) := by
      unfold m8
      intro x x x
      refine sound_mk ?_ rfl rfl rfl
      assumption
    clear_value m8
    refine ite_ind ?_ ?_
    · intro x
      assumption
    · intro x
      split
      · refine ite_ind ?_ ?_
        · intro x
          apply_assumption
          assumption
        · intro x
          assumption
      · extract_lets +onlyGivenNames m15
        have hm15 : Sound m15 := by
          unfold m15
          refine foldl_ok ?_ ?_
          · intro x x x
            refine ite_ind ?_ ?_
            · intro x
              assumption
            · intro x
              apply Node.callCancel_sound
              assumption
          · assumption
        clear_value m15
        apply_assumption
        apply Node.hwSync_sound
        apply Node.setFd_sound
        assumption
      · extract_lets +onlyGivenNames m15
        have hm15 : Sound m15 := by
          unfold m15
          apply Node.powerRecord_sound
          · assumption
          · intro x x x x
            apply Node.raiseCmd_sound
            assumption
        clear_value m15
        apply_assumption
        apply Node.writerOps_sound
        assumption
      · apply_assumption
        apply Node.sleepAsk_sound
        apply Node.sleepAsk_sound
        assumption
      · assumption
theorem execDormantEntryComplete_sound (s : State) (h0 : Sound s.node) : Good (execDormantEntryComplete s) := by
  unfold execDormantEntryComplete
  refine lift_good (fun n hn => ?_) h0
  split
  · assumption
  · refine ite_ind ?_ ?_
    · intro x
      extract_lets +onlyGivenNames m11
      have hm11 : Sound m11 := by
        unfold m11
        apply Node.loFreeze_sound
        assumption
      clear_value m11
      extract_lets +onlyGivenNames m13
      have hm13 : Sound m13 := by
        unfold m13
        refine foldl_ok ?_ ?_
        · intro x x x
          refine foldl_ok ?_ ?_
          · intro x x x
            apply Node.gateOff_sound
            assumption
          · assumption
        · assumption
      clear_value m13
      refine sound_mk ?_ rfl rfl rfl
      assumption
    · intro x
      assumption
theorem Node.wakePorts_sound (n : Node) (slept : List ℕ) (h0 : Sound n) : Sound (Node.wakePorts n slept) := by
  unfold Node.wakePorts
  refine foldl_ok ?_ ?_
  · intro x x x
    refine ite_ind ?_ ?_
    · intro x
      assumption
    · intro x
      apply Node.wakeBegin_sound
      assumption
  · assumption
theorem Node.wakeEnd_sound (n : Node) (z : Sleep) (cause : ℕ) (m : Moment) (h0 : Sound n) : Sound (Node.wakeEnd n z cause m) := by
  unfold Node.wakeEnd
  extract_lets +onlyGivenNames m6
  extract_lets +onlyGivenNames m7
  extract_lets +onlyGivenNames m8
  have hm8 : Sound m8 := by
    unfold m8
    refine sound_mk ?_ rfl rfl rfl
    assumption
  clear_value m8
  extract_lets +onlyGivenNames m10
  have hm10 : Sound m10 := by
    unfold m10
    refine ite_ind ?_ ?_
    · intro x
      apply Node.annexResume_sound
      assumption
    · intro x
      assumption
  clear_value m10
  extract_lets +onlyGivenNames m12
  have hm12 : Sound m12 := by
    unfold m12
    apply Node.powerRecord_sound
    · assumption
    · intro x x x x
      apply Node.raiseM_sound
      assumption
  clear_value m12
  refine ite_ind ?_ ?_
  · intro x
    apply Node.raiseM_sound
    assumption
  · intro x
    assumption
theorem Node.sleepCancel_sound (n : Node) (z : Sleep) (m : Moment) (h0 : Sound n) : Sound (Node.sleepCancel n z m) := by
  unfold Node.sleepCancel
  extract_lets +onlyGivenNames m5
  have hm5 : Sound m5 := by
    unfold m5
    refine ite_ind ?_ ?_
    · intro x
      refine foldl_ok ?_ ?_
      · intro x x x
        extract_lets +onlyGivenNames m10
        clear_value m10
        refine ite_ind ?_ ?_
        · intro x
          assumption
        · intro x
          apply Node.callFrame_sound
          assumption
      · assumption
    · intro x
      assumption
  clear_value m5
  extract_lets +onlyGivenNames m7
  have hm7 : Sound m7 := by
    unfold m7
    apply Node.twWake_sound
    apply Node.dispWake_sound
    assumption
  clear_value m7
  extract_lets +onlyGivenNames m9
  have hm9 : Sound m9 := by
    unfold m9
    refine ite_ind ?_ ?_
    · intro x
      apply Node.wakePorts_sound
      assumption
    · intro x
      assumption
  clear_value m9
  apply Node.wakeEnd_sound
  assumption
theorem Node.wakeFull_sound (n : Node) (z : Sleep) (cause : ℕ) (spent : ℕ) (h0 : Sound n) : Sound (Node.wakeFull n z cause spent) := by
  unfold Node.wakeFull
  extract_lets +onlyGivenNames m6
  clear_value m6
  extract_lets +onlyGivenNames m7
  clear_value m7
  extract_lets +onlyGivenNames m8
  clear_value m8
  extract_lets +onlyGivenNames m9
  clear_value m9
  extract_lets +onlyGivenNames m10
  have hm10 : Sound m10 := by
    unfold m10
    refine sound_mk ?_ rfl rfl rfl
    assumption
  clear_value m10
  extract_lets +onlyGivenNames m12
  have hm12 : Sound m12 := by
    unfold m12
    apply Node.unqualify_sound
    apply Node.passTime_sound
    assumption
  clear_value m12
  extract_lets +onlyGivenNames m14
  have hm14 : Sound m14 := by
    unfold m14
    refine ite_ind ?_ ?_
    · intro x
      assumption
    · intro x
      apply Node.servoTo_sound
      apply Node.wr_sound
      assumption
  clear_value m14
  extract_lets +onlyGivenNames m16
  clear_value m16
  extract_lets +onlyGivenNames m17
  have hm17 : Sound m17 := by
    unfold m17
    refine sound_mk ?_ rfl rfl rfl
    assumption
  clear_value m17
  extract_lets +onlyGivenNames m19
  have hm19 : Sound m19 := by
    unfold m19
    apply Node.almWake_sound
    apply Node.gridRestart_sound
    apply Node.transWake_sound
    apply Node.loThaw_sound
    apply Node.ucWake_sound
    assumption
  clear_value m19
  apply Node.wakeEnd_sound
  apply Node.wakePorts_sound
  apply Node.dispWake_sound
  apply Node.twWake_sound
  assumption
theorem execWatchUnitWake_sound (spent : Nat) (m : Moment) (s : State) (h0 : Sound s.node) : Good (execWatchUnitWake spent m s) := by
  unfold execWatchUnitWake
  refine lift_good (fun n hn => ?_) h0
  split
  · assumption
  · refine ite_ind ?_ ?_
    · intro x
      assumption
    · intro x
      refine ite_ind ?_ ?_
      · intro x
        apply Node.wakeFull_sound
        assumption
      · intro x
        refine ite_ind ?_ ?_
        · intro x
          apply Node.sleepCancel_sound
          assumption
        · intro x
          assumption
theorem execDormantTimerExpiry_sound (s : State) (h0 : Sound s.node) : Good (execDormantTimerExpiry s) := by
  unfold execDormantTimerExpiry
  refine lift_good (fun n hn => ?_) h0
  split
  · assumption
  · refine ite_ind ?_ ?_
    · intro x
      apply Node.wakeFull_sound
      assumption
    · intro x
      assumption
theorem Node.pcmd_sound (n : Node) (which : ℕ) (m : Moment) (h0 : Sound n) : Sound (Node.pcmd n which m) := by
  unfold Node.pcmd
  refine ite_ind ?_ ?_
  · intro x
    apply Node.sysCfgErr_sound
    assumption
  · intro x
    split
    · refine ite_ind ?_ ?_
      · intro x
        apply Node.sysCfgErr_sound
        assumption
      · intro x
        apply Node.goQuiet_sound
        assumption
    · refine ite_ind ?_ ?_
      · intro x
        apply Node.sysCfgErr_sound
        assumption
      · intro x
        apply Node.goFull_sound
        assumption
    · extract_lets +onlyGivenNames m9
      clear_value m9
      refine ite_ind ?_ ?_
      · intro x
        apply Node.sysCfgErr_sound
        assumption
      · intro x
        apply Node.sleepBegin_sound
        assumption
theorem Node.pcmdWrite_sound (n : Node) (v : Sys2Proof.Word) (m : Moment) (h0 : Sound n) : Sound (Node.pcmdWrite n v m) := by
  unfold Node.pcmdWrite
  split
  · apply Node.pcmd_sound
    assumption
  · apply Node.pcmd_sound
    assumption
  · apply Node.pcmd_sound
    assumption
  · apply Node.sysCfgErr_sound
    assumption
theorem execPcmdQuiet_sound (_rq : Rq) (s : State) (h0 : Sound s.node) : Good (execPcmdQuiet _rq s) := by
  unfold execPcmdQuiet
  refine lift_good (fun n hn => ?_) h0
  refine ite_ind ?_ ?_
  · intro x
    apply Node.pcmd_sound
    assumption
  · intro x
    assumption
theorem execPcmdFull_sound (_rq : Rq) (s : State) (h0 : Sound s.node) : Good (execPcmdFull _rq s) := by
  unfold execPcmdFull
  refine lift_good (fun n hn => ?_) h0
  refine ite_ind ?_ ?_
  · intro x
    apply Node.pcmd_sound
    assumption
  · intro x
    assumption
theorem execPcmdDormant_sound (_rq : Rq) (s : State) (h0 : Sound s.node) : Good (execPcmdDormant _rq s) := by
  unfold execPcmdDormant
  refine lift_good (fun n hn => ?_) h0
  refine ite_ind ?_ ?_
  · intro x
    apply Node.pcmd_sound
    assumption
  · intro x
    assumption
theorem Node.park_sound (n : Node) (h0 : Sound n) : Sound (Node.park n) := by
  unfold Node.park
  extract_lets +onlyGivenNames m3
  clear_value m3
  extract_lets +onlyGivenNames m4
  extract_lets +onlyGivenNames m5
  extract_lets +onlyGivenNames m6
  have hm6 : Sound m6 := by
    unfold m6
    refine sound_mk ?_ rfl rfl rfl
    assumption
  clear_value m6
  extract_lets +onlyGivenNames m8
  have hm8 : Sound m8 := by
    unfold m8
    apply Node.checkpoint_sound
    apply Node.loPark_sound
    assumption
  clear_value m8
  refine sound_mk ?_ rfl rfl rfl
  assumption
theorem Node.pfailNotice_sound (n : Node) (vsys : ℕ) (hold : ℕ) (p : Port) (h0 : Sound n) : Sound (Node.pfailNotice n vsys hold p) := by
  unfold Node.pfailNotice
  refine ite_ind ?_ ?_
  · intro x
    assumption
  · intro x
    extract_lets +onlyGivenNames m7
    clear_value m7
    extract_lets +onlyGivenNames m8
    extract_lets +onlyGivenNames m9
    clear_value m9
    extract_lets +onlyGivenNames m10
    clear_value m10
    extract_lets +onlyGivenNames m11
    clear_value m11
    extract_lets +onlyGivenNames m12
    clear_value m12
    extract_lets +onlyGivenNames m13
    have hm13 : Sound m13 := by
      unfold m13
      apply Node.setPort_sound
      assumption
    clear_value m13
    refine ite_ind ?_ ?_
    · intro x
      apply Node.bump_sound
      apply Node.setPort_sound
      assumption
    · intro x
      assumption
theorem Node.resealNow_sound (n : Node) (h0 : Sound n) : Sound (Node.resealNow n) := by
  unfold Node.resealNow
  split
  · assumption
  · refine ite_ind ?_ ?_
    · intro x
      assumption
    · intro x
      apply Node.resealEnd_sound
      refine ite_ind ?_ ?_
      · intro x
        apply Node.resealV0_sound
        assumption
      · intro x
        assumption
theorem Node.powerFail_sound (n : Node) (vsys : ℕ) (hold : ℕ) (m : Moment) (h0 : Sound n) : Sound (Node.powerFail n vsys hold m) := by
  unfold Node.powerFail
  extract_lets +onlyGivenNames m6
  have hm6 : Sound m6 := by
    unfold m6
    apply Node.setFds_sound
    assumption
  clear_value m6
  extract_lets +onlyGivenNames m8
  have hm8 : Sound m8 := by
    unfold m8
    apply Node.ring_sound
    assumption
  clear_value m8
  extract_lets +onlyGivenNames m10
  clear_value m10
  extract_lets +onlyGivenNames m11
  have hm11 : Sound m11 := by
    unfold m11
    apply Node.dispPowerFail_sound
    assumption
  clear_value m11
  extract_lets +onlyGivenNames m13
  have hm13 : Sound m13 := by
    unfold m13
    apply Node.intakeStaged_sound
    split
    · refine sound1_eq (by assumption) ?_
      apply Node.gate_sound
      assumption
    · apply Node.raiseHead_sound
      refine sound1_eq (by assumption) ?_
      apply Node.gate_sound
      assumption
  clear_value m13
  extract_lets +onlyGivenNames m15
  have hm15 : Sound m15 := by
    unfold m15
    refine ite_ind ?_ ?_
    · intro x
      assumption
    · intro x
      apply Node.resealNow_sound
      assumption
  clear_value m15
  extract_lets +onlyGivenNames m17
  have hm17 : Sound m17 := by
    unfold m17
    apply Node.cutMrs_sound
    assumption
  clear_value m17
  extract_lets +onlyGivenNames m19
  have hm19 : Sound m19 := by
    unfold m19
    apply Node.dropServoStep_sound
    apply Node.twDrain_sound
    apply Node.svAbort_sound
    apply Node.svAbort_sound
    assumption
  clear_value m19
  extract_lets +onlyGivenNames m21
  extract_lets +onlyGivenNames m22
  clear_value m22
  extract_lets +onlyGivenNames m23
  have hm23 : Sound m23 := by
    unfold m23
    apply Node.setFd_sound
    refine sound_mk ?_ rfl rfl rfl
    assumption
  clear_value m23
  extract_lets +onlyGivenNames m25
  have hm25 : Sound m25 := by
    unfold m25
    refine foldl_ok ?_ ?_
    · intro x x x
      apply Node.setPort_sound
      assumption
    · assumption
  clear_value m25
  extract_lets +onlyGivenNames m27
  have hm27 : Sound m27 := by
    unfold m27
    refine foldl_ok ?_ ?_
    · intro x x x
      apply Node.pfailNotice_sound
      assumption
    · assumption
  clear_value m27
  extract_lets +onlyGivenNames m29
  have hm29 : Sound m29 := by
    unfold m29
    apply Node.ucPowerFail_sound
    assumption
  clear_value m29
  refine ite_ind ?_ ?_
  · intro x
    apply Node.park_sound
    assumption
  · intro x
    assumption
theorem execPowerFailWarning_sound (vsys hold spent : Nat) (m : Moment) (s : State) (h0 : Sound s.node) : Good (execPowerFailWarning vsys hold spent m s) := by
  unfold execPowerFailWarning
  refine lift_good (fun n hn => ?_) h0
  refine ite_ind ?_ ?_
  · intro x
    assumption
  · intro x
    split
    · apply Node.powerFail_sound
      apply Node.wakeFull_sound
      assumption
    · apply Node.powerFail_sound
      assumption
theorem execAgraceExpiry_sound (m : Moment) (s : State) (h0 : Sound s.node) : Good (execAgraceExpiry m s) := by
  unfold execAgraceExpiry
  refine lift_good (fun n hn => ?_) h0
  refine ite_ind ?_ ?_
  · intro x
    extract_lets +onlyGivenNames m7
    have hm7 : Sound m7 := by
      unfold m7
      apply Node.annexStop_sound
      assumption
    clear_value m7
    refine sound_mk ?_ rfl rfl rfl
    assumption
  · intro x
    assumption
theorem execPark_sound (hold : Nat) (_m : Moment) (s : State) (h0 : Sound s.node) : Good (execPark hold _m s) := by
  unfold execPark
  refine lift_good (fun n hn => ?_) h0
  refine ite_ind ?_ ?_
  · intro x
    assumption
  · intro x
    extract_lets +onlyGivenNames m8
    have hm8 : Sound m8 := by
      unfold m8
      apply Node.setFd_sound
      assumption
    clear_value m8
    refine ite_ind ?_ ?_
    · intro x
      apply Node.park_sound
      assumption
    · intro x
      assumption
theorem execDoNodePwrcyc_sound (l : Line) (s : State) (h0 : Sound s.node) : Good (execDoNodePwrcyc l s) := by
  unfold execDoNodePwrcyc
  refine lift_good (fun n hn => ?_) h0
  apply Node.runConfirm_sound
  · assumption
  · intro x x
    apply okE_ok
    extract_lets +onlyGivenNames m8
    have hm8 : Sound m8 := by
      unfold m8
      apply Node.replyOk_sound
      assumption
    clear_value m8
    refine sound_mk ?_ rfl rfl rfl
    assumption
theorem Node.pwrcycCommit_sound (n : Node) (bad : List ℕ) (h0 : Sound n) : Sound (Node.pwrcycCommit n bad) := by
  unfold Node.pwrcycCommit
  refine ite_ind ?_ ?_
  · intro x
    extract_lets +onlyGivenNames m5
    have hm5 : Sound m5 := by
      unfold m5
      apply Node.writerOps_sound
      assumption
    clear_value m5
    refine sound_mk ?_ rfl rfl rfl
    assumption
  · intro x
    assumption
theorem execPwrcycPulseEnd_sound (s : State) (h0 : Sound s.node) : Good (execPwrcycPulseEnd s) := by
  unfold execPwrcycPulseEnd
  refine lift_good (fun n hn => ?_) h0
  refine ite_ind ?_ ?_
  · intro x
    refine sound_mk ?_ rfl rfl rfl
    assumption
  · intro x
    assumption
theorem execPwrcycSelfReset_sound (s : State) (h0 : Sound s.node) : Good (execPwrcycSelfReset s) := by
  unfold execPwrcycSelfReset
  refine lift_good (fun n hn => ?_) h0
  refine ite_ind ?_ ?_
  · intro x
    apply Node.resetTo_sound
    assumption
  · intro x
    assumption
end Sys2Proof.Machine
end

