-- ==== Sys2Proof/Laws/SoundRegs.lean ====
section
/-! SUPPORT. Every operation and every meaning of Machine/Regs.lean keeps `Sound`. -/
set_option linter.unusedVariables false
namespace Sys2Proof.Machine
theorem Node.dirtyIf_sound (old : Node) (n : Node) (a : ℕ) (h0 : Sound old) (h1 : Sound n) : Sound (Node.dirtyIf old n a) := by
  unfold Node.dirtyIf
  refine ite_ind ?_ ?_
  · intro x
    assumption
  · intro x
    apply Node.dirty_sound
    assumption
theorem settle_sound (ok : Bool) (applied : Node) (refused : Node) (h1 : Sound applied) (h2 : Sound refused) : Sound (settle ok applied refused) := by
  unfold settle
  refine ite_ind ?_ ?_
  · intro x
    assumption
  · intro x
    assumption
theorem Node.dicReg_sound (n : Node) (g : Node) (rq : Rq) (r : RegRow) (a : ℕ) (v : Sys2Proof.Word) (m : Moment) (h0 : Sound n) (h1 : Sound g) : Sound (Node.dicReg n g rq r a v m) := by
  unfold Node.dicReg
  extract_lets +onlyGivenNames m10
  have hm10 : Sound m10 := by
    unfold m10
    apply Node.setOn_sound
    assumption
  clear_value m10
  split
  · apply Node.ring_sound
    assumption
  · apply Node.complete_sound
    assumption
  · refine ite_ind ?_ ?_
    · intro x
      apply Node.setFd_sound
      assumption
    · intro x
      assumption
  · apply Node.dirtyIf_sound
    · assumption
    · refine ite_ind ?_ ?_
      · intro x
        apply Node.setBit_sound
        assumption
      · intro x
        assumption
  · extract_lets +onlyGivenNames m16
    clear_value m16
    apply settle_sound
    · assumption
    · assumption
  · extract_lets +onlyGivenNames m16
    clear_value m16
    apply settle_sound
    · apply Node.dirtyIf_sound
      · assumption
      · assumption
    · assumption
  · apply Node.dirtyIf_sound
    · assumption
    · assumption
  · apply Node.dirtyIf_sound
    · assumption
    · assumption
  · apply Node.dirtyIf_sound
    · assumption
    · assumption
  · assumption
theorem Node.gpReg_sound (n : Node) (g : Node) (rq : Rq) (r : RegRow) (a : ℕ) (v : Sys2Proof.Word) (m : Moment) (h0 : Sound n) (h1 : Sound g) : Sound (Node.gpReg n g rq r a v m) := by
  unfold Node.gpReg
  split
  · extract_lets +onlyGivenNames m14
    clear_value m14
    extract_lets +onlyGivenNames m15
    clear_value m15
    extract_lets +onlyGivenNames m16
    have hm16 : Sound m16 := by
      unfold m16
      apply settle_sound
      · apply Node.gpChanged_sound
        · assumption
        · apply Node.dirtyIf_sound
          · assumption
          · assumption
      · apply Node.gpCfgErr_sound
        assumption
    clear_value m16
    refine ite_ind ?_ ?_
    · intro x
      apply Node.setOn_sound
      assumption
    · intro x
      assumption
  · refine ite_ind ?_ ?_
    · intro x
      apply Node.hwWriteIf_sound
      assumption
    · intro x
      assumption
  · apply Node.gplock_sound
    assumption
  · assumption
theorem Node.twReg_sound (n : Node) (g : Node) (r : RegRow) (a : ℕ) (v : Sys2Proof.Word) (h0 : Sound n) (h1 : Sound g) : Sound (Node.twReg n g r a v) := by
  unfold Node.twReg
  split
  · apply settle_sound
    · apply Node.twChanged_sound
      · assumption
      · apply Node.dirtyIf_sound
        · assumption
        · assumption
    · apply Node.twCfgErr_sound
      assumption
  · refine ite_ind ?_ ?_
    · intro x
      apply Node.twCmdStart_sound
      assumption
    · intro x
      refine ite_ind ?_ ?_
      · intro x
        apply Node.twCmdClear_sound
        assumption
      · intro x
        apply Node.twCmdWrite_sound
        assumption
  · assumption
theorem Node.timeReg_sound (n : Node) (g : Node) (r : RegRow) (a : ℕ) (v : Sys2Proof.Word) (h0 : Sound n) (h1 : Sound g) : Sound (Node.timeReg n g r a v) := by
  unfold Node.timeReg
  split
  · apply Node.capPop_sound
    assumption
  · apply Node.ovrClear_sound
    assumption
  · assumption
  · assumption
  · extract_lets +onlyGivenNames m15
    have hm15 : Sound m15 := by
      unfold m15
      apply Node.wr_sound
      assumption
    clear_value m15
    apply Node.timeChanged_sound
    · assumption
    · apply Node.dirtyIf_sound
      · assumption
      · assumption
theorem Node.ucReg_sound (n : Node) (g : Node) (r : RegRow) (a : ℕ) (h0 : Sound n) (h1 : Sound g) : Sound (Node.ucReg n g r a) := by
  unfold Node.ucReg
  refine ite_ind ?_ ?_
  · intro x
    extract_lets +onlyGivenNames m8
    clear_value m8
    extract_lets +onlyGivenNames m9
    clear_value m9
    extract_lets +onlyGivenNames m10
    have hm10 : Sound m10 := by
      unfold m10
      refine ite_ind ?_ ?_
      · intro x
        assumption
      · intro x
        apply Node.modeDefaults_sound
        assumption
    clear_value m10
    extract_lets +onlyGivenNames m12
    clear_value m12
    extract_lets +onlyGivenNames m13
    clear_value m13
    extract_lets +onlyGivenNames m14
    have hm14 : Sound m14 := by
      unfold m14
      refine ite_ind ?_ ?_
      · intro x
        assumption
      · intro x
        apply Node.wr_sound
        assumption
    clear_value m14
    extract_lets +onlyGivenNames m16
    clear_value m16
    extract_lets +onlyGivenNames m17
    clear_value m17
    extract_lets +onlyGivenNames m18
    have hm18 : Sound m18 := by
      unfold m18
      refine ite_ind ?_ ?_
      · intro x
        refine ite_ind ?_ ?_
        · intro x
          assumption
        · intro x
          apply Node.setChan_sound
          assumption
      · intro x
        apply Node.dirtyIf_sound
        · assumption
        · assumption
    clear_value m18
    apply settle_sound
    · apply Node.ucChanged_sound
      · assumption
      · assumption
    · apply Node.ucCfgErr_sound
      assumption
  · intro x
    refine ite_ind ?_ ?_
    · intro x
      assumption
    · intro x
      apply settle_sound
      · apply Node.dirtyIf_sound
        · assumption
        · assumption
      · apply Node.ucCfgErr_sound
        assumption
theorem Node.loReg_sound (n : Node) (g : Node) (a : ℕ) (h0 : Sound n) (h1 : Sound g) : Sound (Node.loReg n g a) := by
  unfold Node.loReg
  refine ite_ind ?_ ?_
  · intro x
    extract_lets +onlyGivenNames m7
    clear_value m7
    extract_lets +onlyGivenNames m8
    clear_value m8
    extract_lets +onlyGivenNames m9
    have hm9 : Sound m9 := by
      unfold m9
      refine ite_ind ?_ ?_
      · intro x
        assumption
      · intro x
        apply Node.dirtyIf_sound
        · assumption
        · assumption
    clear_value m9
    apply settle_sound
    · apply Node.loChanged_sound
      · assumption
      · assumption
    · apply Node.loCfgErr_sound
      assumption
  · intro x
    assumption
theorem Node.gridReg_sound (n : Node) (g : Node) (r : RegRow) (a : ℕ) (v : Sys2Proof.Word) (h0 : Sound n) (h1 : Sound g) : Sound (Node.gridReg n g r a v) := by
  unfold Node.gridReg
  split
  · assumption
  · assumption
  · apply Node.transCtrl_sound
    assumption
  · refine ite_ind ?_ ?_
    · intro x
      extract_lets +onlyGivenNames m15
      have hm15 : Sound m15 := by
        unfold m15
        apply gridChanged_sound
        · assumption
        · assumption
      clear_value m15
      apply settle_sound
      · apply Node.dirtyIf_sound
        · assumption
        · assumption
      · apply Node.gridCfgErr_sound
        assumption
    · intro x
      apply settle_sound
      · apply Node.dirtyIf_sound
        · assumption
        · assumption
      · apply Node.transCfgErr_sound
        assumption
theorem Node.almReg_sound (n : Node) (g : Node) (r : RegRow) (a : ℕ) (v : Word) (h0 : Sound n) (h1 : Sound g) : Sound (Node.almReg n g r a v) := by
  unfold Node.almReg
  extract_lets +onlyGivenNames m8
  clear_value m8
  extract_lets +onlyGivenNames m9
  have hm9 : Sound m9 := by
    unfold m9
    apply Node.dirtyIf_sound
    · assumption
    · assumption
  clear_value m9
  extract_lets +onlyGivenNames m11
  have hm11 : ∀ x0, Sound (m11 x0) := by
    unfold m11
    intro x
    extract_lets +onlyGivenNames m13
    have hm13 : Sound m13 := by
      unfold m13
      refine ite_ind ?_ ?_
      · intro x
        apply Node.setK_sound
        assumption
      · intro x
        assumption
    clear_value m13
    apply settle_sound
    · apply Node.apChanged_sound
      · assumption
      · assumption
    · apply Node.almCfgErr_sound
      assumption
  clear_value m11
  split
  · apply settle_sound
    · apply Node.engineSet_sound
      apply Node.dirtyIf_sound
      · assumption
      · assumption
    · apply Node.almCfgErr_sound
      assumption
  · apply Node.ackWrite_sound
    assumption
  · assumption
  · assumption
  · assumption
  · apply settle_sound
    · apply Node.dirtyIf_sound
      · assumption
      · assumption
    · apply Node.almCfgErr_sound
      assumption
  · apply settle_sound
    · apply Node.dirtyIf_sound
      · assumption
      · assumption
    · apply Node.almCfgErr_sound
      assumption
  · apply_assumption
  · apply_assumption
  · apply_assumption
  · apply_assumption
  · apply_assumption
  · apply_assumption
  · apply_assumption
  · apply_assumption
  · apply_assumption
  · apply settle_sound
    · apply Node.dirtyIf_sound
      · assumption
      · assumption
    · apply Node.almCfgErr_sound
      assumption
  · apply settle_sound
    · apply Node.dirtyIf_sound
      · assumption
      · assumption
    · apply Node.almCfgErr_sound
      assumption
  · apply settle_sound
    · apply Node.dirtyIf_sound
      · assumption
      · assumption
    · apply Node.almCfgErr_sound
      assumption
  · apply settle_sound
    · apply Node.dirtyIf_sound
      · assumption
      · assumption
    · apply Node.almCfgErr_sound
      assumption
  · assumption
theorem Node.arcReg_sound (n : Node) (g : Node) (rq : Rq) (r : RegRow) (a : ℕ) (v : Sys2Proof.Word) (h0 : Sound n) (h1 : Sound g) : Sound (Node.arcReg n g rq r a v) := by
  unfold Node.arcReg
  split
  · extract_lets +onlyGivenNames m13
    clear_value m13
    apply settle_sound
    · apply Node.arcChanged_sound
      · assumption
      · apply Node.dirtyIf_sound
        · assumption
        · assumption
    · apply Node.arcCfgErr_sound
      assumption
  · apply Node.findStart_sound
    assumption
  · apply Node.codeWrite_sound
    assumption
  · assumption
theorem Node.busReg_sound (n : Node) (g : Node) (r : RegRow) (a : ℕ) (v : Sys2Proof.Word) (m : Moment) (h0 : Sound n) (h1 : Sound g) : Sound (Node.busReg n g r a v m) := by
  unfold Node.busReg
  extract_lets +onlyGivenNames m9
  clear_value m9
  extract_lets +onlyGivenNames m10
  clear_value m10
  refine ite_ind ?_ ?_
  · intro x
    refine ite_ind ?_ ?_
    · intro x
      apply Node.fifoPop_sound
      assumption
    · intro x
      assumption
  · intro x
    refine ite_ind ?_ ?_
    · intro x
      apply Node.setFd_sound
      assumption
    · intro x
      refine ite_ind ?_ ?_
      · intro x
        apply Node.evRelease_sound
        assumption
      · intro x
        refine ite_ind ?_ ?_
        · intro x
          extract_lets +onlyGivenNames m15
          clear_value m15
          refine ite_ind ?_ ?_
          · intro x
            apply Node.busCfgErr_sound
            assumption
          · intro x
            extract_lets +onlyGivenNames m17
            have hm17 : Sound m17 := by
              unfold m17
              refine ite_ind ?_ ?_
              · intro x
                apply Node.mbReq_sound
                · assumption
                · assumption
              · intro x
                assumption
            clear_value m17
            refine ite_ind ?_ ?_
            · intro x
              apply Node.mbAbort_sound
              · assumption
              · assumption
            · intro x
              assumption
        · intro x
          refine ite_ind ?_ ?_
          · intro x
            apply Node.busCfgErr_sound
            assumption
          · intro x
            extract_lets +onlyGivenNames m16
            have hm16 : Sound m16 := by
              unfold m16
              refine ite_ind ?_ ?_
              · intro x
                apply Node.gateReset_sound
                assumption
              · intro x
                assumption
            clear_value m16
            refine ite_ind ?_ ?_
            · intro x
              apply Node.busChanged_sound
              · assumption
              · apply Node.dirtyIf_sound
                · assumption
                · assumption
            · intro x
              assumption
theorem Node.dispReg_sound (n : Node) (g : Node) (r : RegRow) (a : ℕ) (v : Sys2Proof.Word) (m : Moment) (h0 : Sound n) (h1 : Sound g) : Sound (Node.dispReg n g r a v m) := by
  unfold Node.dispReg
  extract_lets +onlyGivenNames m9
  clear_value m9
  extract_lets +onlyGivenNames m10
  clear_value m10
  split
  · extract_lets +onlyGivenNames m15
    have hm15 : Sound m15 := by
      unfold m15
      refine ite_ind ?_ ?_
      · intro x
        apply Node.dispCmdUpdate_sound
        assumption
      · intro x
        assumption
    clear_value m15
    extract_lets +onlyGivenNames m17
    have hm17 : Sound m17 := by
      unfold m17
      refine ite_ind ?_ ?_
      · intro x
        apply Node.dispCmdRailsOn_sound
        assumption
      · intro x
        assumption
    clear_value m17
    refine ite_ind ?_ ?_
    · intro x
      apply Node.dispCmdRailsOff_sound
      assumption
    · intro x
      assumption
  · assumption
  · assumption
  · extract_lets +onlyGivenNames m15
    clear_value m15
    apply settle_sound
    · apply Node.dirty_sound
      apply Node.setK_sound
      assumption
    · apply Node.dispCfgErr_sound
      assumption
  · apply settle_sound
    · apply Node.dirty_sound
      apply Node.setWave_sound
      assumption
    · apply Node.dispCfgErr_sound
      assumption
  · refine ite_ind ?_ ?_
    · intro x
      apply Node.lcdCommit_sound
      assumption
    · intro x
      assumption
  · assumption
  · assumption
  · assumption
  · assumption
  · apply settle_sound
    · apply Node.dispChanged_sound
      · assumption
      · apply Node.dirtyIf_sound
        · assumption
        · assumption
    · apply Node.dispCfgErr_sound
      assumption
theorem Node.sysReg_sound (n : Node) (g : Node) (rq : Rq) (r : RegRow) (a : ℕ) (v : Sys2Proof.Word) (m : Moment) (h0 : Sound n) (h1 : Sound g) : Sound (Node.sysReg n g rq r a v m) := by
  unfold Node.sysReg
  split
  · apply Node.pcmdWrite_sound
    assumption
  · apply settle_sound
    · apply Node.dirtyIf_sound
      · assumption
      · assumption
    · apply Node.sysCfgErr_sound
      assumption
  · apply settle_sound
    · apply Node.dirtyIf_sound
      · assumption
      · assumption
    · apply Node.sysCfgErr_sound
      assumption
  · apply settle_sound
    · assumption
    · apply Node.sysCfgErr_sound
      assumption
  · apply Node.dogServe_sound
    assumption
  · refine ite_ind ?_ ?_
    · intro x
      assumption
    · intro x
      apply settle_sound
      · apply Node.nodeChanged_sound
        · assumption
        · apply Node.dirtyIf_sound
          · assumption
          · assumption
      · apply Node.sysCfgErr_sound
        assumption
  · refine ite_ind ?_ ?_
    · intro x
      assumption
    · intro x
      apply settle_sound
      · apply Node.nodeChanged_sound
        · assumption
        · apply Node.dirtyIf_sound
          · assumption
          · assumption
      · apply Node.sysCfgErr_sound
        assumption
  · assumption
theorem Node.cmdReg_sound (n : Node) (g : Node) (rq : Rq) (by_ : Option Port) (r : RegRow) (a : ℕ) (v : Sys2Proof.Word) (m : Moment) (h0 : Sound n) (h1 : Sound g) : Sound (Node.cmdReg n g rq by_ r a v m) := by
  unfold Node.cmdReg
  refine ite_ind ?_ ?_
  · intro x
    refine ite_ind ?_ ?_
    · intro x
      assumption
    · intro x
      split
      · apply Node.wr_sound
        assumption
      · apply Node.reqWrite_sound
        assumption
      · apply Node.rxbaseWrite_sound
        assumption
      · apply Node.rxcfgWrite_sound
        assumption
      · apply Node.rxrdWrite_sound
        assumption
      · assumption
  · intro x
    extract_lets +onlyGivenNames m12
    have hm12 : Sound m12 := by
      unfold m12
      refine ite_ind ?_ ?_
      · intro x
        apply Node.setFd_sound
        assumption
      · intro x
        assumption
    clear_value m12
    extract_lets +onlyGivenNames m14
    have hm14 : Sound m14 := by
      unfold m14
      refine ite_ind ?_ ?_
      · intro x
        apply Node.setFd_sound
        assumption
      · intro x
        assumption
    clear_value m14
    apply settle_sound
    · apply Node.cmdChanged_sound
      · assumption
      · apply Node.dirtyIf_sound
        · assumption
        · assumption
    · apply Node.mbCfgErr_sound
      assumption
theorem Node.regWrite_sound (n : Node) (rq : Rq) (by_ : Option Port) (a : ℕ) (v : Word) (m : Moment) (keep : Word) (h0 : Sound n) : Sound (Node.regWrite n rq by_ a v m keep) := by
  unfold Node.regWrite
  split
  · assumption
  · extract_lets +onlyGivenNames m14
    clear_value m14
    extract_lets +onlyGivenNames m15
    have hm15 : Sound m15 := by
      unfold m15
      apply Node.wr_sound
      assumption
    clear_value m15
    refine ite_ind ?_ ?_
    · intro x
      assumption
    · intro x
      split
      · apply Node.dicReg_sound
        · assumption
        · assumption
      · apply Node.gpReg_sound
        · assumption
        · assumption
      · apply Node.twReg_sound
        · assumption
        · assumption
      · apply Node.timeReg_sound
        · assumption
        · assumption
      · apply Node.ucReg_sound
        · assumption
        · assumption
      · apply Node.loReg_sound
        · assumption
        · assumption
      · apply Node.gridReg_sound
        · assumption
        · assumption
      · apply Node.almReg_sound
        · assumption
        · assumption
      · apply Node.arcReg_sound
        · assumption
        · assumption
      · apply Node.busReg_sound
        · assumption
        · assumption
      · apply Node.dispReg_sound
        · assumption
        · assumption
      · apply Node.sysReg_sound
        · assumption
        · assumption
      · apply Node.cmdReg_sound
        · assumption
        · assumption
theorem Node.regRead_sound (n : Node) (rq : Rq) (a : ℕ) (m : Moment) (keep : Word) (h0 : Sound n) : Sound (Node.regRead n rq a m keep) := by
  unfold Node.regRead
  split
  · refine sound_mk ?_ rfl rfl rfl
    assumption
  · split
    · apply Node.readQns_sound
      assumption
    · apply Node.readUcVal_sound
      assumption
    · apply Node.readLoRb_sound
      assumption
    · apply Node.readRepSec_sound
      assumption
    · apply Node.readOpms_sound
      assumption
    · extract_lets +onlyGivenNames m20
      clear_value m20
      extract_lets +onlyGivenNames m21
      clear_value m21
      extract_lets +onlyGivenNames m22
      have hm22 : Sound m22 := by
        unfold m22
        refine ite_ind ?_ ?_
        · intro x
          assumption
        · intro x
          apply Node.wr_sound
          assumption
      clear_value m22
      refine sound_mk ?_ rfl rfl rfl
      assumption
theorem execRegisterWrite_sound (rq : Rq) (a : ℕ) (v : Word) (c : Access) (s : State) (h0 : Sound s.node) : Good (execRegisterWrite rq a v c s) := by
  unfold execRegisterWrite
  refine lift_good (fun n hn => ?_) h0
  refine ite_ind ?_ ?_
  · intro x
    apply Node.regWrite_sound
    assumption
  · intro x
    assumption
theorem execReadClearRead_sound (rq : Rq) (a : ℕ) (c : Access) (s : State) (h0 : Sound s.node) : Good (execReadClearRead rq a c s) := by
  unfold execReadClearRead
  refine lift_good (fun n hn => ?_) h0
  refine ite_ind ?_ ?_
  · intro x
    apply Node.regRead_sound
    assumption
  · intro x
    assumption
theorem Node.memWrite_sound (n : Node) (a : ℕ) (bytes : List Sys2Proof.Byte) (h0 : Sound n) : Sound (Node.memWrite n a bytes) := by
  unfold Node.memWrite
  split
  · apply Node.setBytes_sound
    assumption
  · apply Node.setBytes_sound
    assumption
  · extract_lets +onlyGivenNames m9
    clear_value m9
    refine ite_ind ?_ ?_
    · intro x
      apply Node.setBytes_sound
      assumption
    · intro x
      apply Node.busCfgErr_sound
      assumption
  · assumption
theorem Node.peekWord_sound (n : Node) (a : ℕ) (m : Moment) (h0 : Sound n) : Sound (Node.peekWord n a m) := by
  unfold Node.peekWord
  refine ite_ind ?_ ?_
  · intro x
    apply Node.regRead_sound
    assumption
  · intro x
    refine sound_mk ?_ rfl rfl rfl
    assumption
theorem execRegRead_sound (l : Line) (reg : String) (s : State) (h0 : Sound s.node) : Good (execRegRead l reg s) := by
  unfold execRegRead
  refine lift_good (fun n hn => ?_) h0
  apply Node.runLine_sound
  · assumption
  · intro x x
    refine okE_bind ?_
    intro x x
    split
    · exact okE_refuse
    · extract_lets +onlyGivenNames m17
      have hm17 : Sound m17 := by
        unfold m17
        apply Node.regRead_sound
        assumption
      clear_value m17
      apply okE_pure
      apply sound1_mk
      assumption
theorem execRegFieldRead_sound (l : Line) (reg fld : String) (s : State) (h0 : Sound s.node) : Good (execRegFieldRead l reg fld s) := by
  unfold execRegFieldRead
  refine lift_good (fun n hn => ?_) h0
  apply Node.runLine_sound
  · assumption
  · intro x x
    refine okE_bind ?_
    intro x x
    split
    · exact okE_refuse
    · extract_lets +onlyGivenNames m18
      have hm18 : Sound m18 := by
        unfold m18
        apply Node.regRead_sound
        assumption
      clear_value m18
      extract_lets +onlyGivenNames m20
      clear_value m20
      apply okE_pure
      apply sound1_mk
      assumption
theorem Node.lineWrite_sound (n : Node) (l : Line) (a : ℕ) (v : Sys2Proof.Word) (h0 : Sound n) : Sound1 (Node.lineWrite n l a v) := by
  unfold Node.lineWrite
  extract_lets +onlyGivenNames m6
  clear_value m6
  apply sound1_mk
  apply Node.regWrite_sound
  assumption
theorem execRegWrite_sound (l : Line) (reg : String) (s : State) (h0 : Sound s.node) : Good (execRegWrite l reg s) := by
  unfold execRegWrite
  refine lift_good (fun n hn => ?_) h0
  apply Node.runLine_sound
  · assumption
  · intro x x
    refine okE_bind ?_
    intro x x
    split
    · exact okE_refuse
    · refine okE_bind ?_
      intro x x
      refine okE_bind ?_
      intro x x
      apply okE_pure
      apply Node.lineWrite_sound
      assumption
theorem execRegFieldWrite_sound (l : Line) (reg fld : String) (s : State) (h0 : Sound s.node) : Good (execRegFieldWrite l reg fld s) := by
  unfold execRegFieldWrite
  refine lift_good (fun n hn => ?_) h0
  apply Node.runLine_sound
  · assumption
  · intro x x
    refine okE_bind ?_
    intro x x
    split
    · exact okE_refuse
    · refine okE_bind ?_
      intro x x
      refine okE_bind ?_
      intro x x
      apply okE_pure
      apply Node.lineWrite_sound
      assumption
theorem Node.peekLines_sound (n : Node) (a : ℕ) (y2 : ℕ) (h0 : Sound n) : Sound1 (Node.peekLines n a y2) := by
  unfold Node.peekLines
  split
  · apply sound1_mk
    assumption
  · extract_lets +onlyGivenNames m7
    have hm7 : Sound m7 := by
      unfold m7
      apply Node.peekWord_sound
      assumption
    clear_value m7
    extract_lets +onlyGivenNames m9
    clear_value m9
    split
    apply sound1_mk
    refine sound1_eq (by assumption) ?_
    apply Node.peekLines_sound
    assumption
theorem execPeek_sound (l : Line) (a : Nat) (s : State) (h0 : Sound s.node) : Good (execPeek l a s) := by
  unfold execPeek
  refine lift_good (fun n hn => ?_) h0
  apply Node.runLine_sound
  · assumption
  · intro x x
    refine okE_bind ?_
    intro x x
    extract_lets +onlyGivenNames m11
    clear_value m11
    extract_lets +onlyGivenNames m12
    have hm12 : ∀ x0, okE Sound1 (m12 x0) := by
      unfold m12
      intro x
      apply okE_pure
      apply Node.peekLines_sound
      assumption
    clear_value m12
    extract_lets +onlyGivenNames m14
    have hm14 : ∀ x0, okE Sound1 (m14 x0) := by
      unfold m14
      intro x
      refine ite_ind ?_ ?_
      · intro x
        refine okE_bind ?_
        intro x x
        apply_assumption
      · intro x
        apply_assumption
    clear_value m14
    refine ite_ind ?_ ?_
    · intro x
      refine okE_bind ?_
      intro x x
      apply_assumption
    · intro x
      apply_assumption
theorem execPoke_sound (l : Line) (a : Nat) (s : State) (h0 : Sound s.node) : Good (execPoke l a s) := by
  unfold execPoke
  refine lift_good (fun n hn => ?_) h0
  apply Node.runLine_sound
  · assumption
  · intro x x
    refine okE_bind ?_
    intro x x
    refine okE_bind ?_
    intro x x
    extract_lets +onlyGivenNames m13
    have hm13 : ∀ x0, okE Sound1 (m13 x0) := by
      unfold m13
      intro x
      split
      · exact okE_refuse
      · exact okE_refuse
      · refine okE_bind ?_
        intro x x
        apply okE_pure
        apply Node.lineWrite_sound
        assumption
      · apply okE_pure
        apply sound1_mk
        apply Node.memWrite_sound
        assumption
    clear_value m13
    refine ite_ind ?_ ?_
    · intro x
      refine okE_bind ?_
      intro x x
      apply_assumption
    · intro x
      apply_assumption
end Sys2Proof.Machine
end

