-- ==== Sys2Proof/Laws/SoundRv32.lean ====
section
/-! SUPPORT. Every operation and every meaning of Machine/Rv32.lean keeps `Sound`. -/
set_option linter.unusedVariables false
namespace Sys2Proof.Machine
theorem Node.setX_sound (n : Node) (r : ℕ) (v : Sys2Proof.Word) (h0 : Sound n) : Sound (Node.setX n r v) := by
  unfold Node.setX
  refine ite_ind ?_ ?_
  · intro x
    assumption
  · intro x
    refine sound_mk ?_ rfl rfl rfl
    assumption
theorem Node.setPc_sound (n : Node) (v : Sys2Proof.Word) (h0 : Sound n) : Sound (Node.setPc n v) := by
  unfold Node.setPc
  refine sound_mk ?_ rfl rfl rfl
  assumption
theorem Node.setCsr_sound (n : Node) (c : ℕ) (v : Sys2Proof.Word) (h0 : Sound n) : Sound (Node.setCsr n c v) := by
  unfold Node.setCsr
  refine sound_mk ?_ rfl rfl rfl
  assumption
theorem Node.setCycles_sound (n : Node) (v : ℕ) (m : Moment) (h0 : Sound n) : Sound (Node.setCycles n v m) := by
  unfold Node.setCycles
  refine sound_mk ?_ rfl rfl rfl
  assumption
theorem Node.csrWrite_sound (n : Node) (c : ℕ) (v : Sys2Proof.Word) (m : Moment) (h0 : Sound n) : Sound (Node.csrWrite n c v m) := by
  unfold Node.csrWrite
  split
  · apply Node.setCycles_sound
    assumption
  · apply Node.setCycles_sound
    assumption
  · refine sound_mk ?_ rfl rfl rfl
    assumption
  · refine sound_mk ?_ rfl rfl rfl
    assumption
  · apply Node.setCsr_sound
    assumption
theorem Node.except_sound (n : Node) (t : Trap) (m : Moment) (h0 : Sound n) : Sound (Node.except n t m) := by
  unfold Node.except
  extract_lets +onlyGivenNames m5
  clear_value m5
  extract_lets +onlyGivenNames m6
  have hm6 : Sound m6 := by
    unfold m6
    apply Node.setCsr_sound
    apply Node.setCsr_sound
    apply Node.setCsr_sound
    assumption
  clear_value m6
  extract_lets +onlyGivenNames m8
  have hm8 : Sound m8 := by
    unfold m8
    apply Node.setOn_sound
    assumption
  clear_value m8
  refine ite_ind ?_ ?_
  · intro x
    apply Node.annexFault_sound
    assumption
  · intro x
    apply Node.setPc_sound
    assumption
theorem Node.takeTrap_sound (n : Node) (t : Trap) (m : Moment) (h0 : Sound n) : Sound (Node.takeTrap n t m) := by
  unfold Node.takeTrap
  extract_lets +onlyGivenNames m5
  have hm5 : Sound m5 := by
    unfold m5
    apply Node.except_sound
    assumption
  clear_value m5
  refine ite_ind ?_ ?_
  · intro x
    apply Node.except_sound
    assumption
  · intro x
    assumption
theorem Node.rvLoad_sound (n : Node) (a : Sys2Proof.Word) (sz : ℕ) (sign : Bool) (m : Moment) (h0 : Sound n) : okE Sound1 (Node.rvLoad n a sz sign m) := by
  unfold Node.rvLoad
  extract_lets +onlyGivenNames m7
  clear_value m7
  extract_lets +onlyGivenNames m8
  clear_value m8
  refine ite_ind ?_ ?_
  · intro x
    exact okE_error
  · intro x
    split
    · exact okE_error
    · refine ite_ind ?_ ?_
      · intro x
        exact okE_error
      · intro x
        extract_lets +onlyGivenNames m15
        have hm15 : Sound m15 := by
          unfold m15
          apply Node.regRead_sound
          assumption
        clear_value m15
        apply okE_ok
        apply sound1_mk
        assumption
    · apply okE_ok
      apply sound1_mk
      assumption
theorem Node.rvStore_sound (n : Node) (a : Sys2Proof.Word) (sz : ℕ) (v : Sys2Proof.Word) (m : Moment) (h0 : Sound n) : okE Sound (Node.rvStore n a sz v m) := by
  unfold Node.rvStore
  extract_lets +onlyGivenNames m7
  clear_value m7
  refine ite_ind ?_ ?_
  · intro x
    exact okE_error
  · intro x
    split
    · exact okE_error
    · exact okE_error
    · exact okE_error
    · refine ite_ind ?_ ?_
      · intro x
        exact okE_error
      · intro x
        apply okE_ok
        apply Node.regWrite_sound
        assumption
    · apply okE_ok
      apply Node.memWrite_sound
      assumption
theorem Node.mret_sound (n : Node) (m : Moment) (h0 : Sound n) : Sound (Node.mret n m) := by
  unfold Node.mret
  extract_lets +onlyGivenNames back
  clear_value back
  have hacc : ∀ (x : Node) (k : Nat), x.acceptable = some k → x.dic.stack.length < 16 := by
    intro x k hk
    unfold Node.acceptable at hk
    split at hk
    · cases hk
    · omega
  split
  · apply Node.setPc_sound
    apply Node.setOn_sound
    assumption
  · split
    · apply Node.setPc_sound
      assumption
    · rename_i e t he
      extract_lets +onlyGivenNames d x
      have hx : Sound x := by
        unfold x
        apply Node.setPc_sound
        refine ⟨h0.mem, h0.leases, h0.streams, ?_⟩
        have := h0.stack
        rw [he] at this
        simp only [List.length_cons] at this
        show t.length ≤ 16
        omega
      clear_value x
      split
      · rename_i k hk
        exact Node.accept_sound _ _ _ _ hx (hacc x k hk)
      · assumption
theorem Node.waitFor_sound (n : Node) (h0 : Sound n) : Sound (Node.waitFor n) := by
  unfold Node.waitFor
  refine sound_mk ?_ rfl rfl rfl
  assumption
theorem Node.rvExec_sound (n : Node) (i : Rv) (pc : Sys2Proof.Word) (m : Moment) (h0 : Sound n) : okE Sound (Node.rvExec n i pc m) := by
  unfold Node.rvExec
  split
  · apply okE_ok
    apply Node.setX_sound
    assumption
  · apply okE_ok
    apply Node.setX_sound
    assumption
  · apply okE_ok
    apply Node.setPc_sound
    apply Node.setX_sound
    assumption
  · apply okE_ok
    apply Node.setPc_sound
    apply Node.setX_sound
    assumption
  · apply okE_ok
    refine ite_ind ?_ ?_
    · intro x
      apply Node.setPc_sound
      assumption
    · intro x
      assumption
  · refine okE_map0 ?_ ?_
    · apply Node.rvLoad_sound
      assumption
    · intro x x
      apply Node.setX_sound
      refine Sound1.h ?_
      assumption
  · apply Node.rvStore_sound
    assumption
  · apply okE_ok
    apply Node.setX_sound
    assumption
  · apply okE_ok
    apply Node.setX_sound
    assumption
  · apply okE_ok
    assumption
  · exact okE_error
  · exact okE_error
  · apply okE_ok
    apply Node.mret_sound
    assumption
  · apply okE_ok
    apply Node.waitFor_sound
    assumption
  · extract_lets +onlyGivenNames m12
    clear_value m12
    refine ite_ind ?_ ?_
    · intro x
      exact okE_error
    · intro x
      extract_lets +onlyGivenNames m14
      clear_value m14
      extract_lets +onlyGivenNames m15
      clear_value m15
      extract_lets +onlyGivenNames m16
      clear_value m16
      apply okE_ok
      apply Node.setX_sound
      refine ite_ind ?_ ?_
      · intro x
        apply Node.csrWrite_sound
        assumption
      · intro x
        assumption
theorem Node.retire_sound (n : Node) (h0 : Sound n) : Sound (Node.retire n) := by
  unfold Node.retire
  refine sound_mk ?_ rfl rfl rfl
  assumption
theorem Node.runInstr_sound (n : Node) (m : Moment) (h0 : Sound n) : Sound (Node.runInstr n m) := by
  unfold Node.runInstr
  split
  · apply Node.takeTrap_sound
    assumption
  · apply Node.takeTrap_sound
    assumption
  · extract_lets +onlyGivenNames m11
    clear_value m11
    split
    · refine okE_eq (by assumption) ?_
      apply Node.rvExec_sound
      apply Node.retire_sound
      apply Node.setPc_sound
      assumption
    · apply Node.takeTrap_sound
      assumption
    · apply Node.takeTrap_sound
      assumption
theorem execAnnexInstruction_sound (m : Moment) (s : State) (h0 : Sound s.node) : Good (execAnnexInstruction m s) := by
  unfold execAnnexInstruction
  refine lift_good (fun n hn => ?_) h0
  refine ite_ind ?_ ?_
  · intro x
    apply Node.runInstr_sound
    assumption
  · intro x
    refine ite_ind ?_ ?_
    · intro x
      apply Node.runInstr_sound
      refine sound_mk ?_ rfl rfl rfl
      assumption
    · intro x
      assumption
theorem execMret_sound (m : Moment) (s : State) (h0 : Sound s.node) : Good (execMret m s) := by
  unfold execMret
  refine lift_good (fun n hn => ?_) h0
  refine ite_ind ?_ ?_
  · intro x
    apply Node.runInstr_sound
    assumption
  · intro x
    assumption
theorem execWfi_sound (m : Moment) (s : State) (h0 : Sound s.node) : Good (execWfi m s) := by
  unfold execWfi
  refine lift_good (fun n hn => ?_) h0
  refine ite_ind ?_ ?_
  · intro x
    apply Node.runInstr_sound
    assumption
  · intro x
    assumption
end Sys2Proof.Machine
end

