-- ==== Sys2Proof/Laws/SoundStages.lean ====
section
/-! SUPPORT. Every operation and every meaning of Machine/Stages.lean keeps `Sound`. -/
set_option linter.unusedVariables false
namespace Sys2Proof.Machine
theorem whole_sound (r : Except Err (Node × List (List Item))) (h0 : okE Sound1 r) : okE Sound1 (whole r) := by
  unfold whole
  exact okE_map1 h0 (fun y hy => ⟨hy.h⟩)
theorem maybe_sound (x : Node × Bool) (h0 : Sound1 x) : okE Sound1 (maybe x) := by
  unfold maybe
  apply okE_ok
  apply sound1_mk
  refine Sound1.h ?_
  assumption
theorem surely_sound (n : Node) (h0 : Sound n) : okE Sound1 (surely n) := by
  unfold surely
  apply okE_ok
  apply sound1_mk
  assumption
theorem setUnit_sound (o : Obj) (keys : Keys) (u : ℕ) (n : Node) (h3 : Sound n) : okE Sound1 (setUnit o keys u n) := by
  unfold setUnit
  split
  · apply setUcUnit_sound
    assumption
  · apply setLoUnit_sound
    assumption
  · apply setGridUnit_sound
    assumption
  · apply setTransUnit_sound
    assumption
  · apply setApUnit_sound
    assumption
  · apply setAgUnit_sound
    assumption
  · apply setCallUnit_sound
    assumption
  · apply setCodeUnit_sound
    assumption
  · apply setFilterUnit_sound
    assumption
  · apply setGpUnit_sound
    assumption
  · apply setCaptureUnit_sound
    assumption
  · apply setDicUnit_sound
    assumption
  · apply okE_ok
    apply sound1_mk
    assumption
theorem actUnit_sound (o : Obj) (action : String) (keys : Keys) (u : ℕ) (n : Node) (h4 : Sound n) : okE Sound1 (actUnit o action keys u n) := by
  unfold actUnit
  split
  · split
    · apply apAckUnit_sound
      assumption
    · apply apShelveUnit_sound
      assumption
    · apply apUnshelveUnit_sound
      assumption
  · split
    · apply agAckUnit_sound
      assumption
    · apply agForesetUnit_sound
      assumption
  · apply gpToggleUnit_sound
    assumption
  · apply takeUnit_sound
    assumption
  · apply dicActUnit_sound
    assumption
  · apply okE_ok
    apply sound1_mk
    assumption
theorem reinitUnit_sound (o : Obj) (u : ℕ) (n : Node) (h2 : Sound n) : okE Sound1 (reinitUnit o u n) := by
  unfold reinitUnit
  split
  · apply surely_sound
    apply Node.ucReinit_sound
    assumption
  · apply surely_sound
    apply Node.loReinit_sound
    assumption
  · apply surely_sound
    apply Node.gridReinit_sound
    assumption
  · apply surely_sound
    apply Node.transReinit_sound
    assumption
  · apply surely_sound
    apply Node.apReinit_sound
    assumption
  · apply surely_sound
    apply Node.agReinit_sound
    assumption
  · apply surely_sound
    apply Node.callReinit_sound
    assumption
  · apply surely_sound
    apply Node.arcReinit_sound
    assumption
  · apply maybe_sound
    apply Node.busReinitUnit_sound
    assumption
  · apply surely_sound
    apply Node.gpReinit_sound
    assumption
  · apply maybe_sound
    apply Node.twReinitUnit_sound
    assumption
  · apply maybe_sound
    apply Node.dispReinitUnit_sound
    assumption
  · apply surely_sound
    apply Node.timeReinit_sound
    assumption
  · apply surely_sound
    apply Node.dicReinit_sound
    assumption
  · apply surely_sound
    assumption
theorem Node.unitNow_sound (n : Node) (m : Mr) (u : ℕ) (bad : List ℕ) (h0 : Sound n) : okE Sound1 (Node.unitNow n m u bad) := by
  unfold Node.unitNow
  split
  · apply whole_sound
    apply setUnit_sound
    assumption
  · apply whole_sound
    apply actUnit_sound
    assumption
  · apply whole_sound
    apply clearLoUnit_sound
    assumption
  · apply reinitUnit_sound
    assumption
  · split
    · refine okE_map2 ?_ ?_
      · apply Node.commitUnit_sound
        assumption
      · intro x x
        apply sound1_mk
        assumption
    · exact okE_refuse
  · extract_lets +onlyGivenNames m10
    clear_value m10
    refine ite_ind ?_ ?_
    · intro x
      exact okE_refuse
    · intro x
      apply surely_sound
      apply Node.clearPage_sound
      assumption
  · apply surely_sound
    assumption
theorem Node.mrDone_sound (n : Node) (p : Port) (m : Mr) (h0 : Sound n) : Sound (Node.mrDone n p m) := by
  unfold Node.mrDone
  split
  · split
    · extract_lets +onlyGivenNames m14
      have hm14 : Sound m14 := by
        unfold m14
        apply Node.commitEnd_sound
        assumption
      clear_value m14
      extract_lets +onlyGivenNames m16
      clear_value m16
      apply Node.endMr_sound
      apply Node.send_sound
      assumption
    · apply Node.endMr_sound
      assumption
  · apply Node.endMr_sound
    apply Node.clearDone_sound
    assumption
  · apply Node.endMr_sound
    assumption
theorem Node.mrFailed_sound (n : Node) (p : Port) (m : Mr) (u : ℕ) (bad : List ℕ) (e : Err) (h0 : Sound n) : Sound (Node.mrFailed n p m u bad e) := by
  unfold Node.mrFailed
  extract_lets +onlyGivenNames m8
  have hm8 : Sound m8 := by
    unfold m8
    split
    · apply Node.commitEnd_sound
      apply Node.commitFail_sound
      assumption
    · apply Node.setOn_sound
      apply Node.clearFail_sound
      assumption
    · assumption
  clear_value m8
  apply Node.failMr_sound
  assumption
theorem Node.mrUnits_sound (n : Node) (p : Port) (bad : List ℕ) (y3 : ℕ) (h0 : Sound n) : Sound (Node.mrUnits n p bad y3) := by
  unfold Node.mrUnits
  split
  · assumption
  · split
    · assumption
    · refine ite_ind ?_ ?_
      · intro x
        assumption
      · intro x
        split
        · apply Node.mrDone_sound
          assumption
        · split
          · apply Node.mrFailed_sound
            assumption
          · refine ite_ind ?_ ?_
            · intro x
              refine okE_eq1 (by assumption) ?_
              apply Node.unitNow_sound
              assumption
            · intro x
              extract_lets +onlyGivenNames m28
              extract_lets +onlyGivenNames m29
              have hm29 : Sound m29 := by
                unfold m29
                apply Node.setPort_sound
                refine okE_eq1 (by assumption) ?_
                apply Node.unitNow_sound
                assumption
              clear_value m29
              extract_lets +onlyGivenNames m31
              have hm31 : Sound m31 := by
                unfold m31
                refine ite_ind ?_ ?_
                · intro x
                  assumption
                · intro x
                  apply Node.send_sound
                  assumption
              clear_value m31
              refine ite_ind ?_ ?_
              · intro x
                apply Node.mrDone_sound
                assumption
              · intro x
                apply Node.mrUnits_sound
                assumption
theorem Node.mrS7_sound (n : Node) (p : Port) (cut : Option ℕ) (bad : List ℕ) (h0 : Sound n) : Sound (Node.mrS7 n p cut bad) := by
  unfold Node.mrS7
  split
  · assumption
  · extract_lets +onlyGivenNames m11
    clear_value m11
    apply Node.mrUnits_sound
    assumption
theorem Node.seqLost_sound (n : Node) (h0 : Sound n) : Sound (Node.seqLost n) := by
  unfold Node.seqLost
  extract_lets +onlyGivenNames m3
  have hm3 : Sound m3 := by
    unfold m3
    split
    · apply Node.dropWindow_sound
      assumption
    · assumption
  clear_value m3
  refine sound_mk ?_ rfl rfl rfl
  assumption
theorem Node.slotLost_sound (n : Node) (begun : ℕ) (k : ℕ) (h0 : Sound n) : Sound (Node.slotLost n begun k) := by
  unfold Node.slotLost
  split
  · apply Node.seqLost_sound
    assumption
  · refine sound_mk ?_ rfl rfl rfl
    assumption
  · refine sound_mk ?_ rfl rfl rfl
    assumption
  · refine ite_ind ?_ ?_
    · intro x
      apply Node.asOfS6_sound
      · assumption
      · intro x x
        apply Node.writerOps_sound
        assumption
    · intro x
      assumption
  · assumption
theorem Node.driveLines_sound (n : Node) (lines : ℕ) (h0 : Sound n) : Sound (Node.driveLines n lines) := by
  unfold Node.driveLines
  apply Node.hwSync_sound
  apply Node.setFd_sound
  assumption
theorem Node.lateWork_sound (n : Node) (k : ℕ) (h0 : Sound n) : Sound (Node.lateWork n k) := by
  unfold Node.lateWork
  split
  · apply Node.ucS3_sound
    assumption
  · apply Node.gridS2_sound
    assumption
  · apply Node.busFlush_sound
    apply Node.almLate_sound
    assumption
  · split
    · apply Node.loS5_sound
      assumption
    · assumption
  · apply Node.driveLines_sound
    assumption
  · apply Node.busFlush_sound
    apply Node.asOfS6_sound
    · assumption
    · intro x x
      apply Node.pwrcycCommit_sound
      apply Node.writer_sound
      assumption
  · assumption
theorem execHelperLatePublication_sound (slot : ℕ) (m : Moment) (s : State) (h0 : Sound s.node) : Good (execHelperLatePublication slot m s) := by
  unfold execHelperLatePublication
  refine lift_good (fun n hn => ?_) h0
  refine ite_ind ?_ ?_
  · intro x
    extract_lets +onlyGivenNames m8
    clear_value m8
    extract_lets +onlyGivenNames m9
    have hm9 : Sound m9 := by
      unfold m9
      apply Node.lateWork_sound
      refine sound_mk ?_ rfl rfl rfl
      assumption
    clear_value m9
    apply Node.latePublished_sound
    refine sound_mk ?_ rfl rfl rfl
    assumption
  · intro x
    assumption
theorem execBeatStart_sound (b : Boundary) (s : State) (h0 : Sound s.node) : Good (execBeatStart b s) := by
  unfold execBeatStart
  refine lift_good (fun n hn => ?_) h0
  refine ite_ind ?_ ?_
  · intro x
    assumption
  · intro x
    extract_lets +onlyGivenNames m7
    have hm7 : Sound m7 := by
      unfold m7
      refine foldl_ok ?_ ?_
      · intro x x x
        apply Node.slotLost_sound
        assumption
      · assumption
    clear_value m7
    extract_lets +onlyGivenNames m9
    have hm9 : Sound m9 := by
      unfold m9
      apply Node.overruns_sound
      assumption
    clear_value m9
    extract_lets +onlyGivenNames m11
    clear_value m11
    extract_lets +onlyGivenNames m12
    have hm12 : Sound m12 := by
      unfold m12
      apply Node.setOn_sound
      apply Node.beatAdvance_sound
      assumption
    clear_value m12
    extract_lets +onlyGivenNames m14
    have hm14 : Sound m14 := by
      unfold m14
      apply Node.almBeat_sound
      refine ite_ind ?_ ?_
      · intro x
        apply Node.transBeat_sound
        assumption
      · intro x
        assumption
    clear_value m14
    apply Node.annexFlush_sound
    apply Node.annexTell_sound
    apply Node.annexBegin_sound
    apply Node.dispBeat_sound
    assumption
theorem execStageS0_sound (inp : S0In) (s : State) (h0 : Sound s.node) : Good (execStageS0 inp s) := by
  unfold execStageS0
  refine lift_good (fun n hn => ?_) h0
  refine ite_ind ?_ ?_
  · intro x
    assumption
  · intro x
    extract_lets +onlyGivenNames m7
    have hm7 : Sound m7 := by
      unfold m7
      apply Node.setFds_sound
      assumption
    clear_value m7
    extract_lets +onlyGivenNames m9
    have hm9 : Sound m9 := by
      unfold m9
      refine foldl_ok ?_ ?_
      · intro x x x
        apply Node.railMv_sound
        assumption
      · assumption
    clear_value m9
    extract_lets +onlyGivenNames m11
    have hm11 : Sound m11 := by
      unfold m11
      apply Node.twS0_sound
      assumption
    clear_value m11
    refine ite_ind ?_ ?_
    · intro x
      assumption
    · intro x
      extract_lets +onlyGivenNames m14
      have hm14 : Sound m14 := by
        unfold m14
        apply Node.loS0_sound
        apply Node.ucS0_sound
        assumption
      clear_value m14
      apply Node.gridS0_sound
      refine sound_mk ?_ rfl rfl rfl
      assumption
theorem execStageS1_sound (codes : List (List Int)) (s : State) (h0 : Sound s.node) : Good (execStageS1 codes s) := by
  unfold execStageS1
  refine lift_good (fun n hn => ?_) h0
  refine ite_ind ?_ ?_
  · intro x
    extract_lets +onlyGivenNames m7
    clear_value m7
    apply Node.gridFold_sound
    refine sound_mk ?_ rfl rfl rfl
    assumption
  · intro x
    assumption
theorem execStageS2_sound (late : List Nat) (s : State) (h0 : Sound s.node) : Good (execStageS2 late s) := by
  unfold execStageS2
  refine lift_good (fun n hn => ?_) h0
  refine ite_ind ?_ ?_
  · intro x
    assumption
  · intro x
    refine ite_ind ?_ ?_
    · intro x
      apply Node.markLate_sound
      assumption
    · intro x
      apply Node.gridS2_sound
      assumption
theorem execStageS3_sound (late : List Nat) (s : State) (h0 : Sound s.node) : Good (execStageS3 late s) := by
  unfold execStageS3
  refine lift_good (fun n hn => ?_) h0
  refine ite_ind ?_ ?_
  · intro x
    assumption
  · intro x
    refine ite_ind ?_ ?_
    · intro x
      apply Node.markLate_sound
      assumption
    · intro x
      apply Node.ucS3_sound
      assumption
theorem Node.almHold_sound (n : Node) (h0 : Sound n) : Sound (Node.almHold n) := by
  unfold Node.almHold
  extract_lets +onlyGivenNames m3
  clear_value m3
  extract_lets +onlyGivenNames m4
  have hm4 : Sound m4 := by
    unfold m4
    apply Node.markLate_sound
    assumption
  clear_value m4
  refine sound_mk ?_ rfl rfl rfl
  assumption
theorem execStageS4_sound (late : List ℕ) (s : State) (h0 : Sound s.node) : Good (execStageS4 late s) := by
  unfold execStageS4
  refine lift_good (fun n hn => ?_) h0
  refine ite_ind ?_ ?_
  · intro x
    assumption
  · intro x
    refine ite_ind ?_ ?_
    · intro x
      apply Node.almHold_sound
      assumption
    · intro x
      apply Node.busFlush_sound
      apply Node.almS4_sound
      assumption
theorem Node.loFailing_sound (n : Node) (h0 : Sound n) : Sound (Node.loFailing n) := by
  unfold Node.loFailing
  extract_lets +onlyGivenNames m3
  have hm3 : Sound m3 := by
    unfold m3
    refine ite_ind ?_ ?_
    · intro x
      assumption
    · intro x
      apply Node.loPowerFail_sound
      assumption
  clear_value m3
  extract_lets +onlyGivenNames m5
  have hm5 : Sound m5 := by
    unfold m5
    refine foldl_ok ?_ ?_
    · intro x x x
      apply Node.loZeroOff_sound
      apply Node.loDrive_sound
      assumption
    · assumption
  clear_value m5
  refine sound_mk ?_ rfl rfl rfl
  assumption
theorem Node.loLate_sound (n : Node) (lo : LoIn) (h0 : Sound n) : Sound (Node.loLate n lo) := by
  unfold Node.loLate
  extract_lets +onlyGivenNames m4
  have hm4 : Sound m4 := by
    unfold m4
    apply Node.markLate_sound
    assumption
  clear_value m4
  refine sound_mk ?_ rfl rfl rfl
  assumption
theorem Node.linesLate_sound (n : Node) (h0 : Sound n) : Sound (Node.linesLate n) := by
  unfold Node.linesLate
  extract_lets +onlyGivenNames m3
  clear_value m3
  extract_lets +onlyGivenNames m4
  have hm4 : Sound m4 := by
    unfold m4
    apply Node.markLate_sound
    assumption
  clear_value m4
  refine sound_mk ?_ rfl rfl rfl
  assumption
theorem execStageS5_sound (late : List ℕ) (lo : LoIn) (s : State) (h0 : Sound s.node) : Good (execStageS5 late lo s) := by
  unfold execStageS5
  refine lift_good (fun n hn => ?_) h0
  refine ite_ind ?_ ?_
  · intro x
    refine ite_ind ?_ ?_
    · intro x
      assumption
    · intro x
      apply Node.loFailing_sound
      assumption
  · intro x
    refine ite_ind ?_ ?_
    · intro x
      assumption
    · intro x
      extract_lets +onlyGivenNames m9
      have hm9 : Sound m9 := by
        unfold m9
        refine ite_ind ?_ ?_
        · intro x
          apply Node.loLate_sound
          assumption
        · intro x
          apply Node.loS5_sound
          assumption
      clear_value m9
      extract_lets +onlyGivenNames m11
      have hm11 : Sound m11 := by
        unfold m11
        apply Node.almS5_sound
        assumption
      clear_value m11
      refine ite_ind ?_ ?_
      · intro x
        apply Node.linesLate_sound
        assumption
      · intro x
        apply Node.driveLines_sound
        assumption
theorem execStageS6_sound (late : List ℕ) (nvBad : List ℕ) (s : State) (h0 : Sound s.node) : Good (execStageS6 late nvBad s) := by
  unfold execStageS6
  refine lift_good (fun n hn => ?_) h0
  refine ite_ind ?_ ?_
  · intro x
    assumption
  · intro x
    extract_lets +onlyGivenNames m8
    have hm8 : Sound m8 := by
      unfold m8
      apply Node.intakeStaged_sound
      refine ite_ind ?_ ?_
      · intro x
        apply Node.transS6_sound
        assumption
      · intro x
        assumption
    clear_value m8
    extract_lets +onlyGivenNames m10
    clear_value m10
    extract_lets +onlyGivenNames m11
    have hm11 : Sound m11 := by
      unfold m11
      refine sound_mk ?_ rfl rfl rfl
      assumption
    clear_value m11
    refine ite_ind ?_ ?_
    · intro x
      apply Node.markLate_sound
      assumption
    · intro x
      apply Node.busFlush_sound
      apply Node.pwrcycCommit_sound
      apply Node.writer_sound
      assumption
theorem execStageS7_sound (cut : Option Nat) (nvBad : List Nat) (s : State) (h0 : Sound s.node) : Good (execStageS7 cut nvBad s) := by
  unfold execStageS7
  refine lift_good (fun n hn => ?_) h0
  refine ite_ind ?_ ?_
  · intro x
    assumption
  · intro x
    extract_lets +onlyGivenNames m8
    have hm8 : Sound m8 := by
      unfold m8
      apply Node.almS7_sound
      apply Node.dispS7_sound
      apply Node.gpS7_sound
      apply Node.irqNotices_sound
      assumption
    clear_value m8
    extract_lets +onlyGivenNames m10
    have hm10 : Sound m10 := by
      unfold m10
      refine ite_ind ?_ ?_
      · intro x
        refine foldl_ok ?_ ?_
        · intro x x x
          apply Node.mrS7_sound
          assumption
        · assumption
      · intro x
        assumption
    clear_value m10
    extract_lets +onlyGivenNames m12
    have hm12 : Sound m12 := by
      unfold m12
      refine ite_ind ?_ ?_
      · intro x
        apply Node.markLate_sound
        assumption
      · intro x
        assumption
    clear_value m12
    extract_lets +onlyGivenNames m14
    have hm14 : Sound m14 := by
      unfold m14
      apply Node.reqCopy_sound
      assumption
    clear_value m14
    extract_lets +onlyGivenNames m16
    have hm16 : Sound m16 := by
      unfold m16
      refine foldl_ok ?_ ?_
      · intro x x x
        apply Node.serve_sound
        assumption
      · assumption
    clear_value m16
    apply Node.busFlush_sound
    apply Node.annexFlush_sound
    apply Node.sleepStep_sound
    assumption
theorem Node.pulseUp_sound (n : Node) (m : Moment) (h0 : Sound n) : Sound (Node.pulseUp n m) := by
  unfold Node.pulseUp
  refine sound_mk ?_ rfl rfl rfl
  assumption
theorem Node.secondWork_sound (n : Node) (m : Moment) (h0 : Sound n) : Sound (Node.secondWork n m) := by
  unfold Node.secondWork
  extract_lets +onlyGivenNames m4
  clear_value m4
  extract_lets +onlyGivenNames m5
  have hm5 : Sound m5 := by
    unfold m5
    apply Node.ring_sound
    refine sound_mk ?_ rfl rfl rfl
    assumption
  clear_value m5
  apply Node.markSecond_sound
  apply Node.sourceBoundary_sound
  apply Node.holdoverEst_sound
  apply Node.leapBoundary_sound
  apply Node.overrunRecord_sound
  assumption
theorem execNodeTimeSecond_sound (s : State) (h0 : Sound s.node) : Good (execNodeTimeSecond s) := by
  unfold execNodeTimeSecond
  refine lift_good (fun n hn => ?_) h0
  refine ite_ind ?_ ?_
  · intro x
    assumption
  · intro x
    refine ite_ind ?_ ?_
    · intro x
      apply Node.secondWork_sound
      assumption
    · intro x
      apply Node.pulseUp_sound
      apply Node.secondWork_sound
      assumption
theorem execSecondPulseEnd_sound (m : Moment) (s : State) (h0 : Sound s.node) : Good (execSecondPulseEnd m s) := by
  unfold execSecondPulseEnd
  refine lift_good (fun n hn => ?_) h0
  refine ite_ind ?_ ?_
  · intro x
    refine sound_mk ?_ rfl rfl rfl
    assumption
  · intro x
    assumption
theorem execTimeStep_sound (s : State) (h0 : Sound s.node) : Good (execTimeStep s) := by
  unfold execTimeStep
  refine lift_good (fun n hn => ?_) h0
  refine ite_ind ?_ ?_
  · intro x
    assumption
  · intro x
    extract_lets +onlyGivenNames m6
    have hm6 : Sound1 m6 := by
      unfold m6
      apply Node.timeStep_sound
      assumption
    clear_value m6
    refine ite_ind ?_ ?_
    · intro x
      apply Node.transStep_sound
      apply Node.gridStep_sound
      refine Sound1.h ?_
      assumption
    · intro x
      refine Sound1.h ?_
      assumption
theorem Node.bankGone_sound (n : Node) (b : ℕ) (m : Moment) (h0 : Sound n) : Sound (Node.bankGone n b m) := by
  unfold Node.bankGone
  refine ite_ind ?_ ?_
  · intro x
    refine foldl_ok ?_ ?_
    · intro x x x
      refine ite_ind ?_ ?_
      · intro x
        assumption
      · intro x
        apply Node.charGone_sound
        assumption
    · assumption
  · intro x
    apply Node.dispBankB_sound
    assumption
theorem Node.bankFound_sound (n : Node) (b : ℕ) (cls : ℕ) (levels : ℕ) (h0 : Sound n) : Sound (Node.bankFound n b cls levels) := by
  unfold Node.bankFound
  extract_lets +onlyGivenNames m6
  have hm6 : Sound m6 := by
    unfold m6
    apply Node.setFd_sound
    assumption
  clear_value m6
  refine foldl_ok ?_ ?_
  · intro x x x
    apply Node.setOn_sound
    assumption
  · assumption
theorem execBankClassChange_sound (b cls levels : Nat) (m : Moment) (s : State) (h0 : Sound s.node) : Good (execBankClassChange b cls levels m s) := by
  unfold execBankClassChange
  refine lift_good (fun n hn => ?_) h0
  refine ite_ind ?_ ?_
  · intro x
    assumption
  · intro x
    refine ite_ind ?_ ?_
    · intro x
      apply Node.bankFound_sound
      assumption
    · intro x
      extract_lets +onlyGivenNames m11
      have hm11 : Sound m11 := by
        unfold m11
        refine ite_ind ?_ ?_
        · intro x
          apply Node.bankGone_sound
          assumption
        · intro x
          assumption
      clear_value m11
      apply Node.bankTo_sound
      assumption
end Sys2Proof.Machine
end

