-- ==== Sys2Proof/Tests/Slice0.lean ====
section
/-! SUPPORT. Tests of the model. A theorem `witness_X` shows, for the statement `Obligations.X`, a concrete state and operands that meet the
hypotheses of each of its clauses; a theorem `illformed_…` shows a term that a check of WellFormed refuses; a theorem `test_…` shows one step whose
expected result is worked out by hand from the rule it names. -/
set_option linter.all false
set_option maxRecDepth 8192
open Sys2Proof Sys2Proof.Machine
namespace Sys2Proof.Tests

/-- A node that runs: its stored settings have loaded and it has full power. -/
def nd : Node := { State.reset.node with sys := { State.reset.node.sys with phase := .loaded, power := .full } }
def st (n : Node) : State := ⟨n, []⟩
/-- A generated line of the host port, with the index items and the keys. -/
def ln (i : Option (List (Nat × Nat))) (k : Keys) : Line := ⟨.host, "1", i, k⟩
def on_ : Val := .words ["ON"]
def wd (w : String) : Val := .words [w]

abbrev Rdy (o : Obj) (n : Node) (l : Line) : Prop :=
  n.portReady l.port = true ∧ n.sys.phase = .loaded ∧ (n.takeLine l).mayWrite l.port o l.idx = .ok ()
/-- Some state, line and node are such that the line may execute and `P` holds. -/
def W (o : Obj) (P : Line → Node → Prop) : Prop := ∃ (s : State) (l : Line) (n : Node), MayRun s l o n ∧ P l n
theorem W.wit {o : Obj} {P : Line → Node → Prop} (n : Node) (l : Line) (h : Rdy o n l) (p : P l (n.takeLine l)) : W o P :=
  ⟨st n, l, _, ⟨⟨h.1, h.2.1⟩, rfl, h.2.2⟩, p⟩
/-- The same for a line that holds nothing. -/
def V (P : Line → Node → Prop) : Prop := ∃ (s : State) (l : Line) (n : Node), taken s l = n ∧ Live s l ∧ P l n
theorem V.wit {P : Line → Node → Prop} (n : Node) (l : Line) (h : n.portReady l.port = true ∧ n.sys.phase = .loaded)
    (p : P l (n.takeLine l)) : V P := ⟨st n, l, _, rfl, ⟨h.1, h.2⟩, p⟩
/-- The same for an event on a node that runs. -/
def E (P : Node → Prop) : Prop := ∃ (s : State) (n : Node), s.node = n ∧ n.awake = true ∧ P n
theorem E.wit {P : Node → Prop} (n : Node) (h : n.awake = true) (p : P n) : E P := ⟨st n, n, rfl, h, p⟩

/-! ### Witnesses -/

theorem witness_StepRunsFrontCommand : ∃ (c : Instr) (rest : List Instr) (s : State), s.pending = c :: rest :=
  ⟨.timeStep, [], { st nd with pending := [.timeStep] }, rfl⟩
theorem witness_EmptyQueueIdles : ∃ s : State, s.pending = [] := ⟨st nd, rfl⟩
theorem witness_EveryStepKeepsSound : ∃ s t : State, Sound s.node ∧ step s = .next t :=
  ⟨st nd, st nd, ⟨by decide, by decide, by decide, by decide⟩, rfl⟩
theorem witness_IdentityReads : V (fun l _ => Plain l) ∧ V (fun l _ => l.idx = none ∧ l.keys ≠ []) ∧ V (fun l _ => l.idx ≠ none) :=
  ⟨.wit nd (ln none []) (by decide) ⟨rfl, rfl⟩, .wit nd (ln none [("A", .int 0)]) (by decide) (by decide),
   .wit nd (ln (some [(0, 0)]) []) (by decide) (by decide)⟩
theorem witness_GetTimeReply : V (fun l _ => Plain l) := .wit nd (ln none []) (by decide) ⟨rfl, rfl⟩
theorem witness_BeatShownAndCleared : W .beat (fun l _ => Plain l) := .wit nd (ln none []) (by decide) ⟨rfl, rfl⟩
theorem witness_NodeReads : V (fun l _ => Plain l) := .wit nd (ln none []) (by decide) ⟨rfl, rfl⟩
theorem witness_HelperReads : V (fun l n => Plain l ∧ n.rd Ad.GRID_REPEST = 0xFFFFFFFF#32 ∧ n.rd Ad.GRID_REPSEC = 0#32 ∧ n.rd Ad.GRID_REPQNS = 0#32) ∧
    V (fun l n => Plain l ∧ n.readable (n.rd Ad.ARC_NEWEST).toNat = true) :=
  ⟨.wit (((nd.wr Ad.GRID_REPEST 0xFFFFFFFF#32).wr Ad.GRID_REPSEC 0#32).wr Ad.GRID_REPQNS 0#32) (ln none []) (by decide) ⟨⟨rfl, rfl⟩, by decide⟩,
   .wit ((nd.wr Ad.ARC_NEWEST 1#32).wr Ad.ARC_OLDEST 1#32) (ln none []) (by decide) ⟨⟨rfl, rfl⟩, by decide⟩⟩
theorem witness_ItemReads : V (fun l _ => l.keys = [] ∧ l.items 24 = .ok [0, 23]) ∧ V (fun l _ => l.keys = [] ∧ l.items 8 = .ok [7]) ∧
    V (fun l _ => l.keys = [] ∧ l.items 1024 = .ok [1023]) ∧ V (fun l _ => l.keys = [] ∧ l.items 64 = .ok [63]) ∧
    V (fun l _ => l.keys = [] ∧ l.items 512 = .ok [0x100, 0x1FF] ∧ [0x100, 0x1FF].all assigned = true) ∧ V (fun l _ => l.keys = [] ∧ l.items 48 = .ok [47]) :=
  ⟨.wit nd (ln (some [(0, 0), (23, 23)]) []) (by decide) (by decide), .wit nd (ln (some [(7, 7)]) []) (by decide) (by decide),
   .wit nd (ln (some [(1023, 1023)]) []) (by decide) (by decide), .wit nd (ln (some [(63, 63)]) []) (by decide) (by decide),
   .wit nd (ln (some [(0x100, 0x100), (0x1FF, 0x1FF)]) []) (by decide) (by decide), .wit nd (ln (some [(47, 47)]) []) (by decide) (by decide)⟩
theorem witness_PortReads : V (fun l _ => l.idx = none ∧ portOnly [] [] l.keys = .ok () ∧ keyPort l.keys = 1) ∧
    V (fun l _ => l.idx = none ∧ onlyKeys ["MODE", "BAND"] ["MODE", "BAND"] l.keys = .ok () ∧ checkKeys waveSpecs [] l.keys = .ok ()) :=
  ⟨.wit nd (ln none [("PORT", wd "B")]) (by decide) (by decide),
   .wit nd (ln none [("MODE", wd "PART"), ("BAND", .int 7)]) (by decide) (by decide)⟩
theorem witness_SettingsAndHelp : V (fun l _ => Plain l ∧ ["HBAUD"].all (fun k => (specOf (sysSpecs.take 12) k).isSome) = true) ∧
    V (fun l _ => verbs.contains "GET" = true ∧ (objects.contains "UC" = true ∧ verbs.contains "UC" = false) ∧ verbs.contains "AXLE" = false ∧ objects.contains "AXLE" = false) ∧
    (∃ (s : State) (l : Line) (w : Waiting) (t : List Waiting), s.node.portReady l.port = true ∧ (s.node.port l.port).waiting = w :: t ∧
      isHelpQuery w.chars = true ∧ l.port ≠ .bus) :=
  ⟨.wit nd (ln none []) (by decide) ⟨⟨rfl, rfl⟩, by decide⟩, .wit nd (ln none []) (by decide) (by decide),
   st (nd.setPort .host { nd.port .host with waiting := [⟨[63], "", 0, 0, 0, 0, false⟩] }), ln none [], _, [], by decide, rfl, by decide, by decide⟩
def ndAlm : Node := nd.setFd Fd.ALM_STAT_STATE 1
theorem witness_SettingsWritten :
    W .sys (fun l _ => l.idx = none ∧ checkKeys sysSpecs [] l.keys = .ok ()) ∧
    W .time (fun l _ => l.idx = none ∧ checkKeys timeSpecs [] l.keys = .ok ()) ∧
    W .grid (fun l n => l.idx = none ∧ checkKeys gridSpecsFs [] l.keys = .ok () ∧ (n.gridApply l.keys).map (fun m => (hasKey l.keys "FRAMES" && !n.framesOk (m.fd Fd.GRID_CTRL_FRAMES), gridLocked n m)) = some (false, false)) ∧
    W .trans (fun l _ => l.idx = none ∧ checkKeys transSpecs [] l.keys = .ok ()) ∧
    W .ap (fun l n => l.idx = none ∧ checkKeys engineSpecs ["ENGINE"] l.keys = .ok () ∧ ¬ (n.fd Fd.ALM_STAT_STATE = 0 ∧ keyNum engineSpecs l.keys "ENGINE" = some 0)) ∧
    W .call (fun l n => l.idx = none ∧ checkKeys callSpecs [] l.keys = .ok () ∧ (n.setKeys callSpecs 0 l.keys).callTimesOk = true ∧ engineNeeded n = .ok ()) ∧
    W .arc (fun l n => l.idx = none ∧ arcCheck l.keys n = .ok ()) ∧
    W .survey (fun l n => l.idx = none ∧ checkKeys surveySpecs [] l.keys = .ok () ∧ (hasKey l.keys "STATION" && n.srv.running) = false) ∧
    W .bus (fun l n => l.idx = none ∧ checkKeys linkSpecs [] l.keys = .ok () ∧ (hasKey l.keys "LINK" && n.srv.running) = false) ∧
    W .tw (fun l _ => l.idx = none ∧ checkKeys twSpecs [] l.keys = .ok ()) ∧
    W .disp (fun l n => l.idx = none ∧ n.dispCheck l.keys = .ok ()) ∧
    W .node (fun l n => l.idx = none ∧ checkKeys nodeSpecs [] l.keys = .ok () ∧ (n.putKeys nodeSpecs 0 l.keys).nodeRegOk = true) ∧
    W .dic (fun l _ => l.idx = none ∧ dicCheck l.keys = .ok ()) :=
  ⟨.wit nd (ln none [("HTURN", .int 1000)]) (by decide) (by decide), .wit nd (ln none [("PPSWIN", .int 50000)]) (by decide) (by decide),
   .wit nd (ln none [("ENABLE", on_)]) (by decide) (by decide), .wit nd (ln none [("AUTOARM", .int 3600)]) (by decide) (by decide),
   .wit nd (ln none [("ENGINE", on_)]) (by decide) (by decide), .wit ndAlm (ln none [("T1", .int 0)]) (by decide) (by decide),
   .wit nd (ln none [("ENABLE", on_)]) (by decide) (by decide), .wit nd (ln none [("STATION", .int 254)]) (by decide) (by decide),
   .wit nd (ln none [("LINK", wd "WAY")]) (by decide) (by decide), .wit nd (ln none [("TIMEOUT", .int 100)]) (by decide) (by decide),
   .wit nd (ln none [("LINEGAP", .int 15)]) (by decide) (by decide), .wit nd (ln none [("AWDOG", .int 0)]) (by decide) (by decide),
   .wit nd (ln none [("EDGESTEP", .int 255)]) (by decide) (by decide)⟩
def ndTrim : Node := nd.setFds [(Fd.BUS_TRIM_VALID 1 63, 1), (Fd.BUS_TRIM_STATION 1 63, 254)]
theorem witness_NamedItemsWritten :
    W .bus (fun l n => l.idx = none ∧ keyPort l.keys = 1 ∧ checkKeys busPortAll ["PORT"] l.keys = .ok () ∧ wideBad l.keys = false ∧
      keyNum busPortAll l.keys "CRATE" = some 5 ∧ (n.bp 1).count ≤ crateLimit 5 ∧ keyNum busPortAll l.keys "BRATE" = some 3 ∧
      (n.bp 1).count ≤ brateLimit 3 ∧ (l.keys.any (fun x => wakeKeys.contains x.1) && n.surveyOn 1) = false) ∧
    W .bus (fun l _ => l.idx = none ∧ keyPort l.keys = 0 ∧ portOnly (gateKey :: gateSpecs 0) ["GATE"] l.keys = .ok ()) ∧
    W .bus (fun l n => l.idx = none ∧ keyPort l.keys = 1 ∧ portOnly [stationKey "TRIMLOCK"] ["TRIMLOCK"] l.keys = .ok () ∧
      n.trimFind 1 ((keyNum [stationKey "TRIMLOCK"] l.keys "TRIMLOCK").getD 0) = some 63) ∧
    W .bus (fun l _ => l.idx = none ∧ checkKeys (valKey :: valSpecs) ["VAL"] l.keys = .ok () ∧
      keyNum valSpecs l.keys "SRC" = some 65537 ∧ ¬ ((65537 : Nat) ≠ 0 ∧ (65537 - 1) / 65536 = 4) ∧ keyNum valSpecs l.keys "PERIOD" = some 60000) ∧
    W .bus (fun l _ => l.idx = none ∧ checkKeys almToSpecs ["ALMTO"] l.keys = .ok ()) ∧
    W .gp (fun l n => l.idx = none ∧ checkKeys gpMaskSpecs (["MASK0", "VAL0"] ++
        (if hasKey l.keys "MASK1" then ["VAL1"] else []) ++ (if hasKey l.keys "VAL1" then ["MASK1"] else [])) l.keys = .ok () ∧
      BitVec.ofNat 32 ((keyNum gpMaskSpecs l.keys "MASK0").getD 0) &&& n.rd Ad.GP_HWMASK0 = 0#32 ∧
      BitVec.ofNat 32 ((keyNum gpMaskSpecs l.keys "MASK1").getD 0) &&& n.rd Ad.GP_HWMASK1 = 0#32) ∧
    W .uc (fun l n => l.idx = none ∧ checkKeys ctabSpecs ["CTAB"] l.keys = .ok () ∧ keyNum ctabSpecs l.keys "NPT" = none ∧
      keyNum ctabSpecs l.keys "POINT" = some 31 ∧ (keyNum ctabSpecs l.keys "OHM").isSome = true ∧ (keyNum ctabSpecs l.keys "DEGC").isSome = true ∧
      (List.range 24).any (fun j => n.usesTable j ((keyNum ctabSpecs l.keys "CTAB").getD 0)) = false) ∧
    W .disp (fun l n => l.idx = none ∧ n.dispOpen l.keys = .ok () ∧ onlyKeys ["MODE", "BAND", "LEN"] ["MODE", "BAND", "LEN"] l.keys = .ok () ∧
      checkKeys waveSpecs [] l.keys = .ok ()) ∧
    W .disp (fun l n => l.idx = none ∧ n.dispOpen l.keys = .ok () ∧
      onlyKeys ["MODE", "BAND", "FROM", "TO", "DATA"] ["MODE", "BAND", "FROM", "TO", "DATA"] l.keys = .ok () ∧
      (∃ ds, waveDigits (keyVal l.keys "DATA") = .ok ds) ∧ checkKeys waveSpecs [] (l.keys.filter (fun p => p.1 != "DATA")) = .ok ()) ∧
    W .disp (fun l n => l.idx = none ∧ n.dispOpen l.keys = .ok () ∧ checkKeys comSpecs ["COM", "SEGLO", "SEGHI"] l.keys = .ok () ∧
      (keyNum comSpecs l.keys "COM").isSome = true ∧ (keyNum comSpecs l.keys "SEGLO").isSome = true ∧ (keyNum comSpecs l.keys "SEGHI").isSome = true ∧
      hasKey l.keys "BLINKLO" = false ∧ hasKey l.keys "BLINKHI" = false ∧ keyNum comSpecs l.keys "BLINKLO" = none ∧ keyNum comSpecs l.keys "BLINKHI" = none) :=
  ⟨.wit nd (ln none [("PORT", wd "B"), ("CRATE", wd "12"), ("BRATE", wd "5")]) (by decide) (by decide),
   .wit nd (ln none [("PORT", wd "A"), ("GATE", .int 3), ("WIDTH", .int 65535)]) (by decide) (by decide),
   .wit ndTrim (ln none [("PORT", wd "B"), ("TRIMLOCK", .int 254)]) (by decide) (by decide),
   .wit nd (ln none [("VAL", .int 255), ("SRC", wd "LO0"), ("PERIOD", .int 60000)]) (by decide) (by decide),
   .wit nd (ln none [("ALMTO", .int 255)]) (by decide) (by decide),
   .wit nd (ln none [("MASK0", .int 1), ("VAL0", .int 1), ("MASK1", .int 32768), ("VAL1", .int 32768)]) (by decide) (by decide),
   .wit nd (ln none [("CTAB", .int 3), ("POINT", .int 31), ("OHM", .int 100), ("DEGC", .int 0)]) (by decide) (by decide),
   .wit nd (ln none [("MODE", wd "FULL"), ("BAND", .int 7), ("LEN", .int 64)]) (by decide) (by decide),
   .wit nd (ln none [("MODE", wd "PART"), ("BAND", .int 0), ("FROM", .int 3), ("TO", .int 3), ("DATA", wd "00112233445566778899AABBCCDDEEFF")]) (by decide)
     ⟨rfl, by decide, by decide, ⟨_, rfl⟩, by decide⟩,
   .wit nd (ln none [("COM", .int 3), ("SEGLO", .int 1), ("SEGHI", .int 255)]) (by decide) (by decide)⟩
theorem witness_InputActions :
    W .tw (fun l _ => l.idx = none ∧ l.keys = []) ∧ W .dic (fun l _ => l.idx = none ∧ l.keys = []) ∧
    W .time (fun l n => l.idx = none ∧ checkKeys timeSetSpecs ["SEC", "QNS", "AT"] l.keys = .ok () ∧ (keyNum timeSetSpecs l.keys "AT").getD 0 = 60 ∧
      n.stageAt 7 + 40000000 ≤ 60 * qnsSec ∧ 60 * qnsSec ≤ n.stageAt 7 + 60 * qnsSec ∧ n.fd Fd.TIME_STATUS_STATE = stUnset) ∧
    W .uc (fun l n => l.idx = none ∧ checkKeys quadSpecs ["QUAD"] l.keys = .ok () ∧ n.fd Fd.UC_QSTAT_QX = 0 ∧ n.uc.forced = none) ∧
    W .uc (fun l n => l.idx = none ∧ checkKeys quadSpecs ["QUAD"] l.keys = .ok () ∧ keyNum quadSpecs l.keys "QUAD" = some 5 ∧ n.fd (qFd 5) ≠ 0 ∧
      16 ≤ (n.quad 5).pass) ∧
    W .trans (fun l n => l.idx = none ∧ l.keys = [] ∧ ∃ m, n.doArm (n.stageAt 7) = some m) ∧
    W .trans (fun l n => l.idx = none ∧ l.keys = [] ∧ ∃ m, n.doDisarm = some m) :=
  ⟨.wit nd (ln none []) (by decide) (by decide), .wit nd (ln none []) (by decide) (by decide),
   .wit nd (ln none [("SEC", .int 0), ("QNS", .int 3999999999), ("AT", .int 60)]) (by decide) (by decide),
   .wit nd (ln none [("QUAD", .int 5)]) (by decide) (by decide),
   .wit ((nd.setFd (qFd 5) 1).setQuad 5 { pass := 16 }) (ln none [("QUAD", .int 5)]) (by decide) (by decide),
   .wit nd (ln none []) (by decide) ⟨rfl, rfl, _, rfl⟩,
   .wit (nd.setFd Fd.TRANS_STAT_STATE tsArmed) (ln none []) (by decide) ⟨rfl, rfl, _, rfl⟩⟩
def ndBus : Node := ndTrim.setFds [(Fd.BUS_STAT_STATE 0, 1), (Fd.BUS_STAT_STATE 1, 1)]
theorem witness_BusActions :
    W .bus (fun l n => l.idx = none ∧ keyPort l.keys = 1 ∧ portOnly [kk "MB" (.int 16 63) (fun _ => 0)] ["MB"] l.keys = .ok () ∧ n.busState 1 = 1 ∧
      (keyNum sendSpecs l.keys "MB").getD 0 = 63) ∧
    W .bus (fun l _ => l.idx = none ∧ portOnly [gateKey] ["GATE"] l.keys = .ok ()) ∧
    W .bus (fun l _ => l.idx = none ∧ portOnly [stationKey "STATION"] [] l.keys = .ok () ∧ keyNum [stationKey "STATION"] l.keys "STATION" = none) ∧
    W .bus (fun l n => l.idx = none ∧ keyPort l.keys = 1 ∧ portOnly [stationKey "STATION"] [] l.keys = .ok () ∧
      keyNum [stationKey "STATION"] l.keys "STATION" = some 254 ∧ n.trimFind 1 254 = some 63) ∧
    W .bus (fun l n => l.idx = none ∧ keyPort l.keys = 0 ∧ portOnly [] [] l.keys = .ok () ∧ n.surveyOn 0 = false) ∧
    W .bus (fun l n => l.idx = none ∧ keyPort l.keys = 1 ∧ portOnly [stationKey "TO"] [] l.keys = .ok () ∧ n.busState 1 = 1 ∧
      n.rd (Ad.BUS_WDMASK 1 0) = 0#32 ∧ n.rd (Ad.BUS_WDMASK 1 1) = 0#32) ∧
    W .survey (fun l n => l.idx = none ∧ (if n.bus.linkF = 0 then keyPort l.keys else 0) = 1 ∧ checkKeys surveyStartSpecs [] l.keys = .ok () ∧ n.surveyOn 1 = false ∧
      n.busState 1 = 1 ∧ (n.bp 1).sleep = 0 ∧ n.busOff 1 = false) ∧
    W .survey (fun l n => l.idx = none ∧ l.keys = [] ∧ ((n.sv 0).role = 1 ∨ (n.sv 1).role = 1)) :=
  ⟨.wit ndBus (ln none [("PORT", wd "B"), ("MB", .int 63)]) (by decide) (by decide),
   .wit ndBus (ln none [("PORT", wd "B"), ("GATE", .int 0)]) (by decide) (by decide),
   .wit ndBus (ln none [("PORT", wd "A")]) (by decide) (by decide),
   .wit ndBus (ln none [("PORT", wd "B"), ("STATION", .int 254)]) (by decide) (by decide),
   .wit ndBus (ln none [("PORT", wd "A")]) (by decide) (by decide),
   .wit ndBus (ln none [("PORT", wd "B"), ("TO", .int 255)]) (by decide) (by decide),
   .wit ndBus (ln none [("PORT", wd "B"), ("MODE", wd "RENUMBER")]) (by decide) (by decide),
   .wit (ndBus.setSv 1 { ndBus.sv 1 with role := 1 }) (ln none []) (by decide) ⟨rfl, rfl, by decide⟩⟩
theorem witness_OutputActions :
    W .gp (fun l _ => l.idx = none ∧ checkKeys gpLockSpecs ["BANK", "MASK"] l.keys = .ok ()) ∧
    W .disp (fun l n => l.idx = none ∧ ∃ d, onlyKeys ["X", "Y", "DATA"] ["X", "Y", "DATA"] l.keys = .ok () ∧ dataKey l.keys 32 = .ok d ∧
      checkKeys loadSpecs [] (l.keys.filter (fun p => p.1 != "DATA")) = .ok () ∧ (keyNum loadSpecs l.keys "X").getD 0 + 4 * d.length = n.dispW ∧
      (keyNum loadSpecs l.keys "Y").getD 0 + 1 = n.dispH ∧ (keyNum loadSpecs l.keys "X").getD 0 % 4 = 0 ∧ n.dispOpen l.keys = .ok () ∧
      n.on Fd.DISP_STAT_SNAP = false) ∧
    W .sys (fun l _ => l.idx = none ∧ checkKeys reinitPortSpecs ["PORT"] l.keys = .ok ()) ∧
    W .node (fun l n => l.idx = none ∧ ∃ d, onlyKeys ["ADDR", "DATA"] ["ADDR", "DATA"] l.keys = .ok () ∧
      (∃ v, keyVal l.keys "DATA" = some v ∧ (hexData v).isSome = true) ∧ checkKeys nodeLoadSpecs [] (l.keys.filter (fun k => k.1 == "ADDR")) = .ok () ∧
      dataKey l.keys 64 = .ok d ∧ bigKey l.keys "ADDR" + d.length = 0x10100000 ∧ n.sys.power ≠ .quiet ∧ n.annexRuns = false) ∧
    W .node (fun l n => l.idx = none ∧ l.keys = [] ∧ 2 ≤ n.annexState) ∧
    W .node (fun l n => l.idx = none ∧ l.keys = [] ∧ n.sys.power ≠ .quiet) ∧
    W .node (fun l n => l.idx = none ∧ l.keys = [] ∧ n.sys.power ≠ .full) ∧
    W .dic (fun l n => l.idx = none ∧ l.keys = [] ∧ n.winner (n.deliverable 1) = none) ∧
    W .dic (fun l n => l.idx = none ∧ l.keys = [] ∧ n.winner (n.deliverable 1) = some 255) :=
  ⟨.wit nd (ln none [("BANK", wd "B"), ("MASK", .int 0xFFFFFF)]) (by decide) (by decide),
   .wit (nd.setFds [(Fd.DISP_GEOM_W, 64), (Fd.DISP_GEOM_H, 32)]) (ln none [("X", .int 56), ("Y", .int 31), ("DATA", wd "A0FF")]) (by decide)
     ⟨rfl, [0xA0#8, 0xFF#8], by decide⟩,
   .wit nd (ln none [("PORT", wd "BUS")]) (by decide) (by decide),
   .wit nd (ln none [("ADDR", .int 0x100FFFFF), ("DATA", wd "7F")]) (by decide) ⟨rfl, [0x7F#8], by decide, ⟨_, rfl, by decide⟩, by decide, by decide, by decide, by decide, by decide⟩,
   .wit (nd.setFd Fd.SYS_ASTAT_STATE 2) (ln none []) (by decide) (by decide),
   .wit nd (ln none []) (by decide) (by decide),
   .wit { nd with sys := { nd.sys with power := .quiet } } (ln none []) (by decide) (by decide),
   .wit nd (ln none []) (by decide) (by decide),
   .wit (((nd.wr (Ad.DIC_PEND 7) 0x80000000#32).wr (Ad.DIC_ENA 7) 0x80000000#32).setFds [(Fd.DIC_SRC_TARGET 255, 1), (Fd.DIC_GDIS_HOST, 0)]) (ln none []) (by decide) (by decide)⟩
theorem witness_ItemSettingsWritten :
    W .uc (fun l n => l.items 24 = .ok [23] ∧ nd.deferTicks 23 = 0 ∧ ucCheck l.keys n [23] = .ok ()) ∧
    W .lo (fun l n => l.items 8 = .ok [7] ∧ loCheckKeys l.keys n [7] = .ok ()) ∧
    W .time (fun l _ => l.items 8 = .ok [7] ∧ checkKeys captureSpecs [] l.keys = .ok ()) ∧
    W .grid (fun l _ => l.items 8 = .ok [7] ∧ checkKeys gridInSpecs [] l.keys = .ok ()) ∧
    W .trans (fun l _ => l.items 8 = .ok [7] ∧ checkKeys transInSpecs [] l.keys = .ok ()) ∧
    W .ap (fun l n => l.items 1024 = .ok [1023] ∧ apCheck l.keys n [1023] = .ok ()) ∧
    W .ag (fun l n => l.items 64 = .ok [63] ∧ agCheck l.keys n [63] = .ok ()) ∧
    W .call (fun l n => l.items 8 = .ok [7] ∧ checkKeys callLineSpecs [] l.keys = .ok () ∧ n.fd Fd.ALM_STAT_STATE ≠ 0) ∧
    W .arc (fun l n => l.items 512 = .ok [511] ∧ codeCheck l.keys n [511] = .ok ()) ∧
    W .bus (fun l _ => l.items 128 = .ok [127] ∧ portOnly (filterSpecs (keyPort l.keys)) [] l.keys = .ok ()) ∧
    W .gp (fun l n => l.items 48 = .ok [47] ∧ checkKeys gpSpecs [] l.keys = .ok () ∧ gpCheck l.keys n 47 = .ok ()) ∧
    W .dic (fun l _ => l.idx ≠ none ∧ l.items 256 = .ok [255] ∧ dicSrcCheck l.keys = .ok () ∧ keyNum dicSrcSpecs l.keys "MOD" = none) ∧
    W .dic (fun l _ => l.idx ≠ none ∧ l.items 256 = .ok [255] ∧ dicSrcCheck l.keys = .ok () ∧ keyNum dicSrcSpecs l.keys "MOD" = some 7) :=
  ⟨.wit nd (ln (some [(23, 23)]) [("MODE", wd "II20")]) (by decide) (by decide), .wit nd (ln (some [(7, 7)]) [("MODE", wd "SNK")]) (by decide) (by decide),
   .wit nd (ln (some [(7, 7)]) [("PIN", wd "GP47"), ("EDGE", wd "BOTH")]) (by decide) (by decide),
   .wit nd (ln (some [(7, 7)]) [("ON", on_)]) (by decide) (by decide), .wit nd (ln (some [(7, 7)]) [("K", .int 32)]) (by decide) (by decide),
   .wit ndAlm (ln (some [(1023, 1023)]) [("ON", .int 600000)]) (by decide) (by decide),
   .wit ndAlm (ln (some [(63, 63)]) [("BLKREL", .int 600000)]) (by decide) (by decide),
   .wit ndAlm (ln (some [(7, 7)]) [("POL", wd "LOW")]) (by decide) (by decide),
   .wit nd (ln (some [(511, 511)]) [("FORM", wd "H")]) (by decide) (by decide),
   .wit nd (ln (some [(127, 127)]) [("PORT", wd "B"), ("ENABLE", on_)]) (by decide) (by decide),
   .wit nd (ln (some [(47, 47)]) [("PULL", wd "DOWN")]) (by decide) (by decide),
   .wit nd (ln (some [(255, 255)]) [("PRIO", .int 255)]) (by decide) (by decide), .wit nd (ln (some [(255, 255)]) [("MOD", .int 7)]) (by decide) (by decide)⟩
def ndCall : Node := ndAlm.putPt 1023 { ndAlm.pt 1023 with under := 2 }
theorem witness_ItemActions :
    W .time (fun l _ => l.items 8 = .ok [7] ∧ l.keys = []) ∧
    W .ap (fun l n => l.items 1024 = .ok [1023] ∧ apAckCheck l.keys n [1023] = .ok ()) ∧
    W .ap (fun l n => l.items 1024 = .ok [1023] ∧ checkKeys apShelveSpecs ["TIME"] l.keys = .ok () ∧ n.fd Fd.ALM_STAT_STATE ≠ 0 ∧
      keyNum apShelveSpecs l.keys "TIME" = some 1) ∧
    W .ap (fun l n => l.items 1024 = .ok [1023] ∧ l.keys = [] ∧ n.fd Fd.ALM_STAT_STATE ≠ 0) ∧
    W .ag (fun l n => l.items 64 = .ok [63] ∧ l.keys = [] ∧ n.fd Fd.ALM_STAT_STATE ≠ 0) ∧
    W .gp (fun l n => l.items 48 = .ok [47] ∧ l.keys = [] ∧ n.owned 47 = false) ∧ W .lo (fun l _ => l.items 8 = .ok [7] ∧ l.keys = []) :=
  ⟨.wit nd (ln (some [(7, 7)]) []) (by decide) (by decide), .wit ndCall (ln (some [(1023, 1023)]) []) (by decide) (by decide),
   .wit ndAlm (ln (some [(1023, 1023)]) [("TIME", .int 1)]) (by decide) (by decide), .wit ndAlm (ln (some [(1023, 1023)]) []) (by decide) (by decide),
   .wit ndAlm (ln (some [(63, 63)]) []) (by decide) (by decide), .wit nd (ln (some [(47, 47)]) []) (by decide) (by decide),
   .wit nd (ln (some [(7, 7)]) []) (by decide) (by decide)⟩
def ndAct : Node := { nd.wr (Ad.DIC_ACT 7) 0x80000000#32 with dic := { nd.dic with actHost := [255] } }
theorem witness_InterruptActions :
    W .dic (fun l n => l.items 256 = .ok [255] ∧ l.keys = [] ∧ n.act 255 = true ∧ n.dic.actHost.contains 255 = true) ∧
    W .dic (fun l n => l.items 256 = .ok [255] ∧ l.keys = [] ∧ (n.act 255 && n.dic.actHost.contains 255) = false) :=
  ⟨.wit ndAct (ln (some [(255, 255)]) []) (by decide) (by decide), .wit nd (ln (some [(255, 255)]) []) (by decide) (by decide)⟩
def ndCall2 : Node := ndCall.putPt 0 { ndCall.pt 0 with under := 2 }
theorem witness_ManyItemsStartMicroRoutine :
    W .lo (fun l n => l.items 8 = .ok [0, 7] ∧ loCheckKeys l.keys n [0, 7] = .ok ()) ∧ W .lo (fun l _ => l.items 8 = .ok [0, 7] ∧ l.keys = []) ∧
    W .uc (fun l n => l.items 24 = .ok [0, 23] ∧ ucCheck l.keys n [0, 23] = .ok ()) ∧
    W .time (fun l _ => l.items 8 = .ok [0, 7] ∧ checkKeys captureSpecs [] l.keys = .ok ()) ∧ W .time (fun l _ => l.items 8 = .ok [0, 7] ∧ l.keys = []) ∧
    W .ap (fun l n => l.items 1024 = .ok [0, 1023] ∧ apCheck l.keys n [0, 1023] = .ok ()) ∧
    W .ap (fun l n => l.items 1024 = .ok [0, 1023] ∧ apAckCheck l.keys n [0, 1023] = .ok ()) ∧
    W .ag (fun l n => l.items 64 = .ok [0, 63] ∧ agCheck l.keys n [0, 63] = .ok ()) ∧
    W .arc (fun l n => l.items 512 = .ok [256, 511] ∧ codeCheck l.keys n [256, 511] = .ok ()) ∧ W .dic (fun l _ => l.items 256 = .ok [0, 255] ∧ l.keys = []) :=
  ⟨.wit nd (ln (some [(0, 0), (7, 7)]) [("MODE", wd "SRC")]) (by decide) (by decide), .wit nd (ln (some [(0, 0), (7, 7)]) []) (by decide) (by decide),
   .wit nd (ln (some [(0, 0), (23, 23)]) [("MODE", wd "OFF")]) (by decide) (by decide),
   .wit nd (ln (some [(0, 0), (7, 7)]) [("EDGE", wd "RISE")]) (by decide) (by decide), .wit nd (ln (some [(0, 0), (7, 7)]) []) (by decide) (by decide),
   .wit ndAlm (ln (some [(0, 0), (1023, 1023)]) [("OFF", .int 0)]) (by decide) (by decide),
   .wit ndCall2 (ln (some [(0, 0), (1023, 1023)]) []) (by decide) (by decide),
   .wit ndAlm (ln (some [(0, 0), (63, 63)]) [("CALL", on_)]) (by decide) (by decide),
   .wit nd (ln (some [(256, 256), (511, 511)]) [("FORM", wd "S")]) (by decide) (by decide),
   .wit nd (ln (some [(0, 0), (255, 255)]) []) (by decide) (by decide)⟩
theorem witness_ReinitStartsMicroRoutine :
    W .time (fun l _ => l.keys = [] ∧ l.idx = none) ∧
    W .uc (fun l n => l.keys = [] ∧ l.idx = none ∧ (List.range 24).any (fun i => n.noReserve (i / 4)) = false) ∧
    W .lo (fun l _ => l.keys = [] ∧ l.idx = none) ∧ W .grid (fun l _ => l.keys = [] ∧ l.idx = none) ∧ W .trans (fun l _ => l.keys = [] ∧ l.idx = none) ∧
    W .call (fun l n => l.keys = [] ∧ l.idx = none ∧ n.fd Fd.ALM_STAT_STATE ≠ 0) ∧ W .arc (fun l _ => l.keys = [] ∧ l.idx = none) ∧
    W .gp (fun l _ => l.keys = [] ∧ l.idx = none) ∧ W .tw (fun l _ => l.keys = [] ∧ l.idx = none) ∧
    W .disp (fun l n => l.keys = [] ∧ l.idx = none ∧ n.dispState ≠ 2) ∧ W .dic (fun l _ => l.keys = [] ∧ l.idx = none) ∧
    W .uc (fun l n => l.keys = [] ∧ l.idx ≠ none ∧ l.items 24 = .ok [0, 23] ∧ [0, 23].any (fun i => n.noReserve (i / 4)) = false) ∧
    W .lo (fun l _ => l.keys = [] ∧ l.items 8 = .ok [7]) ∧
    W .ap (fun l n => l.keys = [] ∧ l.items 1024 = .ok [1023] ∧ n.fd Fd.ALM_STAT_STATE ≠ 0) ∧
    W .ag (fun l n => l.keys = [] ∧ l.items 64 = .ok [63] ∧ n.fd Fd.ALM_STAT_STATE ≠ 0) ∧
    W .gp (fun l _ => l.keys = [] ∧ l.items 48 = .ok [47]) ∧ W .bus (fun l _ => l.idx = none ∧ portOnly [] [] l.keys = .ok ()) :=
  ⟨.wit nd (ln none []) (by decide) ⟨rfl, rfl⟩, .wit nd (ln none []) (by decide) (by decide), .wit nd (ln none []) (by decide) ⟨rfl, rfl⟩,
   .wit nd (ln none []) (by decide) ⟨rfl, rfl⟩, .wit nd (ln none []) (by decide) ⟨rfl, rfl⟩, .wit ndAlm (ln none []) (by decide) (by decide),
   .wit nd (ln none []) (by decide) ⟨rfl, rfl⟩, .wit nd (ln none []) (by decide) ⟨rfl, rfl⟩, .wit nd (ln none []) (by decide) ⟨rfl, rfl⟩,
   .wit nd (ln none []) (by decide) (by decide), .wit nd (ln none []) (by decide) ⟨rfl, rfl⟩,
   .wit nd (ln (some [(0, 0), (23, 23)]) []) (by decide) (by decide), .wit nd (ln (some [(7, 7)]) []) (by decide) (by decide),
   .wit ndAlm (ln (some [(1023, 1023)]) []) (by decide) (by decide), .wit ndAlm (ln (some [(63, 63)]) []) (by decide) (by decide),
   .wit nd (ln (some [(47, 47)]) []) (by decide) (by decide), .wit nd (ln none [("PORT", wd "B")]) (by decide) (by decide)⟩
def ndTw : Node := nd.setFd Fd.TW_STAT_STATE 1
/-- A node whose display is enabled on a powered bank, with a waveform of one frame in the bands of FULL. -/
def ndDisp : Node := (List.range 16).foldl (fun n b => n.setK (Kid.waveLen b) 1#32)
  (nd.setFds [(Fd.DISP_STAT_STATE, 1), (Fd.GP_BANK_B, 2), (Fd.DISP_TEMP_TSRC, 25)])
theorem witness_TransfersAndDisplayActions :
    W .tw (fun l n => l.idx = none ∧ n.twState = 1 ∧ onlyKeys ["ADDR", "DATA"] ["ADDR", "DATA"] l.keys = .ok () ∧ dataKey l.keys 32 = .ok [0x5A#8] ∧
      checkKeys twAddrSpecs ["ADDR"] (l.keys.filter (fun p => p.1 != "DATA")) = .ok () ∧ keyNum twAddrSpecs l.keys "ADDR" = some 0x77) ∧
    W .tw (fun l n => l.idx = none ∧ n.twState = 1 ∧ checkKeys twAddrSpecs ["ADDR", "COUNT"] l.keys = .ok () ∧ keyNum twAddrSpecs l.keys "ADDR" = some 8 ∧
      keyNum twAddrSpecs l.keys "COUNT" = some 32) ∧
    W .tw (fun l n => l.idx = none ∧ n.twState = 1 ∧ l.keys = [] ∧ n.tw.phase = .idle) ∧
    W .disp (fun l n => l.idx = none ∧ checkKeys updSpecs [] l.keys = .ok () ∧ keyNum updSpecs l.keys "WAIT" ≠ some 1 ∧
      (n.updStart (keyNum updSpecs l.keys "MODE" == some 0) (keyNum updSpecs l.keys "GREY") none 70000).toBool = true) ∧
    W .disp (fun l n => l.idx = none ∧ checkKeys updSpecs [] l.keys = .ok () ∧ keyNum updSpecs l.keys "WAIT" = some 1 ∧
      (n.updStart (keyNum updSpecs l.keys "MODE" == some 0) (keyNum updSpecs l.keys "GREY") (some l.port) 70000).toBool = true) ∧
    W .disp (fun l n => l.idx = none ∧ checkKeys railsSpecs ["RAILS"] l.keys = .ok () ∧ n.dispOpen l.keys = .ok () ∧ keyNum railsSpecs l.keys "RAILS" ≠ some 1) ∧
    W .disp (fun l n => l.idx = none ∧ checkKeys railsSpecs ["RAILS"] l.keys = .ok () ∧ n.dispOpen l.keys = .ok () ∧ keyNum railsSpecs l.keys "RAILS" = some 1 ∧
      n.disp.held = false ∧ ∃ m, n.railsOn (some l.port) = .ok (m, false)) :=
  ⟨.wit ndTw (ln none [("ADDR", .int 0x77), ("DATA", wd "5A")]) (by decide) (by decide),
   .wit ndTw (ln none [("ADDR", .int 8), ("COUNT", .int 32)]) (by decide) (by decide), .wit ndTw (ln none []) (by decide) (by decide),
   .wit ndDisp (ln none [("MODE", wd "FULL")]) (by decide) (by decide), .wit ndDisp (ln none [("MODE", wd "PART"), ("WAIT", on_)]) (by decide) (by decide),
   .wit ndDisp (ln none [("RAILS", wd "OFF")]) (by decide) (by decide),
   .wit ndDisp (ln none [("RAILS", on_)]) (by decide) ⟨rfl, by decide, by decide, by decide, by decide, _, rfl⟩⟩
def startKeys (check : Int) : Keys := [("ENTRY", .int 0x10000002), ("LEN", .int 4), ("CHECK", .int check)]
theorem witness_NodeLifecycle :
    W .node (fun l _ => l.idx = none ∧ l.keys = []) ∧
    W .node (fun l n => l.idx = none ∧ checkKeys startSpecs ["ENTRY", "LEN", "CHECK"] l.keys = .ok () ∧
      entryIn (bigKey l.keys "ENTRY") (bigKey l.keys "LEN") = true ∧ n.sys.power ≠ .quiet ∧ n.annexRuns = false ∧
      n.tcmCrc (bigKey l.keys "LEN") = bigKey l.keys "CHECK") ∧
    W .node (fun l n => l.idx = none ∧ checkKeys startSpecs ["ENTRY", "LEN", "CHECK"] l.keys = .ok () ∧
      entryIn (bigKey l.keys "ENTRY") (bigKey l.keys "LEN") = true ∧ n.sys.power ≠ .quiet ∧ n.annexRuns = false ∧
      n.tcmCrc (bigKey l.keys "LEN") ≠ bigKey l.keys "CHECK") ∧
    W .node (fun l n => l.idx = none ∧ checkKeys dormantSpecs [] l.keys = .ok () ∧ n.sleepRefused ((keyNum dormantSpecs l.keys "TIME").getD 0) = none) ∧
    W .sys (fun l n => l.idx = none ∧ l.keys = [] ∧ n.sys.commit = none) :=
  ⟨.wit nd (ln none []) (by decide) (by decide), .wit nd (ln none (startKeys 0x2144DF1C)) (by decide) (by decide),
   .wit nd (ln none (startKeys 0)) (by decide) (by decide), .wit nd (ln none [("TIME", .int 86400)]) (by decide) (by decide),
   .wit nd (ln none []) (by decide) (by decide)⟩
def ndArc : Node := nd.setFd Fd.ARC_STAT_STATE 1
/-- The archive is enabled and the host port holds the code 9999 for a command. -/
def ndCode (what : Nat) : Node := ndArc.setPort .host { ndArc.port .host with confirm := some ⟨what, 9999, 0⟩ }
theorem witness_ConfirmedCommands :
    V (fun l n => l.idx = none ∧ l.keys = [] ∧ n.mayWrite l.port .arc none = .ok () ∧ n.fd Fd.ARC_STAT_STATE = 1 ∧ n.on Fd.ARC_STAT_CLEARING = false ∧
      n.on Fd.ARC_STAT_RESEALING = false) ∧
    V (fun l n => l.idx = none ∧ l.keys = [] ∧ n.mayWrite l.port .node none = .ok () ∧ n.mayWrite l.port .sys none = .ok ()) ∧
    V (fun l n => l.idx = none ∧ l.keys = [("CONFIRM", .int 9999)] ∧ ((ndCode 2).port l.port).confirm = some ⟨2, 9999, 0⟩ ∧ n.tick ≤ 0 ∧
      n.mayWrite l.port .sys none = .ok ()) ∧
    V (fun l n => l.idx = none ∧ l.keys = [("CONFIRM", .int 9999)] ∧ ((ndCode 1).port l.port).confirm = some ⟨1, 9999, 0⟩ ∧ n.tick ≤ 0 ∧
      n.mayWrite l.port .node none = .ok ()) ∧
    V (fun l n => l.idx = none ∧ l.keys = [("CONFIRM", .int 9999)] ∧ ((ndCode 0).port l.port).confirm = some ⟨0, 9999, 0⟩ ∧ n.tick ≤ 0 ∧
      n.mayWrite l.port .arc none = .ok () ∧ n.fd Fd.ARC_STAT_STATE = 1 ∧ n.on Fd.ARC_STAT_CLEARING = false ∧ n.on Fd.ARC_STAT_RESEALING = false ∧
      ((n.startMr l verbDo .arc .reseal [0, 1, 2] false).port l.port).mr.isSome = true) ∧
    V (fun l _ => l.idx = none ∧ l.keys = [("CONFIRM", .int 0)] ∧ (nd.port l.port).confirm = none) :=
  ⟨.wit ndArc (ln none []) (by decide) (by decide), .wit nd (ln none []) (by decide) (by decide),
   .wit (ndCode 2) (ln none [("CONFIRM", .int 9999)]) (by decide) (by decide), .wit (ndCode 1) (ln none [("CONFIRM", .int 9999)]) (by decide) (by decide),
   .wit (ndCode 0) (ln none [("CONFIRM", .int 9999)]) (by decide) (by decide), .wit nd (ln none [("CONFIRM", .int 0)]) (by decide) (by decide)⟩
def lease (p : Port) (o : Obj) (i : Nat) : Lease := ⟨p, o, some [(i, i)], none, 0⟩
def ndLease (ls : List Lease) : Node := { nd with cmd := { nd.cmd with leases := ls } }
theorem witness_LeasesGivenAndEnded :
    V (fun l n => l.keys = [] ∧ leaseIndex l .uc = .ok () ∧ (n.cmd.leases.filter (fun x => !(x.port == l.port && x.obj == .uc && sameIdx x.idx l.idx))).length = 31 ∧
      ∀ x ∈ n.cmd.leases, x.port ≠ l.port → x.obj = .uc → idxMeet x.idx l.idx = false) ∧
    V (fun l n => l.keys = [] ∧ leaseIndex l .uc = .ok () ∧ (n.cmd.leases.filter (fun x => !(x.port == l.port && x.obj == .uc && sameIdx x.idx l.idx))).length = 32) ∧
    V (fun l n => l.keys = [] ∧ leaseIndex l .uc = .ok () ∧ (n.cmd.leases.filter (fun x => !(x.port == l.port && x.obj == .uc && sameIdx x.idx l.idx))).length < 32 ∧
      n.cmd.leases.find? (fun x => x.port != l.port && x.obj == .uc && idxMeet x.idx l.idx) = some (lease .service .uc 3)) ∧
    V (fun l n => l.keys = [] ∧ leaseIndex l .uc = .ok () ∧
      n.cmd.leases.any (fun x => (x.port == l.port && x.obj == .uc && (l.idx.isNone || idxWithin (objCap .uc) x.idx l.idx))) = true) ∧
    V (fun l n => l.keys = [] ∧ leaseIndex l .uc = .ok () ∧
      n.cmd.leases.any (fun x => (x.port == l.port && x.obj == .uc && (l.idx.isNone || idxWithin (objCap .uc) x.idx l.idx))) = false) :=
  ⟨.wit (ndLease ((List.range 31).map (fun i => lease .service .ap i))) (ln (some [(23, 23)]) []) (by decide) (by decide),
   .wit (ndLease ((List.range 32).map (fun i => lease .service .ap i))) (ln (some [(23, 23)]) []) (by decide) (by decide),
   .wit (ndLease [lease .service .uc 3]) (ln (some [(0, 3)]) []) (by decide) (by decide),
   .wit (ndLease [lease .host .uc 3]) (ln none []) (by decide) (by decide), .wit nd (ln none []) (by decide) (by decide)⟩
theorem witness_WatchListKept :
    V (fun l _ => l.keys = [("OFF", .int 1)] ∧ l.optItems 8 = .ok [some 7]) ∧ V (fun l _ => l.keys = [] ∧ l.optItems 8 = .ok [none] ∧ l.idx = none) ∧
    V (fun l n => l.keys = [] ∧ l.items 1024 = .ok (List.range 32) ∧ ((n.port l.port).watches.filter (fun w =>
      !((List.range 32).map (fun i => (⟨.ap, "", some i⟩ : Watch))).contains w)).length + 32 = 32) ∧
    V (fun l n => l.keys = [] ∧ l.items 1024 = .ok (List.range 33)) ∧
    V (fun l _ => l.items 24 = .ok [23]) ∧ V (fun l _ => l.items 8 = .ok [7]) ∧ V (fun l _ => l.items 48 = .ok [47]) ∧
    V (fun l n => l.idx = none ∧ l.keys = [("PORT", wd "B")] ∧ portOnly [] [] l.keys = .ok () ∧ keyPort l.keys = 1 ∧
      ((n.port l.port).watches.filter (fun w => w != ⟨.bus, "", some 1⟩)).length < 32) :=
  ⟨.wit nd (ln (some [(7, 7)]) [("OFF", .int 1)]) (by decide) (by decide), .wit nd (ln none []) (by decide) (by decide),
   .wit nd (ln (some [(0, 31)]) []) (by decide) (by decide), .wit nd (ln (some [(0, 32)]) []) (by decide) (by decide),
   .wit nd (ln (some [(23, 23)]) []) (by decide) (by decide), .wit nd (ln (some [(7, 7)]) []) (by decide) (by decide),
   .wit nd (ln (some [(47, 47)]) []) (by decide) (by decide), .wit nd (ln none [("PORT", wd "B")]) (by decide) (by decide)⟩
def strm (o : Obj) (i : Nat) : Stream := ⟨.service, o, some i, 1, 0⟩
def ndStream (k : Nat) : Node := { nd with cmd := { nd.cmd with streams := (List.range k).map (strm .uc) } }
theorem witness_StreamsKept :
    V (fun l _ => l.keys = [("RATE", .int 10)] ∧ l.items 24 = .ok [23] ∧ 10 ≤ (ndStream 7).pubRate 23) ∧
    V (fun l n => l.keys = [("RATE", .int 5000)] ∧ l.items 8 = .ok [7] ∧
      (n.cmd.streams.filter (fun t => !(t.port == l.port && t.obj == .lo && [some 7].contains t.idx))).length + 1 = 8) ∧
    V (fun l n => l.keys = [("RATE", .int 5000)] ∧ l.items 8 = .ok [7] ∧
      8 < (n.cmd.streams.filter (fun t => !(t.port == l.port && t.obj == .lo && [some 7].contains t.idx))).length + 1) ∧
    V (fun l _ => l.keys = [("RATE", .int 0)] ∧ l.items 8 = .ok [7]) ∧
    V (fun l _ => l.keys = [("RATE", .int 10)] ∧ l.optItems 8 = .ok [none] ∧ (fsRow 0 ++ fsRow 1).contains 10 = true ∧ 10 ≤ (ndStream 7).gridFs ∧
      (ndStream 7).gridFs % 10 = 0) :=
  ⟨.wit (ndStream 7) (ln (some [(23, 23)]) [("RATE", .int 10)]) (by decide) (by decide),
   .wit (ndStream 7) (ln (some [(7, 7)]) [("RATE", .int 5000)]) (by decide) (by decide),
   .wit (ndStream 8) (ln (some [(7, 7)]) [("RATE", .int 5000)]) (by decide) (by decide),
   .wit (ndStream 8) (ln (some [(7, 7)]) [("RATE", .int 0)]) (by decide) (by decide),
   .wit (ndStream 7) (ln none [("RATE", .int 10)]) (by decide) (by decide)⟩
theorem witness_RegisterLines :
    (nd.portReady .host = true ∧ ((regNamed "LO.OUT7").bind (fun x => x.1.field "OUT")).isSome = true) ∧
    V (fun l n => valueKey l.keys = .ok () ∧ ((regNamed "LO.OUT7").map (fun x => n.mayWriteReg l.port x.2)) = some (.ok ()) ∧ valueOf l.keys 32 = .ok 0xFFFFFFFF) ∧
    V (fun l n => valueKey l.keys = .ok () ∧ ((regNamed "LO.OUT7").map (fun x => n.mayWriteReg l.port x.2)) = some (.ok ()) ∧ valueOf l.keys 15 = .ok 20000) :=
  ⟨by decide, .wit nd (ln none [("VALUE", .int (-1))]) (by decide) (by decide), .wit nd (ln none [("VALUE", .int 20000)]) (by decide) (by decide)⟩
def value (v : Int) : Line := ln none [("VALUE", .int v)]
theorem witness_PeekAndPoke :
    V (fun l _ => l.keys = [] ∧ 0x400CFFFC % 4 = 0 ∧ region 0x400CFFFC ≠ .unmapped) ∧
    V (fun l _ => valueKey l.keys = .ok () ∧ valueOf l.keys 32 = .ok 0x80000000 ∧ 0x100FFFFC % 4 = 0 ∧ region 0x100FFFFC = .tcm ∧ 0x20240000 % 4 = 0 ∧
      region 0x20240000 = .sram ∧ 0x20200000 % 4 = 0 ∧ region 0x20200000 = .caravan ∧ 0x30000000 % 4 = 0 ∧ region 0x30000000 = .nv ∧
      0x10100000 % 4 = 0 ∧ region 0x10100000 = .unmapped ∧ 0x10000001 % 4 ≠ 0) ∧
    V (fun l n => valueKey l.keys = .ok () ∧ valueOf l.keys 32 = .ok 1 ∧ 0x40000000 % 4 = 0 ∧ region 0x40000000 = .regs ∧ n.mayWriteReg l.port 0x40000000 = .ok ()) :=
  ⟨.wit nd (ln none []) (by decide) (by decide), .wit nd (value (-0x80000000)) (by decide) (by decide), .wit nd (value 1) (by decide) (by decide)⟩
def ndMb : Node := ndBus.setFd (Fd.BUS_CTRL_GENMAX 1) 2
theorem witness_RecordsAndFramesByLine :
    V (fun l n => l.idx = none ∧ n.fd Fd.ARC_STAT_STATE = 1 ∧ onlyKeys ["CODE", "TEXT", "DATA"] ["CODE"] l.keys = .ok () ∧ l.key "CODE" = some (.int 511) ∧
      (l.keys.findSome? (fun x => logErr x.1 x.2)).isNone = true ∧ (hasKey l.keys "TEXT" && hasKey l.keys "DATA") = false ∧ n.mayWrite l.port .arc (some [(511, 511)]) = .ok ()) ∧
    V (fun l n => l.idx = none ∧ n.fd Fd.ARC_STAT_STATE = 1 ∧ l.keys = [] ∧ n.mayWrite l.port .arc none = .ok () ∧ n.on Fd.ARC_STAT_RESEALING = false ∧
      n.on Fd.ARC_STAT_CLEARING = false ∧ n.on Fd.ARC_STAT_SEALED = false) ∧
    V (fun l n => l.idx = none ∧ n.fd Fd.ARC_STAT_STATE = 1 ∧ l.keys = [] ∧ n.mayWrite l.port .arc none = .ok () ∧ n.on Fd.ARC_STAT_RESEALING = false ∧
      n.on Fd.ARC_STAT_CLEARING = false ∧ n.on Fd.ARC_STAT_SEALED = true) ∧
    W .bus (fun l n => l.idx = none ∧ keyPort l.keys = 1 ∧ n.busState 1 = 1 ∧
      onlyKeys ["PORT", "MB", "ID", "IDE", "GEN", "LEN", "DATA", "RING", "WAIT"] ["PORT", "ID", "LEN"] l.keys = .ok () ∧
      checkKeys (portKey :: sendSpecs) ["PORT", "ID", "LEN"] (Keys.without l.keys ["DATA"]) = .ok () ∧
      keyVal l.keys "DATA" = none ∧ keyNum sendSpecs l.keys "LEN" = some 64 ∧ n.genBad 1 3 64 false = false ∧ keyNum sendSpecs l.keys "MB" = none ∧
      ((List.range 64).drop 16).find? (fun k => n.mbStatus 1 k != 1) = some 16) ∧
    W .bus (fun l n => l.idx = none ∧ keyPort l.keys = 1 ∧ n.busState 1 = 1 ∧
      onlyKeys ["PORT", "MB", "ID", "IDE", "GEN", "LEN", "DATA", "RING", "WAIT"] ["PORT", "ID", "LEN"] l.keys = .ok () ∧
      checkKeys (portKey :: sendSpecs) ["PORT", "ID", "LEN"] (Keys.without l.keys ["DATA"]) = .ok () ∧
      (keyVal l.keys "DATA").bind dataWords = some [0x01020304] ∧ n.genBad 1 3 4 false = false ∧ keyNum sendSpecs l.keys "MB" = some 63 ∧ n.mbStatus 1 63 ≠ 1 ∧
      keyNum sendSpecs l.keys "WAIT" = some 1) ∧
    W .bus (fun l n => l.idx = none ∧ keyPort l.keys = 1 ∧ n.busState 1 = 1 ∧
      portOnly [kk "TO" (.int 1 255) (fun _ => 0), kk "LINE" .text (fun _ => 0)] ["TO", "LINE"] l.keys = .ok () ∧
      keyNum [kk "TO" (.int 1 255) (fun _ => 0), kk "LINE" .text (fun _ => 0)] l.keys "TO" = some 255 ∧ n.genMax 1 ≠ 0 ∧ n.busOff 1 = false ∧
      keyVal l.keys "LINE" = some (.quoted [0x41])) :=
  ⟨.wit ndArc (ln none [("CODE", .int 511), ("TEXT", .quoted [0x41])]) (by decide) (by decide), .wit ndArc (ln none []) (by decide) (by decide),
   .wit (ndArc.setOn Fd.ARC_STAT_SEALED true) (ln none []) (by decide) (by decide),
   .wit ndMb (ln none [("PORT", wd "B"), ("ID", .int 0x1FFFFFFF), ("LEN", .int 64)]) (by decide) (by decide),
   .wit ndMb (ln none [("PORT", wd "B"), ("ID", .int 0), ("LEN", .int 4), ("MB", .int 63), ("DATA", wd "01020304"), ("WAIT", on_)]) (by decide) (by decide),
   .wit ndMb (ln none [("PORT", wd "B"), ("TO", .int 255), ("LINE", .quoted [0x41])]) (by decide) (by decide)⟩
theorem witness_DumpReplies : W .trans (fun l n => l.item 8 = .ok 7 ∧ checkKeys dumpSpecs ["FROM", "COUNT"] l.keys = .ok () ∧ keyNum dumpSpecs l.keys "FROM" = some 9936 ∧
    keyNum dumpSpecs l.keys "COUNT" = some 64 ∧ 9936 + 64 ≤ 10000 ∧ n.tState = tsHeld) :=
  .wit (nd.setFd Fd.TRANS_STAT_STATE tsHeld) (ln (some [(7, 7)]) [("FROM", .int 9936), ("COUNT", .int 64)]) (by decide) (by decide)
def s0Zero : S0In := ⟨[], [], [], 25, 24000, 48000, [0, 0, 0, 0, 0], true, true⟩
theorem witness_BeatRuns :
    E (fun n => ((n.tm.lateWork.foldl (fun (k : Node) (i : Nat) => k.slotLost 2 i) n).overruns.beatAdvance.setOn Fd.BEAT_STATUS_ADJNOW false).working = true) ∧
    E (fun n => (((s0Zero.rails.zipIdx).foldl (fun (m : Node) (x : Int × Nat) => m.railMv x.2 x.1)
      (n.setFds [(Fd.SYS_VSYS_MV, s0Zero.vsys), (Fd.SYS_HOLD_MV, s0Zero.hold)])).twS0 s0Zero).working = true) ∧
    E (fun n => n.working = true ∧ n.sys.power ≠ .powerfail ∧ [1, 5].contains 5 = true ∧ [0, 1, 2, 3, 4].contains 5 = false) ∧
    E (fun n => n.tm.lateWork.contains 6 = true ∧ n.working = true) :=
  ⟨.wit nd (by decide) (by decide), .wit nd (by decide) (by decide), .wit nd (by decide) (by decide),
   .wit { nd with tm := { nd.tm with lateWork := [6] } } (by decide) (by decide)⟩
def pads : Node := nd.setFds [(Fd.GP_BANK_A, 2), (Fd.GP_BANK_B, 2)]
theorem witness_TimeEvents :
    E (fun n => n.sys.power ≠ .powerfail ∧ n.tm.secDue ≠ 0) ∧
    E (fun n => n.sys.power ≠ .powerfail ∧ n.tm.pulse = true ∧ n.tm.pulseAt + n.pulseTime ≤ n.mono 79999) ∧
    E (fun n => n.sys.power ≠ .powerfail ∧ n.timeStep.2 = true) ∧ E (fun n => n.sys.power ≠ .powerfail ∧ n.timeStep.2 = false) ∧
    E (fun n => n.working = true ∧ n.padOn 48 = true ∧ n.padOn 49 = true ∧ n.padOn 47 = true ∧ Fd.TIME_CTRL_PPSEDGE.get n.tm.ctrlF = 0) ∧
    E (fun n => n.on Fd.TIME_STATUS_FINUTOK = true ∧ n.tm.markAt + 120000000 ≤ n.now 0) ∧
    E (fun n => n.fd Fd.TIME_STATUS_STATE = stCoarse ∧ n.tm.coarseTick + 100000 ≤ n.tick ∧ n.selected = 0) ∧
    E (fun n => n.sys.oscInt = false ∧ (Node.dropServoStep { n with sys := { n.sys with oscInt := true } }).fd Fd.TIME_STATUS_STATE ≠ stHoldover) :=
  ⟨.wit { nd with tm := { nd.tm with secDue := 1 } } (by decide) (by decide),
   .wit { nd with tick := 50000, tm := { nd.tm with pulse := true } } (by decide) (by decide),
   .wit { nd with tm := { nd.tm with setPend := some (4000000000, 0) } } (by decide) (by decide), .wit nd (by decide) (by decide),
   .wit pads (by decide) (by decide), .wit { nd.setOn Fd.TIME_STATUS_FINUTOK true with tm := { nd.tm with t0 := 120000000 } } (by decide) (by decide),
   .wit { nd.setFd Fd.TIME_STATUS_STATE stCoarse with tick := 100000 } (by decide) (by decide), .wit nd (by decide) (by decide)⟩
def ndMig (restore : Bool) : Node := { nd with tick := 2, uc := { nd.uc with migs := [⟨5, 0, restore⟩] } }
def ndChan (c : Chan) (t : Nat) : Node := { nd.setChan 23 c with tick := t }
theorem witness_AnalogEvents :
    E (fun n => n.uc.migs.find? (fun g => !g.restore && g.f + 2 ≤ n.tick) = some ⟨5, 0, false⟩) ∧
    E (fun n => n.uc.migs.find? (fun g => g.restore && g.f + 2 ≤ n.tick) = some ⟨5, 0, true⟩) ∧
    E (fun n => n.working = true ∧ isConv (n.chan 23).mode = true ∧ (n.chan 23).flags.getLsbD fSTALE = false ∧ (n.chan 23).since + 4 * n.window 23 ≤ n.tick) ∧
    E (fun n => n.working = true ∧ (n.chan 23).mode = 8 ∧ (n.chan 23).diIn ≠ (n.chan 23).di ∧ Nat.max 1 (n.fd (Fd.UC_OPT_DEB 23) * 50) ≤ (n.chan 23).diCnt) ∧
    E (fun n => (n.chan 23).drain = true ∧ (n.chan 23).goal = none) ∧
    E (fun n => (n.loop 7).stage ≠ 0) ∧ E (fun n => (n.loop 7).fold = true) ∧ E (fun n => (n.loop 7).doneTold = false ∧ sameQ (n.loop 7).level (n.loop 7).goal = true) ∧
    E (fun n => n.loState 7 = loDraining ∧ sameQ (n.loop 7).level (n.loop 7).goal = true ∧ n.on (Fd.LO_CFG_DISACT 7) = false ∧
      ((n.loTellDone 7).setFd (Fd.LO_STAT_STATE 7) loOff).on (Fd.LO_CFG_DISACT 7) = false) :=
  ⟨.wit (ndMig false) (by decide) (by decide), .wit (ndMig true) (by decide) (by decide),
   .wit (ndChan { mode := 1 } 20000) (by decide) (by decide), .wit (ndChan { mode := 8, diIn := true, diCnt := 500 } 0) (by decide) (by decide),
   .wit (ndChan { mode := 9, drain := true } 0) (by decide) (by decide),
   .wit (nd.setLoop 7 { nd.loop 7 with stage := 1 }) (by decide) (by decide), .wit (nd.setLoop 7 { nd.loop 7 with fold := true }) (by decide) (by decide),
   .wit (nd.setLoop 7 { nd.loop 7 with doneTold := false }) (by decide) (by decide),
   .wit (nd.setFds [(Fd.LO_STAT_STATE 7, loDraining), (Fd.LO_CFG_DISACT 7, 0)]) (by decide) (by decide)⟩
def ndTr (state : Nat) : Node := { nd.setFd Fd.TRANS_STAT_STATE state with trans := { nd.trans with onF := 0x80, trigF := 0x80 } }
theorem witness_RecorderEvents :
    E (fun n => n.working = true ∧ n.trans.onF.testBit 7 = true ∧ n.tState = tsArmed ∧ n.trans.trigF.testBit 7 = true) ∧
    E (fun n => n.working = true ∧ n.trans.onF.testBit 7 = true ∧ n.tState = tsTriggered ∧ n.bit Ad.TRANS_STAT (8 + 7) = false) ∧
    E (fun n => n.working = true ∧ n.tState = tsTriggered ∧ n.bit Ad.TRANS_STAT (8 + 7) = true) ∧
    E (fun n => n.working = true ∧ n.trans.onF.testBit 7 = true ∧ n.tState = tsHeld) ∧
    E (fun n => n.working = true ∧ n.tState = tsTriggered ∧ n.trans.fillEnd ≤ n.now 0) ∧
    E (fun n => n.working = true ∧ n.tState = tsHeld ∧ n.fd Fd.TRANS_CTRL_AUTOARM ≠ 0 ∧ n.trans.heldTick + n.fd Fd.TRANS_CTRL_AUTOARM * 50000 ≤ n.tick) ∧
    E (fun n => n.working = true ∧ (0x0E110001#32 : Word).getLsbD 0 = true ∧ 3600 < (0x0E110001#32 : Word).toNat / 65536) ∧
    E (fun n => n.working = true ∧ (0x0E100001#32 : Word).getLsbD 0 = true ∧ (0x0E100001#32 : Word).getLsbD 1 = false ∧ (0x0E100001#32 : Word).toNat / 65536 = 3600 ∧
      ((n.setFd Fd.TRANS_CTRL_AUTOARM 3600).dirty).tState ≠ tsArmed ∧ ((n.setFd Fd.TRANS_CTRL_AUTOARM 3600).dirty).tState ≠ tsTriggered) ∧
    E (fun n => n.working = true ∧ (2#32 : Word).getLsbD 0 = false ∧ (2#32 : Word).getLsbD 1 = true ∧ n.fd Fd.TRANS_CTRL_AUTOARM = 0 ∧ n.tState = tsArmed) ∧
    E (fun n => n.working = true ∧ (3#32 : Word).getLsbD 0 = true ∧ (3#32 : Word).getLsbD 1 = true) :=
  ⟨.wit (ndTr tsArmed) (by decide) (by decide), .wit (ndTr tsTriggered) (by decide) (by decide), .wit ((ndTr tsTriggered).setBit Ad.TRANS_STAT 15) (by decide) (by decide),
   .wit (ndTr tsHeld) (by decide) (by decide), .wit (ndTr tsTriggered) (by decide) (by decide),
   .wit { (ndTr tsHeld).setFd Fd.TRANS_CTRL_AUTOARM 1 with tick := 50000 } (by decide) (by decide), .wit nd (by decide) (by decide), .wit nd (by decide) (by decide),
   .wit (ndTr tsArmed) (by decide) (by decide), .wit nd (by decide) (by decide)⟩
def ndDly (kind : Nat) : Node := { (ndAlm.setFd Fd.ALM_SWEEP_COUNT 63).putPt 1023 { ndAlm.pt 1023 with dly := kind } with tick := 1 }
def ndGrp (x : Grp) : Node := ndAlm.setGrp 63 x
def frame (cls typ dst : Nat) : Frame := ⟨true, ident cls typ 9 dst, 0, 0, 0, []⟩
theorem witness_AlarmEvents :
    E (fun n => n.working = true ∧ n.delayDue 1023 1 = true) ∧ E (fun n => n.working = true ∧ n.delayDue 1023 2 = true) ∧
    E (fun n => n.working = true ∧ n.almOn = true) ∧ E (fun n => n.working = true ∧ n.almOn = true ∧ (n.pt 1023).shelf = some 0 ∧ 0 ≤ n.tick) ∧
    E (fun n => n.working = true ∧ 1000 ≤ (n.grp 63).pinCnt) ∧
    E (fun n => n.working = true ∧ (frame 1 0 255).ext = true ∧ n.toMe (frame 1 0 255) = true ∧ idClass (frame 1 0 255).id = 1) ∧
    E (fun n => n.working = true ∧ n.almOn = true ∧ n.fd (Fd.ALM_AGSTAT_STAGE 63) ≠ 0 ∧ n.calling 63 = true ∧ n.callsHeld = false ∧ (n.grp 63).again = false) ∧
    E (fun n => n.working = true ∧ 2000000000 ≤ qnsOf (n.now 0)) ∧
    E (fun n => n.working = true ∧ n.almOn = true ∧ n.fd (Fd.ALM_AGSTAT_STAGE 63) = 3 ∧ n.callsHeld = false ∧ (n.grp 63).sentAt + n.fd Fd.CALL_TO_CALLREP * 50000 ≤ n.tick) ∧
    E (fun n => n.working = true ∧ n.almOn = true ∧ n.on (Fd.ALM_PCFG_ENABLE 1023) = true ∧ (n.pt 1023).aged = false ∧ (n.pointSrc 1023).aged = true) :=
  ⟨.wit (ndDly 1) (by decide) (by decide), .wit (ndDly 2) (by decide) (by decide), .wit ndAlm (by decide) (by decide),
   .wit (ndAlm.putPt 1023 { ndAlm.pt 1023 with shelf := some 0 }) (by decide) (by decide), .wit (ndGrp { pinCnt := 1000 }) (by decide) (by decide),
   .wit nd (by decide) (by decide),
   .wit ((ndAlm.setFds [(Fd.ALM_AGSTAT_STAGE 63, 1), (Fd.ALM_AGCFG_CALL 63, 1), (Fd.ALM_PCFG_ENABLE 1023, 1), (Fd.ALM_PCFG_GRP 1023, 63)]).putPt 1023
     { ndAlm.pt 1023 with under := 2, grp := 63 }) (by decide) (by decide),
   .wit { nd with tm := { nd.tm with t0 := 2000000000 } } (by decide) (by decide),
   .wit { ndAlm.setFd (Fd.ALM_AGSTAT_STAGE 63) 3 with tick := 255 * 50000 } (by decide) (by decide),
   .wit { ndAlm.setFds [(Fd.ALM_PCFG_ENABLE 1023, 1), (Fd.ALM_PCFG_KINDA 1023, 4), (Fd.ALM_PCFG_SRCA 1023, 0)] with tick := 5000000 } (by decide) (by decide)⟩
def ndReseal (pos : Nat) : Node :=
  { ndArc.setPort .host { ndArc.port .host with mr := some ⟨.reseal, "1", verbDo, .arc, [0, 1, 2], false, pos, 0, false, false, false, 0⟩ } with tick := 64 }
theorem witness_ArchiveEvents :
    E (fun n => Bank.get (n.arc.loadTick, 0) n.arc.gain 0x100 = (0, 0) ∧ n.fd (Fd.ARC_CODE_RULE 0x100) = 1 ∧
      0 * n.fd (Fd.ARC_CODE_RATE 0x100) + (0 + 1) * 3000000 ≤ n.tick * n.fd (Fd.ARC_CODE_RATE 0x100)) ∧
    E (fun n => n.arc.ckpt < n.arc.opMs / 1000) ∧
    E (fun n => ∃ p m, n.resealPort = some (p, m) ∧ m.paused = false ∧ m.pos = 0) ∧
    E (fun n => (∃ p m, n.resealPort = some (p, m) ∧ m.paused = false ∧ m.pos = 1) ∧ n.arc.resealTick + 64 ≤ n.tick ∧ badIn (pageAt 0) 16 [] = none ∧
      badIn (pageAt 0) 16 [pageAt 0] ≠ none) :=
  ⟨.wit { nd.setFds [(Fd.ARC_CODE_RULE 0x100, 1), (Fd.ARC_CODE_RATE 0x100, 6000)] with tick := 500 } (by decide) (by decide),
   .wit { nd with arc := { nd.arc with opMs := 1000, ckpt := 0 } } (by decide) (by decide),
   .wit (ndReseal 0) (by decide) ⟨_, _, rfl, rfl, rfl⟩, .wit (ndReseal 1) (by decide) ⟨⟨_, _, rfl, rfl, rfl⟩, by decide, by decide, by decide⟩⟩
def txA : TxA := ⟨1, 16, frame 0 5 2, 0, true⟩
def ndTx : Node := ndBus.setBp 1 { ndBus.bp 1 with tx := some txA }
def afterErr (n : Node) : Node := if (n.earlyEnd 1 false 0).home 1 = 1 then (n.earlyEnd 1 false 0).windowError 1 else n.earlyEnd 1 false 0
theorem witness_FrameEvents :
    E (fun n => n.mayHear 1 = true ∧ (n.bp 1).rx = none) ∧
    E (fun n => n.mayHear 1 = true ∧ (frame 1 8 255).ext = true ∧ n.toMe (frame 1 8 255) = true ∧ idClass (frame 1 8 255).id = 1 ∧ idType (frame 1 8 255).id = 8) ∧
    E (fun n => n.busState 1 ≠ 0 ∧ n.busOff 1 = false ∧ ((afterErr n).bp 1).tx = some txA ∧
      (((afterErr n).txUndone 1 txA).guardStep 1 txA.frame.gen false 0).fd (Fd.BUS_ERRCNT_TEC 1) + 8 < 256) ∧
    E (fun n => n.busState 1 ≠ 0 ∧ n.busOff 1 = false ∧ ((afterErr n).bp 1).tx = none) ∧
    E (fun n => (n.bp 1).tx = some txA) ∧ E (fun n => n.busOff 1 = true) ∧
    E (fun n => (n.bp 1).gateEnd.find? (fun x => x.1 == 3) = some (3, 0) ∧ (3, 0).2 ≤ n.now 0) ∧
    E (fun n => n.working = true ∧ (frame 2 255 255).ext = true ∧ n.toMe (frame 2 255 255) = true ∧ idClass (frame 2 255 255).id = 2 ∧ idType (frame 2 255 255).id < 256) ∧
    E (fun n => (n.port .host).await = some ⟨"1", .tunnel 1 9, 0⟩ ∧ 0 + 50000 ≤ n.tick) ∧
    E (fun n => n.busState 1 = 2 ∧ (n.bp 1).tx = none ∧ (n.bp 1).rx = none) :=
  ⟨.wit ndBus (by decide) (by decide), .wit ndBus (by decide) (by decide), .wit ndTx (by decide) (by decide), .wit ndBus (by decide) (by decide),
   .wit ndTx (by decide) (by decide), .wit (nd.setFd (Fd.BUS_STAT_ERR 1) 2) (by decide) (by decide),
   .wit (ndBus.setBp 1 { ndBus.bp 1 with gateEnd := [(3, 0)] }) (by decide) (by decide), .wit nd (by decide) (by decide),
   .wit { nd.setPort .host { nd.port .host with await := some ⟨"1", .tunnel 1 9, 0⟩ } with tick := 50000 } (by decide) (by decide),
   .wit (nd.setFd (Fd.BUS_STAT_STATE 1) 2) (by decide) (by decide)⟩
def ndGate : Node := (ndMb.setFd (Fd.BUS_GATECFG_ACTIVE 1 3) 1).setFd (Fd.BUS_GATECFG_LATCH 1 3) 1
/-- The name of the register at an address, and its block. -/
def nameAt (a : Nat) : Option String × Nat := ((regRow a).map (·.name), (a - 0x40000000) / 0x10000)
theorem witness_RegisterAccesses :
    E (fun n => n.reqErr 1 63 (n.fd (Fd.BUS_MBCTL_GEN 1 63)) (n.fd (Fd.BUS_MBCTL_LEN 1 63)) (n.on (Fd.BUS_MBCTL_CARAVAN 1 63)) = none ∧
      n.on (Fd.BUS_MBCTL_CARAVAN 1 63) = false ∧ n.busState 1 = 1) ∧
    E (fun n => n.reqErr 1 16 (n.fd (Fd.BUS_MBCTL_GEN 1 16)) (n.fd (Fd.BUS_MBCTL_LEN 1 16)) (n.on (Fd.BUS_MBCTL_CARAVAN 1 16)) = some 303 ∧ n.busState 1 ≠ 1) ∧
    E (fun n => (0x10001#32 : Word).getLsbD 0 = true ∧ (0x10001#32 : Word).getLsbD 16 = true ∧ n.fd (Fd.BUS_FIFO_COUNT 1) = 0) ∧
    E (fun n => n.fd (Fd.BUS_FIFO_COUNT 1) = 512) ∧
    E (fun n => n.on (Fd.BUS_GATECFG_ACTIVE 1 3) = true ∧ (Fd.BUS_GATECFG_LATCH 1 3).get (n.gateCfg 1 3).1 = 1) ∧ E (fun n => n.on (Fd.BUS_GATECFG_ACTIVE 1 3) = false) ∧
    (regRow 0x400CFFFC = none ∧ (regRow Ad.SYS_DEVID).map (·.writable) = some false) ∧
    ((nameAt (Ad.DIC_MODT 7) = (some "DIC.MODT", 0) ∧ nameAt (Ad.DIC_ENA 0) = (some "DIC.ENA", 0) ∧ nameAt (Ad.DIC_SRC 255) = (some "DIC.SRC", 0) ∧
      nameAt Ad.DIC_DOORBELL = (some "DIC.DOORBELL", 0)) ∧ nameAt (Ad.TW_BUF 7) = (some "TW.BUF", 2) ∧ nameAt Ad.TW_CTRL = (some "TW.CTRL", 2) ∧
      nameAt Ad.TIME_CAPSTAT = (some "TIME.CAPSTAT", 3) ∧ nameAt Ad.BEAT_LATE = (some "BEAT.LATE", 3)) ∧
    (nd.twRegOk = true ∧ (nd.wr Ad.TW_CTRL 3#32).twRegOk = false) ∧
    (nameAt Ad.TIME_QNS = (some "TIME.QNS", 3) ∧ nameAt (Ad.UC_VAL 23) = (some "UC.VAL", 4) ∧ nameAt (Ad.LO_RB 7) = (some "LO.RB", 5) ∧
      nameAt Ad.GRID_REPSEC = (some "GRID.REPSEC", 6) ∧ nameAt Ad.ARC_OPMSLO = (some "ARC.OPMSLO", 8)) :=
  ⟨.wit ndMb (by decide) (by decide), .wit (nd.setFd (Fd.BUS_STAT_STATE 1) 0) (by decide) (by decide), .wit nd (by decide) (by decide), .wit (ndMb.setFd (Fd.BUS_FIFO_COUNT 1) 512) (by decide) (by decide),
   .wit ndGate (by decide) (by decide), .wit nd (by decide) (by decide), by decide, by decide, by decide, by decide⟩
theorem witness_SurveyFrames :
    (∀ k ∈ [0x300, 0x301, 0x302, 0x303, 0x304, 0x305, 0x306, 0x307, 0x308, 0x30F, 0, 1, 2, 0x380, 0x3FF],
      ndBus.mayHear 1 = true ∧ (frame 0 k 255).ext = true ∧ idClass (frame 0 k 255).id = 0 ∧ idType (frame 0 k 255).id = k) ∧
    (∀ k ∈ [0x300, 0x301, 0x302, 0x303, 0x304, 0x305, 0x306, 0x307, 0x308, 0x30F, 0, 1, 2], idType (frame 0 3 255).id ≠ k) := by decide
def ndPair : Node := { ndBus.setFd Fd.BUS_LINK_TPORT 1 with bus := { ndBus.bus with linkF := 1, tport := 1 } }
theorem witness_BusTimers :
    E (fun n => n.working = true ∧ (n.bp 1).tx = none ∧ (n.bp 1).rx = none) ∧ E (fun n => n.working = true ∧ (n.bp 1).listen = 1 ∧ (n.bp 1).listenAt + 15000 ≤ n.tick) ∧
    E (fun n => (n.sv 1).role = 2 ∧ (n.sv 1).lastAt + 250000 ≤ n.tick) ∧
    E (fun n => n.pairOn = true ∧ n.fd Fd.BUS_LINK_TPORT = 1 ∧ n.bus.tport = 1 ∧ (n.bp 1).markOk + 120000000 ≤ n.now 0) ∧
    E (fun n => n.pairOn = true ∧ (n.bp 1).silent = false ∧ (n.bp 1).seen + 50000 ≤ n.tick ∧ n.tick < (n.bp (1 - 1)).seen + 50000) ∧
    E (fun n => n.sys.phase ≠ .por ∧ (n.bp 1).sleep = 1 ∧ (n.bp 1).tx = none ∧ (n.bp 1).rx = none) ∧
    E (fun n => n.sys.phase ≠ .por ∧ n.on (Fd.BUS_SLEEP_WMODE 1) = false) ∧
    E (fun n => n.sys.phase ≠ .por ∧ n.on (Fd.BUS_SLEEP_WMODE 1) = true ∧ n.wakeMatch 1 ⟨true, 0, 0, 0, 0, []⟩ = true) ∧
    E (fun n => n.sys.phase ≠ .por ∧ (n.bp 1).sleep = 3) :=
  ⟨.wit ndBus (by decide) (by decide), .wit { ndBus.setBp 1 { ndBus.bp 1 with listen := 1 } with tick := 15000 } (by decide) (by decide),
   .wit { ndBus.setSv 1 { ndBus.sv 1 with role := 2 } with tick := 250000 } (by decide) (by decide),
   .wit { ndPair with tm := { nd.tm with t0 := 120000000 } } (by decide) (by decide),
   .wit { ndPair.setBp 0 { ndPair.bp 0 with seen := 1 } with tick := 50000 } (by decide) (by decide),
   .wit (ndBus.setBp 1 { ndBus.bp 1 with sleep := 1 }) (by decide) (by decide), .wit ndBus (by decide) (by decide),
   .wit (((ndBus.setFds [(Fd.BUS_SLEEP_WMODE 1, 1), (Fd.BUS_WMASK_MASK 1, 0)]).wr (Ad.BUS_WDMASK 1 0) 0#32).wr (Ad.BUS_WDMASK 1 1) 0#32) (by decide) (by decide), .wit (ndBus.setBp 1 { ndBus.bp 1 with sleep := 3 }) (by decide) (by decide)⟩
def ndKey (k : Nat) : Node := { nd with gp := { nd.gp with lockStep := k, lockAt := 0 } }
theorem witness_PinEvents :
    (State.reset.node.bank 1 ≠ 2 ∧ State.reset.node.sys.power = .off) ∧ E (fun n => n.bank 0 ≠ 0 ∧ n.sys.power ≠ .off ∧ n.sys.phase ≠ .por) ∧
    E (fun n => n.bank 1 ≠ 1 ∧ n.sys.power ≠ .off ∧ n.sys.phase ≠ .por) ∧
    E (fun n => n.sys.power ≠ .powerfail ∧ n.tm.t0 % 2000000000 = 0 ∧ n.gp.lifeTick ≠ n.tick + 1) ∧
    (nd.padOn 47 = false ∧ pads.padOn 47 = true ∧ pads.on (inFd 47) ≠ true ∧ (pads.setOn (inFd 47) true).awake = true ∧
      Bank.get 0 (pads.setOn (inFd 47) true).gp.told 47 ≠ (pads.setOn (inFd 47) true).tick + 1) ∧
    E (fun n => n.gp.lockStep = 0) ∧ E (fun n => n.gp.lockStep = 1 ∧ n.now 0 ≤ n.gp.lockAt + 1280) ∧
    E (fun n => n.gp.lockStep = 2 ∧ n.now 0 ≤ n.gp.lockAt + 1280 ∧ (0x80FFFFFF#32 : Word).toNat / 2 ^ 31 = 1 ∧ (0x80FFFFFF#32 : Word).toNat % 2 ^ 24 = 0xFFFFFF) ∧
    E (fun n => n.gp.lockStep ≠ 0 ∧ n.gp.lockAt + 1280 < n.now 1281) :=
  ⟨by decide, .wit pads (by decide) (by decide), .wit pads (by decide) (by decide), .wit nd (by decide) (by decide), by decide, .wit nd (by decide) (by decide),
   .wit (ndKey 1) (by decide) (by decide), .wit (ndKey 2) (by decide) (by decide), .wit (ndKey 2) (by decide) (by decide)⟩
/-- Address 0x77 and a count of 32. -/
def twWord : Word := Fd.TW_CMD_COUNT.put (Fd.TW_CMD_ADDR.put 0#32 0x77) 32
theorem witness_TransferEvents :
    E (fun n => Fd.TW_CMD_START.get (Fd.TW_CMD_START.put twWord 1) = 1 ∧ twCmdOk (Fd.TW_CMD_START.put twWord 1) = true ∧
      Fd.TW_CMD_CLEAR.get (Fd.TW_CMD_CLEAR.put twWord 1) = 1 ∧ twCmdOk (Fd.TW_CMD_CLEAR.put twWord 1) = true ∧ n.tw.phase = .idle ∧ n.twState = 1) ∧
    E (fun n => n.twState ≠ 1 ∧ n.twState ≠ 3 ∧ n.twState ≠ 2) ∧ E (fun n => n.twState = 2) ∧
    E (fun n => n.tw.phase = .check ∧ n.twState = 1 ∧ n.tw.since + n.fd Fd.TW_CTRL_TIMEOUT * 4000000 ≤ n.mono 0) ∧
    E (fun n => n.tw.phase = .transfer ∧ n.twState = 1 ∧ n.twState ≠ 2) ∧ E (fun n => n.tw.phase = .clear ∧ n.twState ≠ 2) :=
  ⟨.wit ndTw (by decide) (by decide), .wit nd (by decide) (by decide), .wit (nd.setFd Fd.TW_STAT_STATE 2) (by decide) (by decide),
   .wit { ndTw with tick := 50000, tw := { ndTw.tw with phase := .check } } (by decide) (by decide), .wit { ndTw with tw := { ndTw.tw with phase := .transfer } } (by decide) (by decide),
   .wit { ndTw with tw := { ndTw.tw with phase := .clear } } (by decide) (by decide)⟩
def upd1 : Upd := ⟨true, none, none, 0, 1, 0#32, 0, true, 0, some 0, false, []⟩
def ndRail (r : Rails) (u : Option Upd) : Node := { nd with tick := 100000, disp := { nd.disp with rails := r, upd := u } }
theorem witness_DisplayEvents :
    E (fun n => n.disp.upd = some upd1 ∧ n.on Fd.DISP_STAT_SNAP = true ∧ upd1.snapAt + n.imageBytes / 4 * 20 ≤ n.mono 0) ∧
    E (fun n => n.disp.upd = some upd1 ∧ upd1.frame0 = some 0 ∧ n.sys.power ≠ .powerfail ∧ n.disp.rails = .up ∧ upd1.over_ = false ∧
      n.frameAt 0 upd1.frames ≤ n.mono 0 ∧ upd1.frames < upd1.len) ∧
    E (fun n => n.disp.rails = .rising 1 ∧ n.disp.railAt ≤ n.mono 0 ∧ ((n.railMv (1 - 1) (-21000)).railWindow (1 - 1)) = (-21000, -19000)) ∧
    E (fun n => n.disp.rails = .falling [4, 3] ∧ n.disp.railAt ≤ n.mono 0) ∧ E (fun n => n.disp.rails = .falling [0] ∧ n.disp.railAt ≤ n.mono 0) ∧
    E (fun n => n.disp.rails = .up) ∧ E (fun n => n.disp.holdEnd = some 0 ∧ n.disp.rails = .up ∧ n.disp.upd = none ∧ 0 ≤ n.mono 0) ∧
    E (fun n => n.disp.rails ≠ .down ∧ n.disp.upd = none) ∧ E (fun n => n.disp.rails = .fast 0) ∧ E (fun n => n.disp.rails = .fast 1) ∧ E (fun n => n.disp.rails = .fast 2) ∧
    E (fun n => n.fd Fd.LCD_STAT_STATE ≠ 0 ∧ n.disp.lcdAt ≤ n.mono 0) ∧
    (Fd.DISP_CMD_UPDATE.get (Fd.DISP_CMD_UPDATE.put 0#32 1) = 1 ∧ Fd.DISP_CMD_RAILSON.get (Fd.DISP_CMD_RAILSON.put 0#32 1) = 1 ∧
      Fd.DISP_CMD_RAILSOFF.get (Fd.DISP_CMD_RAILSOFF.put 0#32 1) = 1) :=
  ⟨.wit ((ndRail .up (some upd1)).setOn Fd.DISP_STAT_SNAP true) (by decide) (by decide), .wit (ndRail .up (some upd1)) (by decide) (by decide),
   .wit (ndRail (.rising 1) none) (by decide) (by decide), .wit (ndRail (.falling [4, 3]) none) (by decide) (by decide),
   .wit (ndRail (.falling [0]) none) (by decide) (by decide), .wit (ndRail .up none) (by decide) (by decide),
   .wit { ndRail .up none with disp := { (ndRail .up none).disp with holdEnd := some 0 } } (by decide) (by decide),
   .wit (ndRail .up none) (by decide) (by decide), .wit (ndRail (.fast 0) none) (by decide) (by decide), .wit (ndRail (.fast 1) none) (by decide) (by decide),
   .wit (ndRail (.fast 2) none) (by decide) (by decide), .wit (nd.setFd Fd.LCD_STAT_STATE 1) (by decide) (by decide), by decide⟩
/-- The annex runs, with the four bytes `bs` at its program counter. -/
def ndRun (bs : List Byte) : Node :=
  { (nd.setFds [(Fd.SYS_ASTAT_STATE, 2), (Fd.SYS_AWDCFG_TIMEOUT, 1)]).setBytes 0x10000000 bs with annex := { nd.annex with pc := 0x10000000#32 }, tick := 50 }
theorem witness_AnnexAndInterruptEvents :
    E (fun n => n.atBoundary = true ∧ n.nextIs .mret = true) ∧ E (fun n => n.atBoundary = true ∧ n.nextIs .wfi = true) ∧
    E (fun n => n.annexRuns = true ∧ n.annex.startAt = false ∧ n.dogTime ≠ 0 ∧ n.annex.dog + n.dogTime ≤ n.mono 0) ∧
    E (fun n => n.annex.boot = true ∧ n.tw.phase = .boot) ∧ E (fun n => n.annex.boot = true ∧ n.tw.phase ≠ .boot ∧ (n.twState = 3 ∨ n.twState = 0)) ∧
    E (fun n => n.acceptable = some 255) ∧ E (fun n => n.acceptable = none) ∧ E (fun n => Bank.get 0 n.dic.hold 7 = 1 ∧ 1 ≠ 0 ∧ 1 ≤ n.mono 1) ∧
    Fd.DIC_CTRL_STRAYCLR.get (Fd.DIC_CTRL_STRAYCLR.put 0#32 1) = 1 :=
  ⟨.wit (ndRun [0x73#8, 0x00#8, 0x20#8, 0x30#8]) (by decide) (by decide), .wit (ndRun [0x73#8, 0x00#8, 0x50#8, 0x10#8]) (by decide) (by decide),
   .wit (ndRun []) (by decide) (by decide), .wit { nd with annex := { nd.annex with boot := true }, tw := { nd.tw with phase := .boot } } (by decide) (by decide),
   .wit { nd.setFd Fd.TW_STAT_STATE 3 with annex := { nd.annex with boot := true } } (by decide) (by decide),
   .wit ((((ndRun []).wr (Ad.DIC_PEND 7) 0x80000000#32).wr (Ad.DIC_ENA 7) 0x80000000#32).setFds [(Fd.DIC_SRC_TARGET 255, 0), (Fd.DIC_GDIS_ANNEX, 0),
     (Fd.DIC_VECT_VECT 255, 0x10000100)]) (by decide) (by decide),
   .wit nd (by decide) (by decide), .wit { nd with dic := { nd.dic with hold := [(7, 1)] } } (by decide) (by decide), by decide⟩
def ndPow (phase : Phase) (power : Power) : Node := { nd with sys := { nd.sys with phase := phase, power := power } }
theorem witness_StartEvents :
    State.reset.node.sys.power = .off ∧ nd.sys.power ≠ .off ∧ (∃ n : Node, n.sys.power = .off ∧ n.sys.parked = true) ∧
    E (fun n => n.sys.phase ≠ .por ∧ n.sys.power = .full) ∧ ((ndPow .loaded .dormant).sys.phase ≠ .por ∧ (ndPow .loaded .dormant).sys.power = .dormant) ∧
    (∃ n : Node, n.sys.resetPin = true ∧ n.sys.phase = .por ∧ n.sys.power ≠ .off) ∧
    E (fun n => n.sys.power ≠ .powerfail ∧ n.cmd.resetDrain = some 0 ∧ 0 + 2500 ≤ n.tick) ∧
    (∃ n : Node, n.sys.phase = .starting ∧ n.sys.power = .full) ∧ E (fun n => n.sys.phase = .prompt) :=
  ⟨by decide, by decide, ⟨{ nd with sys := { nd.sys with power := .off, parked := true } }, by decide⟩, .wit nd (by decide) (by decide), by decide,
   ⟨{ nd with sys := { nd.sys with phase := .por, resetPin := true } }, by decide⟩,
   .wit { nd with tick := 2500, cmd := { nd.cmd with resetDrain := some 0 } } (by decide) (by decide), ⟨ndPow .starting .full, by decide⟩,
   .wit (ndPow .prompt .full) (by decide) (by decide)⟩
def ndZ (power : Power) (step : Nat) : Node := { nd with sys := { nd.sys with power := power, sleep := some ⟨.full, step, false, 86400, []⟩ } }
theorem witness_PowerEvents :
    E (fun n => (if n.on Fd.SYS_PWRSTAT_HOLDOK then decide (30000 ≤ (32000 : Nat)) else decide (32000 ≤ (32000 : Nat))) ≠ n.on Fd.SYS_PWRSTAT_HOLDOK) ∧
    E (fun n => n.sys.phase = .loaded ∧ n.sys.avsAt = 0) ∧ E (fun n => n.sys.power ≠ .powerfail) ∧
    E (fun n => n.sys.pwrcyc = some 1 ∧ n.sys.pwrcycAt + 12500 ≤ n.tick) ∧ E (fun n => n.sys.power ≠ .powerfail ∧ n.sys.pwrcyc = some 2 ∧ n.sys.pwrcycAt + 2500 ≤ n.tick) ∧
    E (fun n => n.sys.sleep = some ⟨.full, 7, false, 86400, []⟩ ∧ n.portsAsleep = true ∧ n.queueDone = true ∧ n.on Fd.DIC_WAKESRC_VALID = false ∧ n.sys.power ≠ .powerfail) ∧
    E (fun n => n.sys.sleep = some ⟨.full, 6, false, 86400, []⟩ ∧ n.sys.phase ≠ .por ∧ n.sys.power ≠ .dormant ∧ n.sys.power ≠ .powerfail ∧ n.on Fd.DIC_WAKESRC_VALID = true) ∧
    ((ndZ .dormant 7).sys.sleep = some ⟨.full, 7, false, 86400, []⟩ ∧ (ndZ .dormant 7).sys.power = .dormant ∧ (86400 : Nat) ≠ 0 ∧
      (ndZ .dormant 7).on Fd.DIC_WAKESRC_VALID = false ∧ (ndZ .dormant 7).sys.phase ≠ .por) ∧
    (∃ n : Node, n.sys.sleep.isSome = true ∧ n.sys.power = .dormant ∧ n.sys.phase ≠ .por ∧ n.on Fd.DIC_WAKESRC_VALID = true) ∧
    E (fun n => n.sys.power = .powerfail ∧ n.sys.graceOver = false ∧ n.sys.warnAt + n.fd Fd.SYS_PFCFG_AGRACE * 4000 ≤ n.mono 0) ∧
    E (fun n => n.sys.power = .powerfail ∧ (24999 : Nat) < 25000) :=
  ⟨.wit (nd.setFd Fd.SYS_PWRSTAT_HOLDOK 0) (by decide) (by decide), .wit nd (by decide) (by decide), .wit nd (by decide) (by decide),
   .wit { nd with tick := 12500, sys := { nd.sys with pwrcyc := some 1 } } (by decide) (by decide),
   .wit { nd with tick := 2500, sys := { nd.sys with pwrcyc := some 2 } } (by decide) (by decide), .wit ((ndZ .full 7).setFds [(Fd.BUS_STAT_STATE 0, 0), (Fd.BUS_STAT_STATE 1, 0)]) (by decide) (by decide),
   .wit ((ndZ .full 6).setOn Fd.DIC_WAKESRC_VALID true) (by decide) (by decide), by decide,
   ⟨(ndZ .dormant 7).setOn Fd.DIC_WAKESRC_VALID true, by decide⟩, .wit { ndPow .loaded .powerfail with tick := 50000 } (by decide) (by decide),
   .wit (ndPow .loaded .powerfail) (by decide) (by decide)⟩
def hostWith (f : PortSt → PortSt) : Node := pads.setPort .host (f (pads.port .host))
theorem witness_PortEvents :
    E (fun n => n.hears .host = true ∧ n.on Fd.CMD_HOSTCFG_ARMED = false) ∧ E (fun n => n.hears .host = true ∧ n.on Fd.CMD_HOSTCFG_ARMED = true) ∧
    E (fun n => n.sending .service = true) ∧
    E (fun n => n.uartUp .host = true ∧ Fd.CMD_HOSTCFG_PHY.get (n.port .host).cfgInForce = 1 ∧ ((n.nextOut .host).port .host).out ≠ [] ∧ n.turned 79999 = true) ∧
    E (fun n => ∃ r, (n.port .host).stored = some r ∧ r.again = true ∧ r.ended.isSome = true ∧ (n.port .host).replyOpen = false ∧ r.count = 64) ∧
    E (fun n => (∃ r, (n.port .host).stored = some r ∧ r.ended = some 0 ∧ r.again = false) ∧ 0 + 100000 ≤ n.tick) ∧
    E (fun n => (n.port .host).lost ≠ 0 ∧ (n.port .host).notices.length < 64) ∧
    E (fun n => n.cmd.streams.find? (fun t => t.port == .host && t.obj == .uc && t.idx == some 23) = some ⟨.host, .uc, some 23, 1, 50000⟩ ∧
      (n.ucStream 23).2 ≠ 0 ∧ (n.ucStream 23).2 ≤ 50000) ∧
    E (fun n => (n.port .host).confirm = some ⟨0, 0, 0⟩ ∧ 0 < n.tick) ∧ (pads.lively = true ∧ { pads with cmd := { pads.cmd with clock := 30000000 } }.hostSilent = true) ∧
    (∃ (n : Node) (r : Mr), n.lively = true ∧ (n.port .host).mr = some r ∧ r.paused = true ∧ n.coreWork = false ∧ r.pauseSurvey = false) :=
  ⟨.wit (pads.setOn Fd.CMD_HOSTCFG_ARMED false) (by decide) (by decide), .wit (pads.setOn Fd.CMD_HOSTCFG_ARMED true) (by decide) (by decide),
   .wit (pads.setPort .service { pads.port .service with out := [65] }) (by decide) (by decide),
   .wit { hostWith (fun x => { x with cfgInForce := Fd.CMD_HOSTCFG_PHY.put x.cfgInForce 1, out := [65] }) with tick := 50000 } (by decide) (by decide),
   .wit (hostWith (fun x => { x with stored := some ⟨"1", 0, [], 64, some 0, true⟩ })) (by decide) ⟨_, rfl, by decide, by decide, by decide, by decide⟩,
   .wit { hostWith (fun x => { x with stored := some ⟨"1", 0, [], 65, some 0, false⟩ }) with tick := 100000 } (by decide) ⟨⟨_, rfl, rfl, rfl⟩, by decide⟩,
   .wit (hostWith (fun x => { x with lost := 1 })) (by decide) (by decide),
   .wit { pads with cmd := { pads.cmd with streams := [⟨.host, .uc, some 23, 1, 50000⟩] } } (by decide) (by decide),
   .wit { hostWith (fun x => { x with confirm := some ⟨0, 0, 0⟩ }) with tick := 1 } (by decide) (by decide), by decide,
   ⟨hostWith (fun x => { x with mr := some ⟨.clear .lo, "1", verbClear, .lo, [0, 7], true, 1, 0, true, true, false, 0⟩ }), _, by decide, rfl, by decide, by decide, by decide⟩⟩
theorem witness_StartingRefusesLines : (ndPow .prompt .full).portReady .host = true ∧ (ndPow .prompt .full).sys.phase ≠ .loaded := by decide
theorem witness_RingSetsPending : E (fun n => Fd.DIC_DOORBELL_SRC.get 255#32 = 255 ∧ n.awake = true) := .wit nd (by decide) (by decide)
theorem witness_DeliverableExactly : (255 ∈ ((((ndRun []).wr (Ad.DIC_PEND 7) 0x80000000#32).wr (Ad.DIC_ENA 7) 0x80000000#32).setFds
    [(Fd.DIC_SRC_TARGET 255, 0), (Fd.DIC_GDIS_ANNEX, 0), (Fd.DIC_VECT_VECT 255, 0x10000100)]).deliverable 0) ∧ 255 ∉ nd.deliverable 0 := by decide
theorem witness_TimeLatchedPerRequester : nd.awake = true ∧ Rq.annex ≠ Rq.cmd := by decide
theorem witness_ChannelLatchedPerRequester : nd.awake = true ∧ (23 : Nat) < 24 ∧ Rq.annex ≠ Rq.cmd := by decide
theorem witness_SettingTakesItsValue :
    W .trans (fun l _ => l.keys = [("AUTOARM", .int 3600)] ∧ l.idx = none ∧ ∃ sp, specOf transSpecs "AUTOARM" = some sp ∧ sp.form.code (.int 3600) = .ok 3600 ∧
      sp.loc 0 = .fd Fd.TRANS_CTRL_AUTOARM) ∧
    (Fd.TRANS_CTRL_AUTOARM.lo ≤ Fd.TRANS_CTRL_AUTOARM.hi ∧ Fd.TRANS_CTRL_AUTOARM.hi < 32 ∧ Fd.TRANS_CTRL_AUTOARM.addr ≠ Fd.SYS_STORE_DIRTY.addr) ∧
    W .trans (fun l _ => l.keys = [("K", .int 32)] ∧ l.items 8 = .ok [7] ∧ ∃ sp, specOf transInSpecs "K" = some sp ∧ sp.form.code (.int 32) = .ok 32 ∧
      sp.loc 7 = .fd (Fd.TRANS_CFG_K 7)) ∧
    W .call (fun l n => l.keys = [("POL", wd "LOW")] ∧ l.items 8 = .ok [7] ∧ n.fd Fd.ALM_STAT_STATE ≠ 0 ∧ ∃ sp, specOf callLineSpecs "POL" = some sp ∧
      sp.form.code (wd "LOW") = .ok 1 ∧ sp.loc 7 = .fd ⟨Ad.CALL_MODE, 15, 15⟩) ∧
    W .grid (fun l _ => l.keys = [("ON", on_)] ∧ l.items 8 = .ok [7] ∧ ∃ sp, specOf gridInSpecs "ON" = some sp ∧ sp.form.code on_ = .ok 1 ∧
      sp.loc 7 = .fd (Fd.GRID_INCFG_ON 7)) :=
  ⟨.wit nd (ln none [("AUTOARM", .int 3600)]) (by decide) ⟨rfl, rfl, _, rfl, by decide, rfl⟩, by decide,
   .wit nd (ln (some [(7, 7)]) [("K", .int 32)]) (by decide) ⟨rfl, by decide, _, rfl, by decide, rfl⟩,
   .wit ndAlm (ln (some [(7, 7)]) [("POL", wd "LOW")]) (by decide) ⟨rfl, by decide, by decide, _, rfl, by decide, rfl⟩,
   .wit nd (ln (some [(7, 7)]) [("ON", on_)]) (by decide) ⟨rfl, by decide, _, rfl, by decide, rfl⟩⟩
theorem witness_StoresOnlyItsBytes : V (fun l n => 0x100FFFFC % 4 = 0 ∧ region 0x100FFFFC = .tcm ∧ valueKey l.keys = .ok () ∧ valueOf l.keys 32 = .ok 1) :=
  .wit nd (value 1) (by decide) (by decide)

/-! ### Ill-formed terms, one for each check of WellFormed -/

def fr (f : Frame → Frame) : Frame := f (frame 0 0 0)
theorem illformed_lines : (Instr.showNode ⟨.host, "12345", none, []⟩).wf = false ∧ (Instr.showNode ⟨.host, "1x", none, []⟩).wf = false ∧
    (Instr.showNode ⟨.host, "1", some [], []⟩).wf = false ∧ (Instr.regRead (ln none []) "").wf = false ∧ (Instr.regFieldRead (ln none []) "SYS.DEVID" "").wf = false ∧
    (Instr.getSys (ln none []) [""]).wf = false ∧ (Instr.peek (ln none []) (2 ^ 32)).wf = false ∧ (Instr.leaseTimeExpiry .host .uc (some [])).wf = false := by decide
theorem illformed_frames : (Instr.ackFrame (fr fun f => { f with id := 2 ^ 29 })).wf = false ∧ (Instr.ackFrame (fr fun f => { f with ext := false, id := 2048 })).wf = false ∧
    (Instr.ackFrame (fr fun f => { f with gen := 3 })).wf = false ∧ (Instr.ackFrame (fr fun f => { f with train := 1 })).wf = false ∧
    (Instr.ackFrame (fr fun f => { f with data := List.replicate 9 0#8 })).wf = false ∧
    (Instr.ackFrame (fr fun f => { f with gen := 2, data := List.replicate 65 0#8 })).wf = false ∧ (Instr.doorbellFrame 2 (fr id)).wf = false := by decide
theorem illformed_inputs : (Instr.stageS0 { s0Zero with conv := [(7, 0)] }).wf = false ∧ (Instr.stageS0 { s0Zero with excLow := [24] }).wf = false ∧
    (Instr.stageS0 { s0Zero with high := [24] }).wf = false ∧ (Instr.stageS0 { s0Zero with rails := [] }).wf = false ∧ (Instr.stageS1 [[]]).wf = false ∧
    (Instr.stageS2 [7]).wf = false ∧ (Instr.helperLatePublication 7 0).wf = false ∧ (Instr.characterReceived .bus ⟨65, true, true, 0, none⟩ 0).wf = false ∧
    (Instr.characterReceived .host ⟨256, true, true, 0, none⟩ 0).wf = false ∧ (Instr.lineReceived .host [256] 0).wf = false ∧ (Instr.registerWrite .cmd (2 ^ 32) 0#32 ⟨0, 0#32⟩).wf = false ∧
    (Instr.readClearRead .cmd 2 ⟨0, 0#32⟩).wf = false ∧ (Instr.portSettingsTakeEffect .annex).wf = false := by decide
theorem illformed_items : (Instr.channelStale 24).wf = false ∧ (Instr.thermalFoldback 8).wf = false ∧ (Instr.onDelayExpiry 1024).wf = false ∧ (Instr.ackPin 64).wf = false ∧
    (Instr.tokenGain 512).wf = false ∧ (Instr.gatePulseEnd 0 4 0).wf = false ∧ (Instr.mailboxReq 0 64).wf = false ∧ (Instr.valuePublish 256).wf = false ∧
    (Instr.pinEdge 48 true 0).wf = false ∧ (Instr.bankClassChange 2 0 0 0).wf = false ∧ (Instr.bankClassChange 0 3 0 0).wf = false ∧ (Instr.gpoutWrite .cmd 2 0#32).wf = false ∧
    (Instr.railFault 5 0 0).wf = false ∧ (Instr.moderationHoldEnd 8 0).wf = false ∧ (Instr.edgeCapture 50 true 0).wf = false := by decide

/-! ### Results worked out from the spec -/

/-- The checksums of the transcript of R34 and R35: `#5 GET SYS DEVID*19`, `#5 =SYS DEVID 0x4800_0002*B0`, `#5 .*45`. -/
theorem test_transcript_checksums : crc8 (codesOf "5 GET SYS DEVID") = 0x19 ∧
    (⟨"5", .data, [.w "SYS", .w "DEVID", .h 0x48000002 8]⟩ : OutLine).codes = codesOf "#5 =SYS DEVID 0x4800_0002*B0" ∧
    (⟨"5", .done, []⟩ : OutLine).codes = codesOf "#5 .*45" := by decide
/-- R34: a received line whose digits do not match is refused with `?E107` and not executed. -/
theorem test_wrong_checksum_refused : (match exec (.lineReceived .host (codesOf "#5 GET SYS DEVID*18") 0) (st (pads.setOn Fd.CMD_HOSTCFG_ARMED false)) with
    | .next t => ((t.node.port .host).waiting.length, (t.node.port .host).reply.map (fun o => o.kind))
    | _ => (9, [])) = (0, [.error 107]) := by decide
/-- The example at R98: four RT4 channels at 100 S/s need 8 units, at 500 S/s 16. -/
theorem test_units_of_rt4 : ((List.range 4).foldl (fun n i => n.setFds [(Fd.UC_CFG_MODE i, 6), (Fd.UC_CFG_RATE i, 2)]) nd).load 0 = 8 ∧
    ((List.range 4).foldl (fun n i => n.setFds [(Fd.UC_CFG_MODE i, 6), (Fd.UC_CFG_RATE i, 3)]) nd).load 0 = 16 := by decide
/-- R3: POKE stores the least significant byte at the lowest address. -/
theorem test_poke_byte_order : (match exec (.poke (value 0x01020304) 0x10000000) (st nd) with
    | .next t => t.node.bytes 0x10000000 4
    | _ => []) = [4#8, 3#8, 2#8, 1#8] := by decide
/-- R15: POKE into the nonvolatile array is refused with `?E210` and changes nothing there. -/
theorem test_poke_nonvolatile_refused : (match exec (.poke (value 0) 0x300FFFFC) (st nd) with
    | .next t => (t.node.bytes 0x300FFFFC 1, (t.node.port .host).reply.map (fun o => o.kind))
    | _ => ([], [])) = ([0xFF#8], [.error 210]) := by decide
/-- R376: a ring of a source that is neither enabled nor idle sets its bit. -/
theorem test_ring_sets_bit : (match exec (.doorbellWrite .annex 255#32) (st ndAct) with
    | .next t => t.node.rd (Ad.DIC_PEND 7)
    | _ => 0#32) = 0x80000000#32 := by decide
/-- R379: with only bit 0 set every priority is in band 0; with every bit set each is a band of its own. -/
theorem test_bands : bandOf 1 255 = 0 ∧ bandOf (2 ^ 256 - 1) 255 = 255 := by decide
/-- R256: class in [28:26], type in [25:16], sender in [15:8], receiver in [7:0]. -/
theorem test_identifier : ident 1 8 4 9 = 0x04080409 ∧ idClass 0x04080409 = 1 ∧ idType 0x04080409 = 8 ∧ idSrc 0x04080409 = 4 ∧ idDst 0x04080409 = 9 := by decide
/-- Instruction words written out from the RISC-V manual: addi x1, x0, 5; mul x3, x1, x2; lw x5, -4(x2); c.addi x8, 1; mret. -/
theorem test_annex_words : rvDecode32 0x00500093 = some (.opImm .add 1 0 5#32) ∧ rvDecode32 0x022081B3 = some (.opReg .mul 3 1 2) ∧
    rvDecode32 0xFFC12283 = some (.load 4 false 5 2 0xFFFFFFFC#32) ∧ rvDecode16 0x0405 = some (.opImm .add 8 8 1#32) ∧ rvDecode32 0x30200073 = some .mret := by decide
/-- One step of the annex: addi x1, x0, 5 writes x1 and moves past its four bytes. -/
theorem test_annex_addi : (match exec (.annexInstruction 0) (st (ndRun [0x93#8, 0x00#8, 0x50#8, 0x00#8])) with
    | .next t => (Bank.get 0#32 t.node.annex.x 1, t.node.annex.pc)
    | _ => (0#32, 0#32)) = (5#32, 0x10000004#32) := by decide
/-- R145: MODE does not change between SRC and SNK unless it is OFF. -/
theorem test_lo_mode_refused : (match exec (.setLo (ln (some [(0, 0)]) [("MODE", wd "SNK")])) (st (nd.setFds [(Fd.LO_CFG_MODE 0, 1), (Fd.LO_STAT_STATE 0, 1)])) with
    | .next t => (t.node.port .host).reply.map (fun o => o.kind)
    | _ => []) = [.error 308] := by decide
/-- R41: behind the line that executes next, a fifth waiting line is refused with `?E404`. -/
theorem test_fifth_line_refused : (match exec (.lineReceived .host (codesOf "#5 GET SYS DEVID*19") 0)
      (st ((pads.setOn Fd.CMD_HOSTCFG_ARMED false).setPort .host { nd.port .host with waiting := List.replicate 5 ⟨codesOf "GET TIME", "", 0, 0, 0, 0, false⟩ })) with
    | .next t => ((t.node.port .host).waiting.length, ((t.node.port .host).reply ++ (t.node.port .host).refusals).map (fun o => o.kind))
    | _ => (0, [])) = (5, [.error 404]) := by decide

end Sys2Proof.Tests
end

/-! ### Reads that run before the stored settings have loaded, and O6: the identity of the node (R22) -/

section
namespace Sys2Proof.Machine

/-- An early line whose port is ready takes effect before the stored settings have loaded as well as after (R402). -/
theorem runLine_early_ok {n : Node} {l : Line} {body : Node → Except Err (Node × List (List Item))} {m : Node}
    {d : List (List Item)} (hr : n.portReady l.port = true) (hb : body (n.takeLine l) = .ok (m, d)) :
    n.runLine l true body = m.replyOk l d := by
  simp [runLine_cases n l true body hr, hb]

theorem bare_indexed {l : Line} (hi : l.idx ≠ none) : l.bare = refuse 113 := by
  simp [Line.bare, hi]

/-- Where no key is known, the first key given is an unknown one. -/
theorem onlyKeys_nil_of_ne_nil {keys : Keys} (hk : keys ≠ []) : onlyKeys [] [] keys = refuse 104 := by
  match keys, hk with
  | _ :: _, _ => simp [onlyKeys, stepTen, keyErr]

/-- The effect of a read that takes neither an index nor a key: it answers with the data lines `d` and leaves the node as it is. -/
def plainRead (l : Line) (d : Node → List (List Item)) (n : Node) : Except Err (Node × List (List Item)) := do
  l.bare
  onlyKeys [] [] l.keys
  pure (n, d n)

theorem plainRead_of_plain {l : Line} (h : Plain l) (d : Node → List (List Item)) (n : Node) :
    plainRead l d n = .ok (n, d n) := by
  simp [plainRead, h.bare, h.noKeys, bind, Except.bind, pure, Except.pure]

theorem plainRead_of_keys {l : Line} (hi : l.idx = none) (hk : l.keys ≠ []) (d : Node → List (List Item)) (n : Node) :
    plainRead l d n = .error ⟨104, []⟩ := by
  simp [plainRead, bare_of hi, onlyKeys_nil_of_ne_nil hk, refuse, bind, Except.bind]

theorem plainRead_of_index {l : Line} (hi : l.idx ≠ none) (d : Node → List (List Item)) (n : Node) :
    plainRead l d n = .error ⟨113, []⟩ := by
  simp [plainRead, bare_indexed hi, refuse, bind, Except.bind]

/-- A read that takes neither an index nor a key and that runs before the stored settings have loaded (R402). -/
def execEarlyRead (l : Line) (d : Node → List (List Item)) (s : State) : Host.Outcome State Fault Refusal :=
  s.lift fun n => n.runLine l true (plainRead l d)

theorem execEarlyRead_answers {s : State} {l : Line} (hr : s.node.portReady l.port = true) (h : Plain l)
    (d : Node → List (List Item)) : execEarlyRead l d s = answers s (taken s l) l (d (taken s l)) := by
  rw [execEarlyRead, lift_becomes, runLine_early_ok hr (plainRead_of_plain h d _)]
  rfl

/-- A read refuses the line with the error its effect answers. -/
theorem execEarlyRead_refuses {s : State} {l : Line} {e : Err} (hl : Live s l) {d : Node → List (List Item)}
    (he : plainRead l d (taken s l) = .error e) : execEarlyRead l d s = refuses s l e := by
  rw [execEarlyRead, lift_becomes, runLine_error hl.ready hl.loaded he]
  rfl

theorem exec_getSysDevid_earlyRead (l : Line) (s : State) :
    exec (.getSysDevid l) s = execEarlyRead l (fun n => [[.w "SYS", .w "DEVID", .h n.devid 8]]) s := exec_getSysDevid s l
theorem exec_getSysUid_earlyRead (l : Line) (s : State) :
    exec (.getSysUid l) s = execEarlyRead l (fun _ => [[.w "SYS", .w "UID", .h Node.uid 16]]) s := exec_getSysUid s l
theorem exec_getSysRomver_earlyRead (l : Line) (s : State) :
    exec (.getSysRomver l) s = execEarlyRead l (fun n => [[.w "SYS", .w "ROMVER", .h n.romver 8]]) s := exec_getSysRomver s l

/-- Each of the three identity reads is an early read of its own data lines. -/
theorem exec_identityRead {l : Line} {c : Instr} (hc : c ∈ [Instr.getSysDevid l, .getSysUid l, .getSysRomver l]) (s : State) :
    ∃ d, exec c s = execEarlyRead l d s := by
  simp only [List.mem_cons, List.not_mem_nil, or_false] at hc
  obtain rfl | rfl | rfl := hc
  · exact ⟨_, exec_getSysDevid_earlyRead l s⟩
  · exact ⟨_, exec_getSysUid_earlyRead l s⟩
  · exact ⟨_, exec_getSysRomver_earlyRead l s⟩

@[simp] theorem Node.takeLine_devid (n : Node) (l : Line) : (n.takeLine l).devid = n.devid := rfl
@[simp] theorem Node.takeLine_romver (n : Node) (l : Line) : (n.takeLine l).romver = n.romver := rfl

/-- Settles O6: each identity read is an early read without index or key, so the line's form alone decides between its
data line and the two refusals (R22, steps 9 and 10 of R470). -/
theorem identityReads : Obligations.IdentityReads := by
  intro s l hr
  refine ⟨fun h => ⟨?_, ?_, ?_⟩, fun hp hi hk c hc => ?_, fun hp hi c hc => ?_⟩
  · rw [exec_getSysDevid_earlyRead, execEarlyRead_answers hr h, Node.takeLine_devid]
  · rw [exec_getSysUid_earlyRead, execEarlyRead_answers hr h]
  · rw [exec_getSysRomver_earlyRead, execEarlyRead_answers hr h, Node.takeLine_romver]
  · obtain ⟨d, hd⟩ := exec_identityRead hc s
    rw [hd, execEarlyRead_refuses ⟨hr, hp⟩ (plainRead_of_keys hi hk d _)]
  · obtain ⟨d, hd⟩ := exec_identityRead hc s
    rw [hd, execEarlyRead_refuses ⟨hr, hp⟩ (plainRead_of_index hi d _)]

end Sys2Proof.Machine
end

/-! ### O7: node time as GET TIME replies it (R81) -/

section
namespace Sys2Proof.Machine

/-- A read whose effect on the node that took the line is the data lines `d` answers with them. -/
theorem lift_runRead_answers {s : State} {l : Line} {n : Node} {act : Node → Except Err (List (List Item))}
    {d : List (List Item)} (hn : taken s l = n) (hl : Live s l) (hd : act n = .ok d) :
    (s.lift fun m => m.runRead l act) = answers s n l d := by
  subst hn
  rw [lift_becomes, runRead_ok hl.ready hl.loaded hd]
  rfl

/-- Settles O7: a line without index or key passes the checks of GET TIME, whose data line is made of the node that took
the line, with the time of its stage S7. -/
theorem getTimeReply : Obligations.GetTimeReply := by
  intro s l n hn hl hp
  rw [exec_getTime, execGetTime]
  refine lift_runRead_answers hn hl ?_
  rw [hp.bare, hp.noKeys]
  rfl

end Sys2Proof.Machine
end

/-! ### Latches and their companion registers (R366), and O55: the latch of the seconds (R85) -/

section
namespace Sys2Proof.Machine

/-- What a requester sees latched at an address after any requester has latched a word: that word at its own address and for
its own requester, and elsewhere what was latched before. -/
theorem Node.lat_setLat (n : Node) (q q' : Rq) (a b : Nat) (v : Word) :
    (n.setLat q a v).lat q' b = if q = q' ∧ a = b then v else n.lat q' b := by
  by_cases h : a = b
  · subst h
    cases q <;> cases q' <;> simp [Node.lat, Node.setLat, Bank.get_set]
  · cases q <;> cases q' <;> simp [Node.lat, Node.setLat, Bank.get_set_ne _ _ h, h]

@[simp] theorem Node.setLat_sys (n : Node) (q : Rq) (a : Nat) (v : Word) : (n.setLat q a v).sys = n.sys := by
  cases q <;> rfl

/-- A node runs or not by its phase and its power mode alone. -/
theorem Node.awake_congr {n m : Node} (h : m.sys = n.sys) : m.awake = n.awake := by
  simp only [Node.awake, h]

/-- The registers whose read latches other registers (R366). -/
def latchingNames : List String := ["TIME.QNS", "UC.VAL", "LO.RB", "GRID.REPSEC", "ARC.OPMSLO"]

/-- The register at `a` is a companion register whose read has no effect: it latches nothing and clears nothing. -/
def companion (a : Nat) : Bool :=
  latched a && (regRow a).any fun r => !latchingNames.contains r.name && r.fields.all fun f => f.acc != .RC

theorem companion_iff {a : Nat} : companion a = true ↔
    latched a = true ∧ ∃ r, regRow a = some r ∧ r.name ∉ latchingNames ∧ ∀ f ∈ r.fields, f.acc ≠ .RC := by
  simp [companion, Option.any_eq_true]

/-- In a row without RC fields an operation on the RC fields changes nothing. -/
theorem RegRow.eachRC_of_no_RC {r : RegRow} (h : ∀ f ∈ r.fields, f.acc ≠ .RC) (g : Nat → Nat → Nat) (w keep : Word) :
    r.eachRC g w keep = w := by
  rw [RegRow.eachRC]
  refine List.foldlRecOn (motive := (· = w)) r.fields _ rfl fun b hb f hf => ?_
  simpa [h f hf] using hb

/-- A companion register shows what its requester latched. -/
theorem Node.regView_of_latched (n : Node) (rq : Rq) {a : Nat} {r : RegRow} (m : Moment) (hr : regRow a = some r)
    (ha : latched a = true) : n.regView rq a m = n.lat rq a := by
  simp [Node.regView, hr, ha]

/-- A read of a companion register returns what its requester latched, whatever hardware counts in that cycle. -/
theorem Node.regRead_companion (n : Node) (rq : Rq) {a : Nat} (m : Moment) (keep : Word) (ha : companion a = true) :
    (n.regRead rq a m keep).rdata = n.lat rq a := by
  obtain ⟨hl, r, hr, hname, hrc⟩ := companion_iff.1 ha
  simp only [latchingNames, List.mem_cons, List.not_mem_nil, or_false, not_or] at hname
  obtain ⟨hqns, hval, hrb, hrep, hop⟩ := hname
  -- none of the five latching rows applies, so the read is that of an ordinary register
  simp only [Node.regRead, hr]
  rw [RegRow.before, RegRow.eachRC_of_no_RC hrc, n.regView_of_latched rq m hr hl]

theorem exec_readClearRead_companion {s : State} (hw : s.node.awake = true) (rq : Rq) {a : Nat} (ha : companion a = true)
    (c : Access) : ∃ u, exec (.readClearRead rq a c) s = .next u ∧ u.node.rdata = s.node.lat rq a := by
  rw [exec_readClearRead, execReadClearRead, lift_becomes, if_pos hw]
  exact ⟨_, rfl, s.node.regRead_companion rq c.at_ c.keep ha⟩

theorem companion_TIME_SECLO : companion Ad.TIME_SECLO = true := by decide
theorem companion_TIME_SECHI : companion Ad.TIME_SECHI = true := by decide

theorem exec_timeQnsRead_awake {s : State} (hw : s.node.awake = true) (rq : Rq) (m : Moment) :
    exec (.timeQnsRead rq m) s = becomes s (s.node.readQns rq m) := by
  rw [exec_timeQnsRead, execTimeQnsRead, lift_becomes, if_pos hw]

@[simp] theorem Node.readQns_rdata (n : Node) (rq : Rq) (m : Moment) :
    (n.readQns rq m).rdata = BitVec.ofNat 32 (qnsOf (n.now m)) := rfl

@[simp] theorem Node.readQns_sys (n : Node) (rq : Rq) (m : Moment) : (n.readQns rq m).sys = n.sys := by
  simp [Node.readQns]

/-- What a read of TIME.QNS leaves latched: the low and the high seconds for its requester, all else as before. -/
theorem Node.lat_readQns (n : Node) (rq q : Rq) (m : Moment) (a : Nat) :
    (n.readQns rq m).lat q a =
      if rq = q ∧ Ad.TIME_SECHI = a then BitVec.ofNat 32 (secOf (n.now m) / 2 ^ 32)
      else if rq = q ∧ Ad.TIME_SECLO = a then BitVec.ofNat 32 (secOf (n.now m)) else n.lat q a := by
  rw [← Node.lat_setLat, ← Node.lat_setLat]
  rfl

/-- Settles O55: the read of TIME.QNS changes only its requester's two latches (R85), and a later read of either companion
register returns its requester's latch, at any moment (R366). -/
theorem timeLatchedPerRequester : Obligations.TimeLatchedPerRequester := by
  intro s rq m m' hw
  have hw' : (s.node.readQns rq m).awake = true := by rw [Node.awake_congr (s.node.readQns_sys rq m), hw]
  have later (q : Rq) {a : Nat} (ha : companion a = true) :=
    exec_readClearRead_companion (s := { s with node := s.node.readQns rq m }) hw' q ha m'
  refine ⟨_, exec_timeQnsRead_awake hw rq m, s.node.readQns_rdata rq m, ?_, ?_, ?_⟩
  · simpa [Node.lat_readQns] using later rq companion_TIME_SECLO
  · simpa [Node.lat_readQns] using later rq companion_TIME_SECHI
  · intro rq' hne a ha
    have hc : companion a = true := by
      simp only [List.mem_cons, List.not_mem_nil, or_false] at ha
      obtain rfl | rfl := ha
      · exact companion_TIME_SECLO
      · exact companion_TIME_SECHI
    obtain ⟨u, hu, hlatched⟩ := later rq' hc
    obtain ⟨w, hw, hbefore⟩ := exec_readClearRead_companion hw rq' hc m'
    refine ⟨u, w, hu, hw, ?_⟩
    rw [hlatched, hbefore, Node.lat_readQns, if_neg fun h => hne h.1.symm, if_neg fun h => hne h.1.symm]

end Sys2Proof.Machine
end

/-! ### O56: the latch of a universal channel's flags and beat stamp (R122) -/

section
namespace Sys2Proof.Machine

theorem companion_UC_VSTAT : companion Ad.UC_VSTAT = true := by decide

theorem exec_ucValRead_awake {s : State} (hw : s.node.awake = true) (rq : Rq) {i : Nat} (hi : i < 24) :
    exec (.ucValRead rq i) s = becomes s (s.node.readUcVal rq i) := by
  simp [exec_ucValRead, execUcValRead, lift_becomes, hw, hi]

@[simp] theorem Node.readUcVal_rdata (n : Node) (rq : Rq) (i : Nat) :
    (n.readUcVal rq i).rdata = n.rd (Ad.UC_VAL i) := rfl

@[simp] theorem Node.readUcVal_sys (n : Node) (rq : Rq) (i : Nat) : (n.readUcVal rq i).sys = n.sys := by
  simp [Node.readUcVal]

/-- What a read of UC.VALn leaves latched: the channel's flags and stamp for its requester, all else as before. -/
theorem Node.lat_readUcVal (n : Node) (rq q : Rq) (i a : Nat) :
    (n.readUcVal rq i).lat q a = if rq = q ∧ Ad.UC_VSTAT = a then n.vstatOf i else n.lat q a := by
  rw [← Node.lat_setLat]
  rfl

/-- Settles O56: the read of UC.VALn changes only its requester's latch of UC.VSTAT (R122), and a later read of UC.VSTAT
returns its requester's latch, at any access (R366). -/
theorem channelLatchedPerRequester : Obligations.ChannelLatchedPerRequester := by
  intro s rq i m hw hi
  have hw' : (s.node.readUcVal rq i).awake = true := by rw [Node.awake_congr (s.node.readUcVal_sys rq i), hw]
  have later (q : Rq) :=
    exec_readClearRead_companion (s := { s with node := s.node.readUcVal rq i }) hw' q companion_UC_VSTAT m
  refine ⟨_, exec_ucValRead_awake hw rq hi, s.node.readUcVal_rdata rq i, ?_, fun rq' hne => ?_⟩
  · simpa [Node.lat_readUcVal] using later rq
  · obtain ⟨u, hu, hlatched⟩ := later rq'
    obtain ⟨w, hw, hbefore⟩ := exec_readClearRead_companion hw rq' companion_UC_VSTAT m
    refine ⟨u, w, hu, hw, ?_⟩
    rw [hlatched, hbefore, Node.lat_readUcVal, if_neg fun h => hne h.1.symm]

end Sys2Proof.Machine
end

/-! ### What a ring writes, and O53: a ring and the pending bits (R376) -/

section
namespace Sys2Proof.Machine

/-- Setting fields leaves every register that holds none of them as it is. -/
theorem Node.rd_setFds_of_ne {a : Nat} {l : List (Fd × Nat)} (n : Node) (h : ∀ x ∈ l, x.1.addr ≠ a) :
    (n.setFds l).rd a = n.rd a := by
  induction l generalizing n with
  | nil => rfl
  | cons x t ih =>
    obtain ⟨hx, ht⟩ := List.forall_mem_cons.1 h
    rw [Node.setFds, ih _ ht, Node.rd_setFd, if_neg hx]

theorem Node.rd_setBit_of_ne (n : Node) {a b : Nat} (i : Nat) (h : a ≠ b) : (n.setBit a i).rd b = n.rd b := by
  rw [Node.setBit, Node.rd_wr, if_neg h]

/-- The bits of a word after one of them has been set. -/
theorem getLsbD_or_one_shiftLeft (w : Word) {i j : Nat} (hj : j < 32) :
    (w ||| 1#32 <<< i).getLsbD j = (decide (i = j) || w.getLsbD j) := by
  have hone : (1#32 <<< i).getLsbD j = decide (i = j) := by
    rw [← BitVec.twoPow_eq, BitVec.getLsbD_twoPow, ← Bool.decide_and, decide_eq_decide]
    omega
  rw [BitVec.getLsbD_or, hone, Bool.or_comm]

/-- The bits of a register after one of its bits, or a bit of another register, has been set. -/
theorem Node.bit_setBit (n : Node) (a b i : Nat) {j : Nat} (hj : j < 32) :
    (n.setBit a i).bit b j = (decide (a = b ∧ i = j) || n.bit b j) := by
  by_cases h : a = b
  · subst h
    simp [Node.bit, Node.setBit, Node.rd_wr, getLsbD_or_one_shiftLeft _ hj]
  · simp [Node.bit, Node.rd_setBit_of_ne n i h, h]

/-- The registers in which the watch unit latches the first watched ring (R392). -/
def wakeLatch : List Nat := [Ad.DIC_WAKESRC, Ad.DIC_EVT]

/-- Where sources can ring, a ring sets the pending bit and leaves every register as it then is, but for the record of rings
and the watch unit's latch. -/
theorem Node.rd_ring {n : Node} (hp : n.sys.phase ≠ .por) (ho : n.sys.power ≠ .off) (k : Nat) {a : Nat}
    (hr : Ad.DIC_RANG (k / 32) ≠ a) (hw : a ∉ wakeLatch) :
    (n.ring k).rd a = (n.setBit (Ad.DIC_PEND (k / 32)) (k % 32)).rd a := by
  have hlatch : ∀ x ∈ [(Fd.DIC_WAKESRC_VALID, 1), (Fd.DIC_WAKESRC_SRC, k), (Fd.DIC_EVT_WAKE, 1)], x.1.addr ≠ a := by
    simpa [wakeLatch, eq_comm] using hw
  rw [Node.ring, if_neg (by simp [hp, ho])]
  dsimp only
  split
  · rw [Node.rd_setFds_of_ne _ hlatch, Node.rd_setBit_of_ne _ _ hr]
  · rw [Node.rd_setBit_of_ne _ _ hr]

/-- A ring of a source, from whatever rings it, makes that source pending and leaves every other as it was; its enable, its
active state, its target and the global disable are not asked (R376). -/
theorem Node.pend_ring {n : Node} (hp : n.sys.phase ≠ .por) (ho : n.sys.power ≠ .off) {k j : Nat} (hk : k < 256)
    (hj : j < 256) : (n.ring k).pend j = (decide (j = k) || n.pend j) := by
  have hr : Ad.DIC_RANG (k / 32) ≠ Ad.DIC_PEND (j / 32) := by
    simp only [Ad.DIC_RANG, Ad.DIC_PEND]
    omega
  have hw : Ad.DIC_PEND (j / 32) ∉ wakeLatch := by
    simp only [wakeLatch, Ad.DIC_WAKESRC, Ad.DIC_EVT, Ad.DIC_PEND, List.mem_cons, List.not_mem_nil, or_false]
    omega
  have hsame : (Ad.DIC_PEND (k / 32) = Ad.DIC_PEND (j / 32) ∧ k % 32 = j % 32) ↔ j = k := by
    simp only [Ad.DIC_PEND]
    omega
  calc (n.ring k).pend j
      = (n.setBit (Ad.DIC_PEND (k / 32)) (k % 32)).bit (Ad.DIC_PEND (j / 32)) (j % 32) := by
        rw [Node.pend, Node.bit, Node.rd_ring hp ho k hr hw, Node.bit]
    _ = (decide (j = k) || n.pend j) := by
        rw [Node.bit_setBit _ _ _ _ (Nat.mod_lt _ (by decide)), decide_eq_decide.2 hsame, Node.pend]

/-- A ring is no stray completion: the count of these stays (R376). -/
theorem Node.strayCount_ring {n : Node} (hp : n.sys.phase ≠ .por) (ho : n.sys.power ≠ .off) (k : Nat) :
    (n.ring k).fd Fd.DIC_STRAYCNT_COUNT = n.fd Fd.DIC_STRAYCNT_COUNT := by
  have hr : Ad.DIC_RANG (k / 32) ≠ Ad.DIC_STRAYCNT := by
    simp only [Ad.DIC_RANG, Ad.DIC_STRAYCNT]
    omega
  have hpend : Ad.DIC_PEND (k / 32) ≠ Ad.DIC_STRAYCNT := by
    simp only [Ad.DIC_PEND, Ad.DIC_STRAYCNT]
    omega
  rw [Node.fd, Node.rd_ring hp ho k hr (by decide), Node.rd_setBit_of_ne _ _ hpend, Node.fd]

/-- In a node that runs, sources can ring: it is out of reset and not OFF. -/
theorem Node.rings_of_awake {n : Node} (h : n.awake = true) : n.sys.phase ≠ .por ∧ n.sys.power ≠ .off := by
  cases hp : n.sys.phase <;> cases ho : n.sys.power <;> simp [Node.awake, hp, ho] at h ⊢

theorem exec_doorbellWrite_awake {s : State} (hw : s.node.awake = true) (rq : Rq) (v : Word) :
    exec (.doorbellWrite rq v) s = becomes s (s.node.ring (Fd.DIC_DOORBELL_SRC.get v)) := by
  rw [exec_doorbellWrite, execDoorbellWrite, lift_becomes, if_pos hw]

theorem doorbellSource_lt (v : Word) : Fd.DIC_DOORBELL_SRC.get v < 256 := Nat.mod_lt _ (by decide)

/-- Settles O53: a DOORBELL write is a ring of the source it names, and of a ring it is shown for every source what becomes
of the pending bits, the other registers and the rest of the node. -/
theorem ringSetsPending : Obligations.RingSetsPending := by
  rintro s rq v k hw rfl
  obtain ⟨hp, ho⟩ := Node.rings_of_awake hw
  have hk := doorbellSource_lt v
  refine ⟨_, exec_doorbellWrite_awake hw rq v, ?_, fun j hj hne => ?_, Node.ring_only_reg _ _, Node.strayCount_ring hp ho _⟩
  · simp [Node.pend_ring hp ho hk hk]
  · simp [Node.pend_ring hp ho hk hj, hne]

end Sys2Proof.Machine
end

/-! ### O54: which sources are deliverable at a target (R378) -/

section
namespace Sys2Proof.Machine

/-- The sources whose bits are set in `w`, the word numbered `j` of the eight that hold one bit for each source. -/
def sourcesOf (j : Nat) (w : Word) : List Nat :=
  if w = 0#32 then [] else ((List.range 32).filter (fun b => w.getLsbD b)).map (fun b => 32 * j + b)

theorem Node.ready_eq (n : Node) : n.ready =
    (List.range 8).flatMap fun j => sourcesOf j (n.rd (Ad.DIC_PEND j) &&& n.rd (Ad.DIC_ENA j) &&& ~~~(n.rd (Ad.DIC_ACT j))) :=
  rfl

theorem mem_sourcesOf {j k : Nat} {w : Word} : k ∈ sourcesOf j w ↔ k / 32 = j ∧ w.getLsbD (k % 32) = true := by
  by_cases hw : w = 0#32
  · simp [sourcesOf, hw]
  · simp only [sourcesOf, if_neg hw, List.mem_map, List.mem_filter, List.mem_range]
    constructor
    · rintro ⟨b, ⟨hb, hset⟩, rfl⟩
      obtain ⟨hdiv, hmod⟩ : (32 * j + b) / 32 = j ∧ (32 * j + b) % 32 = b := by omega
      exact ⟨hdiv, by rwa [hmod]⟩
    · rintro ⟨rfl, hset⟩
      exact ⟨k % 32, ⟨Nat.mod_lt _ (by decide), hset⟩, Nat.div_add_mod k 32⟩

/-- The ready sources are those of the 256 that are pending, enabled and not active. -/
theorem Node.mem_ready {n : Node} {k : Nat} :
    k ∈ n.ready ↔ k < 256 ∧ n.pend k = true ∧ n.ena k = true ∧ n.act k = false := by
  have hword : k / 32 < 8 ↔ k < 256 := by omega
  have hbit : k % 32 < 32 := Nat.mod_lt _ (by decide)
  simp [Node.ready_eq, mem_sourcesOf, Node.pend, Node.ena, Node.act, Node.bit, hword, hbit, and_assoc]

/-- The global disable of a target (R387). -/
def gdisOf (tgt : Nat) : Fd := if tgt = 0 then Fd.DIC_GDIS_ANNEX else Fd.DIC_GDIS_HOST

/-- A set global disable leaves nothing deliverable; a clear one leaves what the ready sources' own settings let through. -/
theorem Node.mem_deliverable {n : Node} {tgt k : Nat} : k ∈ n.deliverable tgt ↔
    n.on (gdisOf tgt) = false ∧ k ∈ n.ready ∧ n.target k = tgt ∧ (n.holding k = false ∨ (tgt = 0 ∧ n.annex.wfi = true)) ∧
      (tgt = 1 ∨ n.rd (Ad.DIC_VECT k) ≠ 0#32) := by
  rw [Node.deliverable, ← apply_ite n.on, ← gdisOf]
  cases n.on (gdisOf tgt) with
  | true => simp
  | false => simp [and_assoc]

/-- Settles O54: the two targets share every condition but the vector's, which the annex alone asks (R378, with R388 for the
hold in WFI). -/
theorem deliverableExactly : Obligations.DeliverableExactly := by
  intro n tgt k ht hk
  have hvect : (tgt = 1 ∨ n.rd (Ad.DIC_VECT k) ≠ 0#32) ↔ (tgt = 0 → n.rd (Ad.DIC_VECT k) ≠ 0#32) := by
    obtain rfl | rfl : tgt = 0 ∨ tgt = 1 := by omega
    · simp
    · simp
  rw [Node.mem_deliverable, Node.mem_ready, hvect, gdisOf]
  tauto

end Sys2Proof.Machine
end

/-! ### The queue and the outcomes, and O4: what every step keeps -/

section
namespace Sys2Proof.Machine

/-- Every command keeps what is sound: each by the law of its own meaning. -/
theorem exec_sound (c : Instr) (s : State) (h : Sound s.node) : Good (exec c s) :=
  match c with
  | .registerWrite rq a v c => execRegisterWrite_sound rq a v c s h
  | .readClearRead rq a c => execReadClearRead_sound rq a c s h
  | .getSysDevid l => execGetSysDevid_sound l s h
  | .getSysUid l => execGetSysUid_sound l s h
  | .getSysRomver l => execGetSysRomver_sound l s h
  | .showNode l => execShowNode_sound l s h
  | .beatStart b => execBeatStart_sound b s h
  | .stageS0 inp => execStageS0_sound inp s h
  | .stageS1 codes => execStageS1_sound codes s h
  | .stageS2 late => execStageS2_sound late s h
  | .stageS3 late => execStageS3_sound late s h
  | .stageS4 late => execStageS4_sound late s h
  | .stageS5 late lo => execStageS5_sound late lo s h
  | .stageS6 late nvBad => execStageS6_sound late nvBad s h
  | .stageS7 cut nvBad => execStageS7_sound cut nvBad s h
  | .helperLatePublication slot m => execHelperLatePublication_sound slot m s h
  | .nodeTimeSecond => execNodeTimeSecond_sound s h
  | .secondPulseEnd m => execSecondPulseEnd_sound m s h
  | .characterReceived p ch m => execCharacterReceived_sound p ch m s h
  | .hostDeTurnaround m => execHostDeTurnaround_sound m s h
  | .lineReceived p cs m => execLineReceived_sound p cs m s h
  | .typedHelpQuery p => execTypedHelpQuery_sound p s h
  | .storedReplyResend p => execStoredReplyResend_sound p s h
  | .storedReplyExpiry p => execStoredReplyExpiry_sound p s h
  | .lostNotice p => execLostNotice_sound p s h
  | .streamEmit p o k => execStreamEmit_sound p o k s h
  | .microRoutineResume p => execMicroRoutineResume_sound p s h
  | .confirmationExpiry p => execConfirmationExpiry_sound p s h
  | .hold l o => execHold_sound l o s h
  | .free l o => execFree_sound l o s h
  | .leaseTimeExpiry p o idx => execLeaseTimeExpiry_sound p o idx s h
  | .leaseSilenceExpiry p o idx => execLeaseSilenceExpiry_sound p o idx s h
  | .hostHeartbeatExpiry m => execHostHeartbeatExpiry_sound m s h
  | .regRead l reg => execRegRead_sound l reg s h
  | .regFieldRead l reg fld => execRegFieldRead_sound l reg fld s h
  | .regWrite l reg => execRegWrite_sound l reg s h
  | .regFieldWrite l reg fld => execRegFieldWrite_sound l reg fld s h
  | .peek l a => execPeek_sound l a s h
  | .poke l a => execPoke_sound l a s h
  | .setSys l => execSetSys_sound l s h
  | .getSys l names => execGetSys_sound l names s h
  | .portSettingsTakeEffect p => execPortSettingsTakeEffect_sound p s h
  | .showSysLease l => execShowSysLease_sound l s h
  | .showSysMr l => execShowSysMr_sound l s h
  | .showSysPort l => execShowSysPort_sound l s h
  | .help l word => execHelp_sound l word s h
  | .doSysReinitPort l => execDoSysReinitPort_sound l s h
  | .doNodeReset l => execDoNodeReset_sound l s h
  | .nodeResetDrainEnd => execNodeResetDrainEnd_sound s h
  | .ppsEdge rise widthNs m => execPpsEdge_sound rise widthNs m s h
  | .ppsEdgeMissing m => execPpsEdgeMissing_sound m s h
  | .irigFrame label dist cellsOk m => execIrigFrame_sound label dist cellsOk m s h
  | .finutInvalid m => execFinutInvalid_sound m s h
  | .timeStep => execTimeStep_sound s h
  | .coarseTimeout m => execCoarseTimeout_sound m s h
  | .referenceLoss m => execReferenceLoss_sound m s h
  | .edgeCapture sel rise m => execEdgeCapture_sound sel rise m s h
  | .setTime l => execSetTime_sound l s h
  | .doTimeSet l => execDoTimeSet_sound l s h
  | .getTime l => execGetTime_sound l s h
  | .setTimeCapture l => execSetTimeCapture_sound l s h
  | .doTimeTake l => execDoTimeTake_sound l s h
  | .capturePop rq v => execCapturePop_sound rq v s h
  | .showBeat l => execShowBeat_sound l s h
  | .clearBeat l => execClearBeat_sound l s h
  | .overrunClear rq v => execOverrunClear_sound rq v s h
  | .watchTime l => execWatchTime_sound l s h
  | .watchBeat l => execWatchBeat_sound l s h
  | .doTimeReinit l => execDoTimeReinit_sound l s h
  | .timeQnsRead rq m => execTimeQnsRead_sound rq m s h
  | .crossbarSwitch => execCrossbarSwitch_sound s h
  | .quadMigrated => execQuadMigrated_sound s h
  | .quadRestored => execQuadRestored_sound s h
  | .channelStale k => execChannelStale_sound k s h
  | .diDebounce k => execDiDebounce_sound k s h
  | .ucDrainComplete k => execUcDrainComplete_sound k s h
  | .setUc l => execSetUc_sound l s h
  | .getUc l => execGetUc_sound l s h
  | .showUc l => execShowUc_sound l s h
  | .showUcQuad l => execShowUcQuad_sound l s h
  | .doUcQuadFail l => execDoUcQuadFail_sound l s h
  | .doUcQuadRestore l => execDoUcQuadRestore_sound l s h
  | .setUcCtab l => execSetUcCtab_sound l s h
  | .watchUc l => execWatchUc_sound l s h
  | .streamUc l => execStreamUc_sound l s h
  | .doUcReinit l => execDoUcReinit_sound l s h
  | .ucValRead rq k => execUcValRead_sound rq k s h
  | .thermalFoldback k => execThermalFoldback_sound k s h
  | .thermalRelease k => execThermalRelease_sound k s h
  | .loActionEnd k => execLoActionEnd_sound k s h
  | .loDrainComplete k => execLoDrainComplete_sound k s h
  | .setLo l => execSetLo_sound l s h
  | .getLo l => execGetLo_sound l s h
  | .showLo l => execShowLo_sound l s h
  | .showLoCheck l => execShowLoCheck_sound l s h
  | .watchLo l => execWatchLo_sound l s h
  | .streamLo l => execStreamLo_sound l s h
  | .clearLo l => execClearLo_sound l s h
  | .doLoReinit l => execDoLoReinit_sound l s h
  | .loRbRead rq k => execLoRbRead_sound rq k s h
  | .comparatorFiring k m pos => execComparatorFiring_sound k m pos s h
  | .postTriggerFillComplete m hf => execPostTriggerFillComplete_sound m hf s h
  | .autoarmExpiry m => execAutoarmExpiry_sound m s h
  | .setGrid l => execSetGrid_sound l s h
  | .getGrid l => execGetGrid_sound l s h
  | .showGrid l => execShowGrid_sound l s h
  | .streamGrid l => execStreamGrid_sound l s h
  | .doGridReinit l => execDoGridReinit_sound l s h
  | .setTrans l => execSetTrans_sound l s h
  | .doTransArm l => execDoTransArm_sound l s h
  | .doTransDisarm l => execDoTransDisarm_sound l s h
  | .transCtrlArm v => execTransCtrlArm_sound v s h
  | .transCtrlDisarm v => execTransCtrlDisarm_sound v s h
  | .getTrans l => execGetTrans_sound l s h
  | .showTrans l => execShowTrans_sound l s h
  | .watchTrans l => execWatchTrans_sound l s h
  | .doTransDump l => execDoTransDump_sound l s h
  | .doTransReinit l => execDoTransReinit_sound l s h
  | .gridRepsecRead rq => execGridRepsecRead_sound rq s h
  | .onDelayExpiry k => execOnDelayExpiry_sound k s h
  | .offDelayExpiry k => execOffDelayExpiry_sound k s h
  | .blockRelease g => execBlockRelease_sound g s h
  | .shelvingExpiry k => execShelvingExpiry_sound k s h
  | .ackPin g => execAckPin_sound g s h
  | .ackFrame f => execAckFrame_sound f s h
  | .callEscalation g => execCallEscalation_sound g s h
  | .callPulseEnd m => execCallPulseEnd_sound m s h
  | .callFrameRepeat g => execCallFrameRepeat_sound g s h
  | .peerValueAge k => execPeerValueAge_sound k s h
  | .setAp l => execSetAp_sound l s h
  | .setApEngine l => execSetApEngine_sound l s h
  | .setAg l => execSetAg_sound l s h
  | .setCall l => execSetCall_sound l s h
  | .setCallLine l => execSetCallLine_sound l s h
  | .getAp l => execGetAp_sound l s h
  | .getAg l => execGetAg_sound l s h
  | .getCall l => execGetCall_sound l s h
  | .showAp l => execShowAp_sound l s h
  | .showAg l => execShowAg_sound l s h
  | .showCall l => execShowCall_sound l s h
  | .doApAck l => execDoApAck_sound l s h
  | .doAgAck l => execDoAgAck_sound l s h
  | .almAckWrite v => execAlmAckWrite_sound v s h
  | .doApShelve l => execDoApShelve_sound l s h
  | .doApUnshelve l => execDoApUnshelve_sound l s h
  | .doAgForeset l => execDoAgForeset_sound l s h
  | .watchAp l => execWatchAp_sound l s h
  | .doApReinit l => execDoApReinit_sound l s h
  | .doAgReinit l => execDoAgReinit_sound l s h
  | .doCallReinit l => execDoCallReinit_sound l s h
  | .tokenGain c => execTokenGain_sound c s h
  | .checkpoint => execCheckpoint_sound s h
  | .arcFind rq acc => execArcFind_sound rq acc s h
  | .arcFindDone rq => execArcFindDone_sound rq s h
  | .arcCodeWrite rq c v => execArcCodeWrite_sound rq c v s h
  | .arcOpmsloRead rq => execArcOpmsloRead_sound rq s h
  | .setArc l => execSetArc_sound l s h
  | .setArcCode l => execSetArcCode_sound l s h
  | .getArc l => execGetArc_sound l s h
  | .showArc l => execShowArc_sound l s h
  | .showArcCode l => execShowArcCode_sound l s h
  | .doArcLog l => execDoArcLog_sound l s h
  | .watchArc l => execWatchArc_sound l s h
  | .clearArcGallery l => execClearArcGallery_sound l s h
  | .doArcReseal l => execDoArcReseal_sound l s h
  | .resealPhase nvBad => execResealPhase_sound nvBad s h
  | .doArcReinit l => execDoArcReinit_sound l s h
  | .frameConfirmed p f sofQ edges m => execFrameConfirmed_sound p f sofQ edges m s h
  | .earlyMatch p f len bytes sofQ m => execEarlyMatch_sound p f len bytes sofQ m s h
  | .frameError p afterBrs special m => execFrameError_sound p afterBrs special m s h
  | .arbitrationLost p m => execArbitrationLost_sound p m s h
  | .frameSent p m => execFrameSent_sound p m s h
  | .busOffRecovery p m => execBusOffRecovery_sound p m s h
  | .gatePulseEnd p g m => execGatePulseEnd_sound p g m s h
  | .caravanGapTimeout p m => execCaravanGapTimeout_sound p m s h
  | .doorbellFrame p f => execDoorbellFrame_sound p f s h
  | .valueFrame f => execValueFrame_sound f s h
  | .valuePublish v => execValuePublish_sound v s h
  | .tunnelTimeout c => execTunnelTimeout_sound c s h
  | .busPortOff p m => execBusPortOff_sound p m s h
  | .setBusPort l => execSetBusPort_sound l s h
  | .setBusFilter l => execSetBusFilter_sound l s h
  | .setBusGate l => execSetBusGate_sound l s h
  | .setBusVal l => execSetBusVal_sound l s h
  | .setBusAlmto l => execSetBusAlmto_sound l s h
  | .getBus l => execGetBus_sound l s h
  | .showBus l => execShowBus_sound l s h
  | .showBusTrim l => execShowBusTrim_sound l s h
  | .doBusSend l => execDoBusSend_sound l s h
  | .doBusAbort l => execDoBusAbort_sound l s h
  | .doBusTunnel l => execDoBusTunnel_sound l s h
  | .doBusGateReset l => execDoBusGateReset_sound l s h
  | .doBusTrimclr l => execDoBusTrimclr_sound l s h
  | .setBusTrimlock l => execSetBusTrimlock_sound l s h
  | .watchBus l => execWatchBus_sound l s h
  | .doBusReinit l => execDoBusReinit_sound l s h
  | .mailboxReq p k => execMailboxReq_sound p k s h
  | .mailboxAbort p k => execMailboxAbort_sound p k s h
  | .fifoPop p v => execFifoPop_sound p v s h
  | .caravanRelease p v => execCaravanRelease_sound p v s h
  | .earlyViewRelease p v => execEarlyViewRelease_sound p v s h
  | .gateResetWrite p g v => execGateResetWrite_sound p g v s h
  | .doSurveyStart l => execDoSurveyStart_sound l s h
  | .begin p f sofQ m => execBegin_sound p f sofQ m s h
  | .query p f sofQ m => execQuery_sound p f sofQ m s h
  | .bid p f sofQ m => execBid_sound p f sofQ m s h
  | .bidWindowExpiry p m => execBidWindowExpiry_sound p m s h
  | .assign p f sofQ m => execAssign_sound p f sofQ m s h
  | .assigned p f sofQ m => execAssigned_sound p f sofQ m s h
  | .ping p f sofQ m => execPing_sound p f sofQ m s h
  | .pong p f sofQ m => execPong_sound p f sofQ m s h
  | .pongFollowUp p f sofQ m => execPongFollowUp_sound p f sofQ m s h
  | .delay p f sofQ m => execDelay_sound p f sofQ m s h
  | .surveyEnd p f sofQ m => execSurveyEnd_sound p f sofQ m s h
  | .announce p f sofQ m => execAnnounce_sound p f sofQ m s h
  | .surveyMemberTimeout p m => execSurveyMemberTimeout_sound p m s h
  | .listenEnd p => execListenEnd_sound p s h
  | .markRequest p m => execMarkRequest_sound p m s h
  | .markAbandon p m => execMarkAbandon_sound p m s h
  | .majorMark p f sofQ m => execMajorMark_sound p f sofQ m s h
  | .minorMark p f sofQ m => execMinorMark_sound p f sofQ m s h
  | .markFollowUp p f sofQ m => execMarkFollowUp_sound p f sofQ m s h
  | .followUpTimeout p m => execFollowUpTimeout_sound p m s h
  | .tportFallback m => execTportFallback_sound m s h
  | .pairPortSilent p m => execPairPortSilent_sound p m s h
  | .doSurveyAbort l => execDoSurveyAbort_sound l s h
  | .setSurvey l => execSetSurvey_sound l s h
  | .setBusLink l => execSetBusLink_sound l s h
  | .showSurvey l => execShowSurvey_sound l s h
  | .showSurveyMap l => execShowSurveyMap_sound l s h
  | .showBusMark l => execShowBusMark_sound l s h
  | .showBusDelay l => execShowBusDelay_sound l s h
  | .getBusLink l => execGetBusLink_sound l s h
  | .doBusSleep l => execDoBusSleep_sound l s h
  | .portSleep p m => execPortSleep_sound p m s h
  | .wakePattern p => execWakePattern_sound p s h
  | .wakeFrame p f => execWakeFrame_sound p f s h
  | .portWake p m => execPortWake_sound p m s h
  | .doBusWake l => execDoBusWake_sound l s h
  | .doBusWakeup l => execDoBusWakeup_sound l s h
  | .pinEdge k level m => execPinEdge_sound k level m s h
  | .bankClassChange b cls levels m => execBankClassChange_sound b cls levels m s h
  | .lifeToggle served => execLifeToggle_sound served s h
  | .gpoutWrite rq k v => execGpoutWrite_sound rq k v s h
  | .hwrefresh rq v => execHwrefresh_sound rq v s h
  | .gplockWrite rq v m => execGplockWrite_sound rq v m s h
  | .setGp l => execSetGp_sound l s h
  | .setGpMask l => execSetGpMask_sound l s h
  | .doGpToggle l => execDoGpToggle_sound l s h
  | .getGp l => execGetGp_sound l s h
  | .getGpBank l => execGetGpBank_sound l s h
  | .showGp l => execShowGp_sound l s h
  | .doGpLock l => execDoGpLock_sound l s h
  | .watchGp l => execWatchGp_sound l s h
  | .watchGpBank l => execWatchGpBank_sound l s h
  | .doGpReinit l => execDoGpReinit_sound l s h
  | .setTw l => execSetTw_sound l s h
  | .doTwWrite l => execDoTwWrite_sound l s h
  | .doTwRead l => execDoTwRead_sound l s h
  | .doTwClear l => execDoTwClear_sound l s h
  | .getTw l => execGetTw_sound l s h
  | .clearTw l => execClearTw_sound l s h
  | .doTwReinit l => execDoTwReinit_sound l s h
  | .twCmdStart rq v m => execTwCmdStart_sound rq v m s h
  | .twCmdClear rq v m => execTwCmdClear_sound rq v m s h
  | .twTransferEnd res bytes m => execTwTransferEnd_sound res bytes m s h
  | .twClockStretchTimeout bytes m => execTwClockStretchTimeout_sound bytes m s h
  | .twBusClearEnd clocks freed m => execTwBusClearEnd_sound clocks freed m s h
  | .twDrained bytes m => execTwDrained_sound bytes m s h
  | .doDispUpdate l => execDoDispUpdate_sound l s h
  | .snapshotEnd m => execSnapshotEnd_sound m s h
  | .railPowerUpStep mv m => execRailPowerUpStep_sound mv m s h
  | .dispFrameStart m => execDispFrameStart_sound m s h
  | .railPowerDownStep mv m => execRailPowerDownStep_sound mv m s h
  | .railFault k mv m => execRailFault_sound k mv m s h
  | .railholdExpiry m => execRailholdExpiry_sound m s h
  | .displayUndervoltage m => execDisplayUndervoltage_sound m s h
  | .fastDischargeStep m => execFastDischargeStep_sound m s h
  | .doDispLoad l => execDoDispLoad_sound l s h
  | .setDisp l => execSetDisp_sound l s h
  | .setDispWaveLen l => execSetDispWaveLen_sound l s h
  | .setDispWaveData l => execSetDispWaveData_sound l s h
  | .doDispRails l => execDoDispRails_sound l s h
  | .setDispCom l => execSetDispCom_sound l s h
  | .getDisp l => execGetDisp_sound l s h
  | .showDisp l => execShowDisp_sound l s h
  | .showDispWave l => execShowDispWave_sound l s h
  | .watchDisp l => execWatchDisp_sound l s h
  | .doDispReinit l => execDoDispReinit_sound l s h
  | .dispCmdUpdate rq v m => execDispCmdUpdate_sound rq v m s h
  | .dispCmdRailsOn rq v m => execDispCmdRailsOn_sound rq v m s h
  | .dispCmdRailsOff rq v m => execDispCmdRailsOff_sound rq v m s h
  | .lcdCommit rq v => execLcdCommit_sound rq v s h
  | .lcdFrameStart m => execLcdFrameStart_sound m s h
  | .annexInstruction m => execAnnexInstruction_sound m s h
  | .mret m => execMret_sound m s h
  | .wfi m => execWfi_sound m s h
  | .annexWatchdogExpiry m => execAnnexWatchdogExpiry_sound m s h
  | .awdserveWrite rq v m => execAwdserveWrite_sound rq v m s h
  | .doNodeLoad l => execDoNodeLoad_sound l s h
  | .doNodeStart l => execDoNodeStart_sound l s h
  | .doNodeStop l => execDoNodeStop_sound l s h
  | .setNode l => execSetNode_sound l s h
  | .showNodeAnnex l => execShowNodeAnnex_sound l s h
  | .watchNode l => execWatchNode_sound l s h
  | .annexBootReadEnd image m => execAnnexBootReadEnd_sound image m s h
  | .mailboxGo rq v m => execMailboxGo_sound rq v m s h
  | .rxrdWrite rq v => execRxrdWrite_sound rq v s h
  | .rxcfgEnable rq v => execRxcfgEnable_sound rq v s h
  | .doorbellWrite rq v => execDoorbellWrite_sound rq v s h
  | .doDicRing l => execDoDicRing_sound l s h
  | .doDicClear l => execDoDicClear_sound l s h
  | .interruptAcceptance m => execInterruptAcceptance_sound m s h
  | .completeWrite rq v m => execCompleteWrite_sound rq v m s h
  | .doDicDone l => execDoDicDone_sound l s h
  | .doDicTake l => execDoDicTake_sound l s h
  | .moderationHoldEnd g m => execModerationHoldEnd_sound g m s h
  | .gdisWrite rq v => execGdisWrite_sound rq v s h
  | .strayclrWrite rq v => execStrayclrWrite_sound rq v s h
  | .setDic l => execSetDic_sound l s h
  | .getDic l => execGetDic_sound l s h
  | .showDic l => execShowDic_sound l s h
  | .clearDic l => execClearDic_sound l s h
  | .doDicReinit l => execDoDicReinit_sound l s h
  | .watchUnitWake spent m => execWatchUnitWake_sound spent m s h
  | .powerOn => execPowerOn_sound s h
  | .firstPrompt => execFirstPrompt_sound s h
  | .configStoreLoaded => execConfigStoreLoaded_sound s h
  | .holdokChange mv m => execHoldokChange_sound mv m s h
  | .avsStep margin spare => execAvsStep_sound margin spare s h
  | .coreUndervoltage => execCoreUndervoltage_sound s h
  | .resetPin => execResetPin_sound s h
  | .nodeCoreWatchdog => execNodeCoreWatchdog_sound s h
  | .doSysCommit l => execDoSysCommit_sound l s h
  | .doSysFactory l => execDoSysFactory_sound l s h
  | .showSysStore l => execShowSysStore_sound l s h
  | .getSysPower l => execGetSysPower_sound l s h
  | .getSysRstcause l => execGetSysRstcause_sound l s h
  | .setSysPower l => execSetSysPower_sound l s h
  | .doNodeQuiet l => execDoNodeQuiet_sound l s h
  | .doNodeFull l => execDoNodeFull_sound l s h
  | .doNodeDormant l => execDoNodeDormant_sound l s h
  | .dormantEntryComplete => execDormantEntryComplete_sound s h
  | .dormantTimerExpiry => execDormantTimerExpiry_sound s h
  | .pcmdQuiet rq => execPcmdQuiet_sound rq s h
  | .pcmdFull rq => execPcmdFull_sound rq s h
  | .pcmdDormant rq => execPcmdDormant_sound rq s h
  | .powerFailWarning vsys hold spent m => execPowerFailWarning_sound vsys hold spent m s h
  | .agraceExpiry m => execAgraceExpiry_sound m s h
  | .park hold m => execPark_sound hold m s h
  | .powerFailRestart => execPowerFailRestart_sound s h
  | .doNodePwrcyc l => execDoNodePwrcyc_sound l s h
  | .pwrcycPulseEnd => execPwrcycPulseEnd_sound s h
  | .pwrcycSelfReset => execPwrcycSelfReset_sound s h
  | .showNodeModes l => execShowNodeModes_sound l s h
  | .characterSent p => execCharacterSent_sound p s h
  | .transmissionStart p m => execTransmissionStart_sound p m s h
  | .resetNRelease => execResetNRelease_sound s h

theorem step_of_empty {s : State} (h : s.pending = []) : step s = .next s := by
  simp [step, h]

theorem step_of_cons {s : State} {c : Instr} {rest : List Instr} (h : s.pending = c :: rest) :
    step s = exec c { s with pending := rest } := by
  simp [step, h]

/-- Settles O4: an empty queue leaves the node as it is, and a command at its front keeps what is sound by the law of its
meaning, which speaks of the node alone. -/
theorem everyStepKeepsSound : Obligations.EveryStepKeepsSound := by
  intro s t h ht
  cases hq : s.pending with
  | nil =>
    rw [step_of_empty hq] at ht
    cases ht
    exact h
  | cons c rest =>
    rw [step_of_cons hq] at ht
    exact (exec_sound c { s with pending := rest } h).h t ht

/-- Settles O1. -/
theorem stepRunsFrontCommand : Obligations.StepRunsFrontCommand :=
  fun _ _ _ => step_of_cons

/-- Settles O2: the table gives no row bits, so the decoder answers no command and fetching leaves the queue alone. -/
theorem emptyQueueIdlesAndNoWordSpells : Obligations.EmptyQueueIdlesAndNoWordSpells :=
  ⟨fun _ => step_of_empty, fun _ _ _ => ⟨rfl, rfl⟩⟩

/-- Whatever the command, the node becomes another and the queue stays. -/
theorem exec_eq_becomes (c : Instr) (s : State) : ∃ n, exec c s = becomes s n := by
  cases c <;> exact ⟨_, rfl⟩

/-- Settles O3. -/
theorem everyCommandAnswers : Obligations.EveryCommandAnswers := by
  intro c s
  obtain ⟨n, hn⟩ := exec_eq_becomes c s
  exact ⟨_, hn, rfl⟩

/-- Settles O5: at reset memory lists nothing, and no lease, stream, stack entry or command is there. -/
theorem resetIsSound : Obligations.ResetIsSound :=
  ⟨⟨rfl, Nat.zero_le _, Nat.zero_le _, Nat.zero_le _⟩, rfl⟩

end Sys2Proof.Machine
end

/-! ### Checks of a line in sequence: the first that refuses it decides -/

section
namespace Sys2Proof.Machine

@[simp] theorem except_ok_bind {ε α β : Type} (a : α) (f : α → Except ε β) : ((.ok a : Except ε α) >>= f) = f a := rfl
@[simp] theorem except_error_bind {ε α β : Type} (e : ε) (f : α → Except ε β) : ((.error e : Except ε α) >>= f) = .error e := rfl
@[simp] theorem except_pure {ε α : Type} (a : α) : (pure a : Except ε α) = .ok a := rfl
@[simp] theorem need_true (c : Nat) : need true c = .ok () := rfl

/-- An index stands in a line whose indices are read. -/
theorem Line.idx_of_items {l : Line} {cap : Nat} {is : List Nat} (h : l.items cap = .ok is) : ∃ x, l.idx = some x := by
  cases hx : l.idx with
  | none => simp [Line.items, hx, refuse] at h
  | some x => exact ⟨x, rfl⟩

end Sys2Proof.Machine
end

/-! ### What the ways of executing a line make of the state -/

section
namespace Sys2Proof.Machine

variable {s : State} {l : Line} {n m : Node} {e : Err} {d : List (List Item)}

theorem lift_runLine_answers {early : Bool} {body : Node → Except Err (Node × List (List Item))} (hn : taken s l = n)
    (hl : Live s l) (hb : body n = .ok (m, d)) : (s.lift fun k => k.runLine l early body) = answers s m l d := by
  subst hn
  rw [lift_becomes, runLine_ok hl.ready hl.loaded hb]
  rfl

theorem lift_runLine_early_answers {body : Node → Except Err (Node × List (List Item))} (hn : taken s l = n)
    (hr : s.node.portReady l.port = true) (hb : body n = .ok (m, d)) :
    (s.lift fun k => k.runLine l true body) = answers s m l d := by
  subst hn
  rw [lift_becomes, runLine_early_ok hr hb]
  rfl

theorem lift_runLine_refuses {early : Bool} {body : Node → Except Err (Node × List (List Item))} (hn : taken s l = n)
    (hl : Live s l) (hb : body n = .error e) : (s.lift fun k => k.runLine l early body) = refuses s l e := by
  subst hn
  rw [lift_becomes, runLine_error hl.ready hl.loaded hb]
  rfl

theorem lift_runRead_refuses {act : Node → Except Err (List (List Item))} (hn : taken s l = n) (hl : Live s l)
    (hb : act n = .error e) : (s.lift fun k => k.runRead l act) = refuses s l e :=
  lift_runLine_refuses hn hl (by simp [hb, bind, Except.bind])

theorem lift_runOpen_becomes {body : Node → Except Err Node} (hn : taken s l = n) (hl : Live s l) (hb : body n = .ok m) :
    (s.lift fun k => k.runOpen l body) = becomes s m := by
  subst hn
  rw [lift_becomes, runOpen_ok hl.ready hl.loaded hb]

theorem lift_runOpen_refuses {body : Node → Except Err Node} (hn : taken s l = n) (hl : Live s l) (hb : body n = .error e) :
    (s.lift fun k => k.runOpen l body) = refuses s l e := by
  subst hn
  rw [lift_becomes, runOpen_error hl.ready hl.loaded hb]
  rfl

theorem lift_runWhole_answers {o : Obj} {check : Node → Except Err Unit} {act : Node → Except Err (Node × List (List Item))}
    (h : MayRun s l o n) (hi : l.idx = none) (hc : check n = .ok ()) (ha : act n = .ok (m, d)) :
    (s.lift fun k => k.runWhole l o check act) = answers s m l d := by
  obtain ⟨hl, rfl, hf⟩ := h
  rw [lift_becomes, runWhole_ok hl.ready hl.loaded hi hc hf ha]
  rfl

section
variable {verb : Nat} {o : Obj} {cap : Nat} {op : UnitOp} {check : Node → List Nat → Except Err Unit}
  {unit : Nat → Node → Except Err (Node × List (List Item))}

theorem lift_runMulti_answers {i : Nat} (h : MayRun s l o n) (hi : l.items cap = .ok [i]) (hc : check n [i] = .ok ())
    (hu : unit i n = .ok (m, d)) : (s.lift fun k => k.runMulti l verb o cap op check unit) = answers s m l d := by
  obtain ⟨hl, rfl, hf⟩ := h
  rw [lift_becomes, runMulti_one hl.ready hl.loaded hi hc hf hu]
  rfl

theorem lift_runMulti_many {is : List Nat} (h : MayRun s l o n) (hi : l.items cap = .ok is) (h2 : 2 ≤ is.length)
    (hc : check n is = .ok ()) :
    (s.lift fun k => k.runMulti l verb o cap op check unit) = becomes s (n.startMr l verb o op is true) := by
  obtain ⟨hl, rfl, hf⟩ := h
  rw [lift_becomes, runMulti_many hl.ready hl.loaded hi h2 hc hf]

end

end Sys2Proof.Machine
end

/-! ### O51: lines before the stored settings have loaded (R402) -/

section
namespace Sys2Proof.Machine

/-- Until the stored settings have loaded, `f` refuses the line with STARTING. -/
def RefusesStarting (l : Line) (f : Node → Node) : Prop :=
  ∀ n : Node, n.portReady l.port = true → n.sys.phase ≠ .loaded → f n = (n.takeLine l).replyErr l ⟨308, [.w "STARTING"]⟩

section
variable {l : Line}

theorem runLine_starting {body : Node → Except Err (Node × List (List Item))} :
    RefusesStarting l fun n => n.runLine l false body := by
  intro n hr hp
  simp [runLine_cases _ _ _ _ hr, hp]

theorem runOpen_starting {body : Node → Node → Except Err Node} : RefusesStarting l fun n => n.runOpen l (body n) := by
  intro n hr hp
  simp [Node.runOpen, hr, hp]

theorem runRead_starting {act : Node → Except Err (List (List Item))} : RefusesStarting l fun n => n.runRead l act :=
  runLine_starting

theorem runWhole_starting {o : Obj} {check : Node → Except Err Unit} {act : Node → Except Err (Node × List (List Item))} :
    RefusesStarting l fun n => n.runWhole l o check act :=
  runLine_starting

theorem runMulti_starting {verb : Nat} {o : Obj} {cap : Nat} {op : UnitOp} {check : Node → List Nat → Except Err Unit}
    {unit : Nat → Node → Except Err (Node × List (List Item))} :
    RefusesStarting l fun n => n.runMulti l verb o cap op check unit :=
  runOpen_starting

theorem runWatch_starting {o : Obj} {sub : String} {items : Except Err (List (Option Nat))} :
    RefusesStarting l fun n => n.runWatch l o sub items :=
  runLine_starting

theorem runStream_starting {o : Obj} {items : Except Err (List (Option Nat))} {ok : Node → Nat → Except Err Unit} :
    RefusesStarting l fun n => n.runStream l o items (ok n) :=
  fun n => runLine_starting n

theorem runConfirm_starting {what : Nat} {check : Node → Except Err Unit} {act : Node → Except Err Node} :
    RefusesStarting l fun n => n.runConfirm l what check act := by
  unfold Node.runConfirm
  exact runOpen_starting

theorem runTrans_starting {f : Node → Option Node} : RefusesStarting l fun n => n.runTrans l f :=
  runWhole_starting

theorem RefusesStarting.ite {c : Node → Prop} [DecidablePred c] {f g : Node → Node} (hf : RefusesStarting l f)
    (hg : RefusesStarting l g) : RefusesStarting l fun n => if c n then f n else g n := by
  intro n hr hp
  dsimp only
  split
  · exact hf n hr hp
  · exact hg n hr hp

theorem runUc_starting {verb : Nat} {op : UnitOp} {check : Node → List Nat → Except Err Unit}
    {unit : Nat → Node → Except Err (Node × List (List Item))} :
    RefusesStarting l fun n => n.runUc l verb op check unit := by
  unfold Node.runUc
  cases l.items 24 with
  | error e => exact runMulti_starting
  | ok is =>
    match is with
    | [] | _ :: _ :: _ => exact runMulti_starting
    | [i] => exact .ite runOpen_starting runMulti_starting

variable {s : State}

theorem lift_refuses_starting {f : Node → Node} (hr : s.node.portReady l.port = true)
    (hp : s.node.sys.phase ≠ .loaded) (hf : RefusesStarting l f) : s.lift f = refuses s l ⟨308, [.w "STARTING"]⟩ := by
  rw [lift_becomes, hf _ hr hp]
  rfl

theorem execSetGrid_starting (hr : s.node.portReady l.port = true) (hp : s.node.sys.phase ≠ .loaded) :
    execSetGrid l s = refuses s l ⟨308, [.w "STARTING"]⟩ := by
  refine lift_refuses_starting hr hp ?_
  cases l.idx with
  | none => exact runWhole_starting
  | some x => exact runMulti_starting

theorem execSetTrans_starting (hr : s.node.portReady l.port = true) (hp : s.node.sys.phase ≠ .loaded) :
    execSetTrans l s = refuses s l ⟨308, [.w "STARTING"]⟩ := by
  refine lift_refuses_starting hr hp ?_
  cases l.idx with
  | none => exact runWhole_starting
  | some x => exact runMulti_starting

theorem execSetDic_starting (hr : s.node.portReady l.port = true) (hp : s.node.sys.phase ≠ .loaded) :
    execSetDic l s = refuses s l ⟨308, [.w "STARTING"]⟩ := by
  refine lift_refuses_starting hr hp ?_
  cases l.idx with
  | none => exact runWhole_starting
  | some x => exact runMulti_starting

theorem execDoUcReinit_starting (hr : s.node.portReady l.port = true) (hp : s.node.sys.phase ≠ .loaded) :
    execDoUcReinit l s = refuses s l ⟨308, [.w "STARTING"]⟩ := by
  refine lift_refuses_starting hr hp ?_
  cases l.idx with
  | none => exact runOpen_starting
  | some x => exact runOpen_starting

/-- WATCH BUS takes its PORT key out of the line it watches by; the line's port and tag are its own. -/
theorem execWatchBus_starting (hr : s.node.portReady l.port = true) (hp : s.node.sys.phase ≠ .loaded) :
    execWatchBus l s = refuses s l ⟨308, [.w "STARTING"]⟩ :=
  lift_refuses_starting (l := { l with keys := Keys.without l.keys ["PORT"] }) hr hp runWatch_starting

/-- DO DIC DONE counts a stray completion only of a line that may execute (R384). -/
theorem execDoDicDone_starting (hr : s.node.portReady l.port = true) (hp : s.node.sys.phase ≠ .loaded) :
    execDoDicDone l s = refuses s l ⟨308, [.w "STARTING"]⟩ := by
  refine lift_refuses_starting hr hp fun n hr hp => ?_
  have hph : (n.sys.phase == .loaded) = false := by simp [hp]
  simp only [hph, Bool.and_false, Bool.false_and, Bool.false_eq_true, if_false]
  split
  · exact runMulti_starting n hr hp
  · exact runMulti_starting n hr hp

end

/-- Settles O51: every way of executing a line asks for the stored settings before the line's effect, and each of these
commands takes its line in one of them. -/
theorem startingRefusesLines : Obligations.StartingRefusesLines := by
  intro s l o reg fld a hr hp
  have starting {f} := lift_refuses_starting (s := s) (l := l) (f := f) hr hp
  have line {body} := starting (@runLine_starting l body)
  have rd {act} := starting (@runRead_starting l act)
  have whole {o check act} := starting (@runWhole_starting l o check act)
  have opn {body} := starting (@runOpen_starting l body)
  have multi {verb o cap op check unit} := starting (@runMulti_starting l verb o cap op check unit)
  have watch {o sub items} := starting (@runWatch_starting l o sub items)
  have stream {o items ok} := starting (@runStream_starting l o items ok)
  have confirm {what check act} := starting (@runConfirm_starting l what check act)
  have arm {f} := starting (@runTrans_starting l f)
  have uc {verb op check unit} := starting (@runUc_starting l verb op check unit)
  have grid := execSetGrid_starting hr hp
  have trans := execSetTrans_starting hr hp
  have dic := execSetDic_starting hr hp
  have ucReinit := execDoUcReinit_starting hr hp
  have watchBus := execWatchBus_starting hr hp
  have dicDone := execDoDicDone_starting hr hp
  have sys : execSetSys l s = _ := whole
  simp only [List.forall_mem_cons]
  exact ⟨(exec_setSys s l).trans sys, (exec_showSysLease s l).trans rd, (exec_showSysMr s l).trans rd, (exec_showSysPort s l).trans rd,
    (exec_doSysReinitPort s l).trans whole, (exec_doNodeReset s l).trans opn, (exec_setTime s l).trans whole,
    (exec_doTimeSet s l).trans whole, (exec_getTime s l).trans rd, (exec_setTimeCapture s l).trans multi,
    (exec_doTimeTake s l).trans multi, (exec_showBeat s l).trans rd, (exec_clearBeat s l).trans whole,
    (exec_watchTime s l).trans watch, (exec_watchBeat s l).trans watch, (exec_doTimeReinit s l).trans opn,
    (exec_setUc s l).trans uc, (exec_getUc s l).trans rd, (exec_showUc s l).trans rd, (exec_showUcQuad s l).trans rd,
    (exec_doUcQuadFail s l).trans whole, (exec_doUcQuadRestore s l).trans whole, (exec_setUcCtab s l).trans whole,
    (exec_watchUc s l).trans watch, (exec_streamUc s l).trans stream, (exec_doUcReinit s l).trans ucReinit,
    (exec_setLo s l).trans multi, (exec_getLo s l).trans rd, (exec_showLo s l).trans rd, (exec_showLoCheck s l).trans rd,
    (exec_watchLo s l).trans watch, (exec_streamLo s l).trans stream, (exec_clearLo s l).trans multi,
    (exec_doLoReinit s l).trans opn, (exec_setGrid s l).trans grid, (exec_getGrid s l).trans rd, (exec_showGrid s l).trans rd,
    (exec_streamGrid s l).trans stream, (exec_doGridReinit s l).trans opn, (exec_setTrans s l).trans trans,
    (exec_doTransArm s l).trans arm, (exec_doTransDisarm s l).trans arm, (exec_getTrans s l).trans rd,
    (exec_showTrans s l).trans rd, (exec_watchTrans s l).trans watch, (exec_doTransDump s l).trans line,
    (exec_doTransReinit s l).trans opn, (exec_setAp s l).trans multi, (exec_setApEngine s l).trans whole,
    (exec_setAg s l).trans multi, (exec_setCall s l).trans whole, (exec_setCallLine s l).trans multi, (exec_getAp s l).trans rd,
    (exec_getAg s l).trans rd, (exec_getCall s l).trans rd, (exec_showAp s l).trans rd, (exec_showAg s l).trans rd,
    (exec_showCall s l).trans rd, (exec_doApAck s l).trans multi, (exec_doAgAck s l).trans multi,
    (exec_doApShelve s l).trans multi, (exec_doApUnshelve s l).trans multi, (exec_doAgForeset s l).trans multi,
    (exec_watchAp s l).trans watch, (exec_doApReinit s l).trans opn, (exec_doAgReinit s l).trans opn,
    (exec_doCallReinit s l).trans opn, (exec_setArc s l).trans whole, (exec_setArcCode s l).trans multi,
    (exec_getArc s l).trans rd, (exec_showArc s l).trans rd, (exec_showArcCode s l).trans rd, (exec_doArcLog s l).trans line,
    (exec_watchArc s l).trans watch, (exec_clearArcGallery s l).trans opn, (exec_doArcReseal s l).trans confirm,
    (exec_doArcReinit s l).trans opn, (exec_setBusPort s l).trans whole, (exec_setBusFilter s l).trans multi,
    (exec_setBusGate s l).trans whole, (exec_setBusVal s l).trans whole, (exec_setBusAlmto s l).trans whole,
    (exec_getBus s l).trans rd, (exec_showBus s l).trans rd, (exec_showBusTrim s l).trans rd, (exec_doBusSend s l).trans opn,
    (exec_doBusAbort s l).trans whole, (exec_doBusTunnel s l).trans opn, (exec_doBusGateReset s l).trans whole,
    (exec_doBusTrimclr s l).trans whole, (exec_setBusTrimlock s l).trans whole, (exec_watchBus s l).trans watchBus,
    (exec_doBusReinit s l).trans opn, (exec_doSurveyStart s l).trans whole, (exec_doSurveyAbort s l).trans whole,
    (exec_setSurvey s l).trans whole, (exec_setBusLink s l).trans whole, (exec_showSurvey s l).trans rd,
    (exec_showSurveyMap s l).trans rd, (exec_showBusMark s l).trans rd, (exec_showBusDelay s l).trans rd,
    (exec_getBusLink s l).trans rd, (exec_doBusSleep s l).trans whole, (exec_doBusWake s l).trans whole,
    (exec_doBusWakeup s l).trans whole, (exec_setGp s l).trans multi, (exec_setGpMask s l).trans whole,
    (exec_doGpToggle s l).trans multi, (exec_getGp s l).trans rd, (exec_getGpBank s l).trans rd, (exec_showGp s l).trans rd,
    (exec_doGpLock s l).trans whole, (exec_watchGp s l).trans watch, (exec_watchGpBank s l).trans watch,
    (exec_doGpReinit s l).trans opn, (exec_setTw s l).trans whole, (exec_doTwWrite s l).trans opn, (exec_doTwRead s l).trans opn,
    (exec_doTwClear s l).trans opn, (exec_getTw s l).trans rd, (exec_clearTw s l).trans whole, (exec_doTwReinit s l).trans opn,
    (exec_doDispUpdate s l).trans opn, (exec_doDispLoad s l).trans whole, (exec_setDisp s l).trans whole,
    (exec_setDispWaveLen s l).trans whole, (exec_setDispWaveData s l).trans whole, (exec_doDispRails s l).trans opn,
    (exec_setDispCom s l).trans whole, (exec_getDisp s l).trans rd, (exec_showDisp s l).trans rd,
    (exec_showDispWave s l).trans rd, (exec_watchDisp s l).trans watch, (exec_doDispReinit s l).trans opn,
    (exec_doNodeLoad s l).trans whole, (exec_doNodeStart s l).trans opn, (exec_doNodeStop s l).trans whole,
    (exec_setNode s l).trans whole, (exec_watchNode s l).trans watch, (exec_doDicRing s l).trans multi,
    (exec_doDicClear s l).trans multi, (exec_doDicDone s l).trans dicDone, (exec_doDicTake s l).trans whole,
    (exec_setDic s l).trans dic, (exec_getDic s l).trans rd, (exec_showDic s l).trans rd, (exec_clearDic s l).trans whole,
    (exec_doDicReinit s l).trans opn, (exec_doSysCommit s l).trans opn, (exec_doSysFactory s l).trans confirm,
    (exec_showSysStore s l).trans rd, (exec_setSysPower s l).trans whole, (exec_doNodeQuiet s l).trans whole,
    (exec_doNodeFull s l).trans whole, (exec_doNodeDormant s l).trans opn, (exec_doNodePwrcyc s l).trans confirm,
    (exec_hold s l o).trans line, (exec_free s l o).trans line, (exec_regWrite s l reg).trans line,
    (exec_regFieldWrite s l reg fld).trans line, (exec_poke s l a).trans line, List.forall_mem_nil _⟩

end Sys2Proof.Machine
end

/-! ### O52: reads change nothing but the ports -/

section
namespace Sys2Proof.Machine

theorem OnlyPorts.refl (n : Node) : OnlyPorts n n := ⟨rfl⟩

theorem OnlyPorts.trans {a b c : Node} (hab : OnlyPorts a b) (hbc : OnlyPorts b c) : OnlyPorts a c := by
  refine ⟨hbc.same.trans ?_⟩
  rw [hab.same]

theorem Node.setPort_onlyPorts (n : Node) (p : Port) (x : PortSt) : OnlyPorts n (n.setPort p x) := ⟨rfl⟩
theorem Node.takeLine_onlyPorts (n : Node) (l : Line) : OnlyPorts n (n.takeLine l) := ⟨rfl⟩
theorem Node.replyOk_onlyPorts (n : Node) (l : Line) (d : List (List Item)) : OnlyPorts n (n.replyOk l d) := ⟨rfl⟩
theorem Node.replyErr_onlyPorts (n : Node) (l : Line) (e : Err) : OnlyPorts n (n.replyErr l e) := ⟨rfl⟩

/-- What the effect of a line answers on the node `n`, when it answers, is that node with some data lines. -/
abbrev Keeps (n : Node) (x : Except Err (Node × List (List Item))) : Prop := okE (fun r => r.1 = n) x

/-- A condition that refuses the line, and otherwise lets the effect go on. -/
theorem okE_guard {β : Type} {P : β → Prop} {c : Prop} [Decidable c] {code : Nat} {f : Unit → Except Err β} (h : okE P (f ())) :
    okE P (if c then refuse code >>= f else f ()) :=
  ite_ind (fun _ => okE_bind fun _ hu => nomatch hu) (fun _ => h)

section
variable {l : Line}

/-- A line whose effect keeps the node changes only the ports, whether it waits, is refused or is answered. -/
theorem runLine_onlyPorts (n : Node) (early : Bool) {body : Node → Except Err (Node × List (List Item))}
    (hb : ∀ m, Keeps m (body m)) : OnlyPorts n (n.runLine l early body) := by
  cases hr : n.portReady l.port with
  | false => rw [runLine_waits n l early body hr]; exact .refl n
  | true =>
    rw [runLine_cases n l early body hr]
    refine (n.takeLine_onlyPorts l).trans ?_
    split
    · exact Node.replyErr_onlyPorts _ l _
    · split
      · exact Node.replyErr_onlyPorts _ l _
      · next m d hm =>
        have hkept : m = n.takeLine l := (hb _).h _ hm
        rw [hkept]
        exact Node.replyOk_onlyPorts _ l d

theorem runRead_onlyPorts (n : Node) {act : Node → Except Err (List (List Item))} : OnlyPorts n (n.runRead l act) :=
  runLine_onlyPorts n false fun _ => okE_bind fun _ _ => okE_pure rfl

/-- A read that runs before the stored settings have loaded (R402). -/
theorem execEarlyRead_onlyPorts (n : Node) {d : Node → List (List Item)} : OnlyPorts n (n.runLine l true (plainRead l d)) :=
  runLine_onlyPorts n true fun _ => okE_bind fun _ _ => okE_bind fun _ _ => okE_pure rfl

end

/-- The outcome is a next state in which only the ports differ. -/
def OnlyPortsAfter (s : State) (o : Host.Outcome State Fault Refusal) : Prop :=
  ∃ t, o = .next t ∧ OnlyPorts s.node t.node ∧ t.pending = s.pending

theorem lift_onlyPortsAfter {s : State} {f : Node → Node} (h : OnlyPorts s.node (f s.node)) : OnlyPortsAfter s (s.lift f) :=
  ⟨_, rfl, h, rfl⟩

theorem execGetSys_onlyPorts (s : State) (l : Line) (names : List String) : OnlyPortsAfter s (execGetSys l names s) :=
  lift_onlyPortsAfter (runLine_onlyPorts _ true fun _ => okE_bind fun _ _ => okE_bind fun _ _ => okE_guard (okE_pure rfl))

theorem execHelp_onlyPorts (s : State) (l : Line) (w : Option String) : OnlyPortsAfter s (execHelp l w s) := by
  refine lift_onlyPortsAfter (runLine_onlyPorts _ true fun m => ?_)
  cases w with
  | none => exact okE_pure rfl
  | some w => exact okE_guard (okE_pure rfl)

theorem execDoTransDump_onlyPorts (s : State) (l : Line) : OnlyPortsAfter s (execDoTransDump l s) := by
  refine lift_onlyPortsAfter (runLine_onlyPorts _ false fun m => okE_bind fun _ _ => okE_bind fun _ _ => ?_)
  exact okE_guard (okE_guard (okE_bind fun _ _ => okE_pure rfl))

/-- Settles O52: the effect of a read keeps the node that took the line, so that whichever way the line goes, only the
ports change. -/
theorem readsChangeOnlyPorts : Obligations.ReadsChangeOnlyPorts := by
  intro s l names w
  have of {c o} (h : exec c s = o) (ho : OnlyPortsAfter s o) : OnlyPortsAfter s (exec c s) := h ▸ ho
  have rd {act} := lift_onlyPortsAfter (f := fun n => n.runRead l act) (runRead_onlyPorts s.node)
  have early {d} := lift_onlyPortsAfter (f := fun n => n.runLine l true (plainRead l d)) (execEarlyRead_onlyPorts s.node)
  have sys := execGetSys_onlyPorts s l names
  have help := execHelp_onlyPorts s l w
  have dump := execDoTransDump_onlyPorts s l
  simp only [List.forall_mem_cons]
  exact ⟨of (exec_getSysDevid s l) early, of (exec_getSysUid s l) early, of (exec_getSysRomver s l) early,
    of (exec_showNode s l) early, of (exec_showSysLease s l) rd, of (exec_showSysMr s l) rd, of (exec_showSysPort s l) rd,
    of (exec_getTime s l) rd, of (exec_showBeat s l) rd, of (exec_getUc s l) rd, of (exec_showUc s l) rd,
    of (exec_showUcQuad s l) rd, of (exec_getLo s l) rd, of (exec_showLo s l) rd, of (exec_showLoCheck s l) rd,
    of (exec_getGrid s l) rd, of (exec_showGrid s l) rd, of (exec_getTrans s l) rd, of (exec_showTrans s l) rd,
    of (exec_getAp s l) rd, of (exec_getAg s l) rd, of (exec_getCall s l) rd, of (exec_showAp s l) rd, of (exec_showAg s l) rd,
    of (exec_showCall s l) rd, of (exec_getArc s l) rd, of (exec_showArc s l) rd, of (exec_showArcCode s l) rd,
    of (exec_getBus s l) rd, of (exec_showBus s l) rd, of (exec_showBusTrim s l) rd, of (exec_showSurvey s l) rd,
    of (exec_showSurveyMap s l) rd, of (exec_showBusMark s l) rd, of (exec_showBusDelay s l) rd, of (exec_getBusLink s l) rd,
    of (exec_getGp s l) rd, of (exec_getGpBank s l) rd, of (exec_showGp s l) rd, of (exec_getTw s l) rd, of (exec_getDisp s l) rd,
    of (exec_showDisp s l) rd, of (exec_showDispWave s l) rd, of (exec_showNodeAnnex s l) early, of (exec_getDic s l) rd,
    of (exec_showDic s l) rd, of (exec_showSysStore s l) rd, of (exec_getSysPower s l) early, of (exec_getSysRstcause s l) early,
    of (exec_showNodeModes s l) early, of (exec_getSys s l names) sys, of (exec_help s l w) help,
    of (exec_doTransDump s l) dump, List.forall_mem_nil _⟩

end Sys2Proof.Machine
end

/-! ### O57: the frame of settings -/

section
namespace Sys2Proof.Machine

/-- From `a` to `b` nothing changed but the ports, settings without a register, and of the registers those that the keys of
`specs` stand for and the store's dirty mark. -/
structure SetsOnly (specs : List KeySpec) (a b : Node) : Prop where
  same : b = { a with reg := b.reg, key := b.key, cmd := { a.cmd with ports := b.cmd.ports } }
  regs : ∀ x, x ≠ Fd.SYS_STORE_DIRTY.addr → (∀ k ∈ specs, ∀ i f, k.loc i = .fd f → f.addr ≠ x) → b.rd x = a.rd x

section
variable {specs specs' : List KeySpec} {a b c : Node}

theorem SetsOnly.trans (hab : SetsOnly specs a b) (hbc : SetsOnly specs b c) : SetsOnly specs a c := by
  refine ⟨hbc.same.trans ?_, fun x hd hx => (hbc.regs x hd hx).trans (hab.regs x hd hx)⟩
  rw [hab.same]

theorem SetsOnly.mono (hs : specs ⊆ specs') (h : SetsOnly specs a b) : SetsOnly specs' a b :=
  ⟨h.same, fun x hd hx => h.regs x hd fun k hk => hx k (hs hk)⟩

theorem OnlyPorts.setsOnly (h : OnlyPorts a b) : SetsOnly specs a b := by
  refine ⟨?_, fun x _ _ => ?_⟩
  · rw [h.same]
  · rw [h.same]
    rfl

theorem SetsOnly.refl (n : Node) : SetsOnly specs n n := (OnlyPorts.refl n).setsOnly

theorem Node.startMr_onlyPorts (n : Node) (l : Line) (verb : Nat) (o : Obj) (op : UnitOp) (units : List Nat) (indexed : Bool) :
    OnlyPorts n (n.startMr l verb o op units indexed) := by
  unfold Node.startMr
  extract_lets
  split <;> exact ⟨rfl⟩

/-- Writing a field of a register that may change. -/
theorem Node.setFd_setsOnly (n : Node) (f : Fd) (v : Nat)
    (hf : f.addr = Fd.SYS_STORE_DIRTY.addr ∨ ∃ k ∈ specs, ∃ i, k.loc i = .fd f) : SetsOnly specs n (n.setFd f v) := by
  refine ⟨rfl, fun x hd hx => ?_⟩
  have hne : f.addr ≠ x := by
    rintro rfl
    obtain h | ⟨k, hk, i, hi⟩ := hf
    · exact hd h
    · exact hx k hk i f hi rfl
  rw [Node.rd_setFd, if_neg hne]

theorem Node.dirty_setsOnly (n : Node) : SetsOnly specs n n.dirty :=
  n.setFd_setsOnly _ _ (.inl rfl)

theorem Node.putLoc_setsOnly (n : Node) {k : KeySpec} (hk : k ∈ specs) (i v : Nat) :
    SetsOnly specs n (n.putLoc (k.loc i) v) := by
  cases hl : k.loc i with
  | fd f => exact n.setFd_setsOnly f v (.inr ⟨k, hk, i, hl⟩)
  | kid j => exact ⟨rfl, fun _ _ _ => rfl⟩

theorem specOf_mem {k : String} {sp : KeySpec} (h : specOf specs k = some sp) : sp ∈ specs :=
  List.mem_of_find?_eq_some h

theorem Node.putKeys_setsOnly (i : Nat) (keys : Keys) (n : Node) : SetsOnly specs n (n.putKeys specs i keys) := by
  induction keys generalizing n with
  | nil => exact .refl n
  | cons x t ih =>
    obtain ⟨k, v⟩ := x
    refine SetsOnly.trans ?_ (ih _)
    split
    · next sp hs =>
      split
      · exact n.putLoc_setsOnly (specOf_mem hs) i _
      · exact .refl n
    · exact .refl n

theorem Node.setKeys_setsOnly (n : Node) (i : Nat) (keys : Keys) : SetsOnly specs n (n.setKeys specs i keys) := by
  unfold Node.setKeys
  extract_lets
  split
  · exact (n.putKeys_setsOnly i keys).trans (Node.dirty_setsOnly _)
  · exact n.putKeys_setsOnly i keys

variable {l : Line}

/-- A line is refused, or takes effect and is answered; either way its port takes it first. -/
theorem Node.runLine_setsOnly (n : Node) {early : Bool} {body : Node → Except Err (Node × List (List Item))}
    (hb : ∀ m, okE (fun r => SetsOnly specs m r.1) (body m)) : SetsOnly specs n (n.runLine l early body) := by
  cases hr : n.portReady l.port with
  | false => rw [runLine_waits n l early body hr]; exact .refl n
  | true =>
    rw [runLine_cases n l early body hr]
    refine (n.takeLine_onlyPorts l).setsOnly.trans ?_
    split
    · exact (Node.replyErr_onlyPorts _ l _).setsOnly
    · split
      · exact (Node.replyErr_onlyPorts _ l _).setsOnly
      · next m d hm => exact ((hb _).h _ hm).trans (m.replyOk_onlyPorts l d).setsOnly

theorem Node.runOpen_setsOnly (n : Node) {body : Node → Except Err Node} (hb : ∀ m, okE (SetsOnly specs m) (body m)) :
    SetsOnly specs n (n.runOpen l body) := by
  unfold Node.runOpen
  extract_lets m
  split
  · exact .refl n
  refine SetsOnly.trans (n.takeLine_onlyPorts l).setsOnly ?_
  split
  · exact (m.replyErr_onlyPorts l _).setsOnly
  split
  · exact (m.replyErr_onlyPorts l _).setsOnly
  · next hm => exact (hb m).h _ hm

theorem Node.runWhole_setsOnly (n : Node) {o : Obj} {check : Node → Except Err Unit}
    {act : Node → Except Err (Node × List (List Item))} (ha : ∀ m, okE (fun r => SetsOnly specs m r.1) (act m)) :
    SetsOnly specs n (n.runWhole l o check act) :=
  n.runLine_setsOnly fun m => okE_bind fun _ _ => okE_bind fun _ _ => okE_bind fun _ _ => ha m

/-- One item takes its settings at once; more begin a micro-routine, which is the port's. -/
theorem Node.runMulti_setsOnly (n : Node) {verb : Nat} {o : Obj} {cap : Nat} {op : UnitOp}
    {check : Node → List Nat → Except Err Unit} {unit : Nat → Node → Except Err (Node × List (List Item))}
    (hu : ∀ i m, okE (fun r => SetsOnly specs m r.1) (unit i m)) : SetsOnly specs n (n.runMulti l verb o cap op check unit) := by
  refine n.runOpen_setsOnly fun m => ?_
  split
  · exact okE_error
  split
  · exact okE_error
  split
  · exact okE_error
  split
  · split
    · exact okE_error
    · next k d hk => exact okE_ok (((hu _ m).h _ hk).trans (k.replyOk_onlyPorts l d).setsOnly)
  · exact okE_ok (m.startMr_onlyPorts l _ _ _ _ _).setsOnly

theorem okE_setKeys {ss : List KeySpec} (hs : ss ⊆ specs) (m : Node) (i : Nat) (keys : Keys) :
    okE (fun r => SetsOnly specs m r.1) (.ok (m.setKeys ss i keys, []) : Except Err (Node × List (List Item))) :=
  okE_ok ((m.setKeys_setsOnly i keys).mono hs)

end

/-- Settles O57: each of the seven commands sets keys of its own table, of the whole object or of one item, or begins a
micro-routine; around that it does what every line does to its port. -/
theorem settingsFrame : Obligations.SettingsFrame := by
  intro s l c specs hc
  suffices h : ∃ f : Node → Node, exec c s = s.lift f ∧ SetsOnly specs s.node (f s.node) by
    obtain ⟨f, hf, hset⟩ := h
    exact ⟨_, hf, hset.same, hset.regs⟩
  obtain ⟨rfl, rfl⟩ | ⟨rfl, rfl⟩ | ⟨rfl, rfl⟩ | ⟨rfl, rfl⟩ | ⟨rfl, rfl⟩ | ⟨rfl, rfl⟩ | ⟨rfl, rfl⟩ := hc
  · refine ⟨_, exec_setTrans s l, ?_⟩
    cases l.idx with
    | none => exact s.node.runWhole_setsOnly fun m => okE_setKeys (List.subset_append_left _ _) m _ _
    | some x =>
      exact s.node.runMulti_setsOnly fun i m => okE_bind fun _ _ => okE_setKeys (List.subset_append_right _ _) m _ _
  · exact ⟨_, exec_setCall s l, s.node.runWhole_setsOnly fun m => okE_setKeys (List.Subset.refl _) m _ _⟩
  · refine ⟨_, exec_setCallLine s l, s.node.runMulti_setsOnly fun i m => ?_⟩
    exact okE_bind fun _ _ => okE_bind fun _ _ => okE_setKeys (List.Subset.refl _) m _ _
  · exact ⟨_, exec_setSurvey s l, s.node.runWhole_setsOnly fun m => okE_setKeys (List.Subset.refl _) m _ _⟩
  · exact ⟨_, exec_setBusAlmto s l, s.node.runWhole_setsOnly fun m => okE_setKeys (List.Subset.refl _) m _ _⟩
  · exact ⟨_, exec_setBusGate s l, s.node.runWhole_setsOnly fun m => okE_setKeys (List.Subset.refl _) m _ _⟩
  · exact ⟨_, exec_setBusFilter s l, s.node.runMulti_setsOnly fun i m => okE_setKeys (List.Subset.refl _) m _ _⟩

end Sys2Proof.Machine
end

/-! ### O58: a setting given alone takes its value -/

section
namespace Sys2Proof.Machine

section
variable {specs : List KeySpec} {k : String} {x : Val} {sp : KeySpec} {v : Nat}

/-- A key of the table, given alone with a value its form accepts, passes steps 10 and 11 of R470. -/
theorem checkKeys_single (hs : specOf specs k = some sp) (hv : sp.form.code x = .ok v) : checkKeys specs [] [(k, x)] = .ok () := by
  simp [checkKeys, stepTen, keyErr, valErr, hs, hv]

theorem Node.putKeys_single (n : Node) (i : Nat) (hs : specOf specs k = some sp) (hv : sp.form.code x = .ok v) :
    n.putKeys specs i [(k, x)] = n.putLoc (sp.loc i) v := by
  simp [Node.putKeys, hs, hv]

theorem Node.rd_dirty (n : Node) {a : Nat} (ha : a ≠ Fd.SYS_STORE_DIRTY.addr) : n.dirty.rd a = n.rd a := by
  rw [Node.dirty, Node.setOn, Node.rd_setFd, if_neg ha.symm]

/-- Whether or not the store's copy is thereby out of date, the register holds the setting. -/
theorem Node.rd_setKeys_single (n : Node) {i : Nat} {f : Fd} {a : Nat} (hs : specOf specs k = some sp)
    (hv : sp.form.code x = .ok v) (hf : sp.loc i = .fd f) (ha : a ≠ Fd.SYS_STORE_DIRTY.addr) :
    (n.setKeys specs i [(k, x)]).rd a = (n.setFd f v).rd a := by
  unfold Node.setKeys
  extract_lets m
  have hm : m = n.setFd f v := by
    simp only [m, n.putKeys_single i hs hv, hf, Node.putLoc]
  rw [hm]
  split
  · exact Node.rd_dirty _ ha
  · rfl

/-- Settings of the object as a whole lie at the same place for every index. -/
theorem transSpecs_loc {i : Nat} (hs : specOf transSpecs k = some sp) : sp.loc i = sp.loc 0 := by
  have hmem := specOf_mem hs
  simp only [transSpecs, List.mem_singleton] at hmem
  rw [hmem]
  rfl

end

/-- A SET of one key that answers with the node in which item `i` has taken the key's value: the value stands in the key's
field, and the register's other fields are as before. -/
theorem answers_setKeys_single {s : State} {l : Line} {n : Node} {i v : Nat} {k : String} {x : Val} {sp : KeySpec} {f : Fd}
    {specs : List KeySpec} {c : Instr} (hn : taken s l = n) (hc : exec c s = answers s (n.setKeys specs i [(k, x)]) l [])
    (hs : specOf specs k = some sp) (hv : sp.form.code x = .ok v) (hf : sp.loc i = .fd f) (hl : f.lo ≤ f.hi) (hh : f.hi < 32)
    (ha : f.addr ≠ Fd.SYS_STORE_DIRTY.addr) :
    ∃ t, exec c s = .next t ∧ t.node.fd f = v % 2 ^ f.width ∧
      ∀ g : Fd, g.addr = f.addr → g.lo ≤ g.hi → f.hi < g.lo ∨ g.hi < f.lo → t.node.fd g = s.node.fd g := by
  subst hn
  have hfd (g : Fd) (hg : g.addr = f.addr) :
      (((taken s l).setKeys specs i [(k, x)]).replyOk l []).fd g = ((taken s l).setFd f v).fd g := by
    rw [Node.fd, Node.fd, ← Node.rd_setKeys_single _ hs hv hf (hg ▸ ha)]
    rfl
  refine ⟨_, hc, ?_, fun g hg hgl hap => ?_⟩
  · rw [hfd f rfl, Node.fd_setFd_same _ f v hl hh]
  · rw [hfd g hg, Node.fd_setFd_apart _ f g v hl hh hgl (.inr hap)]
    rfl

/-- Settles O58: the one key passes the line's checks, and the unit of each of the four commands is to set it. -/
theorem settingTakesItsValue : Obligations.SettingTakesItsValue := by
  intro s l n i v k x sp f hk hv hf hl hh ha c hc
  have hn : taken s l = n := by
    obtain ⟨-, h, -⟩ | ⟨-, h, -⟩ | ⟨-, h, -⟩ | ⟨-, h, -⟩ := hc <;> exact h.node
  have takes {specs j} (hs : specOf specs k = some sp) (hj : sp.loc i = sp.loc j)
      (hexec : exec c s = answers s (n.setKeys specs j l.keys) l []) :=
    answers_setKeys_single hn (hk ▸ hexec) hs hv (hj ▸ hf) hl hh ha
  have checked {specs} (hs : specOf specs k = some sp) : checkKeys specs [] l.keys = .ok () := hk ▸ checkKeys_single hs hv
  obtain ⟨rfl, hm, hi, hs⟩ | ⟨rfl, hm, hi, hs⟩ | ⟨rfl, hm, hi, hs, hstate⟩ | ⟨rfl, hm, hi, hs⟩ := hc
  · refine takes hs (transSpecs_loc hs) ?_
    rw [exec_setTrans, execSetTrans, hi]
    exact lift_runWhole_answers hm hi (checked hs) rfl
  · obtain ⟨_, hx⟩ := Line.idx_of_items hi
    refine takes hs rfl ?_
    rw [exec_setTrans, execSetTrans, hx]
    exact lift_runMulti_answers hm hi (checked hs) (by simp [setTransUnit, checked hs])
  · refine takes hs rfl ?_
    rw [exec_setCallLine, execSetCallLine]
    have hengine : engineNeeded n = .ok () := if_neg hstate
    exact lift_runMulti_answers hm hi (by simp [checked hs, hengine]) (by simp [setCallUnit, checked hs, hengine])
  · obtain ⟨_, hx⟩ := Line.idx_of_items hi
    refine takes hs rfl ?_
    rw [exec_setGrid, execSetGrid, hx]
    exact lift_runMulti_answers hm hi (checked hs) (by simp [setGridUnit, checked hs])

end Sys2Proof.Machine
end

/-! ### O59: a line that stores to memory stores its bytes and no others -/

section
namespace Sys2Proof.Machine

/-- Memory, the words whose read-back failed, and the beat are the same, so that every byte reads the same. -/
structure SameMemory (a b : Node) : Prop where
  mem : b.mem = a.mem
  nv : b.nv = a.nv
  tick : b.tick = a.tick

section
variable {a b c : Node}

theorem SameMemory.refl (n : Node) : SameMemory n n := ⟨rfl, rfl, rfl⟩

theorem SameMemory.trans (hab : SameMemory a b) (hbc : SameMemory b c) : SameMemory a c :=
  ⟨hbc.mem.trans hab.mem, hbc.nv.trans hab.nv, hbc.tick.trans hab.tick⟩

theorem SameMemory.byte (h : SameMemory a b) (x : Nat) : b.byte x = a.byte x := by
  simp only [Node.byte, h.mem, h.nv, h.tick]

theorem OnlyPorts.sameMemory (h : OnlyPorts a b) : SameMemory a b := by
  refine ⟨?_, ?_, ?_⟩ <;> rw [h.same]

end

theorem Node.setFd_sameMemory (n : Node) (f : Fd) (v : Nat) : SameMemory n (n.setFd f v) := ⟨rfl, rfl, rfl⟩

theorem Node.ring_sameMemory (n : Node) (k : Nat) : SameMemory n (n.ring k) := by
  rw [n.ring_only_reg k]
  exact ⟨rfl, rfl, rfl⟩

theorem Node.loseNotice_sameMemory (n : Node) (p : Port) : SameMemory n (n.loseNotice p) := by
  unfold Node.loseNotice
  extract_lets _ m
  have hm : SameMemory n m := ⟨rfl, rfl, rfl⟩
  split
  · exact (hm.trans (m.setFd_sameMemory _ _)).trans (Node.ring_sameMemory _ _)
  · exact hm

theorem Node.notifyPort_sameMemory (n : Node) (p : Port) (c : Cls) (items : List Item) :
    SameMemory n (n.notifyPort p c items) := by
  unfold Node.notifyPort
  split
  · exact .refl n
  · extract_lets
    split
    · exact (n.setPort_onlyPorts p _).sameMemory
    · exact n.loseNotice_sameMemory p

theorem Node.notifyWatch_sameMemory (n : Node) (o : Obj) (sub : String) (i : Option Nat) (items : List Item) :
    SameMemory n (n.notifyWatch o sub i items) := by
  refine List.foldlRecOn (motive := SameMemory n) allPorts _ (.refl n) fun m hm p _ => ?_
  split
  · exact hm.trans (m.notifyPort_sameMemory p _ _)
  · exact hm

/-- A change of the annex's state is told and rings, and stores nothing. -/
theorem Node.annexTo_sameMemory (n : Node) (st : Nat) (fault : List Item) : SameMemory n (n.annexTo st fault) := by
  unfold Node.annexTo
  split
  · exact .refl n
  · exact ((n.setFd_sameMemory _ _).trans (Node.ring_sameMemory _ _)).trans (Node.notifyWatch_sameMemory _ _ _ _ _)

/-- A line that answers with a node whose memory is that of the bytes `d` stored at `a` has stored those and no others. -/
theorem answers_stores {s : State} {l : Line} {n m : Node} {c : Instr} {a : Nat} {d : List Byte} {data : List (List Item)}
    (hn : taken s l = n) (hm : SameMemory (n.setBytes a d) m) (hc : exec c s = answers s m l data) :
    ∃ t, exec c s = .next t ∧ (∀ b, b < a ∨ a + d.length ≤ b → t.node.byte b = s.node.byte b) ∧
      ∀ j, j < d.length → t.node.byte (a + j) = d.getD j 0#8 := by
  have hmem : SameMemory (n.setBytes a d) (m.replyOk l data) := hm.trans (m.replyOk_onlyPorts l data).sameMemory
  have hbefore : SameMemory s.node n := hn ▸ (s.node.takeLine_onlyPorts l).sameMemory
  refine ⟨_, hc, fun b hb => ?_, fun j hj => ?_⟩
  · rw [hmem.byte, Node.byte_setBytes_out d n a b hb, hbefore.byte]
  · rw [hmem.byte, Node.byte_setBytes_in d n a j hj, List.getD_eq_getElem _ _ hj]

/-- DO NODE LOAD of bytes that fit the annex's memory, while the annex stands (R360). -/
theorem doNodeLoad_answers {s : State} {l : Line} {n : Node} {d : List Byte} {a : Nat} (hm : MayRun s l .node n) (hi : l.idx = none)
    (hk : onlyKeys ["ADDR", "DATA"] ["ADDR", "DATA"] l.keys = .ok ()) (hv : ∃ v, keyVal l.keys "DATA" = some v ∧ (hexData v).isSome = true)
    (hc : checkKeys nodeLoadSpecs [] (l.keys.filter (fun k => k.1 == "ADDR")) = .ok ()) (hd : dataKey l.keys 64 = .ok d)
    (ha : bigKey l.keys "ADDR" = a) (hend : a + d.length ≤ 0x10100000) (hq : n.sys.power ≠ .quiet) (hrun : n.annexRuns = false) :
    exec (.doNodeLoad l) s = answers s ((n.setBytes a d).annexTo 0 []) l [] := by
  obtain ⟨v, hv, hx⟩ := hv
  have hx : hexData v ≠ none := Option.isSome_iff_ne_none.1 hx
  have hend : ¬ 0x10100000 < a + d.length := Nat.not_lt.2 hend
  rw [exec_doNodeLoad]
  exact lift_runWhole_answers hm hi (by simp [hk, hv, hx, hc, hd, ha, hend, hq, hrun]) (by simp [hd, ha])

/-- DO DISP LOAD of pixels that fit the panel: at once, or behind the snapshot while one is being taken (R345). -/
theorem doDispLoad_answers {s : State} {l : Line} {n : Node} {d : List Byte} {x y a : Nat} (hm : MayRun s l .disp n) (hi : l.idx = none)
    (hk : onlyKeys ["X", "Y", "DATA"] ["X", "Y", "DATA"] l.keys = .ok ()) (hd : dataKey l.keys 32 = .ok d)
    (hc : checkKeys loadSpecs [] (l.keys.filter (fun p => p.1 != "DATA")) = .ok ()) (hx : (keyNum loadSpecs l.keys "X").getD 0 = x)
    (hy : (keyNum loadSpecs l.keys "Y").getD 0 = y) (hw : x + 4 * d.length ≤ n.dispW) (hh : y < n.dispH) (h4 : x % 4 = 0)
    (ho : n.dispOpen l.keys = .ok ()) (ha : n.fd Fd.DISP_BASE_BASE + y * (n.dispW / 4) + x / 4 = a) :
    exec (.doDispLoad l) s = answers s
      (if n.on Fd.DISP_STAT_SNAP then { n with disp := { n.disp with loads := n.disp.loads ++ [(a, d)] } } else n.setBytes a d) l [] := by
  subst hx hy ha
  rw [exec_doDispLoad]
  refine lift_runWhole_answers hm hi (by simp [hk, hd, hc, ho, hw, hh, h4]) ?_
  cases n.on Fd.DISP_STAT_SNAP with
  | false => simp [hd]
  | true => simp [hd]

/-- Settles O59: each of the three commands answers with its bytes stored at its address; after DO NODE LOAD the annex's state
changes too, which stores nothing. -/
theorem storesOnlyItsBytes : Obligations.StoresOnlyItsBytes := by
  intro s l n c a d hc
  obtain ⟨rfl, hl, hn, ha, hr, hk, v, hv, rfl⟩ | ⟨rfl, hm, hi, hk, hv, hc, hd, ha, hend, hq, hrun⟩ |
    ⟨rfl, hm, hi, hk, hd, hc, hopen, hsnap, x, y, hx, hy, hw, hh, h4, ha⟩ := hc
  · refine answers_stores (data := []) hn (.refl _) ?_
    rw [exec_poke]
    refine lift_runLine_answers hn hl ?_
    obtain hr | hr := hr
    · simp [hk, hv, ha, hr, Node.memWrite]
    · simp [hk, hv, ha, hr, Node.memWrite]
  · exact answers_stores hm.node (Node.annexTo_sameMemory _ 0 []) (doNodeLoad_answers hm hi hk hv hc hd ha hend hq hrun)
  · refine answers_stores (data := []) hm.node (.refl _) ((doDispLoad_answers hm hi hk hd hc hx hy hw hh h4 hopen ha.symm).trans ?_)
    rw [if_neg (by simp [hsnap])]

end Sys2Proof.Machine
end

/-! ### O8 to O13: reads answer with their data lines -/

section
namespace Sys2Proof.Machine

/-- The effect of a read that takes neither an index nor a key and waits for the stored settings. -/
def plainShow (l : Line) (d : Node → List (List Item)) (n : Node) : Except Err (List (List Item)) := do
  l.bare
  onlyKeys [] [] l.keys
  pure (d n)

/-- The effect of a read of the bus port its PORT key names. -/
def portShow (l : Line) (d : Node → List (List Item)) (n : Node) : Except Err (List (List Item)) := do
  l.bare
  portOnly [] [] l.keys
  pure (d n)

/-- The effect of a read of items that takes no key: a data line for each item. -/
def itemShow (l : Line) (cap : Nat) (d : Node → List Nat → List (List Item)) (n : Node) : Except Err (List (List Item)) := do
  let is ← l.items cap
  onlyKeys [] [] l.keys
  pure (d n is)

section
variable {s : State} {l : Line} {n : Node} {o : Host.Outcome State Fault Refusal}

theorem noKeys_of {l : Line} (h : l.keys = []) : onlyKeys [] [] l.keys = .ok () := by simp [onlyKeys, stepTen, keyErr, h]

theorem lift_plainShow_answers (hn : taken s l = n) (hl : Live s l) (hp : Plain l) (d : Node → List (List Item)) :
    (s.lift fun m => m.runRead l (plainShow l d)) = answers s n l (d n) :=
  lift_runRead_answers hn hl (by simp [plainShow, hp.bare, hp.noKeys])

theorem lift_itemShow_answers {cap : Nat} {is : List Nat} (hn : taken s l = n) (hl : Live s l) (hk : l.keys = [])
    (hi : l.items cap = .ok is) (d : Node → List Nat → List (List Item)) :
    (s.lift fun m => m.runRead l (itemShow l cap d)) = answers s n l (d n is) :=
  lift_runRead_answers hn hl (by simp [itemShow, hi, noKeys_of hk])

theorem lift_portShow_answers (hn : taken s l = n) (hl : Live s l) (hi : l.idx = none) (hk : portOnly [] [] l.keys = .ok ())
    (d : Node → List (List Item)) : (s.lift fun m => m.runRead l (portShow l d)) = answers s n l (d n) :=
  lift_runRead_answers hn hl (by simp [portShow, bare_of hi, hk])

theorem execEarlyRead_answers_taken (hn : taken s l = n) (hr : s.node.portReady l.port = true) (hp : Plain l)
    (d : Node → List (List Item)) : execEarlyRead l d s = answers s n l (d n) := by
  rw [execEarlyRead_answers hr hp, hn]

end

/-- Settles O9: each line is a read of its own data lines; five of them run before the stored settings have loaded. -/
theorem nodeReads : Obligations.NodeReads := by
  intro s l n hn hr hp
  have early := execEarlyRead_answers_taken hn hr hp
  refine ⟨(exec_showNode s l).trans (early _), (exec_showNodeAnnex s l).trans (early _), (exec_showNodeModes s l).trans (early _),
    (exec_getSysPower s l).trans (early _), (exec_getSysRstcause s l).trans (early _), fun hloaded => ?_⟩
  have show_ := lift_plainShow_answers hn ⟨hr, hloaded⟩ hp
  exact ⟨(exec_showSysLease s l).trans (show_ _), (exec_showSysMr s l).trans (show_ _), (exec_showSysPort s l).trans (show_ _),
    (exec_showSysStore s l).trans (show_ _)⟩

/-- A display state's word in GET DISP. -/
def dispStateWord (k : Nat) : String :=
  match k with
  | 0 => "OFF"
  | 1 => "ON"
  | _ => "DRAINING"

theorem dispStateWord_eq (k : Nat) : dispStateWord k = if k = 0 then "OFF" else if k = 1 then "ON" else "DRAINING" := by
  match k with
  | 0 | 1 | _ + 2 => rfl

section
variable {s : State} {l : Line} {n : Node}

/-- GET GRID while no report has been made. -/
theorem getGrid_noReport (hn : taken s l = n) (hl : Live s l) (hp : Plain l) (he : n.rd Ad.GRID_REPEST = 0xFFFFFFFF#32)
    (hs : n.rd Ad.GRID_REPSEC = 0#32) (hq : n.rd Ad.GRID_REPQNS = 0#32) :
    exec (.getGrid l) s = answers s n l [[.w "GRID NOREPORT"]] := by
  rw [exec_getGrid]
  refine lift_runRead_answers hn hl ?_
  simp [hp.bare, hp.noKeys, he, hs, hq]

end

/-- Settles O10: most lines are reads of their own data lines; the others branch first, on the report registers, on the index or
on the record asked for, and the hypotheses name the branch. -/
theorem helperReads : Obligations.HelperReads := by
  refine ⟨fun s l n hn hl hp => ?_, fun s l n hn hl hi hk a ha => ⟨fun hr => ?_, fun hr => ?_⟩⟩
  · have show_ := lift_plainShow_answers hn hl hp
    refine ⟨(exec_showUcQuad s l).trans (show_ _), (exec_showLoCheck s l).trans (show_ _), getGrid_noReport hn hl hp, fun hrep => ?_,
      ?_, ?_, (exec_getCall s l).trans (show_ _), ?_, ?_, (exec_showArc s l).trans (show_ _),
      (exec_showSurvey s l).trans (show_ _), (exec_showSurveyMap s l).trans (show_ _), (exec_getBusLink s l).trans (show_ _),
      (exec_getGpBank s l).trans (show_ _), (exec_getTw s l).trans (show_ _), fun st hst => ?_,
      (exec_showDisp s l).trans (show_ _), ?_, fun es hes => ?_⟩
    · rw [exec_getGrid]
      refine lift_runRead_answers hn hl ?_
      have hrep : ¬((n.rd Ad.GRID_REPEST = 0xFFFFFFFF#32 && n.rd Ad.GRID_REPSEC = 0#32 && n.rd Ad.GRID_REPQNS = 0#32) = true) := by
        simp only [Bool.and_eq_true, decide_eq_true_eq]
        tauto
      simp only [hp.bare, hp.noKeys, except_ok_bind, if_neg hrep]
      rfl
    · rw [exec_showGrid]
      refine lift_runRead_answers hn hl ?_
      simp only [hp.idx, hp.noKeys]
      rfl
    · rintro shown rfl
      exact (exec_getTrans s l).trans (show_ _)
    · rw [exec_showCall]
      refine lift_runRead_answers hn hl ?_
      simp only [hp.idx, hp.noKeys]
      rfl
    · rw [exec_showAp]
      refine lift_runRead_answers hn hl ?_
      simp only [hp.idx, hp.noKeys]
      rfl
    · obtain rfl : st = dispStateWord := funext fun k => (hst k).trans (dispStateWord_eq k).symm
      exact (exec_getDisp s l).trans (show_ _)
    · rw [exec_getDic]
      refine lift_runRead_answers hn hl ?_
      simp only [hp.idx, hp.noKeys]
      rfl
    · subst hes
      rw [exec_showDic]
      refine lift_runRead_answers hn hl ?_
      simp only [hp.idx, hp.noKeys]
      rfl
  · rw [exec_getArc]
    refine lift_runRead_answers hn hl ?_
    simp [bare_of hi, hk, ha, hr]
  · rw [exec_getArc]
    refine lift_runRead_refuses hn hl ?_
    simp [bare_of hi, hk, ha, hr, refuse]

/-- Settles O11: each line is a read of one data line for each item; ARC codes are checked first. -/
theorem itemReads : Obligations.ItemReads := by
  intro s l n is hn hl hk
  have items {cap} (hi : l.items cap = .ok is) := lift_itemShow_answers hn hl hk hi
  refine ⟨fun hi => ⟨(exec_getUc s l).trans (items hi _), (exec_showUc s l).trans (items hi _)⟩,
    fun hi => ⟨fun head hhead => ?_, (exec_showLo s l).trans (items hi _), (exec_showTrans s l).trans (items hi _)⟩,
    fun hi => (exec_getAp s l).trans (items hi _),
    fun hi => ⟨(exec_getAg s l).trans (items hi _), (exec_showAg s l).trans (items hi _)⟩, fun hi ha => ?_, fun hi ha => ?_,
    fun hi => ⟨(exec_showGp s l).trans (items hi _), (exec_getGp s l).trans (items hi _)⟩, fun hx hi => ⟨?_, ?_⟩⟩
  · obtain rfl : head = _ := funext hhead
    exact (exec_getLo s l).trans (items hi _)
  · rw [exec_showArcCode]
    refine lift_runRead_refuses hn hl ?_
    have ha : ∃ c ∈ is, assigned c = false := by simpa using ha
    simp [hi, noKeys_of hk, refuse, ha]
  · rw [exec_showArcCode]
    refine lift_runRead_answers hn hl ?_
    have ha : ∀ c ∈ is, assigned c = true := by simpa using ha
    simp +contextual [hi, noKeys_of hk, ha]
  · obtain ⟨x, hx⟩ := Line.idx_of_items hi
    rw [exec_getDic]
    refine lift_runRead_answers hn hl ?_
    simp [hx, hi, noKeys_of hk]
  · obtain ⟨x, hx⟩ := Line.idx_of_items hi
    rw [exec_showDic]
    refine lift_runRead_answers hn hl ?_
    simp [hx, hi, noKeys_of hk]

/-- Settles O12: each line is a read of the port its PORT key names; SHOW DISP WAVE has checks of its own. -/
theorem portReads : Obligations.PortReads := by
  intro s l n p hn hl hi
  refine ⟨?_, fun hk hw => ?_⟩
  · rintro hk rfl
    have show_ := lift_portShow_answers hn hl hi hk
    exact ⟨(exec_getBus s l).trans (show_ _), (exec_showBus s l).trans (show_ _), (exec_showBusTrim s l).trans (show_ _),
      fun st hst => by subst hst; exact (exec_showBusMark s l).trans (show_ _), (exec_showBusDelay s l).trans (show_ _)⟩
  · rw [exec_showDispWave]
    refine lift_runRead_answers hn hl ?_
    simp [bare_of hi, hk, hw]

end Sys2Proof.Machine
end

/-! ### O8: the beat's overruns, shown and cleared -/

section
namespace Sys2Proof.Machine

/-- A field lies within its word. -/
def Fd.Fits (f : Fd) : Prop := f.lo ≤ f.hi ∧ f.hi < 32

/-- Two fields share no bit of any register. -/
def Fd.Apart (f g : Fd) : Prop := f.addr ≠ g.addr ∨ f.hi < g.lo ∨ g.hi < f.lo

/-- A field that is 0, or among those cleared, is 0 after fields apart from it and it itself have been written with 0. -/
theorem Node.fd_setFds_zero {f : Fd} (hf : f.Fits) (l : List Fd) (hl : ∀ g ∈ l, g.Fits ∧ (g = f ∨ g.Apart f)) (n : Node)
    (h0 : n.fd f = 0 ∨ f ∈ l) : (n.setFds (l.map fun g => (g, 0))).fd f = 0 := by
  induction l generalizing n with
  | nil => exact h0.resolve_right List.not_mem_nil
  | cons g t ih =>
    obtain ⟨hg, hsame | hapart⟩ := hl g List.mem_cons_self
    · subst hsame
      refine ih (fun x hx => hl x (List.mem_cons_of_mem _ hx)) _ (.inl ?_)
      rw [Node.fd_setFd_same _ _ _ hg.1 hg.2, Nat.zero_mod]
    · refine ih (fun x hx => hl x (List.mem_cons_of_mem _ hx)) _ ?_
      rw [Node.fd_setFd_apart _ _ _ _ hg.1 hg.2 hf.1 hapart]
      refine h0.imp_right fun hmem => (List.mem_cons.1 hmem).resolve_left ?_
      rintro rfl
      obtain h | h | h := hapart
      · exact h rfl
      · exact absurd hg.1 (Nat.not_le.2 h)
      · exact absurd hg.1 (Nat.not_le.2 h)

/-- The fields CLEAR BEAT clears: the overrun counters in the order of their slots, and the LATE bits. -/
def clearedFds : List Fd := (List.range 7).map ovrFd ++ [Fd.BEAT_LATE_LATE]

theorem clearBeat_eq_setFds (n : Node) :
    (n.ovrClear 0x7F#32).setFd Fd.BEAT_LATE_LATE 0 = n.setFds (clearedFds.map fun g => (g, 0)) := rfl

theorem clearedFds_apart : ∀ f ∈ clearedFds, f.Fits ∧ ∀ g ∈ clearedFds, g.Fits ∧ (g = f ∨ g.Apart f) := by
  unfold Fd.Fits Fd.Apart
  decide

theorem Node.fd_cleared (n : Node) {f : Fd} (hf : f ∈ clearedFds) : (n.setFds (clearedFds.map fun g => (g, 0))).fd f = 0 := by
  obtain ⟨hfits, hapart⟩ := clearedFds_apart f hf
  exact Node.fd_setFds_zero hfits _ hapart n (.inr hf)

/-- Settles O8: what CLEAR BEAT writes are fields of which no two share a bit, so that each is left at 0. -/
theorem beatShownAndCleared : Obligations.BeatShownAndCleared := by
  intro s l n hn hl hp
  refine ⟨(exec_showBeat s l).trans (lift_plainShow_answers hn hl hp _), fun hf => ?_⟩
  refine ⟨n.setFds (clearedFds.map fun g => (g, 0)), ?_, fun k hk => ?_, ?_⟩
  · rw [exec_clearBeat, ← clearBeat_eq_setFds]
    exact lift_runWhole_answers ⟨hl, hn, hf⟩ hp.idx hp.noKeys rfl
  · exact n.fd_cleared (List.mem_append_left _ (List.mem_map_of_mem (List.mem_range.2 hk)))
  · exact n.fd_cleared (List.mem_append_right _ List.mem_cons_self)

end Sys2Proof.Machine
end

/-! ### O13: settings, help and typed queries -/

section
namespace Sys2Proof.Machine

/-- Settles O13: these lines run before the stored settings have loaded, and the word or the names given decide the branch. -/
theorem settingsAndHelp : Obligations.SettingsAndHelp := by
  intro s l hr
  refine ⟨fun hp names hnames => ?_, ?_, fun w hw => ?_, fun w hw hv => ?_, fun w hv ho hl => ?_, fun w t hw hq hb => ?_⟩
  · rw [exec_getSys]
    refine lift_runLine_early_answers rfl hr ?_
    have hknown : ∀ k ∈ names, specOf (sysSpecs.take 12) k ≠ none := by simpa [Option.isSome_iff_ne_none] using hnames
    simp +contextual [hp.bare, hp.noKeys, hknown]
  · rw [exec_help]
    exact lift_runLine_early_answers rfl hr rfl
  · rw [exec_help]
    refine lift_runLine_early_answers rfl hr ?_
    have hw : w ∈ verbs := by simpa using hw
    simp [hw, helpFor, helpLines]
  · rw [exec_help]
    refine lift_runLine_early_answers rfl hr ?_
    have hw : w ∈ objects := by simpa using hw
    have hv : w ∉ verbs := by simpa using hv
    simp [hw, hv, helpFor, helpLines]
  · rw [exec_help]
    refine lift_runLine_refuses rfl ⟨hr, hl⟩ ?_
    have hv : w ∉ verbs := by simpa using hv
    have ho : w ∉ objects := by simpa using ho
    simp [hv, ho, refuse]
  · have hgoes : ¬(!isHelpQuery w.chars || l.port = .bus) = true := by simp [hq, hb]
    rw [exec_typedHelpQuery, execTypedHelpQuery, lift_becomes, hw]
    dsimp only
    rw [if_neg hgoes]
    exact lift_runLine_early_answers (l := ⟨l.port, w.tag, none, []⟩) rfl hr rfl

end Sys2Proof.Machine
end

/-! ### O14: settings of a helper as a whole -/

section
namespace Sys2Proof.Machine

/-- SET SYS with the keys of Table 2-7 or with power keys: both take the keys of both tables. -/
theorem setSys_answers {s : State} {l : Line} {n : Node} (hm : MayRun s l .sys n) (hi : l.idx = none)
    (hk : checkKeys sysSpecs [] l.keys = .ok ()) {c : Instr} (hc : c ∈ [Instr.setSys l, .setSysPower l]) :
    exec c s = answers s (Node.cmdChanged n (n.setKeys sysSpecs (portNum l.port) l.keys) (some l.port) 70000) l [] := by
  simp only [List.mem_cons, List.not_mem_nil, or_false] at hc
  obtain rfl | rfl := hc
  · exact (exec_setSys s l).trans (lift_runWhole_answers hm hi hk rfl)
  · exact (exec_setSysPower s l).trans (lift_runWhole_answers hm hi hk rfl)

/-- Settles O14: the hypotheses of each clause are the checks of its SET, so that the line takes effect and is answered. -/
theorem settingsWritten : Obligations.SettingsWritten := by
  intro s l n hi
  refine ⟨fun hm hk c hc => setSys_answers hm hi hk hc,
    fun hm hk => (exec_setTime s l).trans (lift_runWhole_answers hm hi hk rfl),
    fun hm hk m hg hframes hlock => ?_, fun hm hk => ?_, fun hm hk hoff => ?_, fun hm hk htimes hengine => ?_,
    fun hm hk => (exec_setArc s l).trans (lift_runWhole_answers hm hi hk rfl), fun hm hk hrun => ?_, fun hm hk hrun => ?_,
    fun hm hk => (exec_setTw s l).trans (lift_runWhole_answers hm hi hk rfl),
    fun hm hk => (exec_setDisp s l).trans (lift_runWhole_answers hm hi hk rfl), fun hm hk hreg => ?_, fun hm hk => ?_⟩
  · rw [exec_setGrid, execSetGrid, hi]
    exact lift_runWhole_answers hm hi (by simp [hk, hg, hframes, hlock]) (by simp [hg])
  · rw [exec_setTrans, execSetTrans, hi]
    exact lift_runWhole_answers hm hi hk rfl
  · rw [exec_setApEngine]
    exact lift_runWhole_answers hm hi (by simp [hk, hoff]) rfl
  · rw [exec_setCall]
    exact lift_runWhole_answers hm hi (by simp [hk, htimes, hengine]) rfl
  · rw [exec_setSurvey]
    exact lift_runWhole_answers hm hi (by simp [hk, hrun]) rfl
  · rw [exec_setBusLink]
    exact lift_runWhole_answers hm hi (by simp [hk, hrun]) rfl
  · rw [exec_setNode]
    exact lift_runWhole_answers hm hi (by simp [hk, hreg]) rfl
  · rw [exec_setDic, execSetDic, hi]
    exact lift_runWhole_answers hm hi hk rfl

end Sys2Proof.Machine
end

/-! ### O15: settings of a named item -/

section
namespace Sys2Proof.Machine

/-- Settles O15: the hypotheses of each clause are the checks of its SET; the keys given decide what it writes. -/
theorem namedItemsWritten : Obligations.NamedItemsWritten := by
  refine ⟨fun s l n hi => ⟨fun hm p hp => ?_, fun hm hk hsrc hper v m hv hset vals hvals => ?_, fun hm hk => ?_,
    fun hm m0 v0 m1 v1 hk hm0 hv0 hm1 hv1 hw0 hw1 => ?_, fun hm t i r c hk ht hnpt hpoint hohm hdeg huse => ?_⟩,
    fun s l n hi hm hopen => ⟨fun hk hw => ?_, fun ds hk hd hw => ?_, fun c lo hi' hk hc hlo hhi hbl hbh hnl hnh => ?_⟩⟩
  · subst hp
    refine ⟨fun hk hwide hcr hbr hwake m hmm => ?_, fun hk => ?_, fun hk k hfind => ?_⟩
    · rw [exec_setBusPort]
      refine lift_runWhole_answers hm hi ?_ ?_
      · cases hc : keyNum busPortAll l.keys "CRATE" <;> cases hb : keyNum busPortAll l.keys "BRATE" <;>
          simp_all only [except_ok_bind, except_pure, Bool.false_eq_true, if_false, Option.some.injEq, forall_eq', decide_true, need_true]
      · simp [hmm]
    · exact (exec_setBusGate s l).trans (lift_runWhole_answers hm hi hk rfl)
    · rw [exec_setBusTrimlock]
      exact lift_runWhole_answers hm hi (by simp [hk, hfind]) (by simp [hfind])
  · rw [exec_setBusVal]
    subst hv hset hvals
    refine lift_runWhole_answers hm hi ?_ ?_
    · have hsrc : ∀ c, keyNum valSpecs l.keys "SRC" = some c → (c != 0 && (c - 1) / 65536 == 4) = false := fun c hc => by
        simpa [not_and] using hsrc c hc
      cases hs : keyNum valSpecs l.keys "SRC" <;> cases hp : keyNum valSpecs l.keys "PERIOD" <;>
        simp_all only [except_ok_bind, except_pure, Option.some.injEq, forall_eq', Bool.not_false, beq_self_eq_true, need_true]
    · dsimp only
      rw [apply_ite (_ ++ ·), List.append_nil]
  · exact (exec_setBusAlmto s l).trans (lift_runWhole_answers hm hi hk rfl)
  · subst hm0 hv0 hm1 hv1
    rw [exec_setGpMask]
    refine lift_runWhole_answers hm hi ?_ rfl
    simp only [hk]
    simp [hw0, hw1]
  · rw [exec_setUcCtab]
    subst ht
    refine lift_runWhole_answers hm hi ?_ ?_
    · simp [hk, hnpt, hpoint, hohm, hdeg, huse]
    · simp [hnpt, hpoint, hohm, hdeg]
  · exact (exec_setDispWaveLen s l).trans (lift_runWhole_answers hm hi (by simp [hk, hw, hopen]) rfl)
  · exact (exec_setDispWaveData s l).trans (lift_runWhole_answers hm hi (by simp [hk, hd, hw, hopen]) (by simp [hd]))
  · rw [exec_setDispCom]
    refine lift_runWhole_answers hm hi ?_ ?_
    · simp [hbl, hbh, hk, hopen]
    · simp [hc, hlo, hhi, hnl, hnh]

end Sys2Proof.Machine
end

/-! ### O16 to O18: actions on a helper as a whole -/

section
namespace Sys2Proof.Machine

/-- DO TRANS ARM and DISARM answer with the recorder that has changed its state, where the recorder allows it. -/
theorem lift_runTrans_answers {s : State} {l : Line} {n m : Node} {f : Node → Option Node} (hm : MayRun s l .trans n)
    (hi : l.idx = none) (hk : l.keys = []) (hf : f n = some m) : (s.lift fun k => k.runTrans l f) = answers s m l [] :=
  lift_runWhole_answers hm hi (by simp [noKeys_of hk, hf]) (by simp [hf])

/-- Settles O16: each action's hypotheses are its checks, which leave the branch that takes effect. -/
theorem inputActions : Obligations.InputActions := by
  intro s l n hi
  refine ⟨fun hm hk => (exec_clearTw s l).trans (lift_runWhole_answers hm hi (noKeys_of hk) rfl),
    fun hm hk => (exec_clearDic s l).trans (lift_runWhole_answers hm hi (noKeys_of hk) rfl),
    fun hm sec qns a hk hsec hqns ha hlo hhi hst => ?_, fun hm hk hqx hforced => ?_, fun hm hk k hquad hfail hpass r hr => ?_,
    fun hm hk => ⟨fun m hf => (exec_doTransArm s l).trans (lift_runTrans_answers hm hi hk hf),
      fun m hf => (exec_doTransDisarm s l).trans (lift_runTrans_answers hm hi hk hf)⟩⟩
  · subst hsec hqns ha
    rw [exec_doTimeSet]
    refine lift_runWhole_answers hm hi hk ?_
    dsimp only
    rw [if_neg (by omega), if_neg (by tauto)]
  · rw [exec_doUcQuadFail]
    exact lift_runWhole_answers hm hi (by simp [hk, hqx, hforced]) rfl
  · subst hr
    rw [exec_doUcQuadRestore]
    exact lift_runWhole_answers hm hi (by simp [hk, hquad, hfail, hpass]) (by simp [hquad])

/-- Settles O17: each action's hypotheses are its checks, which leave the branch that takes effect. -/
theorem busActions : Obligations.BusActions := by
  refine ⟨fun s l n p hi hp hm => ?_, fun s l n hi hm => ⟨fun p hp hk hsv hbus hsleep hoff => ?_, fun hk hrole => ?_⟩⟩
  · subst hp
    refine ⟨fun k hk hbus hmb => ?_, fun g hk hg => ?_, fun hk hst => ?_, fun st k hk hst hfind => ?_, fun hk hsv => ?_,
      fun hk => (exec_doBusWake s l).trans (lift_runWhole_answers hm hi hk rfl), fun dst mask data o hk hbus hdst hmask hdata ho => ?_⟩
    · subst hmb
      exact (exec_doBusAbort s l).trans (lift_runWhole_answers hm hi (by simp [hk, hbus]) rfl)
    · subst hg
      exact (exec_doBusGateReset s l).trans (lift_runWhole_answers hm hi hk rfl)
    · exact (exec_doBusTrimclr s l).trans (lift_runWhole_answers hm hi (by simp [hk, hst]) (by simp [hst]))
    · exact (exec_doBusTrimclr s l).trans (lift_runWhole_answers hm hi (by simp [hk, hst, hfind]) (by simp [hst, hfind]))
    · exact (exec_doBusSleep s l).trans (lift_runWhole_answers hm hi (by simp [hk, hsv]) rfl)
    · subst hdst hmask hdata ho
      exact (exec_doBusWakeup s l).trans (lift_runWhole_answers hm hi (by simp [hk, hbus]) rfl)
  · subst hp
    exact (exec_doSurveyStart s l).trans (lift_runWhole_answers hm hi (by simp [hk, hsv, hbus, hsleep, hoff]) rfl)
  · exact (exec_doSurveyAbort s l).trans (lift_runWhole_answers hm hi (by simp [noKeys_of hk, need, hrole]) rfl)

/-- The host has taken source `k`: its pending bit is clear, its active bit set, and its moderation group's hold begins (R386, R388). -/
def Node.takenByHost (n : Node) (k : Nat) : Node :=
  Node.startHold { ((n.clrBit (Ad.DIC_PEND (k / 32)) (k % 32)).setBit (Ad.DIC_ACT (k / 32)) (k % 32)) with
    dic := { n.dic with actHost := k :: n.dic.actHost }
    cmd := { n.cmd with irqTold := n.cmd.irqTold.filter (· != k) } } k 70000

theorem Node.startHold_actHost (n : Node) (k : Nat) (m : Moment) : (n.startHold k m).dic.actHost = n.dic.actHost := by
  unfold Node.startHold
  extract_lets
  split <;> rfl

/-- Settles O18: each action's hypotheses are its checks; DO DIC TAKE's next state makes the source active at the host. -/
theorem outputActions : Obligations.OutputActions := by
  refine ⟨fun s l n hi => ⟨fun hm hk t ht => ?_, fun hm d x y a hk hd hc hx hy hw hh h4 ho ha =>
      doDispLoad_answers hm hi hk hd hc hx hy hw hh h4 ho ha, fun hm hk p hp => ?_⟩,
    fun s l n hi => ⟨fun hm d a hk hv hc hd ha hend hq hrun => doNodeLoad_answers hm hi hk hv hc hd ha hend hq hrun,
      fun hm hk hst => ?_, fun hm hk hp => ?_, fun hm hk hp => ?_, fun hm hk hw => ?_, fun hm hk k hw => ?_⟩⟩
  · subst ht
    exact (exec_doGpLock s l).trans (lift_runWhole_answers hm hi hk rfl)
  · subst hp
    exact (exec_doSysReinitPort s l).trans (lift_runWhole_answers hm hi hk rfl)
  · have h0 : n.annexState ≠ 0 := by omega
    have h1 : n.annexState ≠ 1 := by omega
    exact (exec_doNodeStop s l).trans (lift_runWhole_answers hm hi (by simp [noKeys_of hk, h0, h1]) rfl)
  · exact (exec_doNodeQuiet s l).trans (lift_runWhole_answers hm hi (by simp [noKeys_of hk, hp]) rfl)
  · exact (exec_doNodeFull s l).trans (lift_runWhole_answers hm hi (by simp [noKeys_of hk, hp]) rfl)
  · exact (exec_doDicTake s l).trans (lift_runWhole_answers hm hi (noKeys_of hk) (by simp [hw]))
  · refine ⟨n.takenByHost k, (exec_doDicTake s l).trans (lift_runWhole_answers hm hi (noKeys_of hk) (by simp [hw, Node.takenByHost])), ?_⟩
    rw [Node.takenByHost, Node.startHold_actHost]
    exact List.mem_cons_self

end Sys2Proof.Machine
end

/-! ### O19 to O22: settings of and actions on items -/

section
namespace Sys2Proof.Machine

section
variable (n : Node) (keys : Keys) (i : Nat)

@[simp] theorem Node.setKeys_uc (specs : List KeySpec) : (n.setKeys specs i keys).uc = n.uc := by
  rw [(n.setKeys_setsOnly i keys).same]

theorem Node.modeDefaults_uc (m : Nat) : (n.modeDefaults i m).uc = n.uc := by
  have hfold : ∀ l : List Nat, (l.foldl (fun k a => k.wr a (resetWord a)) n).uc = n.uc :=
    fun l => List.foldlRecOn (motive := fun k : Node => k.uc = n.uc) l _ rfl fun k hk a _ => hk
  unfold Node.modeDefaults
  extract_lets +onlyGivenNames n1
  have h1 : n1.uc = n.uc := hfold _
  clear_value n1
  extract_lets n2 pr
  clear_value pr
  split
  · rw [Node.wr_uc, Node.wr_uc, Node.wr_uc, Node.wr_uc, Node.wr_uc, h1]
  · rw [Node.wr_uc, h1]

/-- The keys of SET UC change no channel's work, only registers and settings. -/
theorem Node.ucApply_uc : (n.ucApply keys i).uc = n.uc := by
  unfold Node.ucApply
  extract_lets m new n1 n2 follow
  have h1 : n1.uc = n.uc := by
    unfold n1
    split
    · exact n.modeDefaults_uc i m
    · rfl
  have hf : ∀ k a b x y, (follow k a b x y).uc = k.uc := by
    intro k a b x y
    unfold follow
    split <;> rfl
  rw [hf, hf]
  exact (n1.setKeys_uc keys i _).trans h1

theorem Node.ucApply_chan : (n.ucApply keys i).chan i = n.chan i := by
  unfold Node.chan
  rw [n.ucApply_uc]

end

/-- A channel that drains takes no key but MODE (`?E303`). -/
theorem drain_of_ucCheck {keys : Keys} {n : Node} {i : Nat} (hk : ucCheck keys n [i] = .ok ()) (ho : hasKey keys "OUT" = true) :
    (n.chan i).drain = false := by
  obtain ⟨x, hx, hkey⟩ := List.any_eq_true.mp ho
  have hany : keys.any (fun p => p.1 != "MODE") = true :=
    List.any_eq_true.mpr ⟨x, hx, by simp [eq_of_beq hkey]⟩
  by_contra hd
  rw [Bool.not_eq_false] at hd
  simp only [ucCheck, List.any_cons, List.any_nil, hd, hany, refuse, except_error_bind, except_ok_bind, Bool.and_self, Bool.or_false, if_true] at hk
  repeat' split at hk
  all_goals cases hk

theorem lift_runUc_eq {verb : Nat} {op : UnitOp} {check : Node → List Nat → Except Err Unit} {s : State} {l : Line}
    {unit : Nat → Node → Except Err (Node × List (List Item))} {i : Nat} (hi : l.items 24 = .ok [i]) (hd : s.node.deferTicks i = 0) :
    (s.lift fun k => k.runUc l verb op check unit) = s.lift fun k => k.runMulti l verb .uc 24 op check unit := by
  simp only [lift_becomes, Node.runUc, hi, hd, Nat.lt_irrefl, if_false]

theorem lift_runUc_many {verb : Nat} {op : UnitOp} {check : Node → List Nat → Except Err Unit} {s : State} {l : Line}
    {unit : Nat → Node → Except Err (Node × List (List Item))} {is : List Nat} (hi : l.items 24 = .ok is) (h2 : 2 ≤ is.length) :
    (s.lift fun k => k.runUc l verb op check unit) = s.lift fun k => k.runMulti l verb .uc 24 op check unit := by
  match is, h2 with
  | x :: y :: t, _ => simp only [lift_becomes, Node.runUc, hi]

theorem setUcUnit_ok {keys : Keys} {n : Node} {i : Nat} (hk : ucCheck keys n [i] = .ok ()) :
    setUcUnit keys i n = .ok (Node.ucChanged n (if hasKey keys "OUT" && !((n.ucApply keys i).chan i).drain
      then (n.ucApply keys i).setChan i { (n.ucApply keys i).chan i with goal := none } else n.ucApply keys i) i, []) := by
  unfold setUcUnit
  rw [hk, except_ok_bind]
  by_cases ho : hasKey keys "OUT" = true
  · have hd : ((n.ucApply keys i).chan i).drain = false := by
      rw [n.ucApply_chan, drain_of_ucCheck hk ho]
    simp [ho, hd]
  · simp [ho]

/-- Settles O19: with one item named the checks hold, so its unit runs at once and its settings take the values. -/
theorem itemSettingsWritten : Obligations.ItemSettingsWritten := by
  intro s l n i
  refine ⟨fun hm hi hd hk m hmm => ?_, fun hm hi hk => ?_, fun hm hi hk m hmm => ?_, fun hm hi hk => ?_, fun hm hi hk => ?_,
    fun hm hi hk => ?_, fun hm hi hk => ?_, fun hm hi hk he => ?_, fun hm hi hk m hmm => ?_, fun hm hi hk => ?_,
    fun hm hi hk hg => ?_, fun hm hx hi hk m hmm => ?_⟩
  · subst hmm
    exact (exec_setUc s l).trans ((lift_runUc_eq hi hd).trans (lift_runMulti_answers hm hi hk (setUcUnit_ok hk)))
  · exact (exec_setLo s l).trans (lift_runMulti_answers hm hi hk (by simp [setLoUnit, hk]))
  · subst hmm
    exact (exec_setTimeCapture s l).trans (lift_runMulti_answers hm hi hk rfl)
  · obtain ⟨x, hx⟩ := Line.idx_of_items hi
    rw [exec_setGrid, execSetGrid, hx]
    exact lift_runMulti_answers hm hi hk (by simp [setGridUnit, hk])
  · obtain ⟨x, hx⟩ := Line.idx_of_items hi
    rw [exec_setTrans, execSetTrans, hx]
    exact lift_runMulti_answers hm hi hk (by simp [setTransUnit, hk])
  · exact (exec_setAp s l).trans (lift_runMulti_answers hm hi hk (by simp [setApUnit, hk]))
  · exact (exec_setAg s l).trans (lift_runMulti_answers hm hi hk (by simp [setAgUnit, hk]))
  · have he : engineNeeded n = .ok () := if_neg he
    exact (exec_setCallLine s l).trans (lift_runMulti_answers hm hi (by simp [hk, he]) (by simp [setCallUnit, hk, he]))
  · subst hmm
    exact (exec_setArcCode s l).trans (lift_runMulti_answers hm hi hk (by simp [setCodeUnit, hk]))
  · exact (exec_setBusFilter s l).trans (lift_runMulti_answers hm hi hk rfl)
  · exact (exec_setGp s l).trans (lift_runMulti_answers hm hi (by simp [hk, hg]) (by simp [setGpUnit, hg]))
  · subst hmm
    obtain ⟨x, hx⟩ := Line.idx_of_items hi
    rw [exec_setDic, execSetDic, hx]
    refine ⟨fun hv => ?_, fun v hv => ?_⟩
    · exact lift_runMulti_answers hm hi hk (by simp [setDicUnit, hk, hv])
    · exact lift_runMulti_answers hm hi hk (by simp [setDicUnit, hk, hv])

theorem agActCheck_ok {l : Line} {n : Node} {is : List Nat} (hk : l.keys = []) (he : n.fd Fd.ALM_STAT_STATE ≠ 0) :
    agActCheck l.keys n is = .ok () := by
  have he : engineNeeded n = .ok () := if_neg he
  simp [agActCheck, noKeys_of hk, he]

/-- Settles O20: with one item named the checks hold, so the action runs at once on it. -/
theorem itemActions : Obligations.ItemActions := by
  intro s l n i
  refine ⟨fun hm hi hk => (exec_doTimeTake s l).trans (lift_runMulti_answers hm hi (noKeys_of hk) rfl),
    fun hm hi => ⟨fun hk => ?_, fun t hk he ht => ?_, fun hk he => ?_⟩, fun hm hi hk he => ?_, fun hm hi hk ho => ?_,
    fun hm hi hk => (exec_clearLo s l).trans (lift_runMulti_answers hm hi (noKeys_of hk) rfl)⟩
  · exact (exec_doApAck s l).trans (lift_runMulti_answers hm hi hk (by simp [apAckUnit, hk]))
  · have he : engineNeeded n = .ok () := if_neg he
    have hc : apShelveCheck l.keys n [i] = .ok () := by simp [apShelveCheck, hk, he]
    exact (exec_doApShelve s l).trans (lift_runMulti_answers hm hi hc (by simp [apShelveUnit, hc, ht]))
  · have hc : agActCheck l.keys n [i] = .ok () := agActCheck_ok hk he
    exact (exec_doApUnshelve s l).trans (lift_runMulti_answers hm hi hc (by simp [apUnshelveUnit, hc]))
  · have hc : agActCheck l.keys n [i] = .ok () := agActCheck_ok hk he
    exact ⟨(exec_doAgAck s l).trans (lift_runMulti_answers hm hi hc (by simp [agAckUnit, hc])),
      (exec_doAgForeset s l).trans (lift_runMulti_answers hm hi hc (by simp [agForesetUnit, hc]))⟩
  · exact (exec_doGpToggle s l).trans (lift_runMulti_answers hm hi (by simp [noKeys_of hk, ho]) (by simp [gpToggleUnit, ho]))

/-- Settles O22: the checks hold, and two items or more are the units of a micro-routine. -/
theorem manyItemsStartMicroRoutine : Obligations.ManyItemsStartMicroRoutine := by
  intro s l n is h2
  refine ⟨fun hm hi => ⟨fun hk => ?_, fun hk => ?_⟩, fun hm hi hk => ?_, fun hm hi => ⟨fun hk => ?_, fun hk => ?_⟩,
    fun hm hi => ⟨fun hk => ?_, fun hk => ?_⟩, fun hm hi hk => ?_, fun hm hi hk => ?_, fun hm hi hk => ?_⟩
  · exact (exec_setLo s l).trans (lift_runMulti_many hm hi h2 hk)
  · exact (exec_clearLo s l).trans (lift_runMulti_many hm hi h2 (noKeys_of hk))
  · exact (exec_setUc s l).trans ((lift_runUc_many hi h2).trans (lift_runMulti_many hm hi h2 hk))
  · exact (exec_setTimeCapture s l).trans (lift_runMulti_many hm hi h2 hk)
  · exact (exec_doTimeTake s l).trans (lift_runMulti_many hm hi h2 (noKeys_of hk))
  · exact (exec_setAp s l).trans (lift_runMulti_many hm hi h2 hk)
  · exact (exec_doApAck s l).trans (lift_runMulti_many hm hi h2 hk)
  · exact (exec_setAg s l).trans (lift_runMulti_many hm hi h2 hk)
  · exact (exec_setArcCode s l).trans (lift_runMulti_many hm hi h2 hk)
  · exact (exec_doDicRing s l).trans (lift_runMulti_many hm hi h2 (noKeys_of hk))

theorem Node.pinAgain_dic (n : Node) (src : Nat) : (n.pinAgain src).dic = n.dic := by
  unfold Node.pinAgain Node.pinEvent
  split
  · rw [Node.ring_dic]
    split <;> rfl
  · rfl

/-- The host has ended its service of source `i`: its active bit is clear, and its pin rings again where its level still holds. -/
def Node.doneByHost (n : Node) (i : Nat) : Node :=
  Node.pinAgain { n.clrBit (Ad.DIC_ACT (i / 32)) (i % 32) with dic := { n.dic with actHost := n.dic.actHost.filter (· != i) } } i

theorem Node.doneByHost_actHost (n : Node) (i : Nat) : (n.doneByHost i).dic.actHost = n.dic.actHost.filter (· != i) := by
  rw [Node.doneByHost, Node.pinAgain_dic]

theorem dicActUnit_done {n : Node} {i : Nat} (ht : (n.act i && n.dic.actHost.contains i) = true) :
    dicActUnit "DONE" i n = .ok (n.doneByHost i, []) :=
  if_pos ht

theorem dicActUnit_stray {n : Node} {i : Nat} (ht : (n.act i && n.dic.actHost.contains i) = false) :
    dicActUnit "DONE" i n = refuse 308 :=
  if_neg (by rw [ht]; decide)

/-- A DONE of one source that may run, as its micro-routine answers it, and counted as stray where the host had not taken it. -/
theorem exec_doDicDone_one {s : State} {l : Line} {n : Node} {i : Nat} (hm : MayRun s l .dic n) (hi : l.items 256 = .ok [i])
    (hk : l.keys = []) {m : Node} (hr : s.node.runMulti l verbDo .dic 256 (.act .dic "DONE" []) (fun _ _ => onlyKeys [] [] l.keys)
      (dicActUnit "DONE") = m) :
    exec (.doDicDone l) s = becomes s (if (n.act i && n.dic.actHost.contains i) = false then m.stray i 1 0 else m) := by
  obtain ⟨hl, rfl, hf⟩ := hm
  rw [exec_doDicDone, execDoDicDone, lift_becomes, hr, hi, noKeys_of hk]
  dsimp only
  rw [hf]
  simp only [hl.ready, hl.loaded, Bool.true_and, beq_self_eq_true, Bool.not_eq_true']
  rfl

/-- Settles O21: RING, CLEAR and DONE run as one unit; a DONE that is refused is counted as stray besides. -/
theorem interruptActions : Obligations.InterruptActions := by
  intro s l n i hm hi hk
  have hc := noKeys_of hk
  refine ⟨(exec_doDicRing s l).trans (lift_runMulti_answers hm hi hc rfl),
    (exec_doDicClear s l).trans (lift_runMulti_answers hm hi hc rfl), fun ha ht => ?_, fun ht => ?_⟩
  · have ht : (n.act i && n.dic.actHost.contains i) = true := by rw [ha, ht]; rfl
    refine ⟨n.doneByHost i, (exec_doDicDone_one hm hi hk rfl).trans ?_, n.doneByHost_actHost i⟩
    obtain ⟨hl, rfl, hf⟩ := hm
    rw [runMulti_one hl.ready hl.loaded hi hc hf (dicActUnit_done ht), ht]
    rfl
  · refine (exec_doDicDone_one hm hi hk rfl).trans ?_
    obtain ⟨hl, rfl, hf⟩ := hm
    rw [if_pos ht, Node.runMulti, runOpen_error hl.ready hl.loaded]
    rw [hi]
    dsimp only
    rw [hc, hf, dicActUnit_stray ht]
    rfl

end Sys2Proof.Machine
end

/-! ### O23: the lines that reload stored settings -/

section
namespace Sys2Proof.Machine

variable {s : State} {l : Line} {n : Node} {o : Obj}

theorem MayRun.opens {body : Node → Except Err Node} {m : Node} (hm : MayRun s l o n) (hb : body n = .ok m) :
    (s.lift fun k => k.runOpen l body) = becomes s m :=
  lift_runOpen_becomes hm.node hm.live hb

theorem MayRun.mayWrite (hm : MayRun s l o n) : n.mayWrite l.port o l.idx = .ok () := by
  obtain ⟨-, rfl, hf⟩ := hm
  exact hf

theorem MayRun.mayWrite_none (hm : MayRun s l o n) (hi : l.idx = none) : n.mayWrite l.port o none = .ok () :=
  hi ▸ hm.mayWrite

theorem dispOpen_ok {keys : Keys} (h : n.dispState ≠ 2) : n.dispOpen keys = .ok () := by
  simp [Node.dispOpen, need, h]

/-- Settles O23: the checks hold, so each REINIT opens its micro-routine. -/
theorem reinitStartsMicroRoutine : Obligations.ReinitStartsMicroRoutine := by
  refine ⟨fun s l n hk => ⟨fun hi => ?_, fun is => ?_⟩, fun s l n hi hm hk =>
    (exec_doBusReinit s l).trans (hm.opens (by simp [bare_of hi, hk, hm.mayWrite_none hi]))⟩
  · have hb := bare_of hi
    have hc := noKeys_of hk
    refine ⟨fun hm => (exec_doTimeReinit s l).trans (hm.opens (by simp [hb, hc, hm.mayWrite_none hi])), fun hm hr => ?_,
      fun hm => (exec_doLoReinit s l).trans (hm.opens (by simp [hi, hc, hm.mayWrite_none hi])),
      fun hm => (exec_doGridReinit s l).trans (hm.opens (by simp [hb, hc, hm.mayWrite_none hi])),
      fun hm => (exec_doTransReinit s l).trans (hm.opens (by simp [hb, hc, hm.mayWrite_none hi])),
      fun hm he => (exec_doCallReinit s l).trans (hm.opens (by simp [hb, agActCheck_ok hk he, hm.mayWrite_none hi])),
      fun hm => (exec_doArcReinit s l).trans (hm.opens (by simp [hb, hc, hm.mayWrite_none hi])),
      fun hm => (exec_doGpReinit s l).trans (hm.opens (by simp [hi, hc, hm.mayWrite_none hi])),
      fun hm => (exec_doTwReinit s l).trans (hm.opens (by simp [hb, hc, hm.mayWrite_none hi])),
      fun hm hd => (exec_doDispReinit s l).trans (hm.opens (by simp [hb, hc, dispOpen_ok hd, hm.mayWrite_none hi])),
      fun hm => (exec_doDicReinit s l).trans (hm.opens (by simp [hb, hc, hm.mayWrite_none hi]))⟩
    rw [exec_doUcReinit, execDoUcReinit, hi]
    exact hm.opens (by simp only [hc, except_ok_bind, hr]; simp [hm.mayWrite_none hi])
  · have hc := noKeys_of hk
    refine ⟨fun hm hx hi hr => ?_, fun hm hi => ?_,
      fun hm hi he => (exec_doApReinit s l).trans (hm.opens (by simp [hi, agActCheck_ok hk he, hm.mayWrite])),
      fun hm hi he => (exec_doAgReinit s l).trans (hm.opens (by simp [hi, agActCheck_ok hk he, hm.mayWrite])), fun hm hi => ?_⟩
    · obtain ⟨x, hx⟩ := Option.ne_none_iff_exists'.mp hx
      rw [exec_doUcReinit, execDoUcReinit, hx]
      exact hm.opens (by simp only [hi, hc, except_ok_bind, hr]; simp [hx ▸ hm.mayWrite])
    · obtain ⟨x, hx⟩ := Line.idx_of_items hi
      exact (exec_doLoReinit s l).trans (hm.opens (by simp [hi, hx, hc, hx ▸ hm.mayWrite]))
    · obtain ⟨x, hx⟩ := Line.idx_of_items hi
      exact (exec_doGpReinit s l).trans (hm.opens (by simp [hi, hx, hc, hx ▸ hm.mayWrite]))

end Sys2Proof.Machine
end

/-! ### O24 to O26: transfers, display actions, the node's life cycle and confirmed commands -/

section
namespace Sys2Proof.Machine

variable {s : State} {l : Line} {n : Node} {o : Obj}

theorem twReady_ok {clear : Bool} (h : n.twState = 1) : n.twReady clear = .ok () := by
  simp [Node.twReady, h]

/-- Settles O24: the checks hold, so each action opens its transfer or its update, or answers. -/
theorem transfersAndDisplayActions : Obligations.TransfersAndDisplayActions := by
  refine ⟨fun s l n hi hm ht => ⟨fun d a hk hd hc ha => ?_, fun a c hk ha hc => ?_, fun hk hp => ?_⟩,
    fun s l n hi hm => ⟨fun m forced data hk hd => ⟨fun hw hu => ?_, fun hw hu m' hs => ?_⟩, fun hk ho =>
      ⟨fun hr => ?_, fun m hr hh hon => ?_⟩⟩⟩
  all_goals have hb := bare_of hi
  all_goals have hf := hm.mayWrite_none hi
  · exact (exec_doTwWrite s l).trans (hm.opens (by simp [hb, hk, hd, hc, ha, twReady_ok ht, hf]))
  · exact (exec_doTwRead s l).trans (hm.opens (by simp [hb, hk, hc, ha, twReady_ok ht, hf]))
  · exact (exec_doTwClear s l).trans (hm.opens (by simp [hb, noKeys_of hk, twReady_ok ht, need, hp, hf]))
  · subst hd
    have hw : (keyNum updSpecs l.keys "WAIT" == some 1) = false := by simpa using hw
    exact (exec_doDispUpdate s l).trans (hm.opens (by simp [hb, hk, hw, hu, hf]))
  · subst hd hs
    exact (exec_doDispUpdate s l).trans (hm.opens (by simp [hb, hk, hw, hu, hf]))
  · exact (exec_doDispRails s l).trans (hm.opens (by simp [hb, hk, ho, hr, hf]))
  · exact (exec_doDispRails s l).trans (hm.opens (by simp [hb, hk, ho, hr, hf, hh, hon]))

/-- Settles O25: the checks hold, so each command begins what it asks; the last check of START and of COMMIT decides. -/
theorem nodeLifecycle : Obligations.NodeLifecycle := by
  intro s l n hi
  refine ⟨fun hm hk => ?_, fun hm e k c hk he hl hc hin hq hr => ⟨fun hcrc m hmm => ?_, fun hcrc => ?_⟩, fun hm t hk ht hs => ?_,
    fun hm hk k hlen hcm m hmm => ?_⟩
  all_goals have hb := bare_of hi
  all_goals have hf := hm.mayWrite_none hi
  · exact (exec_doNodeReset s l).trans (hm.opens (by simp [hb, noKeys_of hk, hf]))
  · subst he hl hc hmm
    exact (exec_doNodeStart s l).trans (hm.opens (by simp [hb, hk, hin, hq, hr, hf, hcrc]))
  · subst he hl hc
    exact (exec_doNodeStart s l).trans (hm.opens (by simp [hb, hk, hin, hq, hr, hf, hcrc]))
  · subst ht
    exact (exec_doNodeDormant s l).trans (hm.opens (by simp [hb, hk, hs, hf]))
  · subst hlen hmm
    split
    · next hle =>
      exact (exec_doSysCommit s l).trans (hm.opens (by simp [hb, noKeys_of hk, Nat.not_lt.mpr hle, hcm, hf]))
    · next hgt =>
      exact (exec_doSysCommit s l).trans (lift_runOpen_refuses hm.node hm.live (by simp [hb, noKeys_of hk, Nat.not_le.mp hgt]))

section
variable {what : Nat} {check : Node → Except Err Unit} {act : Node → Except Err Node}

/-- Without CONFIRM the line is answered with a code, which its port holds for 30 s. -/
theorem lift_runConfirm_asks (hl : Live s l) (hn : taken s l = n) (hi : l.idx = none) (hk : l.keys = []) (hc : check n = .ok ()) :
    (s.lift fun k => k.runConfirm l what check act) = answers s (Node.setPort { n with free := n.free + 1 } l.port
      { n.port l.port with confirm := some ⟨what, Config.confirmCode n.free % 10000, n.tick + 1500000⟩ }) l
      [[.w "CONFIRM", .c (fourDigits (Config.confirmCode n.free % 10000))]] := by
  subst hn
  have hx : onlyKeys ["CONFIRM"] [] l.keys = .ok () := by rw [hk]; rfl
  have hy : l.key "CONFIRM" = none := by rw [Line.key, hk]; rfl
  rw [lift_becomes, Node.runConfirm, runOpen_ok hl.ready hl.loaded (by simp only [bare_of hi, hx, hy, hc, except_ok_bind]; rfl)]
  rfl

/-- With the code its port holds the line acts. -/
theorem lift_runConfirm_acts {c u : Nat} {m : Node} (hl : Live s l) (hn : taken s l = n) (hi : l.idx = none) (h9 : c ≤ 9999)
    (hk : l.keys = [("CONFIRM", .int c)]) (hu : (s.node.port l.port).confirm = some ⟨what, c, u⟩) (ht : n.tick ≤ u)
    (hc : check n = .ok ()) (ha : act n = .ok m) : (s.lift fun k => k.runConfirm l what check act) = becomes s m := by
  subst hn
  have hx : onlyKeys ["CONFIRM"] [] l.keys = .ok () := by rw [hk]; rfl
  have hy : l.key "CONFIRM" = some (.int c) := by rw [Line.key, hk]; rfl
  have ht : s.node.tick ≤ u := ht
  have hr : ¬ ((c : Int) < 0 ∨ 9999 < c) := by omega
  rw [lift_becomes, Node.runConfirm, runOpen_ok hl.ready hl.loaded]
  simp [bare_of hi, hx, hy, hu, ht, hc, ha, Val.int?, hr]

theorem lift_runConfirm_refuses {c : Nat} (hl : Live s l) (hi : l.idx = none) (h9 : c ≤ 9999)
    (hk : l.keys = [("CONFIRM", .int c)]) (hu : (s.node.port l.port).confirm = none) :
    (s.lift fun k => k.runConfirm l what check act) = refuses s l ⟨305, []⟩ := by
  have hx : onlyKeys ["CONFIRM"] [] l.keys = .ok () := by rw [hk]; rfl
  have hy : l.key "CONFIRM" = some (.int c) := by rw [Line.key, hk]; rfl
  rw [lift_becomes, Node.runConfirm, runOpen_error hl.ready hl.loaded (e := ⟨305, []⟩)]
  · rfl
  · simp [bare_of hi, hx, hy, hu, Val.int?, h9, refuse]

end

/-- Settles O26: each command's own checks hold; the code given and the code held decide. -/
theorem confirmedCommands : Obligations.ConfirmedCommands := by
  intro s l n hl hn hi
  refine ⟨fun hk code m hcode hm => ⟨fun hw hst hcl hre => ?_, fun hw => ?_, fun hw => ?_⟩, fun c h9 hk => ⟨fun u hu ht hw => ?_,
    fun u hu ht hw => ?_, fun u r m hu ht hw hst hcl hre hr hm => ?_, fun hu i hmem => ?_⟩⟩
  · subst hcode
    rw [hm]
    exact (exec_doArcReseal s l).trans (lift_runConfirm_asks hl hn hi hk (by simp [hst, hcl, hre, hw]))
  · subst hcode
    rw [hm]
    exact (exec_doNodePwrcyc s l).trans (lift_runConfirm_asks hl hn hi hk hw)
  · subst hcode
    rw [hm]
    exact (exec_doSysFactory s l).trans (lift_runConfirm_asks hl hn hi hk hw)
  · exact (exec_doSysFactory s l).trans (lift_runConfirm_acts hl hn hi h9 hk hu ht hw rfl)
  · exact (exec_doNodePwrcyc s l).trans (lift_runConfirm_acts hl hn hi h9 hk hu ht hw rfl)
  · refine (exec_doArcReseal s l).trans (lift_runConfirm_acts hl hn hi h9 hk hu ht (by simp [hst, hcl, hre, hw]) ?_)
    subst hr
    dsimp only
    rw [hm]
  · simp only [List.mem_cons, List.not_mem_nil, or_false] at hmem
    obtain rfl | rfl | rfl := hmem
    · exact (exec_doArcReseal s l).trans (lift_runConfirm_refuses hl hi h9 hk hu)
    · exact (exec_doSysFactory s l).trans (lift_runConfirm_refuses hl hi h9 hk hu)
    · exact (exec_doNodePwrcyc s l).trans (lift_runConfirm_refuses hl hi h9 hk hu)

end Sys2Proof.Machine
end

/-! ### O27 to O29: leases, watch lists and streams -/

section
namespace Sys2Proof.Machine

/-- Settles O27: the two lists of leases, those that stay and those in the way, decide. -/
theorem leasesGivenAndEnded : Obligations.LeasesGivenAndEnded := by
  intro s l n o hl hn hk hx
  have hc : checkKeys holdSpecs [] l.keys = .ok () := by rw [hk]; rfl
  have ht : keyNum holdSpecs l.keys "TIME" = none := by rw [hk]; rfl
  refine ⟨fun rest hrest => ⟨fun hlen hfree => ?_, fun hlen => ?_, fun x hlen hfind => ?_⟩, fun gone hgone => ?_⟩
  · have hfind : n.cmd.leases.find? (fun x => x.port != l.port && x.obj == o && idxMeet x.idx l.idx) = none := by
      rw [List.find?_eq_none]
      intro x hmem hbad
      simp only [Bool.and_eq_true, bne_iff_ne, beq_iff_eq] at hbad
      obtain ⟨⟨hport, hobj⟩, hmeet⟩ := hbad
      rw [hfree x hmem hport hobj] at hmeet
      cases hmeet
    exact (exec_hold s l o).trans (lift_runLine_answers hn hl
      (by simp only [hx, hc, ht, except_ok_bind, hrest, if_neg (Nat.not_le.mpr hlen), hfind]; rfl))
  · exact (exec_hold s l o).trans (lift_runLine_refuses hn hl (by simp only [hx, hc, except_ok_bind, hrest, if_pos hlen]; rfl))
  · exact (exec_hold s l o).trans (lift_runLine_refuses hn hl (by simp only [hx, hc, except_ok_bind, hrest, if_neg (Nat.not_le.mpr hlen), hfind]))
  · obtain rfl : gone = _ := funext hgone
    exact ⟨fun hany => (exec_free s l o).trans (lift_runLine_answers hn hl (by simp only [hx, noKeys_of hk, hany, except_ok_bind]; rfl)),
      fun hany => (exec_free s l o).trans (lift_runLine_refuses hn hl (by simp only [hx, noKeys_of hk, hany, except_ok_bind]; rfl))⟩

section
variable {s : State} {l : Line} {n : Node} {o : Obj} {sub : String} {items : Except Err (List (Option Nat))} {is : List (Option Nat)}
  {ws rest : List Watch} (hl : Live s l) (hn : taken s l = n) (hitems : items = .ok is)
  (hws : is.map (fun i => (⟨o, sub, i⟩ : Watch)) = ws) (hrest : (n.port l.port).watches.filter (fun w => !ws.contains w) = rest)
include hl hn hitems hws hrest

theorem lift_runWatch_ends (hk : l.keys = [("OFF", .int 1)]) :
    (s.lift fun k => k.runWatch l o sub items) = answers s (n.setPort l.port { n.port l.port with watches := rest }) l [] := by
  have hx : onlyKeys ["OFF"] [] l.keys = .ok () := by rw [hk]; rfl
  have hy : l.key "OFF" = some (.int 1) := by rw [Line.key, hk]; rfl
  subst hitems
  exact lift_runLine_answers hn hl (by simp only [hx, hy, except_ok_bind, hws, hrest]; rfl)

theorem lift_runWatch_adds (hk : l.keys = []) (hlen : rest.length + ws.length ≤ 32) :
    (s.lift fun k => k.runWatch l o sub items) = answers s (n.setPort l.port { n.port l.port with watches := rest ++ ws }) l [] := by
  have hx : onlyKeys ["OFF"] [] l.keys = .ok () := by rw [hk]; rfl
  have hy : l.key "OFF" = none := by rw [Line.key, hk]; rfl
  subst hitems
  exact lift_runLine_answers hn hl (by simp only [hx, hy, except_ok_bind, hws, hrest, if_neg (Nat.not_lt.mpr hlen)]; rfl)

theorem lift_runWatch_refuses (hk : l.keys = []) (hlen : 32 < rest.length + ws.length) :
    (s.lift fun k => k.runWatch l o sub items) = refuses s l ⟨407, []⟩ := by
  have hx : onlyKeys ["OFF"] [] l.keys = .ok () := by rw [hk]; rfl
  have hy : l.key "OFF" = none := by rw [Line.key, hk]; rfl
  subst hitems
  exact lift_runLine_refuses hn hl (by simp only [hx, hy, except_ok_bind, hws, hrest, if_pos hlen]; rfl)

end

/-- A WATCH line is its object's list of items, added to or taken out of the port's list. -/
theorem exec_watch {s : State} {l : Line} {c : Instr} {o : Obj} {sub : String} {is : List (Option Nat)}
    (h : (c = .watchTime l ∧ o = .time ∧ sub = "" ∧ l.optItems 8 = .ok is) ∨
     (c = .watchBeat l ∧ o = .beat ∧ sub = "" ∧ l.idx = none ∧ is = [none]) ∨
     (c = .watchUc l ∧ o = .uc ∧ sub = "" ∧ ∃ js, l.items 24 = .ok js ∧ is = js.map some) ∨
     (c = .watchLo l ∧ o = .lo ∧ sub = "" ∧ ∃ js, l.items 8 = .ok js ∧ is = js.map some) ∨
     (c = .watchTrans l ∧ o = .trans ∧ sub = "" ∧ l.idx = none ∧ is = [none]) ∨
     (c = .watchAp l ∧ o = .ap ∧ sub = "" ∧ ∃ js, l.items 1024 = .ok js ∧ is = js.map some) ∨
     (c = .watchArc l ∧ o = .arc ∧ sub = "" ∧ l.idx = none ∧ is = [none]) ∨
     (c = .watchGp l ∧ o = .gp ∧ sub = "" ∧ ∃ js, l.items 48 = .ok js ∧ is = js.map some) ∨
     (c = .watchGpBank l ∧ o = .gp ∧ sub = "BANK" ∧ l.idx = none ∧ is = [none]) ∨
     (c = .watchDisp l ∧ o = .disp ∧ sub = "" ∧ l.idx = none ∧ is = [none]) ∨
     (c = .watchNode l ∧ o = .node ∧ sub = "" ∧ l.idx = none ∧ is = [none])) :
    ∃ items, items = .ok is ∧ exec c s = s.lift fun k => k.runWatch l o sub items := by
  have hnone (hi : l.idx = none) : l.bare.map (fun _ => [(none : Option Nat)]) = .ok [none] := by rw [bare_of hi]; rfl
  have hsome {cap : Nat} {js : List Nat} (hj : l.items cap = .ok js) : (l.items cap).map (·.map some) = .ok (js.map some) := by
    rw [hj]; rfl
  obtain ⟨rfl, rfl, rfl, hi⟩ | ⟨rfl, rfl, rfl, hi, rfl⟩ | ⟨rfl, rfl, rfl, js, hj, rfl⟩ | ⟨rfl, rfl, rfl, js, hj, rfl⟩ |
    ⟨rfl, rfl, rfl, hi, rfl⟩ | ⟨rfl, rfl, rfl, js, hj, rfl⟩ | ⟨rfl, rfl, rfl, hi, rfl⟩ | ⟨rfl, rfl, rfl, js, hj, rfl⟩ |
    ⟨rfl, rfl, rfl, hi, rfl⟩ | ⟨rfl, rfl, rfl, hi, rfl⟩ | ⟨rfl, rfl, rfl, hi, rfl⟩ := h
  · exact ⟨_, hi, exec_watchTime s l⟩
  · exact ⟨_, hnone hi, exec_watchBeat s l⟩
  · exact ⟨_, hsome hj, exec_watchUc s l⟩
  · exact ⟨_, hsome hj, exec_watchLo s l⟩
  · exact ⟨_, rfl, by rw [exec_watchTrans, execWatchTrans, bare_of hi]⟩
  · exact ⟨_, hsome hj, exec_watchAp s l⟩
  · exact ⟨_, hnone hi, exec_watchArc s l⟩
  · exact ⟨_, hsome hj, exec_watchGp s l⟩
  · exact ⟨_, hnone hi, exec_watchGpBank s l⟩
  · exact ⟨_, hnone hi, exec_watchDisp s l⟩
  · exact ⟨_, rfl, by rw [exec_watchNode, execWatchNode, bare_of hi]⟩

/-- Settles O28: each WATCH line is `runWatch` over its items; that of a bus port without its PORT key. -/
theorem watchListKept : Obligations.WatchListKept := by
  refine ⟨fun s l n c o sub is hl hn hc ws rest hws hrest => ?_, fun s l n v hl hn hi hk hp p rest hpp hrest hlen => ?_⟩
  · obtain ⟨items, hitems, he⟩ := exec_watch (s := s) hc
    rw [he]
    exact ⟨lift_runWatch_ends hl hn hitems hws hrest, lift_runWatch_adds hl hn hitems hws hrest,
      lift_runWatch_refuses hl hn hitems hws hrest⟩
  · have hw : Keys.without l.keys ["PORT"] = [] := by rw [hk]; rfl
    rw [exec_watchBus, execWatchBus, hw]
    refine (lift_runWatch_adds (s := s) (l := { l with keys := [] }) (n := n) (is := [some p]) (ws := [⟨.bus, "", some p⟩]) (rest := rest)
      ⟨hl.ready, hl.loaded⟩ hn ?_ rfl ?_ rfl hlen).trans rfl
    · have hc : checkKeys [portKey, kk "OFF" (.int 1 1) (fun _ => 0)] ["PORT"] l.keys = .ok () := by
        rw [hk] at hp ⊢
        exact hp
      rw [bare_of hi, hc, hpp]
      rfl
    · rw [← hrest]
      exact List.filter_congr fun w _ => by rw [List.contains_cons]; simp [bne]

/-- A STREAM line with a rate its items can be published at is `runStream` over its items, and the rate passes its check. -/
theorem exec_stream {s : State} {l : Line} {c : Instr} {o : Obj} {is : List (Option Nat)} {r : Nat}
    (h : (c = .streamUc l ∧ o = .uc ∧ ∃ js, l.items 24 = .ok js ∧ is = js.map some ∧ ∀ i ∈ js, r ≤ s.node.pubRate i) ∨
     (c = .streamLo l ∧ o = .lo ∧ r ≤ 5000 ∧ ∃ js, l.items 8 = .ok js ∧ is = js.map some) ∨
     (c = .streamGrid l ∧ o = .grid ∧ l.optItems 8 = .ok is ∧
       (r ≠ 0 → (fsRow 0 ++ fsRow 1).contains r = true ∧ r ≤ s.node.gridFs ∧ s.node.gridFs % r = 0))) :
    ∃ items, ∃ ok : Node → Nat → Except Err Unit, (exec c s = s.lift fun k => k.runStream l o items (ok k)) ∧ items = .ok is ∧
      (r ≠ 0 → ok s.node r = .ok ()) := by
  obtain ⟨rfl, rfl, js, hj, rfl, hr⟩ | ⟨rfl, rfl, hr, js, hj, rfl⟩ | ⟨rfl, rfl, hi, hr⟩ := h
  · refine ⟨_, _, exec_streamUc s l, by rw [hj]; rfl, fun _ => ?_⟩
    have hall : js.all (fun i => r ≤ s.node.pubRate i) = true := by simpa using hr
    rw [hj]
    exact if_pos hall
  · exact ⟨_, _, exec_streamLo s l, by rw [hj]; rfl, fun _ => if_pos hr⟩
  · refine ⟨_, _, exec_streamGrid s l, hi, fun h0 => ?_⟩
    obtain ⟨hrow, hfs, hdiv⟩ := hr h0
    exact if_pos (by simp only [hrow, hfs, hdiv, decide_true, Bool.and_self])

section
variable {s : State} {l : Line} {n : Node} {o : Obj} {items : Except Err (List (Option Nat))} {is : List (Option Nat)}
  {ok : Nat → Except Err Unit} {rest : List Stream} {r : Nat} (hl : Live s l) (hn : taken s l = n) (hk : l.keys = [("RATE", .int r)])
  (hitems : items = .ok is)
  (hrest : n.cmd.streams.filter (fun t => !(t.port == l.port && t.obj == o && is.contains t.idx)) = rest)
include hl hn hk hitems hrest

theorem runStream_ends (h0 : r = 0) :
    becomes s (s.node.runStream l o items ok) = answers s { n with cmd := { n.cmd with streams := rest } } l [] := by
  have hx : onlyKeys ["RATE"] ["RATE"] l.keys = .ok () := by rw [hk]; rfl
  have hy : l.key "RATE" = some (.int r) := by rw [Line.key, hk]; rfl
  subst hitems h0
  exact lift_runLine_answers hn hl (by simp only [hx, hy, except_ok_bind, hrest]; rfl)

variable (h0 : r ≠ 0) (hok : ok r = .ok ())
include h0 hok

theorem runStream_adds (hlen : rest.length + is.length ≤ 8) :
    becomes s (s.node.runStream l o items ok) = answers s
      { n with cmd := { n.cmd with streams := rest ++ is.map (fun i => ⟨l.port, o, i, r, 0⟩) } } l [] := by
  have hx : onlyKeys ["RATE"] ["RATE"] l.keys = .ok () := by rw [hk]; rfl
  have hy : l.key "RATE" = some (.int r) := by rw [Line.key, hk]; rfl
  subst hitems
  refine lift_runLine_answers hn hl ?_
  simp only [hx, hy, except_ok_bind, Int.toNat_natCast, hok, bne_iff_ne.mpr h0, if_neg h0, hrest, if_neg (Nat.not_lt.mpr hlen),
    if_neg (Int.not_lt.mpr (Int.natCast_nonneg r)), if_true]
  rfl

theorem runStream_refuses (hlen : 8 < rest.length + is.length) :
    becomes s (s.node.runStream l o items ok) = refuses s l ⟨406, []⟩ := by
  have hx : onlyKeys ["RATE"] ["RATE"] l.keys = .ok () := by rw [hk]; rfl
  have hy : l.key "RATE" = some (.int r) := by rw [Line.key, hk]; rfl
  subst hitems
  refine lift_runLine_refuses hn hl ?_
  simp only [hx, hy, except_ok_bind, Int.toNat_natCast, hok, bne_iff_ne.mpr h0, if_neg h0, hrest, if_pos hlen,
    if_neg (Int.not_lt.mpr (Int.natCast_nonneg r)), if_true]
  rfl

end

/-- Settles O29: the three objects that stream go one way, with the check of the rate that is theirs. -/
theorem streamsKept : Obligations.StreamsKept := by
  intro s l n c o is r hl hn hk hc rest hrest
  obtain ⟨items, ok, he, hitems, hok⟩ := exec_stream hc
  rw [he, lift_becomes]
  exact ⟨runStream_ends hl hn hk hitems hrest, fun h0 => runStream_adds hl hn hk hitems hrest h0 (hok h0),
    fun h0 => runStream_refuses hl hn hk hitems hrest h0 (hok h0)⟩

end Sys2Proof.Machine
end

/-! ### O30 to O33: registers, memory, records and frames by line -/

section
namespace Sys2Proof.Machine

/-- Settles O30: the register is one of the map, and the lock's check of a write holds. -/
theorem registerLines : Obligations.RegisterLines := by
  refine ⟨fun s l n m hr hn hk reg r a hreg hm => ⟨?_, fun fld f hf => ?_⟩,
    fun s l n reg r a hl hn hk hreg hw => ⟨fun v hv => ?_, fun fld f v w hf hv hfw => ?_⟩⟩
  · subst hm
    exact (exec_regRead s l reg).trans (lift_runLine_early_answers hn hr (by simp [noKeys_of hk, hreg]))
  · subst hm
    exact (exec_regFieldRead s l reg fld).trans (lift_runLine_early_answers hn hr (by simp [noKeys_of hk, hreg, hf]))
  · exact (exec_regWrite s l reg).trans (lift_runLine_answers hn hl (by simp [hk, hreg, hv, hw, Node.lineWrite]))
  · subst hfw
    exact (exec_regFieldWrite s l reg fld).trans (lift_runLine_answers hn hl (by simp [hk, hreg, hf, hv, hw, Node.lineWrite]))

/-- Settles O31: the address decides, first by its alignment and then by the region it lies in. -/
theorem peekAndPoke : Obligations.PeekAndPoke := by
  intro s l n a hn
  refine ⟨fun hr hk ha hreg => ?_, fun hl hk v hv => ⟨fun ha hreg => ?_, fun ha hreg => ?_, fun ha hreg hw => ?_, fun ha hreg => ?_,
    fun ha hreg => ?_, fun ha => ?_⟩⟩
  · have hc : checkKeys peekSpecs [] l.keys = .ok () := by rw [hk]; rfl
    have hx : keyNum peekSpecs l.keys "COUNT" = none := by rw [hk]; rfl
    exact (exec_peek s l a).trans (lift_runLine_early_answers hn hr (by simp [hc, hx, ha, hreg]))
  · obtain hreg | hreg := hreg
    · exact (exec_poke s l a).trans (lift_runLine_answers hn hl (by simp [hk, hv, ha, hreg, Node.memWrite]))
    · exact (exec_poke s l a).trans (lift_runLine_answers hn hl (by simp [hk, hv, ha, hreg, Node.memWrite]))
  · exact (exec_poke s l a).trans (lift_runLine_answers hn hl (by simp [hk, hv, ha, hreg]))
  · exact (exec_poke s l a).trans (lift_runLine_answers hn hl (by simp [hk, hv, ha, hreg, hw, Node.lineWrite]))
  · exact (exec_poke s l a).trans (lift_runLine_refuses hn hl (by simp [hk, hv, ha, hreg, refuse]))
  · exact (exec_poke s l a).trans (lift_runLine_refuses hn hl (by simp [hk, hv, ha, hreg, refuse]))
  · exact (exec_poke s l a).trans (lift_runLine_refuses hn hl (by simp [hk, hv, ha, refuse]))

/-- Settles O33: the checks hold in HELD, and the blocks are read as the ring holds them. -/
theorem dumpReplies : Obligations.DumpReplies := by
  intro s l n i k c hm hi hk hf hc hlen hst
  refine (exec_doTransDump s l).trans (lift_runLine_answers hm.node hm.live ?_)
  simp [hi, hk, hf, hc, Nat.not_lt.mpr hlen, hst, hm.mayWrite]

/-- Settles O32: the checks hold; of the archive's state and the mailboxes' the hypotheses give what the last ones ask. -/
theorem recordsAndFramesByLine : Obligations.RecordsAndFramesByLine := by
  refine ⟨fun s l n hl hn hi hst => ⟨fun c m r hlo hhi hk hc hv hd hw hr => ?_,
      fun hk hw hre hcl => ⟨fun hse => ?_, fun hse m hm m' hm' => ?_⟩⟩,
    fun s l n p hi hm hp hst => ⟨fun ws num k m hk hd hc hnum hg hmb hm' => ?_, fun dst cs m hk hdst hg ho hline hm' => ?_⟩⟩
  · refine (exec_doArcLog s l).trans (lift_runLine_answers hn hl ?_)
    simp only [bare_of hi, hk, hv, hd, hc, hst, hw, hr, except_ok_bind, Bool.not_false, need_true, Option.bind_some, Val.int?,
      Option.getD_some, Int.toNat_natCast, bne_self_eq_false, Bool.false_eq_true, if_false]
    cases r <;> rfl
  · exact (exec_clearArcGallery s l).trans (lift_runOpen_becomes hn hl (by simp [bare_of hi, noKeys_of hk, hst, hre, hcl, hw, hse]))
  · subst hm'
    exact (exec_clearArcGallery s l).trans (lift_runOpen_becomes hn hl (by simp [bare_of hi, noKeys_of hk, hst, hre, hcl, hw, hse, hm]))
  · obtain rfl : num = fun x d => (keyNum sendSpecs l.keys x).getD d := funext₂ hnum
    subst hp
    have hb := bare_of hi
    have hf := hm.mayWrite_none hi
    have hst : (n.busState (keyPort l.keys) == 1) = true := by rw [hst]; rfl
    have opened {a : Node} := fun h => (exec_doBusSend s l).trans (hm.opens (m := a) h)
    cases hD : keyVal l.keys "DATA" with
    | none =>
      obtain rfl : ws = [] := by simpa only [hD] using hd
      cases hM : keyNum sendSpecs l.keys "MB" with
      | none =>
        simp only [hM] at hmb
        refine ⟨fun hw => opened ?_, fun hw m' hs => opened ?_⟩
        · simp only [hb, hk, hD, hc, hg, hst, hM, hmb, hf, hm', hw, except_ok_bind, except_pure, Bool.not_false, need_true, if_false]
        · simp only [hb, hk, hD, hc, hg, hst, hM, hmb, hf, hm', hw, hs, except_ok_bind, except_pure, Bool.not_false, need_true, if_true]
      | some j =>
        simp only [hM] at hmb
        obtain ⟨rfl, hfree⟩ := hmb
        have hfree : (n.mbStatus (keyPort l.keys) k == 1) = false := beq_false_of_ne hfree
        refine ⟨fun hw => opened ?_, fun hw m' hs => opened ?_⟩
        · simp only [hb, hk, hD, hc, hg, hst, hM, hfree, hf, hm', hw,
            except_ok_bind, except_pure, Bool.not_false, need_true, Bool.false_eq_true, if_false]
        · simp only [hb, hk, hD, hc, hg, hst, hM, hfree, hf, hm', hw, hs,
            except_ok_bind, except_pure, Bool.not_false, need_true, Bool.false_eq_true, if_false, if_true]
    | some v =>
      obtain ⟨hv, hlen⟩ : dataWords v = some ws ∧ ws.length ≤ 16 := by simpa only [hD] using hd
      have hlen := Nat.not_lt.mpr hlen
      cases hM : keyNum sendSpecs l.keys "MB" with
      | none =>
        simp only [hM] at hmb
        refine ⟨fun hw => opened ?_, fun hw m' hs => opened ?_⟩
        · simp only [hb, hk, hD, hv, if_neg hlen, hc, hg, hst, hM, hmb, hf, hm', hw,
            except_ok_bind, except_pure, Bool.not_false, need_true, if_false]
        · simp only [hb, hk, hD, hv, if_neg hlen, hc, hg, hst, hM, hmb, hf, hm', hw, hs,
            except_ok_bind, except_pure, Bool.not_false, need_true, if_true]
      | some j =>
        simp only [hM] at hmb
        obtain ⟨rfl, hfree⟩ := hmb
        have hfree : (n.mbStatus (keyPort l.keys) k == 1) = false := beq_false_of_ne hfree
        refine ⟨fun hw => opened ?_, fun hw m' hs => opened ?_⟩
        · simp only [hb, hk, hD, hv, if_neg hlen, hc, hg, hst, hM, hfree, hf, hm', hw,
            except_ok_bind, except_pure, Bool.not_false, need_true, Bool.false_eq_true, if_false]
        · simp only [hb, hk, hD, hv, if_neg hlen, hc, hg, hst, hM, hfree, hf, hm', hw, hs,
            except_ok_bind, except_pure, Bool.not_false, need_true, Bool.false_eq_true, if_false, if_true]
  · subst hp
    exact (exec_doBusTunnel s l).trans (hm.opens (by simp [bare_of hi, hk, hdst, need, hg, hst, ho, hline, hm']))

end Sys2Proof.Machine
end

/-! ### O34 and O35: the beat, its stages and node time -/

section
namespace Sys2Proof.Machine

/-- An event whose condition holds has its effect. -/
theorem lift_of_pos {s : State} {c : Node → Prop} [DecidablePred c] {f g : Node → Node} (h : c s.node) :
    (s.lift fun n => if c n then f n else g n) = becomes s (f s.node) := by
  rw [lift_becomes, if_pos h]

theorem lift_of_neg {s : State} {c : Node → Prop} [DecidablePred c] {f g : Node → Node} (h : ¬ c s.node) :
    (s.lift fun n => if c n then f n else g n) = becomes s (g s.node) := by
  rw [lift_becomes, if_neg h]

/-- Settles O34: the node is awake, so each stage does its work. -/
theorem beatRuns : Obligations.BeatRuns := by
  intro s n hn ha
  subst hn
  refine ⟨fun c m hm b hb => ?_, fun inp m hm hw k hk => ?_, fun hw => ⟨fun codes => ?_, fun late => ?_, fun late => ?_, fun late => ?_,
    fun late lo m hp hm => ?_⟩, fun late bad m k hm hk => ?_, fun cut bad m k hp hm hk => ?_, fun slot m k hslot hw hk => ?_⟩
  · subst hm hb
    exact (exec_beatStart s c).trans (lift_of_neg (by simp [ha]))
  · subst hm hk
    refine (exec_stageS0 s inp).trans ((lift_of_neg (by simp [ha])).trans (congrArg (becomes s) ?_))
    exact if_neg (by simp [hw])
  · exact (exec_stageS1 s codes).trans (lift_of_pos (by simp [ha, hw]))
  · exact (exec_stageS2 s late).trans (lift_of_neg (by simp [ha, hw]))
  · exact (exec_stageS3 s late).trans (lift_of_neg (by simp [ha, hw]))
  · exact (exec_stageS4 s late).trans (lift_of_neg (by simp [ha, hw]))
  · subst hm
    refine (exec_stageS5 s late lo).trans ((lift_of_neg hp).trans (congrArg (becomes s) ?_))
    exact if_neg (by simp [ha, hw])
  · subst hm hk
    refine (exec_stageS6 s late bad).trans ((lift_of_neg (by simp [ha])).trans (congrArg (becomes s) ?_))
    simp only [Bool.and_eq_true, bne_iff_ne]
  · subst hm hk
    refine (exec_stageS7 s cut bad).trans ((lift_of_neg (by simp [ha, hp])).trans (congrArg (becomes s) ?_))
    simp only [Bool.and_eq_true, decide_eq_true_eq]
  · subst hk
    exact (exec_helperLatePublication s slot m).trans (lift_of_pos (by simpa [ha] using ⟨by simpa using hslot, hw⟩))

/-- Settles O35: each event's hypotheses are its conditions. -/
theorem timeEvents : Obligations.TimeEvents := by
  intro s n m hn ha
  subst hn
  refine ⟨fun hp => ⟨fun hd => ?_, fun hpulse hat => ?_, fun k hk => ?_, fun k hk => ?_⟩, fun hw => ⟨fun rise w hpad hrise hlo hhi => ?_, ?_,
    fun label dist ok hpad => ?_⟩, fun hok hat k hk => ?_, fun hst hat hsel => ?_, fun hosc k st hk hst hne => ?_,
    fun sel rise hpad => (exec_edgeCapture s sel rise m).trans (lift_of_pos (by simp [ha, hpad])),
    fun rq v => (exec_capturePop s rq v).trans (lift_of_pos ha), fun rq v => (exec_overrunClear s rq v).trans (lift_of_pos ha),
    fun rq => (exec_timeQnsRead s rq m).trans (lift_of_pos ha)⟩
  · refine (exec_nodeTimeSecond s).trans ((lift_of_neg (by simp [ha, hd])).trans (congrArg (becomes s) ?_))
    exact if_neg hp
  · exact (exec_secondPulseEnd s m).trans (lift_of_pos (by simp [ha, hp, hpulse, hat]))
  · refine (exec_timeStep s).trans ((lift_of_neg (by simp [ha, hp])).trans (congrArg (becomes s) ?_))
    simp only [hk, if_true]
  · refine (exec_timeStep s).trans ((lift_of_neg (by simp [ha, hp])).trans (congrArg (becomes s) ?_))
    simp only [hk, Bool.false_eq_true, if_false]
  · have hrise : rise = decide (Fd.TIME_CTRL_PPSEDGE.get s.node.tm.ctrlF = 0) := by
      rw [Bool.eq_iff_iff, decide_eq_true_iff]
      exact hrise
    exact (exec_ppsEdge s rise w m).trans (lift_of_pos (by simp [hw, hpad, hrise, hlo, hhi]))
  · exact (exec_ppsEdgeMissing s m).trans (lift_of_pos hw)
  · exact (exec_irigFrame s label dist ok m).trans (lift_of_pos (by simp [hw, hpad]))
  · subst hk
    exact (exec_finutInvalid s m).trans (lift_of_pos (by simp [ha, hok, hat]))
  · exact (exec_coarseTimeout s m).trans (lift_of_pos (by simp [ha, hst, hat, hsel]))
  · subst hk hst
    refine (exec_referenceLoss s m).trans ((lift_of_neg (by simp [ha, hosc])).trans (congrArg (becomes s) ?_))
    dsimp only
    rw [if_neg (fun h => hne h.1)]

end Sys2Proof.Machine
end

/-! ### O36: channels and outputs -/

section
namespace Sys2Proof.Machine

/-- Settles O36: each event's hypotheses are its conditions. -/
theorem analogEvents : Obligations.AnalogEvents := by
  intro s n i hn ha
  subst hn
  refine ⟨(exec_crossbarSwitch s).trans (lift_of_pos ha), fun g hg => ?_, fun g k j hg hk hj => ?_, fun hi c hc => ?_, fun hi c hc => ?_⟩
  · rw [exec_quadMigrated, execQuadMigrated, lift_becomes, hg]
    exact congrArg (becomes s) (if_pos ha)
  · subst hk hj
    rw [exec_quadRestored, execQuadRestored, lift_becomes, hg]
    exact congrArg (becomes s) (if_pos ha)
  · subst hc
    refine ⟨fun hw hm hf ht => ?_, fun hw hm hd ht => ?_, fun hd hg => ?_, fun rq => ?_⟩
    · exact (exec_channelStale s i).trans (lift_of_pos (by simp [hw, hi, hm, hf, ht]))
    · exact (exec_diDebounce s i).trans (lift_of_pos (by simp [hw, hi, hm, hd, ht]))
    · exact (exec_ucDrainComplete s i).trans (lift_of_pos (by simp [ha, hi, hd, hg]))
    · exact (exec_ucValRead s rq i).trans (lift_of_pos (by simp [ha, hi]))
  · subst hc
    refine ⟨(exec_thermalFoldback s i).trans (lift_of_pos hi), fun hf => ?_, fun hd hl => ?_, fun hst hl hdis m hm hdm => ?_, fun rq => ?_⟩
    · exact (exec_thermalRelease s i).trans (lift_of_pos (by simp [hi, hf]))
    · exact (exec_loActionEnd s i).trans (lift_of_pos (by simp [ha, hi, hd, hl]))
    · subst hm
      refine (exec_loDrainComplete s i).trans ((lift_of_pos (by simp [ha, hi, hst, hl])).trans (congrArg (becomes s) ?_))
      simp only [hdm, Bool.false_eq_true, if_false]
    · exact (exec_loRbRead s rq i).trans (lift_of_pos (by simp [ha, hi]))

end Sys2Proof.Machine
end

/-! ### O37 to O39: the recorder, alarms and the archive -/

section
namespace Sys2Proof.Machine

/-- An AUTOARM above its range is refused, whatever else the word holds (R177). -/
theorem Node.transCtrl_refused {n : Node} {v : Word} (h : 3600 < v.toNat / 65536) : n.transCtrl v = n.transCfgErr :=
  if_pos h

/-- The AUTOARM of a control word in its range. -/
def Node.takeAutoarm (n : Node) (v : Word) : Node :=
  if v.toNat / 65536 = n.fd Fd.TRANS_CTRL_AUTOARM then n else (n.setFd Fd.TRANS_CTRL_AUTOARM (v.toNat / 65536)).dirty

theorem Node.transCtrl_arm {n : Node} {v : Word} (h : v.toNat / 65536 ≤ 3600) (h0 : v.getLsbD 0 = true) (h1 : v.getLsbD 1 = false) :
    n.transCtrl v = ((n.takeAutoarm v).doArm ((n.takeAutoarm v).stageAt 7)).getD (n.takeAutoarm v).transCfgErr := by
  simp only [Node.transCtrl, if_neg (Nat.not_lt.mpr h), h0, h1, if_true, Bool.false_eq_true, if_false]
  rfl

theorem Node.transCtrl_disarm {n : Node} {v : Word} (h : v.toNat / 65536 ≤ 3600) (h0 : v.getLsbD 0 = false) (h1 : v.getLsbD 1 = true) :
    n.transCtrl v = (n.takeAutoarm v).doDisarm.getD (n.takeAutoarm v).transCfgErr := by
  simp only [Node.transCtrl, if_neg (Nat.not_lt.mpr h), h0, h1, if_true, Bool.false_eq_true, if_false]
  rfl

section
variable {s : State} {v : Word}

theorem exec_transCtrlArm_working (hw : s.node.working = true) (h0 : v.getLsbD 0 = true) :
    exec (.transCtrlArm v) s = becomes s (s.node.transCtrl v) :=
  (exec_transCtrlArm s v).trans (lift_of_pos (by simp [hw, h0]))

theorem exec_transCtrlDisarm_working (hw : s.node.working = true) (h1 : v.getLsbD 1 = true) :
    exec (.transCtrlDisarm v) s = becomes s (s.node.transCtrl v) :=
  (exec_transCtrlDisarm s v).trans (lift_of_pos (by simp [hw, h1]))

theorem transCtrl_arms (hw : s.node.working = true) (hr : v.toNat / 65536 ≤ 3600) (h0 : v.getLsbD 0 = true) (h1 : v.getLsbD 1 = false) :
    ((s.node.takeAutoarm v).tState ≠ tsArmed → (s.node.takeAutoarm v).tState ≠ tsTriggered →
      exec (.transCtrlArm v) s = becomes s ((s.node.takeAutoarm v).tArm ((s.node.takeAutoarm v).stageAt 7))) ∧
    ((s.node.takeAutoarm v).tState = tsArmed ∨ (s.node.takeAutoarm v).tState = tsTriggered →
      exec (.transCtrlArm v) s = becomes s (s.node.takeAutoarm v).transCfgErr) := by
  rw [exec_transCtrlArm_working hw h0, Node.transCtrl_arm hr h0 h1, Node.doArm]
  refine ⟨fun ha ht => ?_, fun hat => ?_⟩
  · rw [if_neg (by tauto), Option.getD_some]
  · rw [if_pos hat, Option.getD_none]

theorem transCtrl_disarms (hw : s.node.working = true) (hr : v.toNat / 65536 ≤ 3600) (h1 : v.getLsbD 1 = true) (h0 : v.getLsbD 0 = false) :
    ((s.node.takeAutoarm v).tState = tsArmed →
      exec (.transCtrlDisarm v) s = becomes s (((s.node.takeAutoarm v).tCut ((s.node.takeAutoarm v).stageAt 7)).tEnter tsDisarmed)) ∧
    ((s.node.takeAutoarm v).tState = tsTriggered → exec (.transCtrlDisarm v) s = becomes s
      { s.node.takeAutoarm v with trans := { (s.node.takeAutoarm v).trans with disarm := true } }) ∧
    ((s.node.takeAutoarm v).tState ≠ tsArmed → (s.node.takeAutoarm v).tState ≠ tsTriggered →
      exec (.transCtrlDisarm v) s = becomes s (s.node.takeAutoarm v).transCfgErr) := by
  rw [exec_transCtrlDisarm_working hw h1, Node.transCtrl_disarm hr h0 h1, Node.doDisarm]
  refine ⟨fun ha => ?_, fun ht => ?_, fun ha ht => ?_⟩
  · rw [if_pos ha, Option.getD_some]
  · rw [if_neg (by rw [ht]; decide), if_pos ht, Option.getD_some]
  · rw [if_neg ha, if_neg ht, Option.getD_none]

end

section
variable {s : State} {i : Nat} {m : Moment} {pos : Bool} {k : Node} {st : Nat}

theorem exec_comparatorFiring_armed (hw : s.node.working = true) (hi : i < 8) (hon : s.node.trans.onF.testBit i = true)
    (hst : s.node.tState = tsArmed) (htrig : s.node.trans.trigF.testBit i = true)
    (hk : (s.node.bump Fd.TRANS_STAT_EVENTS 1).tArrive i (s.node.now m) pos = (k, st)) :
    exec (.comparatorFiring i m pos) s = becomes s
      ((((k.tTrigger i (s.node.now m) st).setOn Fd.TRANS_EVT_TRIGGERED true).ring 64).tEnter tsTriggered) := by
  rw [exec_comparatorFiring, execComparatorFiring, lift_becomes]
  dsimp only
  rw [if_neg (by simp [hw, hi, hon]), if_pos hst, if_neg (by simp [htrig]), hk]

theorem tsTriggered_ne_tsArmed : tsTriggered ≠ tsArmed := by decide

theorem exec_comparatorFiring_triggered (hw : s.node.working = true) (hi : i < 8) (hon : s.node.trans.onF.testBit i = true)
    (hst : s.node.tState = tsTriggered) (hbit : s.node.bit Ad.TRANS_STAT (8 + i) = false)
    (hk : s.node.tArrive i (s.node.now m) pos = (k, st)) :
    exec (.comparatorFiring i m pos) s = becomes s
      (if k.trans.trigF.testBit i = true ∧ i < k.fd Fd.TRANS_STAT_TRIGIN ∧ s.node.now m / 2 = k.trans.trigRaw / 2
        then k.tTrigger i (s.node.now m) st else k) := by
  rw [exec_comparatorFiring, execComparatorFiring, lift_becomes]
  dsimp only
  rw [if_neg (by simp [hw, hi, hon]), if_neg (hst ▸ tsTriggered_ne_tsArmed), if_pos hst, if_neg (by simp [hbit]), hk]
  simp only [Bool.and_eq_true, decide_eq_true_eq, and_assoc]

theorem exec_comparatorFiring_arrived (hst : s.node.tState = tsTriggered) (hbit : s.node.bit Ad.TRANS_STAT (8 + i) = true) :
    exec (.comparatorFiring i m pos) s = becomes s s.node := by
  rw [exec_comparatorFiring, execComparatorFiring, lift_becomes]
  dsimp only
  have hne : ¬ s.node.tState = tsArmed := hst ▸ tsTriggered_ne_tsArmed
  simp only [if_neg hne, if_pos hst, if_pos hbit, ite_self]

theorem exec_comparatorFiring_held (hw : s.node.working = true) (hi : i < 8) (hon : s.node.trans.onF.testBit i = true)
    (hst : s.node.tState = tsHeld) :
    exec (.comparatorFiring i m pos) s = becomes s
      (((s.node.bump Fd.TRANS_MISSED_MISSED 1).setOn Fd.TRANS_EVT_MISSED true).ring 67) := by
  rw [exec_comparatorFiring, execComparatorFiring, lift_becomes]
  dsimp only
  rw [if_neg (by simp [hw, hi, hon]), if_neg (by rw [hst]; decide), if_neg (by rw [hst]; decide), if_pos hst]

end

/-- Settles O37: each event's hypotheses are its conditions; the state the recorder is in decides. -/
theorem recorderEvents : Obligations.RecorderEvents := by
  intro s n i m hn ha
  subst hn
  refine ⟨fun hw => ⟨fun pos k st hi hon hst htrig hk => exec_comparatorFiring_armed hw hi hon hst htrig hk,
    fun pos k st hi hon hst hbit hk => exec_comparatorFiring_triggered hw hi hon hst hbit hk,
    fun pos hi hst hbit => exec_comparatorFiring_arrived hst hbit,
    fun pos hi hon hst => exec_comparatorFiring_held hw hi hon hst, fun hf k hst hend hk => ?_, fun a hst hka h0 hat => ?_,
    fun v a hv => ?_⟩, fun rq k hk => ?_⟩
  · subst hk
    exact (exec_postTriggerFillComplete s m hf).trans (lift_of_pos (by simp [hw, hst, hend]))
  · subst hka
    exact (exec_autoarmExpiry s m).trans (lift_of_pos (by simp [hw, hst, h0, hat]))
  · subst hv
    refine ⟨fun hr h0 => ?_, fun hr h1 => ?_, fun hr k hk => ?_⟩
    · rw [exec_transCtrlArm_working hw h0, Node.transCtrl_refused hr]
    · rw [exec_transCtrlDisarm_working hw h1, Node.transCtrl_refused hr]
    · obtain rfl : s.node.takeAutoarm v = k := hk
      exact ⟨transCtrl_arms hw hr, transCtrl_disarms hw hr,
        fun h0 h1 => ⟨exec_transCtrlArm_working hw h0, exec_transCtrlDisarm_working hw h1⟩⟩
  · subst hk
    exact (exec_gridRepsecRead s rq).trans (lift_of_pos ha)

end Sys2Proof.Machine
end

/-! ### O38 and O39: alarms and the archive -/

section
namespace Sys2Proof.Machine

/-- Settles O38: each event's hypotheses are its conditions. -/
theorem alarmEvents : Obligations.AlarmEvents := by
  intro s n i g hn hw
  subst hn
  refine ⟨fun hd => (exec_onDelayExpiry s i).trans (lift_of_pos hd), fun hd => (exec_offDelayExpiry s i).trans (lift_of_pos hd),
    fun ho hg => (exec_blockRelease s g).trans (lift_of_pos (by simp [hw, ho, hg])), fun t ho hi hs ht => ?_,
    fun hg hp => (exec_ackPin s g).trans (lift_of_pos (by simp [hw, hg, hp])),
    fun f he hme hid => (exec_ackFrame s f).trans (lift_of_pos (by simp [hw, he, hme, hid])),
    fun ho hg hst hc hh ha => (exec_callEscalation s g).trans (lift_of_pos (by simp [hw, ho, hg, hst, hc, hh, ha])),
    fun m hm => (exec_callPulseEnd s m).trans (lift_of_pos (by simp [hw, hm])), fun st ho hg hst h0 hh ht => ?_,
    fun ho hi he ha hp => (exec_peerValueAge s i).trans (lift_of_pos (by simp [hw, ho, hi, he, ha, hp])),
    fun v => (exec_almAckWrite s v).trans (lift_of_pos hw)⟩
  · rw [exec_shelvingExpiry, execShelvingExpiry, lift_becomes, hs]
    exact congrArg (becomes s) (if_pos (by simp [hw, ho, hi, ht]))
  · subst hst
    exact (exec_callFrameRepeat s g).trans (lift_of_pos (by simp [hw, ho, hg, h0, hh, ht]))

/-- Settles O39: each event's hypotheses are its conditions; a reseal's phase is its micro-routine's position. -/
theorem archiveEvents : Obligations.ArchiveEvents := by
  intro s n hn ha
  subst hn
  refine ⟨fun c t0 k hg hr ht gain used hgain hused => ?_,
    fun hp hpow hc => (exec_checkpoint s).trans (lift_of_pos (by simp [hp, hpow, hc])),
    fun rq acc => (exec_arcFind s rq acc).trans (lift_of_pos ha), fun rq => (exec_arcFindDone s rq).trans (lift_of_pos ha),
    fun rq c v hc => (exec_arcCodeWrite s rq c v).trans (lift_of_pos (by simp [ha, hc])),
    fun rq => (exec_arcOpmsloRead s rq).trans (lift_of_pos ha),
    fun bad p m hm hp => ⟨fun h0 => ?_, fun h1 ht => ⟨fun hb => ?_, fun hb => ?_⟩⟩⟩
  · subst hgain hused
    rw [exec_tokenGain, execTokenGain, lift_becomes, hg]
    exact congrArg (becomes s) (if_pos (by simp [ha, hr, ht]))
  all_goals
    rw [exec_resealPhase, execResealPhase, lift_becomes, hm]
    dsimp only
    rw [if_neg (by simp [ha, hp])]
  · rw [if_pos h0]
  · rw [if_neg (by omega), if_neg (by rw [h1]; omega), if_pos h1, if_neg (by simp [hb])]
  · rw [if_neg (by omega), if_neg (by rw [h1]; omega), if_pos h1, if_pos (Option.isSome_iff_ne_none.mpr hb)]

end Sys2Proof.Machine
end

/-! ### O40: frames on the bus -/

section
namespace Sys2Proof.Machine

section
variable {s : State} {p : Nat} {m : Moment} {brs : Bool} {k : Node} (ha : s.node.awake = true) (hp : p < 2) (hst : s.node.busState p ≠ 0)
  (hoff : s.node.busOff p = false) (hk : (if (s.node.earlyEnd p false m).home p = p then (s.node.earlyEnd p false m).windowError p
    else s.node.earlyEnd p false m) = k)
include ha hp hst hoff hk

theorem exec_frameError_sending {t : TxA} (ht : (k.bp p).tx = some t) (hlt : k.fd (Fd.BUS_ERRCNT_TEC p) + 8 < 256) :
    exec (.frameError p brs false m) s = becomes s
      ((((k.txUndone p t).guardStep p t.frame.gen brs m).setFd (Fd.BUS_ERRCNT_TEC p) (k.fd (Fd.BUS_ERRCNT_TEC p) + 8)).errState p) := by
  refine (exec_frameError s p brs false m).trans ((lift_of_neg (by simp [ha, hp, hst, hoff])).trans (congrArg (becomes s) ?_))
  have hmin : Nat.min 255 (k.fd (Fd.BUS_ERRCNT_TEC p) + 8) = k.fd (Fd.BUS_ERRCNT_TEC p) + 8 := Nat.min_eq_right (by omega)
  simp only [hk, ht, Bool.false_eq_true, if_false, hmin, if_neg (Nat.not_le.mpr hlt)]

theorem exec_frameError_receiving (ht : (k.bp p).tx = none) :
    exec (.frameError p brs false m) s = becomes s
      (((k.setFd (Fd.BUS_ERRCNT_REC p) (Nat.min 255 (k.fd (Fd.BUS_ERRCNT_REC p) + 1))).errState p).busIdle p) := by
  refine (exec_frameError s p brs false m).trans ((lift_of_neg (by simp [ha, hp, hst, hoff])).trans (congrArg (becomes s) ?_))
  simp only [hk, ht, Bool.false_eq_true, if_false]

end

/-- Settles O40: each event's hypotheses are its conditions. -/
theorem frameEvents : Obligations.FrameEvents := by
  intro s n p m hn ha hp
  subst hn
  refine ⟨fun hh => ⟨fun f q e => (exec_frameConfirmed s p f q e m).trans (lift_of_pos hh), fun f k bs q hrx => ?_,
      fun f he hme hid hty => (exec_doorbellFrame s p f).trans (lift_of_pos (by simp [hh, he, hme, hid, hty]))⟩,
    fun hst hoff j k hj hk => ?_, fun t ht => ⟨?_, ?_⟩,
    fun hoff => (exec_busOffRecovery s p m).trans (lift_of_neg (by simp [ha, hp, hoff])), fun g x hx ht => ?_, fun old hold k hk => ?_,
    fun f hw he hme hid hty => (exec_valueFrame s f).trans (lift_of_pos (by simp [hw, he, hme, hid, hty])),
    fun v hw => (exec_valuePublish s v).trans (lift_of_pos hw), fun c tag q d since hc ht => ?_,
    fun hst htx hrx => (exec_busPortOff s p m).trans (lift_of_pos (by simp [ha, hp, hst, htx, hrx])),
    (exec_transmissionStart s p m).trans (lift_of_pos hp)⟩
  · refine (exec_earlyMatch s p f k bs q m).trans ((lift_of_neg (by simp [hh])).trans (congrArg (becomes s) ?_))
    simp only [hrx, Option.isSome_none, Bool.false_eq_true, if_false]
  · subst hj
    refine ⟨fun t brs k' tec ht hk' htec hlt => ?_, fun brs ht => exec_frameError_receiving ha hp hst hoff hk ht⟩
    subst hk' htec
    exact exec_frameError_sending ha hp hst hoff hk ht hlt
  · rw [exec_arbitrationLost, execArbitrationLost, lift_becomes, ht]
    exact congrArg (becomes s) (if_pos (by simp [ha, hp]))
  · rw [exec_frameSent, execFrameSent, lift_becomes, ht]
    exact congrArg (becomes s) (if_pos (by simp [ha, hp]))
  · rw [exec_gatePulseEnd, execGatePulseEnd, lift_becomes, hx]
    exact congrArg (becomes s) (if_pos ht)
  · subst hk
    obtain rfl : old = _ := funext hold
    exact (exec_caravanGapTimeout s p m).trans (lift_of_neg (by simp [ha, hp]))
  · rw [exec_tunnelTimeout, execTunnelTimeout, lift_becomes, hc]
    exact congrArg (becomes s) (if_pos (by simp [ha, ht]))

end Sys2Proof.Machine
end

/-! ### O41: accesses to registers -/

section
namespace Sys2Proof.Machine

/-- A mailbox of the node's own and a request that a SEND would refuse set CFGERR. -/
theorem mailbox_accesses {s : State} {p k : Nat} (ha : s.node.awake = true) (hp : p < 2) (hk : 16 ≤ k) (h64 : k < 64) {e : Option Nat}
    (he : s.node.reqErr p k (s.node.fd (Fd.BUS_MBCTL_GEN p k)) (s.node.fd (Fd.BUS_MBCTL_LEN p k)) (s.node.on (Fd.BUS_MBCTL_CARAVAN p k)) = e) :
    (e = none → (s.node.on (Fd.BUS_MBCTL_CARAVAN p k) = true → 4 ≤ s.node.fd (Fd.BUS_MBCTL_CARBUF p k)) →
      exec (.mailboxReq p k) s = becomes s (s.node.request p k)) ∧
    (e ≠ none → exec (.mailboxReq p k) s = becomes s (s.node.busCfgErr p)) ∧
    (s.node.busState p = 1 → exec (.mailboxAbort p k) s = becomes s (s.node.abortMb p k)) ∧
    (s.node.busState p ≠ 1 → exec (.mailboxAbort p k) s = becomes s (s.node.busCfgErr p)) := by
  have hreq : exec (.mailboxReq p k) s = becomes s (Node.mbReq s.node s.node p k) :=
    (exec_mailboxReq s p k).trans (lift_of_pos (by simp [ha, hp, h64]))
  have habort : exec (.mailboxAbort p k) s = becomes s (Node.mbAbort s.node s.node p k) :=
    (exec_mailboxAbort s p k).trans (lift_of_pos (by simp [ha, hp, h64]))
  refine ⟨fun h0 hc => ?_, fun h0 => ?_, fun hst => ?_, fun hst => ?_⟩
  · rw [hreq]
    refine congrArg (becomes s) (if_neg ?_)
    rw [he, h0]
    cases hcar : s.node.on (Fd.BUS_MBCTL_CARAVAN p k) with
    | false => simp [Nat.not_lt.mpr hk]
    | true => simp [Nat.not_lt.mpr hk, hc hcar]
  · rw [hreq]
    exact congrArg (becomes s) (if_pos (by rw [he]; simp [Option.isSome_iff_ne_none.mpr h0]))
  · rw [habort]
    exact congrArg (becomes s) (if_neg (by simp [Nat.not_lt.mpr hk, hst]))
  · rw [habort]
    exact congrArg (becomes s) (if_pos (by simp [hst]))

theorem node_mailbox_accesses {s : State} {p k : Nat} (ha : s.node.awake = true) (hp : p < 2) (hk : k < 16) :
    exec (.mailboxReq p k) s = becomes s (s.node.busCfgErr p) ∧ exec (.mailboxAbort p k) s = becomes s (s.node.busCfgErr p) := by
  have h64 : k < 64 := by omega
  exact ⟨(exec_mailboxReq s p k).trans ((lift_of_pos (by simp [ha, hp, h64])).trans (congrArg (becomes s) (if_pos (by simp [hk])))),
    (exec_mailboxAbort s p k).trans ((lift_of_pos (by simp [ha, hp, h64])).trans (congrArg (becomes s) (if_pos (by simp [hk]))))⟩

section
variable {n : Node} {rq : Rq} {a : Nat} {v keep : Word} {m : Moment} {r : RegRow} (hr : regRow a = some r)
include hr

theorem Node.regWrite_unwritable (hw : r.writable = false) : n.regWrite rq none a v m keep = n := by
  simp only [Node.regWrite, hr, hw, Bool.not_false, if_true]

/-- The block an address lies in takes the write (R4): `g` is the node whose register holds its new word. -/
def Node.handed (n g : Node) (rq : Rq) (r : RegRow) (a : Nat) (v : Word) (m : Moment) : Node :=
  match (a - 0x40000000) / 0x10000 with
  | 0 => n.dicReg g rq r a v m
  | 1 => n.gpReg g rq r a v m
  | 2 => n.twReg g r a v
  | 3 => n.timeReg g r a v
  | 4 => n.ucReg g r a
  | 5 => n.loReg g a
  | 6 => n.gridReg g r a v
  | 7 => n.almReg g r a v
  | 8 => n.arcReg g rq r a v
  | 9 => n.busReg g r a v m
  | 10 => n.dispReg g r a v m
  | 11 => n.sysReg g rq r a v m
  | _ => n.cmdReg g rq none r a v m

theorem Node.regWrite_handed (hw : r.writable = true) :
    n.regWrite rq none a v m keep = n.handed (n.wr a (r.written (n.regLocked a) (n.rd a) (v &&& ~~~(keep &&& r.mask .W1C)))) rq r a
      (v &&& ~~~(keep &&& r.mask .W1C)) m := by
  simp only [Node.regWrite, hr, hw, Bool.not_true, Bool.false_eq_true, if_false]
  rfl

theorem Node.regRead_plain (h : ["TIME.QNS", "UC.VAL", "LO.RB", "GRID.REPSEC", "ARC.OPMSLO"].contains r.name = false) :
    n.regRead rq a m keep =
      { (if r.mask .RC = 0#32 then n else n.wr a (r.kept (n.rd a) keep)) with rdata := r.before (n.regView rq a m) keep } := by
  simp only [List.contains_cons, List.contains_nil, Bool.or_false, Bool.or_eq_false_iff, beq_eq_false_iff_ne] at h
  obtain ⟨h1, h2, h3, h4, h5⟩ := h
  simp only [Node.regRead, hr]

end

section
variable {n g : Node} {rq : Rq} {r : RegRow} {a : Nat} {v : Word} {m : Moment}

theorem Node.handed_dic (h : (a - 0x40000000) / 0x10000 = 0) : n.handed g rq r a v m = n.dicReg g rq r a v m := by
  simp only [Node.handed, h]

theorem Node.handed_tw (h : (a - 0x40000000) / 0x10000 = 2) : n.handed g rq r a v m = n.twReg g r a v := by
  simp only [Node.handed, h]

theorem Node.handed_time (h : (a - 0x40000000) / 0x10000 = 3) : n.handed g rq r a v m = n.timeReg g r a v := by
  simp only [Node.handed, h]

theorem Node.dicReg_setting (h : r.name = "DIC.MODT" ∨ r.name = "DIC.ENA" ∨ r.name = "DIC.SRC") :
    n.dicReg g rq r a v m = Node.dirtyIf n g a := by
  obtain h | h | h := h <;> simp only [Node.dicReg, h]

theorem Node.dicReg_doorbell (h : r.name = "DIC.DOORBELL") : n.dicReg g rq r a v m = n.ring (Fd.DIC_DOORBELL_SRC.get v) := by
  simp only [Node.dicReg, h]

theorem Node.twReg_plain (hctrl : r.name ≠ "TW.CTRL") (hcmd : r.name ≠ "TW.CMD") : n.twReg g r a v = g := by
  simp only [Node.twReg]

theorem Node.twReg_ctrl (h : r.name = "TW.CTRL") :
    n.twReg g r a v = settle g.twRegOk (Node.twChanged n (Node.dirtyIf n g a)) n.twCfgErr := by
  simp only [Node.twReg, h]

theorem Node.timeReg_plain (h : r.name = "TIME.CAPSTAT" ∨ r.name = "BEAT.LATE") : n.timeReg g r a v = g := by
  obtain h | h := h <;> simp only [Node.timeReg, h]

end

/-- A port's own rows: mailboxes, the receive queue, caravans, early views and gates. -/
theorem port_accesses {s : State} {p : Nat} {v : Word} (ha : s.node.awake = true) (hp : p < 2) :
    (∀ c h, v.getLsbD 0 = true → s.node.fd (Fd.BUS_FIFO_COUNT p) = c → s.node.fd (Fd.BUS_FIFO_HEAD p) = h →
      (c = 0 → exec (.fifoPop p v) s = becomes s s.node) ∧
      (c ≠ 0 → exec (.fifoPop p v) s = becomes s
        (s.node.setFds [(Fd.BUS_FIFO_COUNT p, c - 1), (Fd.BUS_FIFO_HEAD p, (h + 1) % 512)]))) ∧
    exec (.caravanRelease p v) s = becomes s
      (s.node.setFd (Fd.BUS_CARDONE_DONE p) ((s.node.rd (Ad.BUS_CARDONE p) &&& ~~~v).toNat % 256)) ∧
    exec (.earlyViewRelease p v) s = becomes s (s.node.evRelease p v) := by
  refine ⟨fun c h hv hc hh => ?_, (exec_caravanRelease s p v).trans (lift_of_pos (by simp [ha, hp])),
    (exec_earlyViewRelease s p v).trans (lift_of_pos (by simp [ha, hp]))⟩
  have hpop : exec (.fifoPop p v) s = becomes s (s.node.fifoPop p) :=
    (exec_fifoPop s p v).trans (lift_of_pos (by simp [ha, hp, hv]))
  subst hc hh
  rw [hpop]
  exact ⟨fun h0 => congrArg (becomes s) (if_pos h0), fun h0 => congrArg (becomes s) (if_neg h0)⟩

theorem Node.gateReset_eq (n : Node) (p g : Nat) :
    n.gateReset p g = if n.on (Fd.BUS_GATECFG_ACTIVE p g) && (Fd.BUS_GATECFG_LATCH p g).get (n.gateCfg p g).1 == 1
      then (n.gateOff p g).hwGates p else n :=
  rfl

theorem gate_accesses {s : State} {p g : Nat} {v : Word} (ha : s.node.awake = true) (hp : p < 2) (hg : g < 4) (hv : v.getLsbD 16 = true) :
    (s.node.on (Fd.BUS_GATECFG_ACTIVE p g) = true → (Fd.BUS_GATECFG_LATCH p g).get (s.node.gateCfg p g).1 = 1 →
      exec (.gateResetWrite p g v) s = becomes s ((s.node.gateOff p g).hwGates p)) ∧
    (s.node.on (Fd.BUS_GATECFG_ACTIVE p g) = false ∨ (Fd.BUS_GATECFG_LATCH p g).get (s.node.gateCfg p g).1 ≠ 1 →
      exec (.gateResetWrite p g v) s = becomes s s.node) := by
  have hreset : exec (.gateResetWrite p g v) s = becomes s (s.node.gateReset p g) :=
    (exec_gateResetWrite s p g v).trans (lift_of_pos (by simp [ha, hp, hg, hv]))
  rw [hreset, Node.gateReset_eq]
  refine ⟨fun hon hl => congrArg (becomes s) (if_pos (by simp [hon, hl])), fun h => congrArg (becomes s) (if_neg ?_)⟩
  simpa only [Bool.and_eq_true, beq_iff_eq, not_and_or, Bool.not_eq_true] using h

section
variable {s : State} {rq : Rq} {a : Nat} {v : Word} {c : Access}

theorem exec_registerWrite_awake (ha : s.node.awake = true) :
    exec (.registerWrite rq a v c) s = becomes s (s.node.regWrite rq none a v c.at_ c.keep) :=
  (exec_registerWrite s rq a v c).trans (lift_of_pos ha)

theorem exec_readClearRead_awake (ha : s.node.awake = true) :
    exec (.readClearRead rq a c) s = becomes s (s.node.regRead rq a c.at_ c.keep) :=
  (exec_readClearRead s rq a c).trans (lift_of_pos ha)

end

/-- Settles O41: the access is handed to its block, whose register's row decides. -/
theorem registerAccesses : Obligations.RegisterAccesses := by
  refine ⟨fun s n p v hn ha hp => ?_, fun s n rq a v c hn ha => ⟨fun hr => ⟨?_, ?_⟩, fun r hr => ?_⟩⟩
  · subst hn
    obtain ⟨hpop, hcar, hev⟩ := port_accesses (v := v) ha hp
    exact ⟨fun k e hk h64 he => mailbox_accesses ha hp hk h64 he, fun k hk => node_mailbox_accesses ha hp hk, hpop, hcar, hev,
      fun g hg hv => (gate_accesses ha hp hg hv).1, fun g hg hv => (gate_accesses ha hp hg hv).2⟩
  all_goals subst hn
  · rw [exec_registerWrite_awake ha, Node.regWrite, hr]
  · rw [exec_readClearRead_awake ha, Node.regRead, hr]
  · rw [exec_registerWrite_awake ha, exec_readClearRead_awake ha]
    refine ⟨fun hw => by rw [Node.regWrite_unwritable hr hw], fun w g hw hv hg => ?_, fun hname => by rw [Node.regRead_plain hr hname],
      fun hname => ?_, fun hname => ?_, fun hname => ?_, fun hname => ?_, fun hname => ?_⟩
    · subst hg hv
      rw [Node.regWrite_handed hr hw]
      exact ⟨rfl, fun h0 hname => by rw [Node.handed_dic h0, Node.dicReg_setting hname],
        fun h0 hname => by rw [Node.handed_dic h0, Node.dicReg_doorbell hname],
        fun h2 hctrl hcmd => by rw [Node.handed_tw h2, Node.twReg_plain hctrl hcmd], fun h2 hname => by
          rw [Node.handed_tw h2, Node.twReg_ctrl hname]
          exact ⟨fun hok => by rw [hok]; rfl, fun hok => by rw [hok]; rfl⟩,
        fun h3 hname => by rw [Node.handed_time h3, Node.timeReg_plain hname]⟩
    all_goals simp only [Node.regRead, hr, hname]

end Sys2Proof.Machine
end

/-! ### O42 and O43: surveys, marks and sleep -/

section
namespace Sys2Proof.Machine

section
variable {n : Node} {p : Nat} {f : Frame} {q lo hi : Nat} {m : Moment}

/-- A frame of the row's own type, which a hearing port confirms, acts. -/
theorem Node.protoRow_own (hh : n.mayHear p = true) (he : f.ext = true) (hc : idClass f.id = 0) (hlo : lo ≤ idType f.id)
    (hhi : idType f.id ≤ hi) : n.protoRow p f q lo hi m = n.protoFrame p f ((n.now m - q) / 2 * 2) m :=
  if_pos (by simp [hh, he, hc, hlo, hhi])

theorem Node.protoRow_other {t : Nat} (h : idType f.id ≠ t) : n.protoRow p f q t t m = n :=
  if_neg (by simp only [Bool.and_eq_true, decide_eq_true_eq]; omega)

end

/-- Settles O42: each row runs `protoRow` with its type. -/
theorem surveyFrames : Obligations.SurveyFrames := by
  intro s n p f q m hn
  subst hn
  refine ⟨fun hh he hc k hk => ?_, fun k hk ht => ?_⟩
  · subst hk
    have own {lo hi : Nat} {c : Instr} (hx : exec c s = s.lift fun n => n.protoRow p f q lo hi m) (hlo : lo ≤ idType f.id)
        (hhi : idType f.id ≤ hi) : exec c s = becomes s (s.node.protoFrame p f ((s.node.now m - q) / 2 * 2) m) := by
      rw [hx, lift_becomes, Node.protoRow_own hh he hc hlo hhi]
    exact ⟨fun h => own (exec_begin s p f q m) h.ge h.le, fun h => own (exec_query s p f q m) h.ge h.le,
      fun h => own (exec_assign s p f q m) h.ge h.le, fun h => own (exec_assigned s p f q m) h.ge h.le,
      fun h => own (exec_ping s p f q m) h.ge h.le, fun h => own (exec_pong s p f q m) h.ge h.le,
      fun h => own (exec_pongFollowUp s p f q m) h.ge h.le, fun h => own (exec_delay s p f q m) h.ge h.le,
      fun h => own (exec_announce s p f q m) h.ge h.le, fun h => own (exec_surveyEnd s p f q m) h.ge h.le,
      fun h => own (exec_majorMark s p f q m) h.ge h.le, fun h => own (exec_minorMark s p f q m) h.ge h.le,
      fun h => own (exec_markFollowUp s p f q m) h.ge h.le, fun hlo hhi => own (exec_bid s p f q m) hlo hhi⟩
  · have other {t : Nat} {c : Instr} (hx : exec c s = s.lift fun n => n.protoRow p f q t t m) (ht : idType f.id ≠ t) :
        exec c s = becomes s s.node := by
      rw [hx, lift_becomes, Node.protoRow_other ht]
    simp only [List.mem_cons, List.not_mem_nil, or_false] at hk
    obtain rfl | rfl | rfl | rfl | rfl | rfl | rfl | rfl | rfl | rfl | rfl | rfl | rfl := hk
    · exact other (exec_begin s p f q m) ht
    · exact other (exec_query s p f q m) ht
    · exact other (exec_assign s p f q m) ht
    · exact other (exec_assigned s p f q m) ht
    · exact other (exec_ping s p f q m) ht
    · exact other (exec_pong s p f q m) ht
    · exact other (exec_pongFollowUp s p f q m) ht
    · exact other (exec_delay s p f q m) ht
    · exact other (exec_announce s p f q m) ht
    · exact other (exec_surveyEnd s p f q m) ht
    · exact other (exec_majorMark s p f q m) ht
    · exact other (exec_minorMark s p f q m) ht
    · exact other (exec_markFollowUp s p f q m) ht

/-- Settles O43: each timer's hypotheses are its conditions. -/
theorem busTimers : Obligations.BusTimers := by
  intro s n p m hn ha hp
  subst hn
  refine ⟨fun hw => ⟨fun ht hr => (exec_bidWindowExpiry s p m).trans (lift_of_pos (by simp [hw, hp, ht, hr])),
      fun hl hat => (exec_listenEnd s p).trans (lift_of_pos (by simp [hw, hp, hl, hat])),
      (exec_markRequest s p m).trans (lift_of_pos (by simp [hw, hp]))⟩, fun hr hat => ?_,
    (exec_markAbandon s p m).trans (lift_of_pos (by simp [ha, hp])),
    (exec_followUpTimeout s p m).trans (lift_of_pos (by simp [ha, hp])), fun t hpair ht htp hat => ?_,
    fun hpair hs hat hother => (exec_pairPortSilent s p m).trans (lift_of_pos (by simp [ha, hp, hpair, hs, hat, hother])),
    fun hph => ⟨fun hs ht hr => (exec_portSleep s p m).trans (lift_of_pos (by simp [hph, hp, hs, ht, hr])),
      fun hmode => (exec_wakePattern s p).trans (lift_of_pos (by simp [hph, hp, hmode])),
      fun f hmode hf => (exec_wakeFrame s p f).trans (lift_of_pos (by simp [hph, hp, hmode, hf])),
      fun hs => (exec_portWake s p m).trans (lift_of_pos (by simp [hph, hp, hs]))⟩⟩
  · refine (exec_surveyMemberTimeout s p m).trans ((lift_of_neg (by simp [ha, hp, hr, hat])).trans (congrArg (becomes s) ?_))
    exact if_pos (by simp [hr])
  · subst ht
    exact (exec_tportFallback s m).trans (lift_of_pos (by simp [ha, hpair, htp, hat]))

end Sys2Proof.Machine
end

/-! ### O44: pins and banks -/

section
namespace Sys2Proof.Machine

section
variable {n : Node} {i : Nat} {b : Bool}

theorem Node.pinEdge_same (h : n.padOn i = false ∨ n.on (inFd i) = b) : n.pinEdge i b = n :=
  if_pos (by simpa only [Bool.or_eq_true, Bool.not_eq_true', beq_iff_eq] using h)

/-- The pin takes its level and, where its IRQ names the edge, raises its event. -/
def Node.pinTaken (n : Node) (i : Nat) (b : Bool) : Node :=
  if (n.setOn (inFd i) b).pinLive i = true ∧ (n.setOn (inFd i) b).fd (Fd.GP_FN_IRQ i) ∈ (if b = true then [1, 3, 4] else [2, 3, 5])
    then (n.setOn (inFd i) b).pinEvent i else n.setOn (inFd i) b

/-- The line that tells of a pin's edge, at most one in a beat. -/
def Node.pinTold (n : Node) (i : Nat) (b : Bool) : Node :=
  Node.notifyWatch { n with gp := { n.gp with told := Bank.set 0 n.gp.told i (n.tick + 1) } } .gp "" (some i)
    [.w "GP", .n i, .w "IN", .n (if b = true then 1 else 0), .w "BEAT", .n n.idx]

theorem Node.pinEdge_taken (hp : n.padOn i = true) (hb : n.on (inFd i) ≠ b) :
    n.pinEdge i b = if (n.pinTaken i b).awake = true ∧ Bank.get 0 (n.pinTaken i b).gp.told i ≠ (n.pinTaken i b).tick + 1
      then (n.pinTaken i b).pinTold i b else n.pinTaken i b := by
  unfold Node.pinEdge
  rw [if_neg (by simp [hp, hb])]
  have hhit : (if ((if b = true then (n.setOn (inFd i) b).fd (Fd.GP_FN_IRQ i) == 1 || (n.setOn (inFd i) b).fd (Fd.GP_FN_IRQ i) == 3 ||
        (n.setOn (inFd i) b).fd (Fd.GP_FN_IRQ i) == 4 else (n.setOn (inFd i) b).fd (Fd.GP_FN_IRQ i) == 2 ||
        (n.setOn (inFd i) b).fd (Fd.GP_FN_IRQ i) == 3 || (n.setOn (inFd i) b).fd (Fd.GP_FN_IRQ i) == 5) &&
        (n.setOn (inFd i) b).pinLive i) = true then (n.setOn (inFd i) b).pinEvent i else n.setOn (inFd i) b) = n.pinTaken i b := by
    unfold Node.pinTaken
    cases b <;> simp [and_comm, or_assoc]
  dsimp only
  rw [hhit]
  simp only [Bool.and_eq_true, bne_iff_ne]
  rfl

end

section
variable {n : Node} {rq : Rq} {v : Word} {t : Nat}

/-- Within the time of the first key the lock register judges the write by the key it waits for (R319). -/
theorem Node.gplock_inTime (h : n.gp.lockStep = 0 ∨ t ≤ n.gp.lockAt + 1280) :
    (v = 0xA5C3#32 → n.gp.lockStep = 0 → n.gplock rq v t = { n with gp := { n.gp with lockStep := 1, lockAt := t } }) ∧
    (v = 0xA5C3#32 → n.gp.lockStep = 1 → n.gplock rq v t = { n.lockErr with gp := { n.lockErr.gp with lockStep := 1, lockAt := t } }) ∧
    (v = 0x3C5A#32 → n.gp.lockStep = 1 → n.gplock rq v t = { n with gp := { n.gp with lockStep := 2 } }) ∧
    (n.gp.lockStep ≠ 2 → v ≠ 0xA5C3#32 → v ≠ 0x3C5A#32 ∨ n.gp.lockStep ≠ 1 → n.gplock rq v t = n.lockErr) := by
  have hin : ¬ (n.gp.lockStep != 0 && decide (n.gp.lockAt + 1280 < t)) = true := by
    simp only [Bool.and_eq_true, bne_iff_ne, decide_eq_true_eq]
    omega
  unfold Node.gplock
  rw [if_neg hin]
  dsimp only
  refine ⟨fun hv h0 => ?_, fun hv h1 => ?_, fun hv h1 => ?_, fun h2 ha hc => ?_⟩
  · rw [if_neg (by omega), if_pos hv, if_neg (by simp [h0])]
  · rw [if_neg (by omega), if_pos hv, if_pos (by simp [h1])]
  · rw [if_neg (by omega), if_neg (by rw [hv]; decide), if_pos (by simp [hv, h1])]
  · rw [if_neg h2, if_neg ha, if_neg (by simpa only [Bool.and_eq_true, decide_eq_true_eq, not_and_or] using hc)]

theorem Node.gplock_mask (h : n.gp.lockStep = 0 ∨ t ≤ n.gp.lockAt + 1280) (h2 : n.gp.lockStep = 2) {b mask : Nat} {k : Node}
    (hb : v.toNat / 2 ^ 31 = b) (hmask : v.toNat % 2 ^ 24 = mask) (hk : Node.lockPins { n with gp := { n.gp with lockStep := 0 } } b mask = k) :
    n.gplock .cmd v t = k.raiseCmd 0x091 (BitVec.ofNat 8 b :: bytesLE 3 mask ++ [0#8]) ∧
    n.gplock .annex v t = k.raiseM 0x091 (BitVec.ofNat 8 b :: bytesLE 3 mask ++ [1#8]) (t - k.tm.t0) helpPin := by
  have hin : ¬ (n.gp.lockStep != 0 && decide (n.gp.lockAt + 1280 < t)) = true := by
    simp only [Bool.and_eq_true, bne_iff_ne, decide_eq_true_eq]
    omega
  subst hb hmask hk
  unfold Node.gplock
  rw [if_neg hin]
  dsimp only
  exact ⟨if_pos h2, if_pos h2⟩

/-- Past that time the first key counts for nothing. -/
theorem Node.gplock_late (h0 : n.gp.lockStep ≠ 0) (ht : n.gp.lockAt + 1280 < t) :
    (v ≠ 0xA5C3#32 → n.gplock rq v t = n.lockErr.lockErr) ∧
    (v = 0xA5C3#32 → n.gplock rq v t = { n.lockErr with gp := { n.lockErr.gp with lockStep := 1, lockAt := t } }) := by
  have hstep : n.lockErr.gp.lockStep = 0 := rfl
  have hlate : (n.gp.lockStep != 0 && decide (n.gp.lockAt + 1280 < t)) = true := by simp [h0, ht]
  unfold Node.gplock
  rw [if_pos hlate]
  dsimp only
  refine ⟨fun hv => ?_, fun hv => ?_⟩
  · rw [if_neg (by omega), if_neg hv, if_neg (by simp [hstep])]
  · rw [if_neg (by omega), if_pos hv, if_neg (by simp [hstep])]

end

/-- Settles O44: each event's hypotheses are its conditions; the lock register's step decides what its write does. -/
theorem pinEvents : Obligations.PinEvents := by
  intro s n m rq v hn
  subst hn
  refine ⟨fun i b hi => ?_, fun b c lv hb hc hbank => ?_, fun ha => ?_⟩
  · have hedge : exec (.pinEdge i b m) s = becomes s (s.node.pinEdge i b) := (exec_pinEdge s i b m).trans (lift_of_pos hi)
    rw [hedge]
    refine ⟨fun h => by rw [Node.pinEdge_same h], fun hp hne k irq j hk hirq hj => ?_⟩
    subst hk hirq
    obtain rfl : s.node.pinTaken i b = j := hj
    rw [Node.pinEdge_taken hp hne]
    exact ⟨fun hj ht => congrArg (becomes s) (if_pos ⟨hj, ht⟩), fun h => congrArg (becomes s) (if_neg fun ⟨hj, ht⟩ => by simp_all)⟩
  · have hin : ¬ (decide (1 < b) || decide (2 < c) || decide (s.node.bank b = c)) = true := by
      simp [Nat.not_lt.mpr hb, Nat.not_lt.mpr hc, hbank]
    refine ⟨fun hoff => ?_, fun hoff hph h0 => ?_, fun hoff hph h0 => ?_⟩
    all_goals refine (exec_bankClassChange s b c lv m).trans ((lift_of_neg hin).trans (congrArg (becomes s) ?_))
    · exact if_pos (by simp [hoff])
    · dsimp only
      rw [if_neg (by simp [hoff, hph]), if_neg h0]
    · dsimp only
      rw [if_neg (by simp [hoff, hph]), if_pos h0]
  · have hlock : ∀ rq, exec (.gplockWrite rq v m) s = becomes s (s.node.gplock rq v (s.node.now m)) :=
      fun rq => (exec_gplockWrite s rq v m).trans (lift_of_pos ha)
    simp only [hlock]
    refine ⟨fun hp ht hl => (exec_lifeToggle s true).trans (lift_of_pos (by simp [ha, hp, ht, hl])),
      (exec_gpoutWrite s rq 0 v).trans (lift_of_neg (by simp [ha])), (exec_gpoutWrite s rq 1 v).trans (lift_of_neg (by simp [ha])),
      fun hv => (exec_hwrefresh s rq v).trans (lift_of_pos (by simp [ha, hv])), fun h => ?_, fun h0 ht => ?_⟩
    · obtain ⟨first, again, second, other⟩ := Node.gplock_inTime (rq := rq) (v := v) h
      exact ⟨fun hv h0 => by rw [first hv h0], fun hv h1 => by rw [again hv h1], fun hv h1 => by rw [second hv h1],
        fun b mask k h2 hb hmask hk => (Node.gplock_mask h h2 hb hmask hk).imp (congrArg _) (congrArg _),
        fun h2 ha hc => by rw [other h2 ha hc]⟩
    · obtain ⟨other, first⟩ := Node.gplock_late (rq := rq) (v := v) h0 ht
      exact ⟨fun hv => by rw [other hv], fun hv => by rw [first hv]⟩

end Sys2Proof.Machine
end

/-! ### O45: the two-wire port -/

section
namespace Sys2Proof.Machine

section
variable {n : Node} {v : Word}

theorem Node.twCmdStart_begins (hp : n.tw.phase = .idle) (hv : twCmdOk v = true) (hst : n.twState = 1) :
    n.twCmdStart v = Node.twCheck { n.twCmdKeep v with tw := { (n.twCmdKeep v).tw with job := some ⟨none, Fd.TW_CMD_READ.get v == 1,
      Fd.TW_CMD_ADDR.get v, if Fd.TW_CMD_USEREG.get v = 1 then some (Fd.TW_CMD_REG.get v) else none, Fd.TW_CMD_COUNT.get v,
      if Fd.TW_CMD_READ.get v = 1 then [] else n.twBytes (Fd.TW_CMD_COUNT.get v)⟩ } } := by
  unfold Node.twCmdStart
  rw [if_neg (by simp [hp, hv, hst])]
  simp only [beq_iff_eq]

theorem Node.twCmdStart_refused (h : n.tw.phase ≠ .idle ∨ twCmdOk v = false ∨ n.twState ≠ 1) : n.twCmdStart v = n.twCfgErr :=
  if_pos (by simpa [or_assoc] using h)

theorem Node.twCmdClear_begins (hp : n.tw.phase = .idle) (hv : twCmdOk v = true) (hst : n.twState = 1 ∨ n.twState = 3) :
    n.twCmdClear v = (n.twCmdKeep v).twClear none :=
  if_neg (by obtain h | h := hst <;> simp [hp, hv, h])

theorem Node.twCmdClear_refused (h : n.tw.phase ≠ .idle ∨ twCmdOk v = false ∨ (n.twState ≠ 1 ∧ n.twState ≠ 3)) :
    n.twCmdClear v = n.twCfgErr :=
  if_pos (by simpa [or_assoc] using h)

end

/-- Settles O45: each event's hypotheses are its conditions. -/
theorem transferEvents : Obligations.TransferEvents := by
  intro s n m rq v bs hn ha
  subst hn
  refine ⟨fun hv => ?_, fun hv => ?_, fun hp hst => ?_, fun hp hst => ?_, fun hp hst hat => ?_, fun k hp hst => ?_,
    fun k j hp hst hk hj => ?_, fun hst => ?_, fun hst => ?_⟩
  · have hstart : exec (.twCmdStart rq v m) s = becomes s (s.node.twCmdStart v) :=
      (exec_twCmdStart s rq v m).trans (lift_of_pos (by simp [ha, hv]))
    rw [hstart]
    refine ⟨fun hp hok hst k rd c reg hk hrd hc hreg q hq => ?_, fun h => by rw [Node.twCmdStart_refused h]⟩
    subst hk hrd hc hreg hq
    rw [Node.twCmdStart_begins hp hok hst]
    rfl
  · have hclear : exec (.twCmdClear rq v m) s = becomes s (s.node.twCmdClear v) :=
      (exec_twCmdClear s rq v m).trans (lift_of_pos (by simp [ha, hv]))
    rw [hclear]
    refine ⟨fun hp hok hst => ?_, fun h => by rw [Node.twCmdClear_refused h]⟩
    rw [Node.twCmdClear_begins hp hok hst]
    rfl
  · have hin : ¬ (!s.node.awake || s.node.tw.phase != .transfer || s.node.twState == 2) = true := by simp [ha, hp, hst]
    exact ⟨(exec_twTransferEnd s .ok bs m).trans (lift_of_neg hin), (exec_twTransferEnd s .nackAddr bs m).trans (lift_of_neg hin),
      fun k => (exec_twTransferEnd s (.nackData k) bs m).trans (lift_of_neg hin),
      (exec_twTransferEnd s .contention bs m).trans (lift_of_neg hin)⟩
  · refine (exec_twClockStretchTimeout s bs m).trans ((lift_of_neg (by simp [ha])).trans (congrArg (becomes s) ?_))
    exact if_pos (by simp [hp, hst])
  · refine (exec_twClockStretchTimeout s bs m).trans ((lift_of_neg (by simp [ha])).trans (congrArg (becomes s) ?_))
    rw [if_neg (by simp [hp]), if_pos (by simp [hp, hst, hat])]
  · refine (exec_twBusClearEnd s k false m).trans ((lift_of_neg (by simp [ha, hp, hst])).trans (congrArg (becomes s) ?_))
    rw [if_neg (by simp), if_neg (by simp)]
  · subst hj
    refine (exec_twBusClearEnd s k true m).trans ((lift_of_neg (by simp [ha, hp, hst])).trans (congrArg (becomes s) ?_))
    exact if_pos (by simp [hk])
  · exact (exec_twDrained s bs m).trans ((lift_of_pos ha).trans (congrArg (becomes s) (if_pos hst)))
  · exact (exec_twDrained s bs m).trans ((lift_of_pos ha).trans (congrArg (becomes s) (if_neg hst)))

end Sys2Proof.Machine
end

/-! ### O46: the display, its rails and the glass -/

section
namespace Sys2Proof.Machine

section
variable {s : State} {m : Moment} {mv : Int} (ha : s.node.awake = true)
include ha

theorem exec_railPowerUpStep_inWindow {k : Nat} {lo hi : Int} (hr : s.node.disp.rails = .rising k) (ht : s.node.disp.railAt ≤ s.node.mono m)
    (hw : (s.node.railMv (k - 1) mv).railWindow (k - 1) = (lo, hi)) (hlo : lo ≤ mv) (hhi : mv ≤ hi) {j : Node}
    (hj : (s.node.railMv (k - 1) mv).railBit (k - 1) true = j) :
    exec (.railPowerUpStep mv m) s = becomes s (if 5 ≤ k then j.railsUp s.node.disp.railAt
      else { j with disp := { j.disp with rails := .rising (k + 1), railAt := s.node.disp.railAt + ms1 } }) := by
  rw [exec_railPowerUpStep, execRailPowerUpStep, lift_becomes, hr]
  dsimp only
  rw [if_neg (by simp [ha, ht]), hw]
  dsimp only
  rw [if_pos ⟨hlo, hhi⟩, hj]
  rfl

theorem exec_railPowerDownStep_next {r k : Nat} {t : List Nat} (hr : s.node.disp.rails = .falling (r :: k :: t))
    (ht : s.node.disp.railAt ≤ s.node.mono m) (hok : (decide (-1000 ≤ mv) && decide (mv ≤ 1000)) = true) :
    exec (.railPowerDownStep mv m) s = becomes s (Node.railBit { s.node.railMv r mv with disp := { (s.node.railMv r mv).disp with
      rails := .falling (k :: t), railAt := s.node.disp.railAt + ms1, faulted := false } } k false) := by
  rw [exec_railPowerDownStep, execRailPowerDownStep, lift_becomes, hr]
  dsimp only
  rw [if_neg (by simp [ha, ht]), hok]
  rfl

theorem exec_railPowerDownStep_last {r : Nat} (hr : s.node.disp.rails = .falling [r])
    (ht : s.node.disp.railAt ≤ s.node.mono m) (hok : (decide (-1000 ≤ mv) && decide (mv ≤ 1000)) = true) :
    exec (.railPowerDownStep mv m) s = becomes s ((s.node.railMv r mv).railsDown s.node.disp.railAt) := by
  rw [exec_railPowerDownStep, execRailPowerDownStep, lift_becomes, hr]
  dsimp only
  rw [if_neg (by simp [ha, ht]), hok]
  rfl

theorem exec_dispFrameStart_next {u : Upd} {f0 : Nat} (hu : s.node.disp.upd = some u) (hf0 : u.frame0 = some f0)
    (hp : s.node.sys.power ≠ .powerfail) (hr : s.node.disp.rails = .up) (ho : u.over_ = false)
    (ht : s.node.frameAt f0 u.frames ≤ s.node.mono m) (hlt : u.frames < u.len) :
    exec (.dispFrameStart m) s = becomes s (Node.setFd
      { s.node with disp := { s.node.disp with upd := some { u with frames := u.frames + 1 } } } Fd.DISP_LAST_FRAMES (u.frames + 1)) := by
  have hin : ¬ (!s.node.awake || s.node.sys.power == .powerfail || s.node.disp.rails != .up || u.over_ ||
      decide (s.node.mono m < s.node.frameAt f0 u.frames)) = true := by
    simp [ha, hp, hr, ho, ht]
  rw [exec_dispFrameStart, execDispFrameStart, lift_becomes, hu]
  dsimp only
  rw [hf0]
  dsimp only
  rw [if_neg hin, if_pos hlt]

end

/-- Settles O46: each event's hypotheses are its conditions; the rails' state decides its step. -/
theorem displayEvents : Obligations.DisplayEvents := by
  intro s n m rq v hn ha
  subst hn
  refine ⟨fun u hu => ⟨fun hsnap hat => ?_, fun f0 hf0 hp hr ho ht hlt => ?_⟩,
    fun k mv lo hi hr ht hw hlo hhi j hj => exec_railPowerUpStep_inWindow ha hr ht hw hlo hhi hj, fun r k t mv hr ht hlo hhi j hj => ?_,
    fun r mv hr ht hlo hhi => exec_railPowerDownStep_last ha hr ht (by simp [hlo, hhi]), fun k mv j hr hk hj => ?_,
    fun t ht hr hu hat => ?_, fun hr hu => ?_, fun hr => ?_, fun hr => ?_, fun hr => ?_,
    fun hv => (exec_dispCmdUpdate s rq v m).trans (lift_of_pos (by simp [ha, hv])),
    fun hv => (exec_dispCmdRailsOn s rq v m).trans (lift_of_pos (by simp [ha, hv])),
    fun hv => (exec_dispCmdRailsOff s rq v m).trans (lift_of_pos (by simp [ha, hv])),
    fun hv => (exec_lcdCommit s rq v).trans (lift_of_pos (by simp [ha, hv])),
    fun hst hat => (exec_lcdFrameStart s m).trans (lift_of_pos (by simp [ha, hst, hat]))⟩
  · rw [exec_snapshotEnd, execSnapshotEnd, lift_becomes, hu]
    exact congrArg (becomes s) (if_pos (by simp [ha, hsnap, hat]))
  · exact exec_dispFrameStart_next ha hu hf0 hp hr ho ht hlt
  · subst hj
    exact exec_railPowerDownStep_next ha hr ht (by simp [hlo, hhi])
  · have hin : (s.node.awake && s.node.disp.rails == .up && decide (k < 5)) = true := by simp [ha, hr, hk]
    rw [exec_railFault, execRailFault, lift_becomes]
    dsimp only
    rw [if_pos hin, hj]
    rfl
  · rw [exec_railholdExpiry, execRailholdExpiry, lift_becomes, ht]
    exact congrArg (becomes s) (if_pos (by simp [ha, hr, hu, hat]))
  · refine (exec_displayUndervoltage s m).trans ((lift_of_neg hr).trans (congrArg (becomes s) ?_))
    simp only [hu, Option.isSome_none, Bool.false_eq_true, if_false]
    rfl
  · simp only [exec_fastDischargeStep, execFastDischargeStep, lift_becomes, hr]
  · simp only [exec_fastDischargeStep, execFastDischargeStep, lift_becomes, hr]
  · simp only [exec_fastDischargeStep, execFastDischargeStep, lift_becomes, hr]
    rfl

end Sys2Proof.Machine
end

/-! ### O47: the annex and the interrupt controller -/

section
namespace Sys2Proof.Machine

/-- Settles O47: each event's hypotheses are its conditions. -/
theorem annexAndInterruptEvents : Obligations.AnnexAndInterruptEvents := by
  refine ⟨fun s n m rq v hn ha => ?_, fun s n m rq v hn ha => ?_⟩
  all_goals subst hn
  · refine ⟨fun hb => ⟨(exec_annexInstruction s m).trans (lift_of_pos hb), fun h => (exec_mret s m).trans (lift_of_pos (by simp [hb, h])),
        fun h => (exec_wfi s m).trans (lift_of_pos (by simp [hb, h]))⟩,
      fun hr hs h0 hat => (exec_annexWatchdogExpiry s m).trans (lift_of_pos (by simp [ha, hr, hs, h0, hat])),
      (exec_awdserveWrite s rq v m).trans (lift_of_pos ha), fun image hb hp => ?_, fun image hb hp hst => ?_,
      (exec_mailboxGo s .annex v m).trans (lift_of_pos (by simp [ha])), (exec_rxrdWrite s .annex v).trans (lift_of_pos (by simp [ha])),
      (exec_rxcfgEnable s .annex v).trans (lift_of_pos (by simp [ha]))⟩
    · refine (exec_annexBootReadEnd s image m).trans ((lift_of_neg (by simp [ha, hb])).trans (congrArg (becomes s) ?_))
      exact if_pos (by simp [hp])
    · refine (exec_annexBootReadEnd s image m).trans ((lift_of_neg (by simp [ha, hb])).trans (congrArg (becomes s) ?_))
      rw [if_neg (by simp [hp]), if_pos (by simpa using hst)]
  · refine ⟨(exec_doorbellWrite s rq v).trans (lift_of_pos ha), fun k hk => ?_, fun hk => ?_,
      (exec_completeWrite s rq v m).trans (lift_of_pos ha), fun g e he h0 hat h hh => ?_, (exec_gdisWrite s rq v).trans (lift_of_pos ha),
      fun hv => (exec_strayclrWrite s rq v).trans (lift_of_pos (by simp [ha, hv]))⟩
    · refine (exec_interruptAcceptance s m).trans ((lift_of_neg (by simp [ha])).trans (congrArg (becomes s) ?_))
      rw [hk]
    · refine (exec_interruptAcceptance s m).trans ((lift_of_neg (by simp [ha])).trans (congrArg (becomes s) ?_))
      rw [hk]
    · subst he hh
      exact (exec_moderationHoldEnd s g m).trans (lift_of_pos (by simp [ha, h0, hat]))

end Sys2Proof.Machine
end

/-! ### O48: start-up -/

section
namespace Sys2Proof.Machine

section
variable {s : State}

/-- The stored settings load: the copy that stands, the record of what was skipped, and the archive's and the annex's start. -/
theorem exec_configStoreLoaded_prompt (hp : s.node.sys.phase = .prompt) (ha : s.node.awake = true) {i j k w : Node} {cp gen len flags : Nat}
    (hi : s.node.loadAll = i)
    (hcopy : (∀ c, s.node.standing = some c → (c, (i.copy c).gen, (i.copy c).len) = (cp, gen, len)) ∧
      (s.node.standing = none → (2, 0, 0) = (cp, gen, len)))
    (hj : i.setFds [(Fd.SYS_STORE_COPY, cp), (Fd.SYS_STORE_LEN, len), (Fd.SYS_STOREGEN_GEN, gen), (Fd.SYS_STORE_DIRTY, 0)] = j)
    (hk : (if s.node.standing = none then (j.setOn Fd.SYS_EVT_STOREDEF true).ring 8 else j) = k)
    (hflags : (if (s.node.copy 0).valid = true then 0 else 1) + (if (s.node.copy 1).valid = true then 0 else 2) +
      (if i.running = s.node.image then 0 else 4) = flags)
    (hw : (if flags = 0 then k else
      k.raise 0x0C2 ([BitVec.ofNat 8 cp, BitVec.ofNat 8 flags] ++ bytesLE 4 gen ++ bytesLE 2 len) 0 helpCore).ring 10 = w) :
    exec .configStoreLoaded s = becomes s (Node.arcStart { w with sys := { w.sys with phase := .loaded } }).bootBegin := by
  have hin : ¬ (s.node.sys.phase != .prompt || !s.node.awake) = true := by simp [hp, ha]
  have hskip : (if (i.running != s.node.image) = true then 4 else 0) = if i.running = s.node.image then 0 else 4 := by
    by_cases h : i.running = s.node.image
    · simp [h]
    · simp [h]
  rw [exec_configStoreLoaded, execConfigStoreLoaded, lift_becomes, if_neg hin]
  dsimp only
  cases hst : s.node.standing with
  | none =>
    obtain ⟨rfl, rfl, rfl⟩ : 2 = cp ∧ 0 = gen ∧ 0 = len := by simpa using hcopy.2 hst
    rw [if_pos hst] at hk
    simp only [hi, hj, hskip, hflags, Option.isNone_none, if_true, hk, hw]
  | some c =>
    obtain ⟨rfl, rfl, rfl⟩ : c = cp ∧ (i.copy c).gen = gen ∧ (i.copy c).len = len := by simpa using hcopy.1 c hst
    rw [if_neg (by simp [hst])] at hk
    simp only [hi, hj, hskip, hflags, Option.isNone_some, Bool.false_eq_true, if_false, hk, hw]

end

/-- Settles O48: each event's hypotheses are its conditions. -/
theorem startEvents : Obligations.StartEvents := by
  intro s n hn
  subst hn
  refine ⟨fun hp => ?_, fun hp => ?_, fun hp hk => (exec_powerFailRestart s).trans (lift_of_pos (by simp [hp, hk])),
    fun k hk => ⟨fun hph hpow => ?_, fun hph hpow => ?_, fun h => ?_⟩, fun ha => (exec_nodeCoreWatchdog s).trans (lift_of_pos ha),
    fun ha => (exec_coreUndervoltage s).trans (lift_of_pos ha), fun hr hph hp => ?_, fun t ha hp hd ht => ?_, fun hph hp k j hk hj => ?_,
    fun hp ha i j k cp gen len flags hi hcopy hj hk hflags w hw => ?_⟩
  · rw [exec_powerOn, execPowerOn, lift_becomes, if_pos hp]
  · rw [exec_powerOn, execPowerOn, lift_becomes, if_neg hp]
  · have hd : s.node.sys.power ≠ .dormant := by obtain h | h := hpow <;> rw [h] <;> decide
    have hin : ¬ (decide (s.node.sys.power = .off) || decide (s.node.sys.power = .powerfail) || decide (s.node.sys.phase = .por)) = true := by
      obtain h | h := hpow <;> simp [h, hph]
    rw [exec_resetPin, execResetPin, lift_becomes]
    dsimp only
    rw [if_neg hin, if_neg hd, hk]
  · have hin : ¬ (decide (s.node.sys.power = .off) || decide (s.node.sys.power = .powerfail) || decide (s.node.sys.phase = .por)) = true := by
      simp [hpow, hph]
    rw [exec_resetPin, execResetPin, lift_becomes]
    dsimp only
    rw [if_neg hin, if_pos hpow, hk]
  · have hin : (decide (s.node.sys.power = .off) || decide (s.node.sys.power = .powerfail) || decide (s.node.sys.phase = .por)) = true := by
      simp only [Bool.or_eq_true, decide_eq_true_eq]
      tauto
    rw [exec_resetPin, execResetPin, lift_becomes]
    dsimp only
    rw [if_pos hin, hk]
  · rw [exec_resetNRelease, execResetNRelease, lift_becomes]
    exact congrArg (becomes s) (if_pos (by simp [hr, hph, hp]))
  · rw [exec_nodeResetDrainEnd, execNodeResetDrainEnd, lift_becomes, hd]
    exact congrArg (becomes s) (if_pos (by simp [ha, hp, ht]))
  · have hin : (decide (s.node.sys.phase = .starting) && decide (s.node.sys.power = .full)) = true := by simp [hph, hp]
    subst hk hj
    exact (exec_firstPrompt s).trans (lift_of_pos hin)
  · refine exec_configStoreLoaded_prompt hp ha hi ⟨fun c hc => ?_, fun hc => ?_⟩ hj hk hflags hw
    · simpa only [hc] using hcopy
    · simpa only [hc] using hcopy

end Sys2Proof.Machine
end

/-! ### O49: power and reset -/

section
namespace Sys2Proof.Machine

section
variable {s : State} {m : Moment} {mv : Nat}

/-- HOLDOK as the supply's voltage makes it, with its hysteresis (R423). -/
theorem exec_holdokChange_changed (ha : s.node.awake = true) {now : Bool} {k : Node}
    (hnow : (if s.node.on Fd.SYS_PWRSTAT_HOLDOK then decide (30000 ≤ mv) else decide (32000 ≤ mv)) = now)
    (hne : now ≠ s.node.on Fd.SYS_PWRSTAT_HOLDOK)
    (hk : (((s.node.setFd Fd.SYS_HOLD_MV mv).setOn Fd.SYS_PWRSTAT_HOLDOK now).ring 2).setOn
      (if now then Fd.SYS_EVT_HOLDOK else Fd.SYS_EVT_HOLDLOST) true = k) :
    exec (.holdokChange mv m) s = becomes s (k.raiseM 0x0C3 ((if now then 1#8 else 0#8) :: bytesLE 2 mv) m helpCore) := by
  have hprop : (if s.node.on Fd.SYS_PWRSTAT_HOLDOK = true then 30000 ≤ mv else 32000 ≤ mv) = (now = true) := by
    rw [← hnow]
    split <;> simp
  subst hk
  rw [exec_holdokChange, execHoldokChange, lift_becomes, if_neg (by simp [ha])]
  dsimp only
  simp only [hprop]
  have hold : ¬ ((s.node.on Fd.SYS_PWRSTAT_HOLDOK = true) = (now = true)) := fun h => hne (Bool.eq_iff_iff.mpr h.symm.to_iff)
  rw [if_neg hold]
  simp only [Bool.decide_eq_true]

/-- A node that is awake is not in DORMANT, so the warning finds it running. -/
theorem exec_powerFailWarning_awake (ha : s.node.awake = true) (hp : s.node.sys.power ≠ .powerfail) {v w spent : Nat} :
    exec (.powerFailWarning v w spent m) s = becomes s (s.node.powerFail v w m) := by
  obtain ⟨hpor, hoff⟩ := Node.rings_of_awake ha
  refine (exec_powerFailWarning s v w spent m).trans ((lift_of_neg (by simp [hpor, hoff, hp])).trans (congrArg (becomes s) ?_))
  cases hpow : s.node.sys.power with
  | dormant => cases hph : s.node.sys.phase <;> simp [Node.awake, hph, hpow] at ha
  | off => exact absurd hpow hoff
  | full => rfl
  | quiet => rfl
  | powerfail => exact absurd hpow hp

end

/-- Settles O49: each event's hypotheses are its conditions. -/
theorem powerEvents : Obligations.PowerEvents := by
  intro s n m rq hn
  subst hn
  refine ⟨fun ha => ⟨(exec_pcmdQuiet s rq).trans (lift_of_pos ha), (exec_pcmdFull s rq).trans (lift_of_pos ha),
      (exec_pcmdDormant s rq).trans (lift_of_pos ha), fun mv now k hnow hne hk => exec_holdokChange_changed ha hnow hne hk,
      fun margin spare hph hat => (exec_avsStep s margin spare).trans (lift_of_pos (by simpa [ha, hph] using hat)), fun hp v w spent => ?_,
      fun hc hat => (exec_pwrcycPulseEnd s).trans (lift_of_pos (by simp [ha, hc, hat])),
      fun hp hc hat => (exec_pwrcycSelfReset s).trans (lift_of_pos (by simp [ha, hp, hc, hat]))⟩,
    fun z hz => ⟨fun ha hst hpa hq hv hp k hk => ?_, fun h => ?_, fun spent ha hph hd hp hv => ?_, fun hp ht hv => ?_,
      fun spent hp hph hv => ?_, fun v w spent hp hph => ?_⟩, fun hp => ⟨fun hg hat k hk => ?_, fun hold k hk hr => ?_⟩⟩
  · exact exec_powerFailWarning_awake ha hp
  · subst hk
    rw [exec_dormantEntryComplete, execDormantEntryComplete, lift_becomes, hz]
    exact congrArg (becomes s) (if_pos (by simp [ha, hst, hpa, hq, hv, hp]))
  · rw [exec_dormantEntryComplete, execDormantEntryComplete, lift_becomes, hz]
    refine congrArg (becomes s) (if_neg fun hall => ?_)
    simp only [Bool.and_eq_true, decide_eq_true_eq, Bool.not_eq_true'] at hall
    obtain ⟨⟨⟨⟨⟨-, hst⟩, hpa⟩, hq⟩, hv⟩, -⟩ := hall
    simp [hst, hpa, hq, hv] at h
  · rw [exec_watchUnitWake, execWatchUnitWake, lift_becomes, hz]
    dsimp only
    rw [if_neg (by simp [hv, hph]), if_neg hd, if_pos (by simp [ha, hp])]
  · rw [exec_dormantTimerExpiry, execDormantTimerExpiry, lift_becomes, hz]
    exact congrArg (becomes s) (if_pos (by simp [hp, ht, hv]))
  · rw [exec_watchUnitWake, execWatchUnitWake, lift_becomes, hz]
    dsimp only
    rw [if_neg (by simp [hv, hph]), if_pos hp]
  · refine (exec_powerFailWarning s v w spent m).trans ((lift_of_neg (by simp [hp, hph])).trans (congrArg (becomes s) ?_))
    simp only [hp, hz]
  · subst hk
    exact (exec_agraceExpiry s m).trans (lift_of_pos (by simp [hp, hg, hat]))
  · subst hk
    refine (exec_park s hold m).trans ((lift_of_neg (by simp [hp])).trans (congrArg (becomes s) ?_))
    exact if_pos (by simpa using hr)

end Sys2Proof.Machine
end

/-! ### O50: the command ports -/

section
namespace Sys2Proof.Machine

@[simp] theorem Node.rxMark_on (n : Node) (p : Port) (m : Moment) (f : Fd) : (n.rxMark p m).on f = n.on f :=
  rfl

section
variable {s : State} {p : Port} {m : Moment}

theorem exec_characterReceived_good (hh : s.node.hears p = true) (ha : s.node.on Fd.CMD_HOSTCFG_ARMED = false) {ch : RxChar}
    (hs : ch.stopOk = true) (hp : ch.parityOk = true) :
    exec (.characterReceived p ch m) s = becomes s (((s.node.rxMark p m).setPort p
      { (s.node.rxMark p m).port p with frameRun := 0 }).charIn p (ch.code % 256) m) := by
  have harm : ¬ (decide (p = .host) && (s.node.rxMark p m).on Fd.CMD_HOSTCFG_ARMED) = true := by simp [ha]
  rw [exec_characterReceived, execCharacterReceived, lift_becomes]
  dsimp only
  rw [if_neg (by simp [hh]), if_neg harm, if_neg (by simp [hs, hp])]

theorem exec_characterReceived_bad (hh : s.node.hears p = true) (ha : s.node.on Fd.CMD_HOSTCFG_ARMED = false) {ch : RxChar}
    (hs : ch.stopOk = false) : exec (.characterReceived p ch m) s = becomes s ((s.node.rxMark p m).charBad p) := by
  have harm : ¬ (decide (p = .host) && (s.node.rxMark p m).on Fd.CMD_HOSTCFG_ARMED) = true := by simp [ha]
  rw [exec_characterReceived, execCharacterReceived, lift_becomes]
  dsimp only
  rw [if_neg (by simp [hh]), if_neg harm, if_pos (by simp [hs])]

theorem exec_characterReceived_armed (hh : s.node.hears .host = true) (ha : s.node.on Fd.CMD_HOSTCFG_ARMED = true) {ch : RxChar} :
    exec (.characterReceived .host ch m) s = becomes s ((s.node.rxMark .host m).autoBaud ch) := by
  rw [exec_characterReceived, execCharacterReceived, lift_becomes]
  dsimp only
  rw [if_neg (by simp [hh]), if_pos (by simp [ha])]

theorem exec_lineReceived_hears (hh : s.node.hears p = true) (ha : s.node.on Fd.CMD_HOSTCFG_ARMED = false) {cs : List Nat}
    (hp : p = .host ∨ p = .service) : exec (.lineReceived p cs m) s = becomes s
      ((cs ++ [13]).foldl (fun (k : Node) (c : Nat) => k.charIn p c m) (s.node.rxMark p m)) := by
  rw [exec_lineReceived, execLineReceived, lift_becomes]
  obtain rfl | rfl := hp
  · exact congrArg (becomes s) (if_pos (by simp [hh, ha]))
  · exact congrArg (becomes s) (if_pos hh)

end

/-- Settles O50: each event's hypotheses are its conditions. -/
theorem portEvents : Obligations.PortEvents := by
  intro s n p m hn
  subst hn
  refine ⟨fun hh ha => ⟨fun ch hs hp => exec_characterReceived_good hh ha hs hp, fun ch hs => exec_characterReceived_bad hh ha hs,
      fun cs hp => exec_lineReceived_hears hh ha hp⟩, fun ch hh ha => exec_characterReceived_armed hh ha,
    fun cs => ⟨exec_lineReceived s .bus cs m, exec_lineReceived s .annex cs m⟩, fun hs => (exec_characterSent s p).trans (lift_of_pos hs),
    fun ha hu hphy ho ht => (exec_hostDeTurnaround s m).trans (lift_of_pos (by simp [ha, hu, hphy, ho, ht])),
    fun ha => ⟨fun hp => ?_, fun r hr => ⟨fun hag he ho => ?_, fun t ht hat hag => ?_⟩,
      fun hl hlen => (exec_lostNotice s p).trans (lift_of_pos (by simp [ha, hl, hlen])), fun i t items pubs hst hf h0 hph ss hss => ?_,
      fun c hc ht => ?_, fun o idx => ⟨(exec_leaseTimeExpiry s p o idx).trans (lift_of_pos ha),
        (exec_leaseSilenceExpiry s p o idx).trans (lift_of_pos ha)⟩⟩,
    fun hl => ⟨fun hs => (exec_hostHeartbeatExpiry s m).trans (lift_of_pos (by simp [hl, hs])), fun r hr hp hw hps r' hr' => ?_⟩⟩
  · exact (exec_portSettingsTakeEffect s p).trans (lift_of_pos (by simpa [ha] using hp))
  · rw [exec_storedReplyResend, execStoredReplyResend, lift_becomes]
    dsimp only
    rw [hr]
    dsimp only
    rw [if_neg (by simp [ha, hag, ho, Option.isNone_iff_eq_none, Option.isSome_iff_ne_none.mp he])]
  · rw [exec_storedReplyExpiry, execStoredReplyExpiry, lift_becomes]
    dsimp only
    rw [hr]
    dsimp only
    rw [ht]
    exact congrArg (becomes s) (if_pos (by simp [ha, hat, hag]))
  · rw [exec_streamEmit, execStreamEmit, lift_becomes]
    dsimp only
    rw [hst]
    dsimp only
    rw [hf]
    dsimp only
    rw [if_neg (by simp [ha, h0, hph]), hss]
  · rw [exec_confirmationExpiry, execConfirmationExpiry, lift_becomes]
    dsimp only
    rw [hc]
    exact congrArg (becomes s) (if_pos (by simp [ha, ht]))
  · subst hr'
    rw [exec_microRoutineResume, execMicroRoutineResume, lift_becomes, hr]
    dsimp only
    rw [if_neg (by simp [hl, hp, hw]), if_neg (by simp [hps])]

end Sys2Proof.Machine
end

/-! ### O60: the reset state and the first start -/

section
namespace Sys2Proof.Machine

/-- After the first start the cause POR stands in RSTCAUSE; every other register is still at its reset value. -/
theorem firstStart_reg : (State.reset.node.powerUp 1).reg = [(Ad.SYS_RSTCAUSE, 1#32)] := by
  decide

theorem firstStart_rd (a : Nat) : (State.reset.node.powerUp 1).rd a = if Ad.SYS_RSTCAUSE = a then 1#32 else resetWord a := by
  rw [Node.rd, firstStart_reg]
  rfl

theorem exec_powerOn_reset : exec .powerOn State.reset = becomes State.reset (State.reset.node.powerUp 1) := by
  rw [exec_powerOn, execPowerOn, lift_becomes]
  exact congrArg (fun n : Node => becomes State.reset (n.powerUp 1)) (if_pos rfl)

/-- Settles O60: nothing is listed at reset, so every register reads its row's value; POWER_ON then sets RSTCAUSE alone. -/
theorem resetState : Obligations.ResetState := by
  refine ⟨fun _ => rfl, rfl, rfl, rfl, rfl, fun _ => ⟨rfl, rfl, rfl⟩, by decide, _, exec_powerOn_reset, rfl, rfl, ?_, rfl, fun a ha => ?_⟩
  · exact (firstStart_rd _).trans (if_pos rfl)
  · exact (firstStart_rd a).trans (if_neg ha.symm)

end Sys2Proof.Machine
end
